-- ==== Sys2Proof/Word.lean ====
section
/-! DEFINITION. The word types of the GX3200 model and the shape of its sparse tables; the bit-field helpers are in Machine/Bits.lean. -/

namespace Sys2Proof

/-- One byte. -/
abbrev Byte := BitVec 8

/-- A 64-bit register, packet or descriptor word (R6). -/
abbrev Word := BitVec 64

/-- Sparse data by key: the state of a numbered array of like things. -/
abbrev Tbl (α : Type) := List (Nat × α)

end Sys2Proof
end

