-- ==== Sys2Proof/Syntax.lean ====
section
/-! DEFINITION. The commands of the block: every row of the opcode table, with the operands its event carries. -/

namespace Sys2Proof

/-- A fabric packet (R17, R20): the fields of its 32-byte header, and its payload. `resv` gathers the header's reserved bits. -/
structure Packet where
  typ : Nat := 0
  vc : Nat := 0
  tc : Nat := 0
  flow : Nat := 0
  dclass : Nat := 0
  cmark : Nat := 0
  poison : Bool := false
  order : Bool := false
  status : Nat := 0
  ksel : Nat := 0
  fas : Nat := 0
  tag : Nat := 0
  fmt : Nat := 0
  addr : Nat := 0
  sx : Nat := 0
  sy : Nat := 0
  sp : Nat := 0
  se : Nat := 0
  fence : Nat := 0
  role : Nat := 0
  hopidx : Nat := 0
  hopcnt : Nat := 0
  rop : Nat := 0
  len : Nat := 0
  route : Nat := 0
  payload : List Byte := []
  /-- posted (R32, R140): no header bit; the model carries it so that the target sends no answer but a NACK -/
  posted : Bool := false
  /-- a Coppice copy at a shadow (R526): no header bit; every answer to it is discarded -/
  mute : Bool := false
  deriving DecidableEq, Repr

/-- A Zaralos message (R59, R60): header fields and payload. `resv` is the number that its reserved bits spell. -/
structure ZMsg where
  ztype : Nat := 0
  vc : Nat := 0
  tc : Nat := 0
  flow : Nat := 0
  dclass : Nat := 0
  poison : Bool := false
  order : Bool := false
  status : Nat := 0
  fmt : Nat := 0
  rop : Nat := 0
  fas : Nat := 0
  ztag : Nat := 0
  ctx : Nat := 0
  len : Nat := 0
  wtoken : Nat := 0
  addr : Nat := 0
  rqid : Nat := 0
  win : Nat := 0
  resv : Nat := 0
  payload : List Byte := []
  deriving DecidableEq, Repr

/-- A command packet (R402) as its partner sent it: header fields, and the parameter bytes. `resv` gathers the reserved header bits. -/
structure Cmd where
  version : Nat := 1
  partner : Nat := 0
  reply : Bool := false
  event : Bool := false
  retry : Bool := false
  resv : Nat := 0
  opcode : Nat := 0
  seq : Nat := 0
  plen : Nat := 0
  word1 : Nat := 0
  params : List Byte := []
  /-- of the frame that carried it on a management port: its source MAC address, which MGMT_FRAME_RECEIVE sets, and its 802.1Q tag (R399) -/
  src : Nat := 0
  tag : Option Nat := none
  deriving DecidableEq, Repr

/-- What a poll reads of a regulator (R478, R480): 0 and the words of READ_IOUT and READ_VOUT, with VOUT_MODE where it is due; or how it fails: 1 NACK,
2 PEC, 3 SCL held low, 4 SDA low before START. -/
structure PollRead where
  st : Nat := 1
  iout : Nat := 0
  vout : Nat := 0
  vmode : Nat := 0
  deriving DecidableEq, Repr

/-- What a lane shows in EQ (R338, R345): its eye opening, and the COEF_REQs of the partner's frames for its transmitter, oldest first. -/
structure LaneEq where
  eye : Nat
  reqs : List Nat := []
  deriving DecidableEq, Repr

/-- What a physical lane shows in ALIGN (R342, R343): the LANE and SLOT fields of its frames, and the levels of its last four comma positions. -/
structure LaneSeen where
  lane : Nat
  slot : Nat := 0
  commas : List (List Nat) := []
  deriving DecidableEq, Repr

/-- The commands (one constructor per row of the opcode table). -/
inductive Instr where
  /-- 0 to 10. PKG_RESET_DEASSERT carries what Kindling finds of image slots A and B: 0 signature, 1 security version, 2 read, 3 accepted -/
  | supplyApply
  | supplyBrownout
  | coldReset
  | pkgResetDeassert (a b : Nat)
  /-- The stacks whose training fails, each with the failing step -/
  | cloentimStart (failed : List (Nat × Nat))
  | bootUnitsDone
  | bootSlow
  /-- Host port `h`: by PERST_N, or by a hot reset or link down -/
  | hostPortReset (h : Nat) (perst : Bool)
  | tapReset
  /-- 0 loss of lock, 1 REFCLK absent -/
  | rootUnlock (cause : Nat)
  | rootRelock
  /-- 11 NOP -/
  | nop (c : Cmd)
  | ident (c : Cmd)
  | ticketQuery (c : Cmd)
  /-- A command packet with the Ember opcode, and the port it arrived on -/
  | ember (port : Nat) (c : Cmd)
  /-- The miss timer of a management port expires, or (`down`) its link goes down -/
  | emberMiss (port : Nat) (down : Bool)
  | cmdServiceStrict (c : Cmd)
  | cmdServiceRoundRobin (c : Cmd)
  | regRead (c : Cmd)
  | regWrite (c : Cmd)
  /-- A host BAR write: host port, address, length in bytes, value -/
  | registerWrite (hp addr len val : Nat)
  /-- A frame on a management port: EtherType, source MAC, destination MAC, bytes of packet carried, the packet -/
  | mgmtFrameReceive (port ety src dst len : Nat) (c : Cmd)
  /-- A write of REQ_TAIL by host port `hp` -/
  | mboxCommit (hp tail : Nat)
  | mboxRspHeadWrite (head : Nat)
  | mboxEnable (ctrl : Nat)
  /-- A command reaches the queue of its partner (management port or sideband) -/
  | commandArrive (partner : Nat) (c : Cmd)
  /-- Cloentim takes the next command; `mb` is what the mailbox slot holds when the command is the mailbox's; `ext` the words it reads of host memory -/
  | commandTake (mb : Cmd) (ext : List (List Word))
  /-- The reply of the oldest refused command is placed -/
  | refusalReply
  /-- 28 to 31 -/
  | resetUnitPulse (c : Cmd)
  | resetUnitAssert (c : Cmd)
  | resetUnitRelease (c : Cmd)
  | bootStatus (c : Cmd)
  /-- 32 to 47: Zaralos messages at EPB `n` -/
  | zIdent (n : Nat) (m : ZMsg)
  | zLoad (n : Nat) (m : ZMsg) (ue : Bool)
  | zStore (n : Nat) (m : ZMsg)
  | zAtomicAdd (n : Nat) (m : ZMsg)
  | zAtomicMin (n : Nat) (m : ZMsg)
  | zAtomicMax (n : Nat) (m : ZMsg)
  | zCas (n : Nat) (m : ZMsg)
  | zReduce (n : Nat) (m : ZMsg)
  | zAcquire (n : Nat) (m : ZMsg)
  | zRelease (n : Nat) (m : ZMsg)
  | zFence (n : Nat) (m : ZMsg)
  | zDoorbell (n : Nat) (m : ZMsg)
  | zResume (n : Nat) (m : ZMsg)
  | zTgtRsp (n : Nat) (m : ZMsg)
  /-- The EPB sends the oldest translated target request that has not been sent -/
  | zTgtSend (n : Nat)
  /-- The timer of target request `i` of the EPB's list -/
  | tgtTimeout (n i : Nat)
  /-- End of a heat period -/
  | heatPeriod (n : Nat)
  | heatCtrlDisable (n : Nat)
  /-- Waiting request `i` of the unit at logical port `u` -/
  | tagFreeIssue (u i : Nat)
  | admission (u i : Nat)
  /-- Walk `w` of the EPB's list ends; `ext`: the words that its reads of host memory returned -/
  | walkComplete (n w : Nat) (ext : List Word)
  /-- The walker starts a prefetch for engine `e` (0–7) of the page of segment offset `off` of its descriptor, source or destination -/
  | prefetchStart (n e off : Nat) (dst : Bool)
  | xlateInval (c : Cmd)
  /-- The drain of the XLATE_INVAL that holds this ticket ends -/
  | xlateInvalDrainDone (ticket : Nat)
  /-- Head of the ingress list `k` (a port's, or an optical channel's), on channel `v` -/
  | packetIngress (k v : Nat)
  /-- Waiting copy `i` joins its egress -/
  | packetEnqueue (i : Nat)
  /-- A dispatch opportunity of egress `p`; `ecc` what the buffer's ECC finds (0: clean) -/
  | egressDispatch (p ecc : Nat)
  /-- The last cell of copy `i` in transmission is read out -/
  | packetTransmitDone (i : Nat)
  /-- Optical link `l` -/
  | holdDeadline (l : Nat)
  | linkAdminSet (l : Nat)
  | linkAdminClear (l : Nat)
  | mirrorBurstWrite (die : Nat)
  | mirrorBurstDone
  /-- The value written to HUB_MIRRING.CTRL -/
  | mirrorRingEnable (ctrl : Nat)
  /-- 66 to 76: a request packet at target port `e`; `ue`: the HBM controller loses the state of this request, or an EPB the
  window that it matches (R429) -/
  | load (e : Nat) (p : Packet) (ue : Bool)
  | store (e : Nat) (p : Packet) (ue : Bool)
  | atomicAdd (e : Nat) (p : Packet)
  | atomicMin (e : Nat) (p : Packet)
  | atomicMax (e : Nat) (p : Packet)
  | cas (e : Nat) (p : Packet)
  | reduceStore (e : Nat) (p : Packet)
  | acquire (e : Nat) (p : Packet)
  | release (e : Nat) (p : Packet)
  | fence (e : Nat) (p : Packet)
  | doorbell (e : Nat) (p : Packet)
  /-- 77 to 81: a response packet at issuing unit `u` -/
  | loadRsp (u : Nat) (p : Packet)
  | ack (u : Nat) (p : Packet)
  | atomicRsp (u : Nat) (p : Packet)
  | fswRsp (u : Nat) (p : Packet)
  | nack (u : Nat) (p : Packet)
  /-- Tag `i` of unit `u` -/
  | fenceComplete (u i : Nat)
  | deadBoundSweep
  /-- 84 to 89: EPB `n` -/
  | rateIncrease (n : Nat)
  | ccEnable (n : Nat)
  | epbRoleWrite (n v : Nat)
  | hubFenceWrite (v : Nat)
  | rrcInval (n : Nat)
  | rrcDisable (n : Nat)
  /-- Ring `r` of EPB `n`: the new TAIL, by a register write from a host BAR or another one -/
  | ringCommit (n r tail : Nat) (bar : Bool)
  /-- A STORE packet to a push window of EPB `n` -/
  | pushStore (n : Nat) (p : Packet)
  /-- A free engine of EPB `n` looks for an item; `ext`: host-memory words its reads return, by GFA; `ue`: the state of the item is lost (R429) -/
  | engineStart (n : Nat) (ext : List (Nat × List (BitVec 64))) (ue : Bool)
  /-- Engine `e` of EPB `n`: its next segment; `xs`, `xd`: words that the walks' host reads return -/
  | segmentIssue (n e : Nat) (xs xd : List (BitVec 64))
  | descriptorPark (n e : Nat)
  | itemComplete (n e : Nat)
  | ringFlush (c : Cmd)
  | ringCtrlOpen (c : Cmd)
  | ringCtrlRun (c : Cmd)
  | ringCtrlClose (c : Cmd)
  /-- `ext`: for each thread that resumes, in thread order, the words that its walk's reads of host memory returned -/
  | faultResume (c : Cmd) (ext : List (List (BitVec 64)))
  /-- A PCI Express request `id` at host port `h`, as the fabric request it spells -/
  | hostPcieRequest (h id typ gfa len : Nat) (relaxed : Bool) (payload : List Byte)
  /-- The completion of host port target request `id` -/
  | hostCompletion (h id : Nat) (ok poison : Bool) (data : List Byte)
  | hostCompletionTimeout (h id : Nat)
  | hostD3hot (h : Nat)
  | hostD0 (h : Nat)
  | schedModeNormal (c : Cmd)
  | schedModeStrict (c : Cmd)
  | queueSet (c : Cmd)
  /-- 109 to 116 -/
  | spnProgLoad (c : Cmd)
  /-- The load of a ticket ends -/
  | progLoadDone (ticket : Nat)
  | spnThreadStart (c : Cmd)
  | spnThreadStop (c : Cmd)
  | spnThreadSetrole (c : Cmd)
  /-- Target context `m` of cluster `n`: a write of ROLE = `v` -/
  | spnCtxRoleWrite (n m v : Nat)
  /-- Thread `t` of core `k` -/
  | remoteAccessComplete (k t : Nat)
  | waitcMet (k t : Nat)
  /-- 117 to 197: thread `t` of core `k` issues the instruction at its PC; `ue`: the thread's state is lost to an uncorrectable error
  (R429); `ext`: words that the walk's reads of host memory returned -/
  | add (k t : Nat) (ue : Bool)
  | sub (k t : Nat) (ue : Bool)
  | mul (k t : Nat) (ue : Bool)
  | and (k t : Nat) (ue : Bool)
  | or (k t : Nat) (ue : Bool)
  | xor (k t : Nat) (ue : Bool)
  | shl (k t : Nat) (ue : Bool)
  | shr (k t : Nat) (ue : Bool)
  | sra (k t : Nat) (ue : Bool)
  | min (k t : Nat) (ue : Bool)
  | max (k t : Nat) (ue : Bool)
  | minu (k t : Nat) (ue : Bool)
  | maxu (k t : Nat) (ue : Bool)
  | addi (k t : Nat) (ue : Bool)
  | andi (k t : Nat) (ue : Bool)
  | ori (k t : Nat) (ue : Bool)
  | xori (k t : Nat) (ue : Bool)
  | shli (k t : Nat) (ue : Bool)
  | shri (k t : Nat) (ue : Bool)
  | srai (k t : Nat) (ue : Bool)
  | li (k t : Nat) (ue : Bool)
  | lui (k t : Nat) (ue : Bool)
  | rdsys (k t : Nat) (ue : Bool)
  | vadd (k t : Nat) (ue : Bool)
  | vsub (k t : Nat) (ue : Bool)
  | vmul (k t : Nat) (ue : Bool)
  | vfma (k t : Nat) (ue : Bool)
  | vmin (k t : Nat) (ue : Bool)
  | vmax (k t : Nat) (ue : Bool)
  | vand (k t : Nat) (ue : Bool)
  | vor (k t : Nat) (ue : Bool)
  | vxor (k t : Nat) (ue : Bool)
  | vperm (k t : Nat) (ue : Bool)
  | vcvt (k t : Nat) (ue : Bool)
  | vadds (k t : Nat) (ue : Bool)
  | vmuls (k t : Nat) (ue : Bool)
  | vfmas (k t : Nat) (ue : Bool)
  | vmins (k t : Nat) (ue : Bool)
  | vmaxs (k t : Nat) (ue : Bool)
  | vsplat (k t : Nat) (ue : Bool)
  | vext (k t : Nat) (ue : Bool)
  | vins (k t : Nat) (ue : Bool)
  | peq (k t : Nat) (ue : Bool)
  | pne (k t : Nat) (ue : Bool)
  | plt (k t : Nat) (ue : Bool)
  | ple (k t : Nat) (ue : Bool)
  | pseq (k t : Nat) (ue : Bool)
  | pslt (k t : Nat) (ue : Bool)
  | pult (k t : Nat) (ue : Bool)
  | pand (k t : Nat) (ue : Bool)
  | por (k t : Nat) (ue : Bool)
  | pnot (k t : Nat) (ue : Bool)
  | pall (k t : Nat) (ue : Bool)
  | lds (k t : Nat) (ue : Bool)
  | sts (k t : Nat) (ue : Bool)
  | ldv (k t : Nat) (ue : Bool)
  | stv (k t : Nat) (ue : Bool)
  | ldp (k t : Nat) (ue : Bool)
  | stp (k t : Nat) (ue : Bool)
  | rlds (k t : Nat) (ue : Bool) (ext : List (BitVec 64))
  | rsts (k t : Nat) (ue : Bool) (ext : List (BitVec 64))
  | rldv (k t : Nat) (ue : Bool) (ext : List (BitVec 64))
  | rstv (k t : Nat) (ue : Bool) (ext : List (BitVec 64))
  | ratom (k t : Nat) (ue : Bool) (ext : List (BitVec 64))
  | rred (k t : Nat) (ue : Bool) (ext : List (BitVec 64))
  | rmove (k t : Nat) (ue : Bool) (ext : List (BitVec 64))
  | rfetch (k t : Nat) (ue : Bool) (ext : List (BitVec 64))
  | rmcast (k t : Nat) (ue : Bool) (ext : List (BitVec 64))
  | xclr (k t : Nat) (ue : Bool)
  | xacc (k t : Nat) (ue : Bool)
  | xnarr (k t : Nat) (ue : Bool)
  | xseed (k t : Nat) (ue : Bool)
  | xsave (k t : Nat) (ue : Bool)
  | xrest (k t : Nat) (ue : Bool)
  | br (k t : Nat) (ue : Bool)
  | jr (k t : Nat) (ue : Bool)
  | call (k t : Nat) (ue : Bool)
  | waitc (k t : Nat) (ue : Bool)
  | yield (k t : Nat) (ue : Bool)
  | halt (k t : Nat) (ue : Bool)
  | nopInstruction (k t : Nat) (ue : Bool)
  /-- 198 to 203: entry `i` of EPB `n`; counter `c` -/
  | toArm (n i : Nat)
  | toDisarm (n i : Nat)
  | nctrAdd (n c v : Nat)
  | triggeredOpStart (n : Nat) (ue : Bool)
  | triggeredOpComplete (n i : Nat)
  | toWatchdog (n i : Nat)
  /-- 204 to 208: stack `k`, granule `g` -/
  | hbmRegionSet (c : Cmd)
  | granuleDrained (k g : Nat)
  | granuleZeroed (k g : Nat)
  | scrubStep (k : Nat)
  | controllerZeroFillDone (k : Nat)
  /-- 209 to 215: units found uncorrectable `ue`; the channel, the retired block's number and the units it takes with it; the slot `key` -/
  | rickWrite (c : Cmd)
  | rickSeal (c : Cmd)
  | rickRead (c : Cmd)
  | rickDelete (c : Cmd)
  | rickCmdComplete (ticket : Nat) (ue : List Nat)
  | nandProgramFail (ch block lost : Nat)
  | fillComplete (key : Nat) (ue : List Nat)
  | rsvHeatPeriod
  | promotionScan
  | rsvStreamStart (c : Cmd)
  | rsvStreamStop (c : Cmd)
  /-- 220 to 223: stream `i` -/
  | sequenceCurrent (i : Nat)
  | partEmit (i : Nat)
  | sequenceDone (i : Nat)
  | streamDrained (i : Nat)
  /-- 224, 225: units programmed since; channels up, torn units (object and unit), free units, and TARGETS and LUNS of the population -/
  | journalWrite (ticket units : Nat)
  | rickRecovery (up : Nat) (torn : List (Nat × Nat)) (free targets luns : Nat)
  | rickQuenchSignal
  | rickProgramsEnded
  | rickQuenchProgTimeout
  | rickJournalWritten
  /-- 230 to 251: link `n`. EYE of the lanes, and the COEF_REQs received in EQ with their lanes; errors per lane, and whether the partner
  passed; what each physical lane shows; the partner's LINK_ID and RESUME; the codeword; the lane; the pool; the failure's cause -/
  | linkEnWrite (n v : Nat)
  | linkEnergyDetect (n : Nat)
  | cdrLock (n : Nat)
  | eqDone (n : Nat) (lanes : List LaneEq)
  | prbsPass (n : Nat) (errs : List Nat) (partner : Bool)
  | aligned (n : Nat) (seen : List LaneSeen) (partner : Bool)
  | linkUp (n peer resume : Nat)
  | trainTimeout (n : Nat)
  /-- The attach or optical link, the physical lane of the slot, and its 1,168 PAM4 levels, comma first -/
  | codewordReceive (n j : Nat) (levels : List Nat)
  | alignmentLoss (n j : Nat)
  | replayTimer (n : Nat)
  | creditUpdateSend (n : Nat)
  | creditReturnFailure (n pool : Nat)
  | linkRetrain (n : Nat)
  | linkFailureEvent (n cause : Nat)
  | linkStateDiscard (n : Nat)
  | txqEnter (n : Nat)
  | txqWake (n : Nat)
  | txWakeDone (n : Nat)
  | rxqEnergy (n : Nat)
  | relockDone (n : Nat)
  | relockTimeout (n : Nat)
  /-- 252 to 261: optical link `l`, group `g`, bus `b`, ring `r`, chiplet `c`. The burst's first slot and those after it, as for CODEWORD_RECEIVE; the dips found
  (heater code and depth); the dither's error and its moved set point; the line power -/
  | burstReceive (l : Nat) (first : List Nat) (cws : List (List Nat))
  | darkTimeout (l : Nat)
  | visitSend (l : Nat)
  | trainingBurst (l : Nat)
  | optSearch (c : Cmd)
  | sweepComplete (g b r : Nat) (dips : List (Nat × Nat))
  | ditherUpdate (g b r err mv : Nat)
  | lockTimeout (g b r : Nat)
  | ringRelock (g b r : Nat)
  | laserLow (c pwr : Nat)
  /-- 262 to 288. The SPDM requests act on the oldest KLN_SPDM message without a response. `sid`: its session, 0 in the clear; `msg`: the plaintext of
  a secured message; `ok`: it passes the checks of DSP0274 and DSP0277 that the spec does not restate -/
  | klnSpdm (c : Cmd)
  | klnSpdmComplete (ticket : Nat)
  | getVersion (sid : Nat) (msg : List Byte) (ok : Bool)
  | getCapabilities (sid : Nat) (msg : List Byte) (ok : Bool)
  | negotiateAlgorithms (sid : Nat) (msg : List Byte) (ok : Bool)
  | getDigests (sid : Nat) (msg : List Byte) (ok : Bool)
  | getCertificate (sid : Nat) (msg : List Byte) (ok : Bool)
  | challenge (sid : Nat) (msg : List Byte) (ok : Bool)
  | getMeasurements (sid : Nat) (msg : List Byte) (ok : Bool)
  | keyExchange (sid : Nat) (msg : List Byte) (ok : Bool)
  /-- `key`: the public key that mutual authentication has verified -/
  | finish (sid : Nat) (msg : List Byte) (ok : Bool) (key : Option (List Byte))
  | heartbeat (sid : Nat) (msg : List Byte) (ok : Bool)
  | keyUpdate (sid : Nat) (msg : List Byte) (ok : Bool)
  | endSession (sid : Nat) (msg : List Byte) (ok : Bool)
  | chunkSend (sid : Nat) (msg : List Byte) (ok : Bool)
  | chunkGet (sid : Nat) (msg : List Byte) (ok : Bool)
  /-- The Kiln messages: `msg` is the VENDOR_DEFINED_REQUEST, with the Kiln message as its payload -/
  | bind (sid : Nat) (msg : List Byte) (ok : Bool)
  | keySet (sid : Nat) (msg : List Byte) (ok : Bool)
  | keyDestroy (sid : Nat) (msg : List Byte) (ok : Bool)
  | report (sid : Nat) (msg : List Byte) (ok : Bool)
  | status (sid : Nat) (msg : List Byte) (ok : Bool)
  | unbind (sid : Nat) (msg : List Byte) (ok : Bool)
  | logRead (sid : Nat) (msg : List Byte) (ok : Bool)
  | klnUnbind (c : Cmd)
  | klnDebug (c : Cmd)
  | bindResetComplete
  | unbindResetComplete
  /-- 289 to 293: die `d`; window-table entry `i` -/
  | errArm (c : Cmd)
  | errFifoRead (c : Cmd)
  | errCaptureArm (d : Nat)
  | errWinFirClear (i : Nat)
  | recoveryWindowEnd (i : Nat)
  /-- 294 to 309: domain `d`; the filler's power; the estimated power; the readings of the dies and stacks, and the hottest die's sensor -/
  | powerChoice
  | domainWake (d : Nat)
  | damperSlot
  | domainWakeComplete (d : Nat)
  | pwrTolerance (c : Cmd)
  | pwrSet (c : Cmd)
  | pwrSetTimeout (ticket : Nat)
  | pwrCapArm (c : Cmd)
  | pwrCapClear (c : Cmd)
  | smoulderTick (filler : Nat)
  | powerEstimate (p : Nat)
  | retrust
  | thermalSample (temps : List Nat) (sensor : Nat)
  | throttleStep
  | quenchRickReady
  | quenchRickTimeout
  /-- 310 to 318. Per entry: 0 read, or 1 NACK, 2 PEC, 3 SCL timeout, 4 SDA low before START; READ_IOUT in 0.1 A and READ_VOUT in mV -/
  | regulatorPoll (outs : List PollRead)
  /-- The address that answered the Alert Response Address, and its STATUS_WORD -/
  | regulatorAlert (addr sw : Nat)
  | sbdXfer (c : Cmd)
  | sbdXferDone (st : Nat) (data : List Byte)
  /-- Whether the attempt succeeds, after how many pulses, and whether SCL was held low -/
  | busRecoveryAttempt (ok : Bool) (pulses : Nat) (scl : Bool)
  | revive
  /-- A tray-bus write of `len` bytes that spells this packet -/
  | sbWrite (len : Nat) (c : Cmd)
  | sbRead
  | traySclTimeout
  /-- 319 to 331: CCCs, with their event, address or length byte -/
  | enec (ev : Nat)
  | disec (ev : Nat)
  | rstdaa
  | entdaa (addr : Nat)
  | setdasa (addr : Nat)
  | setmwl (len : Nat)
  | setmrl (len : Nat)
  | getmwl
  | getmrl
  | getpid
  | getbcr
  | getdcr
  | getstatus
  /-- 332 to 334: image slot (0 A, 1 B), byte offset, data -/
  | imageErase (slot off : Nat)
  | imageProgram (slot off : Nat) (data : List Byte)
  | imageReadStatus
  /-- 335 to 342: channel `ch`; the register (0 POLY, 1 INIT, 2 CFG) and the value written -/
  | crcFeed (c : Cmd)
  | crcFeedDone (ch : Nat)
  | crcConfigWrite (ch j v : Nat)
  | crcRestart (ch : Nat)
  | timeAlignSet (c : Cmd)
  | timeAlignStep (c : Cmd)
  | timeHoldEnd
  | telSnap
  /-- 343 to 349: JTAG instructions; the values captured at the scanned lands, and those shifted in -/
  | extest (lands : List Bool)
  | idcode
  | samplePreload (lands load : List Bool)
  | clamp
  | highz
  | bypass
  | privateInstruction (code : Nat)
  /-- 350 to 354 -/
  | coppiceCtrlOff (c : Cmd)
  | coppiceCtrlSource (c : Cmd)
  | coppiceCtrlShadow (c : Cmd)
  | coppiceCtrlPromote (c : Cmd)
  | coppiceOffDrained
  /-- 355 to 361 -/
  | laserPowerReturn (c pwr : Nat)
  | hostPerstDeassert (h : Nat)
  | mgmtPortLinkUp (port : Nat)
  /-- KIND and IDX of the unit -/
  | unitOutOfReset (kind idx : Nat)
  /-- Whether the operation ends in an error -/
  | imageLoaderDone (err : Bool)
  | sessionHeartbeatExpiry (id : Nat)
  /-- A read of `len` bytes at BAR0 offset `addr` by host port `hp`, request identifier `id` -/
  | barRead (hp id addr len : Nat)
  deriving DecidableEq, Repr

end Sys2Proof
end

