-- ==== Sys2Proof/Decode.lean ====
section
/-! DEFINITION. The command that a word of the opcode table spells. No row of the table gives any bits. -/

namespace Sys2Proof

/-- No row of spec/opcode_table.json has an encoding: its rows are the block's events and command packets, whose fields are their operands. -/
def decodeTableWord (_nbits _w : Nat) : Option Instr := none

end Sys2Proof
end

