-- ==== Sys2Proof/Machine/Bits.lean ====
section
/-! DEFINITION. Bit fields, signed readings, saturating sums and byte order (R5, R6). -/

namespace Sys2Proof

/-- Bits `[hi:lo]` of a word, as a number (R5: bit 0 is the least significant). -/
def bits (w : Word) (hi lo : Nat) : Nat := (w.toNat >>> lo) % 2 ^ (hi + 1 - lo)

/-- One bit of a word. -/
def bit (w : Word) (i : Nat) : Bool := w.getLsbD i

/-- A word with bits `[hi:lo]` replaced by the low bits of `v`. -/
def setBits (w : Word) (hi lo v : Nat) : Word :=
  BitVec.ofNat 64 (w.toNat - bits w hi lo * 2 ^ lo + (v % 2 ^ (hi + 1 - lo)) * 2 ^ lo)

/-- 0 or 1. -/
def b2n (b : Bool) : Nat := if b then 1 else 0

/-- Two's-complement reading of an `n`-bit number. -/
def signed (n v : Nat) : Int := if 2 ^ (n - 1) ≤ v then (v : Int) - 2 ^ n else v

/-- Saturating increment of a `w`-bit counter by `k`. -/
def satAdd (w v k : Nat) : Nat := if 2 ^ w ≤ v + k then 2 ^ w - 1 else v + k

/-- `n` bytes of a number, least significant first (R5). -/
def toBytes : Nat → Nat → List Byte
  | 0, _ => []
  | n + 1, v => BitVec.ofNat 8 v :: toBytes n (v / 256)

/-- The number that a list of bytes spells, least significant first (R5). -/
def ofBytes : List Byte → Nat
  | [] => 0
  | b :: t => b.toNat + 256 * ofBytes t

/-- A word's eight bytes. -/
def wordBytes (w : Word) : List Byte := toBytes 8 w.toNat

/-- The words of a byte string; a last part of fewer than 8 bytes is extended with zeros. -/
def wordsOf : Nat → List Byte → List Word
  | 0, _ => []
  | n + 1, l => BitVec.ofNat 64 (ofBytes (l.take 8)) :: wordsOf n (l.drop 8)

/-- The bytes of a word list. -/
def bytesOfWords (l : List Word) : List Byte := l.flatMap wordBytes

/-- Word `i` of a list, 0 beyond its end. -/
def wordAt (l : List Word) (i : Nat) : Word := l.getD i 0

end Sys2Proof
end

