-- ==== Sys2Proof/Machine/Aes.lean ====
section
/-! DEFINITION. AES-256 (FIPS 197) and the modes the spec names: XTS (IEEE 1619; R299, R311), GCM (R384), and HKDF-Expand with SHA-384 (RFC 5869; R384).
PRESUMED (log entry 61): the spec names these standards and does not print them. -/

namespace Sys2Proof.Machine
open Sys2Proof

/-! ### The cipher -/

/-- The S-box: entry 16 × i + j is byte j of number i. -/
def aesS : List Nat := [
  0x76ABD7FE2B670130C56F6BF27B777C63, 0xC072A49CAFA2D4ADF04759FA7DC982CA, 0x1531D871F1E5A534CCF73F362693FDB7,
  0x75B227EBE28012079A059618C323C704, 0x842FE329B3D63B52A05A6E1B1A2C8309, 0xCF584C4A39BECB6A5BB1FC20ED00D153,
  0xA89F3C507F02F94585334D43FBAAEFD0, 0xD2F3FF1021DAB6BCF5389D928F40A351, 0x73195D643D7EA7C41744975FEC130CCD,
  0xDB0B5EDE14B8EE4688902A22DC4F8160, 0x79E4959162ACD3C25C2406490A3A32E0, 0x08AE7A65EAF4566CA94ED58D6D37C8E7,
  0x8A8BBD4B1F74DDE8C6B4A61C2E2578BA, 0x9E1DC186B95735610EF6034866B53E70, 0xDF2855CEE9871E9B948ED9691198F8E1,
  0x16BB54B00F2D99416842E6BF0D89A18C]

/-- The inverse S-box. -/
def aesI : List Nat := [
  0xFBD7F3819EA340BF38A53630D56A0952, 0xCBE9DEC444438E3487FF2F9B8239E37C, 0x4EC3FA420B954CEE3D23C2A632947B54,
  0x25D18B6D49A25B76B224D92866A12E08, 0x92B6655DCC5CA4D41698688664F6F872, 0x849D8DA75746155EDAB9EDFD5048706C,
  0x0645B3B80558E4F70AD3BC8C00ABD890, 0x6B8A130103BDAFC1020F3FCA8F1E2CD0, 0x73E6B4F0CECFF297EADC674F4111913A,
  0x6EDF751CE837F9E28535ADE72274AC96, 0x1BBE18AA0E62B76F89C5291D711AF147, 0xF45ACD78FEC0DB9A2079D2C64B3E56FC,
  0x5FEC8027591012B131C7078833A8DD1F, 0xEF9CC9939F7AE52D0D4AB519A97F5160, 0x619953833CBBEBC8B0F52AAE4D3BE0A0,
  0x7D0C2155631469E126D677BA7E042B17]

/-- Look a byte up. -/
def aesSub (t : List Nat) (b : Byte) : Byte := BitVec.ofNat 8 (t.getD (b.toNat / 16) 0 / 2 ^ (8 * (b.toNat % 16)))

/-- Product in GF(2^8). -/
def aesMul (a b : Nat) : Nat :=
  ((List.range 8).foldl (fun (x : Nat × Nat) i =>
    (if b.testBit i then x.1 ^^^ x.2 else x.1, if 128 ≤ x.2 then (2 * x.2) ^^^ 0x11B else 2 * x.2)) (0, a)).1

/-- Exclusive or of byte strings. -/
def xorBytes (l r : List Byte) : List Byte := List.zipWith (· ^^^ ·) l r

/-- The key schedule, newest word first: `n` more words from word number `i`. -/
def aesWords : Nat → Nat → List (List Byte) → List (List Byte)
  | 0, _, w => w
  | n + 1, i, w =>
    let t := w.headD []
    let u := if i % 8 = 0 then
        xorBytes ((t.drop 1 ++ t.take 1).map (aesSub aesS)) [BitVec.ofNat 8 (2 ^ (i / 8 - 1)), 0, 0, 0]
      else if i % 8 = 4 then t.map (aesSub aesS) else t
    aesWords n (i + 1) (xorBytes (w.getD 7 []) u :: w)

/-- `n` pieces of `m` bytes. -/
def pieces (m : Nat) : Nat → List Byte → List (List Byte)
  | 0, _ => []
  | n + 1, l => l.take m :: pieces m n (l.drop m)

/-- The 15 round keys of a 32-byte key. -/
def aesKeys (key : List Byte) : List (List Byte) := pieces 16 15 (aesWords 52 8 (pieces 4 8 key).reverse).reverse.flatten

/-- Byte `i` of the state takes byte `f i`. -/
def aesPerm (f : Nat → Nat) (l : List Byte) : List Byte := (List.range 16).map (fun i => l.getD (f i) 0)

/-- The columns multiplied by the circulant matrix of a row. -/
def aesMix (m : List Nat) (l : List Byte) : List Byte :=
  (List.range 16).map (fun i =>
    BitVec.ofNat 8 ((List.range 4).foldl (fun a j => a ^^^ aesMul (l.getD (i / 4 * 4 + (i + j) % 4) 0).toNat (m.getD j 0)) 0))

/-- Encrypt one block under the round keys `k`. -/
def aesEnc (k : List (List Byte)) (l : List Byte) : List Byte :=
  (List.range' 1 14).foldl (fun s r =>
    let t := aesPerm (fun i => (i + i % 4 * 4) % 16) (s.map (aesSub aesS))
    xorBytes (if r = 14 then t else aesMix [2, 3, 1, 1] t) (k.getD r [])) (xorBytes l (k.getD 0 []))

/-- Decrypt one block. -/
def aesDec (k : List (List Byte)) (l : List Byte) : List Byte :=
  (List.range 14).foldl (fun s r =>
    let t := xorBytes ((aesPerm (fun i => (i + (4 - i % 4) * 4) % 16) s).map (aesSub aesI)) (k.getD (13 - r) [])
    if r = 13 then t else aesMix [14, 11, 13, 9] t) (xorBytes l (k.getD 14 []))

/-! ### XTS -/

/-- The next tweak: times α in GF(2^128), bytes little-endian. -/
def xtsNext (t : Nat) : Nat := if t.testBit 127 then (2 * t % 2 ^ 128) ^^^ 0x87 else 2 * t

/-- XTS over whole blocks with the block function `f`. -/
def xtsBlocks (f : List Byte → List Byte) : Nat → Nat → List Byte → List Byte
  | 0, _, _ => []
  | n + 1, t, l => xorBytes (f (xorBytes (l.take 16) (toBytes 16 t))) (toBytes 16 t) ++ xtsBlocks f n (xtsNext t) (l.drop 16)

/-- The first tweak of a data unit under the second half of a 64-byte key. -/
def xtsTweak (key : List Byte) (tweak : Nat) : Nat := ofBytes (aesEnc (aesKeys ((key.drop 32).take 32)) (toBytes 16 tweak))

/-- AES-256-XTS encryption of a data unit of whole blocks, with a 128-bit tweak. -/
def xtsEncrypt (key : List Byte) (tweak : Nat) (l : List Byte) : List Byte :=
  xtsBlocks (aesEnc (aesKeys (key.take 32))) (l.length / 16) (xtsTweak key tweak) l

/-- AES-256-XTS decryption. -/
def xtsDecrypt (key : List Byte) (tweak : Nat) (l : List Byte) : List Byte :=
  xtsBlocks (aesDec (aesKeys (key.take 32))) (l.length / 16) (xtsTweak key tweak) l

/-! ### GCM -/

/-- Product in GF(2^128), most significant bit first. -/
def ghashMul (x y : Nat) : Nat :=
  ((List.range 128).foldl (fun (a : Nat × Nat) i =>
    (if x.testBit (127 - i) then a.1 ^^^ a.2 else a.1, if a.2 % 2 = 1 then (a.2 / 2) ^^^ (0xE1 * 2 ^ 120) else a.2 / 2)) (0, y)).1

/-- Bytes padded with zeros to whole blocks of 16. -/
def pad16 (l : List Byte) : List Byte := l ++ List.replicate ((16 - l.length % 16) % 16) 0

/-- GHASH under `h`. -/
def ghash (h : Nat) (l : List Byte) : Nat :=
  (pieces 16 (l.length / 16) l).foldl (fun a b => ghashMul (a ^^^ ofBytesBE b) h) 0

/-- Counter block `i` of a 96-bit nonce. -/
def gcmBlock (nonce i : Nat) : List Byte := toBytesBE 12 nonce ++ toBytesBE 4 i

/-- The first `n` bytes of the AES-256-GCM keystream. -/
def gcmStream (key : List Byte) (nonce n : Nat) : List Byte :=
  let k := aesKeys key
  ((List.range ((n + 15) / 16)).flatMap (fun i => aesEnc k (gcmBlock nonce (i + 2)))).take n

/-- The AES-256-GCM tag of authenticated bytes and ciphertext, truncated to 32 bits: its first four bytes, little-endian as R5 has a field. -/
def gcmTag (key : List Byte) (nonce : Nat) (aad c : List Byte) : Nat :=
  let k := aesKeys key
  let h := ofBytesBE (aesEnc k (List.replicate 16 0))
  let s := ghash h (pad16 aad ++ pad16 c ++ toBytesBE 8 (8 * aad.length) ++ toBytesBE 8 (8 * c.length))
  ofBytes ((xorBytes (toBytesBE 16 s) (aesEnc k (gcmBlock nonce 1))).take 4)

/-! ### HKDF-Expand -/

/-- HMAC with SHA-384 (RFC 2104), for a key of at most a block of 128 bytes. -/
def hmac384 (key l : List Byte) : List Byte :=
  let pad := fun (b : Byte) => (key ++ List.replicate (128 - key.length) 0).map (· ^^^ b)
  sha384 (pad 0x5C ++ sha384 (pad 0x36 ++ l))

/-- The link key of R384: 32 bytes of HKDF-Expand from a slot's key, the lower and the higher LINK_ID, and KSEL. -/
def linkKey (key : List Byte) (lo hi ksel : Nat) : List Byte :=
  let info := [0x47, 0x58, 0x33, 0x32, 0x30, 0x30, 0x20, 0x6C, 0x69, 0x6E, 0x6B] ++ toBytes 4 lo ++ toBytes 4 hi ++ toBytes 1 ksel
  (hmac384 key (info ++ [1])).take 32

end Sys2Proof.Machine
end

