-- ==== Sys2Proof/Config.lean ====
section
/-! DEFINITION. What one GX3200 has fixed at manufacture, and the free values of the model: opaque constants with no
body, so that no proof can see them. -/

namespace Sys2Proof

/-- CORE_CLK cycles in one microsecond (R442: 1.6 GHz). -/
def Config.cyclesPerUs : Nat := 1600

/-- A free value: the `n`-th value that the spec leaves open, drawn by a step (log entry 3). -/
opaque Config.freeValue : Nat → Nat

/-- A free byte string, for results that the spec leaves open or that a cryptographic standard makes (log entry 3). -/
opaque Config.freeBytes : Nat → Nat → List (BitVec 8)

/-- Whether host `h` answers a device's write to PCI Express address `a` at cycle `t` with an error (R92, R104, R121): the host's choice (log
entry 52). -/
opaque Config.hostRefuses : (h a t : Nat) → Bool

/-- The byte of host `h`'s memory at PCI Express address `a`, as a read at cycle `t` finds it (log entry 52). -/
opaque Config.hostMemory : (h a t : Nat) → BitVec 8

/-- Max Payload Size that host port `h`'s link has negotiated, in bytes (R134; log entry 56). -/
opaque Config.maxPayload : (h : Nat) → Nat

/-- Places of EPB `n`'s request queue (R64; log entry 56). -/
opaque Config.requestQueue : (n : Nat) → Nat

/-- Cells that the EPB of an attach port takes from its egress before it hands a packet on (R197; log entry 56). -/
opaque Config.epbRoom : (n : Nat) → Nat

/-- COEF_REQ that the receiver of lane `j` of link `n` asks for in its `k`-th EQ frame (R338, R345; log entry 64). -/
opaque Config.coefRequest : (n j k : Nat) → Nat

/-- Source phase and equaliser taps that lane `j` of link `n` has adapted to at cycle `t` (R338, R361; log entry 64). -/
opaque Config.adapted : (n j t : Nat) → List Int

/-- First contents of the PRBS31 register of lane `j` of link `n` (R345; log entry 64). -/
opaque Config.prbsSeed : (n j : Nat) → Nat

/-- Bytes in error found in each 32-byte part of a line of HBM, by physical line, when the scrub reads it at cycle `t` (R300; log entry 57). -/
opaque Config.lineErrors : (line t part : Nat) → Nat

/-- KLN_DEVID, word `j` (R397: fused). -/
opaque Config.fusedDeviceId : Nat → BitVec 64
/-- KLN_FWVER (R397: fused, and from the image). -/
opaque Config.fusedFwver : BitVec 64
/-- KLN_BOOT (R397: held over resets). -/
opaque Config.heldBootCount : BitVec 64
/-- CMD_IDENT.PCI_VID (R422: fused). -/
opaque Config.fusedPciVid : Nat
/-- CMD_IDENT.STEPPING (R422: fused). -/
opaque Config.fusedStepping : Nat
/-- Manufacturer identity of the JTAG identification register (R517: fused). -/
opaque Config.jtagMaker : Nat
/-- CMD_MPn.MAC (R422: fused). -/
opaque Config.fusedMac : Nat → Nat
/-- PWR_DOMd.STEP_DROWSE (R464: fused). -/
opaque Config.fusedStepDrowse : Nat → Nat
/-- PWR_DOMd.STEP_BANKED (R464: fused). -/
opaque Config.fusedStepBanked : Nat → Nat

/-- LOCK_TOL and LOSS_TOL of a ring (R367: calibration fuses), by key 80 × group + 16 × bus + ring. -/
opaque Config.lockTol : Nat → Nat
opaque Config.lossTol : Nat → Nat

/-- The tray target's I3C identification: provisional ID, BCR, DCR (R477 names the CCCs and no values: fused). -/
opaque Config.i3cPid : Nat
opaque Config.i3cBcr : Nat
opaque Config.i3cDcr : Nat

/-- Restart time, in µs, that a wake of function `f` from Banked adds where Table — domain functions names no number (R444, R445): link
training, a program load, the Rick's recovery. -/
opaque Config.restartTime : Nat → Nat

/-- Pages of a NAND block (R307: the parameter page of the parts fitted gives it). -/
opaque Config.blockPages : Nat

/-- The certificate chain of slot 0 (R377: from the Pahorn device CA to the attestation key that Kindling derives). -/
opaque Config.certChain : List (BitVec 8)
/-- Opaque data of a KEY_EXCHANGE_RSP (DSP0277). -/
opaque Config.keyExchangeOpaque : List (BitVec 8)
/-- Byte `i` of a secured response (DSP0277): session, number of the response in it, plaintext. -/
opaque Config.spdmSeal : Nat → Nat → List (BitVec 8) → Nat → BitVec 8

end Sys2Proof
end

