-- ==== Sys2Proof/Machine/Regs.lean ====
section
/-! DEFINITION. The register space (R415): every register of every register table, its address rule, its
fields with their access codes (R8) and its value after a cold reset (R9). -/

namespace Sys2Proof.Machine
open Sys2Proof

/-- Access codes of the register tables (R8). -/
inductive Access where
  | rw | ro | wo | w1c | w1s | rwl
  deriving DecidableEq, Repr

/-- One field of a register: its bits, its access, and its reset value where the table gives a number. -/
structure FieldDef where
  hi : Nat
  lo : Nat
  acc : Access
  reset : Nat
  deriving DecidableEq, Repr

/-- Where an array of registers lies: register `(i, j)` is at `base + s1 * i + s2 * j`, for `i < n1`, `j < n2`. -/
structure RegDef where
  base : Nat
  s1 : Nat
  n1 : Nat
  s2 : Nat
  n2 : Nat
  width : Nat
  fields : List FieldDef
  deriving DecidableEq, Repr

/-- The registers, named after the manual's register tables. -/
inductive RegName where
  | epbTxnCtrl | epbTagLend | epbTagStat | epbLateRsp | epbEpochRej | epbRole
  | hubFence | epbTwtW0 | epbTwtW1 | epbTwtW2 | epbTwtW3 | epbFasW0
  | epbFasW1 | epbXlateCtrl | epbXlateMiss | epbXlatePf | epbZarStat | epbZarState
  | errFringBase | telHringBase | errFringCtrl | telHringCtrl | errFringHead | telHringHead
  | errFringTail | telHringTail | errFringLost | telHringLost | epbHeatCtrl | epbParkStat
  | epbParkRings | lnkHwinWbase | lnkHwinWlim | epbRingBase | epbRingCqbase | epbRingCfg
  | epbRingTail | epbRingLow | epbRingFetch | epbRingFill | epbRingStat | epbRingRej
  | epbVisCtrl | epbTileCompat | epbRrcStat | hubCoord | hubCmark | hubMcrow
  | hubMccol | hubDestDown | hubRtW0 | hubRtW | hubMcrtW0 | hubMcrtW1
  | epbCcCtrl | epbCcRate | hubHold | hubFreeReq | hubFreeRsp | hubFreeMc
  | hubBufstat | hubLink | hubInlim | hubEglim | hubMirsamp | hubMirringBase
  | hubMirringCtrl | hubMirringHead | hubMirringTail | hubMirringLost | hubSchedCtrl | hubBoundstat
  | hubSchedMode0 | hubSchedMode1 | hubVcw | hubQW0 | hubQW1 | epbAdm
  | epbAdmDemote | spnQuota | spnQstat | spnProg | spnProgd | spnCtxW0
  | spnCtxW1 | spnThrW0 | spnThrW1 | spnCsaElems | spnCsaFail | spnBdaOut
  | spnBdaSpec | epbNiCtrl | epbNiStat | epbToW0 | epbToW1 | epbToW2
  | epbToW3 | epbToW4 | epbToW5 | epbToW6 | epbToW7 | epbNctrW0
  | epbNctrW1 | spnHregSizes | spnHregState | spnHregCe | spnHregUe | spnHregLasterr
  | spnHregScrub | spnHregScrubpos | rsvHeat | rsvStat | rsvCnt | rsvBad
  | rsvStrStat | rsvStrCfg | rsvStrOut | rickStat | rickFree | rickRetire
  | rickJrnl | rickCh | rickObjW0 | rickObjW1 | lnkCtrl | lnkStat
  | lnkFec | lnkLl | lnkPeer | lnkLane | lnkPrbs | optOcPwr
  | optOcStat | optGCtrl | optGStat | optGRing | optGLanemap | optGBurst
  | optGFail | optGVisits | klnState | klnTenant | klnDevid | klnFwver
  | klnBoot | klnErases | cmdIdent | cmdCtrl | cmdMpMac | cmdMpCfg
  | cmdMpPeer | cmdMpStat | cmdMpEmber | cmdMpEmbert | cmdMpFrames | cmdPstatCnt
  | cmdPstatErr | cmdPstatEvtmask | cmdBarstat | cmdMboxReqBase | cmdMboxReqTail | cmdMboxReqHead
  | cmdMboxRspBase | cmdMboxRspCtrl | cmdMboxRspHead | cmdMboxRspTail | cmdMboxLost | errCtrl
  | errStat | errWinfull | errDieCnt0 | errDieCnt1 | errDieCap | errDeststat
  | errWinW0 | errWinW1 | errArm | pwrDamp | pwrDampstat | pwrSmoulder
  | pwrDwell | pwrEst | pwrRegcmp | pwrCap | pwrTherm | pwrTemp
  | pwrFunc | pwrDomW0 | pwrDomW1 | cmdBootW0 | cmdBootW1 | cmdHeld0
  | cmdHeld1 | sbdCtrl | sbdStat | sbdRegW0 | sbdRegW1 | crcPoly
  | crcInit | crcCfg | crcStat | crcValue | crcCtrl | telTime
  | telTctrl | telSnapctl | telSnaptime | telPortW0 | telPortW1 | telShadW0
  | telShadW1 | hubCoppiceCtrl | hubCoppiceLim | hubCoppiceSum | hubCoppiceCnt | hubCoppiceLoss
  | hubEprole | errFirst
  deriving DecidableEq, Repr

/-- A named field of a register. -/
structure Fld where
  reg : RegName
  hi : Nat
  lo : Nat
  deriving DecidableEq, Repr

/-- The register tables. -/
def regDef : RegName → RegDef
  | .epbTxnCtrl => ⟨0x1000040, 0x40000, 64, 0x0, 1, 32, [⟨9, 0, .rw, 40⟩]⟩
  | .epbTagLend => ⟨0x1000044, 0x40000, 64, 0x0, 1, 32, [⟨12, 8, .rw, 1⟩, ⟨5, 0, .rw, 1⟩]⟩
  | .epbTagStat => ⟨0x1000048, 0x40000, 64, 0x0, 1, 32, [⟨12, 0, .ro, 0⟩]⟩
  | .epbLateRsp => ⟨0x100004C, 0x40000, 64, 0x0, 1, 32, [⟨31, 0, .ro, 0⟩]⟩
  | .epbEpochRej => ⟨0x1000050, 0x40000, 64, 0x0, 1, 32, [⟨31, 16, .ro, 0⟩, ⟨15, 0, .ro, 0⟩]⟩
  | .epbRole => ⟨0x1000058, 0x40000, 64, 0x0, 1, 32, [⟨7, 0, .rw, 0⟩]⟩
  | .hubFence => ⟨0x200100, 0x0, 1, 0x0, 1, 32, [⟨17, 17, .rw, 0⟩, ⟨16, 16, .rw, 0⟩, ⟨15, 0, .rw, 0⟩]⟩
  | .epbTwtW0 => ⟨0x1020000, 0x40000, 64, 0x20, 256, 64, [⟨63, 63, .rw, 0⟩, ⟨60, 60, .rw, 0⟩, ⟨59, 59, .rw, 0⟩, ⟨58, 58, .rw, 0⟩, ⟨44, 16, .rw, 0⟩]⟩
  | .epbTwtW1 => ⟨0x1020008, 0x40000, 64, 0x20, 256, 64, [⟨44, 16, .rw, 0⟩]⟩
  | .epbTwtW2 => ⟨0x1020010, 0x40000, 64, 0x20, 256, 64, [⟨63, 62, .rwl, 0⟩, ⟨61, 43, .rwl, 0⟩, ⟨42, 37, .rwl, 0⟩]⟩
  | .epbTwtW3 => ⟨0x1020018, 0x40000, 64, 0x20, 256, 64, [⟨51, 12, .rw, 0⟩]⟩
  | .epbFasW0 => ⟨0x1010000, 0x40000, 64, 0x10, 4096, 64, [⟨63, 63, .rw, 0⟩, ⟨62, 60, .rw, 5⟩, ⟨51, 12, .rw, 0⟩]⟩
  | .epbFasW1 => ⟨0x1010008, 0x40000, 64, 0x10, 4096, 64, []⟩
  | .epbXlateCtrl => ⟨0x1000060, 0x40000, 64, 0x0, 1, 32, [⟨13, 8, .rw, 8⟩, ⟨6, 0, .rw, 16⟩]⟩
  | .epbXlateMiss => ⟨0x1000064, 0x40000, 64, 0x0, 1, 32, [⟨31, 0, .ro, 0⟩]⟩
  | .epbXlatePf => ⟨0x1000068, 0x40000, 64, 0x0, 1, 32, [⟨31, 0, .ro, 0⟩]⟩
  | .epbZarStat => ⟨0x100006C, 0x40000, 64, 0x0, 1, 32, [⟨31, 16, .ro, 0⟩, ⟨15, 0, .ro, 0⟩]⟩
  | .epbZarState => ⟨0x1000070, 0x40000, 64, 0x0, 1, 32, [⟨31, 31, .ro, 0⟩, ⟨27, 16, .ro, 0⟩, ⟨8, 0, .ro, 0⟩]⟩
  | .errFringBase => ⟨0x30800, 0x40, 2, 0x0, 1, 64, [⟨63, 12, .rw, 0⟩]⟩
  | .telHringBase => ⟨0x40400, 0x40, 2, 0x0, 1, 64, [⟨63, 12, .rw, 0⟩]⟩
  | .errFringCtrl => ⟨0x30808, 0x40, 2, 0x0, 1, 32, [⟨31, 31, .rw, 0⟩, ⟨30, 30, .rw, 0⟩, ⟨19, 16, .rw, 0⟩, ⟨10, 0, .rw, 0⟩]⟩
  | .telHringCtrl => ⟨0x40408, 0x40, 2, 0x0, 1, 32, [⟨31, 31, .rw, 0⟩, ⟨19, 16, .rw, 0⟩, ⟨10, 0, .rw, 0⟩]⟩
  | .errFringHead => ⟨0x3080C, 0x40, 2, 0x0, 1, 32, [⟨15, 0, .rw, 0⟩]⟩
  | .telHringHead => ⟨0x4040C, 0x40, 2, 0x0, 1, 32, [⟨15, 0, .rw, 0⟩]⟩
  | .errFringTail => ⟨0x30810, 0x40, 2, 0x0, 1, 32, [⟨15, 0, .ro, 0⟩]⟩
  | .telHringTail => ⟨0x40410, 0x40, 2, 0x0, 1, 32, [⟨15, 0, .ro, 0⟩]⟩
  | .errFringLost => ⟨0x30814, 0x40, 2, 0x0, 1, 32, [⟨31, 0, .ro, 0⟩]⟩
  | .telHringLost => ⟨0x40414, 0x40, 2, 0x0, 1, 32, [⟨31, 0, .ro, 0⟩]⟩
  | .epbHeatCtrl => ⟨0x1000080, 0x40000, 64, 0x0, 1, 32, [⟨31, 31, .rw, 0⟩, ⟨27, 16, .rw, 100⟩, ⟨11, 0, .rw, 256⟩]⟩
  | .epbParkStat => ⟨0x1000088, 0x40000, 64, 0x0, 1, 32, [⟨9, 0, .ro, 0⟩]⟩
  | .epbParkRings => ⟨0x1000090, 0x40000, 64, 0x0, 1, 64, [⟨63, 0, .ro, 0⟩]⟩
  | .lnkHwinWbase => ⟨0xE0600, 0x20, 2, 0x0, 1, 64, [⟨63, 12, .rw, 0⟩]⟩
  | .lnkHwinWlim => ⟨0xE0608, 0x20, 2, 0x0, 1, 64, [⟨63, 63, .rw, 0⟩, ⟨44, 12, .rw, 0⟩]⟩
  | .epbRingBase => ⟨0x1001000, 0x40000, 64, 0x40, 64, 64, [⟨51, 12, .rw, 0⟩]⟩
  | .epbRingCqbase => ⟨0x1001008, 0x40000, 64, 0x40, 64, 64, [⟨51, 12, .rw, 0⟩]⟩
  | .epbRingCfg => ⟨0x1001010, 0x40000, 64, 0x40, 64, 64, [⟨63, 62, .rwl, 0⟩, ⟨61, 43, .rwl, 0⟩, ⟨42, 32, .rw, 0⟩, ⟨31, 20, .rw, 0⟩, ⟨19, 16, .rw, 4⟩, ⟨15, 15, .rw, 0⟩, ⟨14, 14, .rw, 0⟩, ⟨11, 8, .rw, 8⟩, ⟨7, 4, .rw, 0⟩]⟩
  | .epbRingTail => ⟨0x1001018, 0x40000, 64, 0x40, 64, 32, [⟨31, 0, .rw, 0⟩]⟩
  | .epbRingLow => ⟨0x1001020, 0x40000, 64, 0x40, 64, 32, [⟨31, 0, .ro, 0⟩]⟩
  | .epbRingFetch => ⟨0x1001024, 0x40000, 64, 0x40, 64, 32, [⟨31, 0, .ro, 0⟩]⟩
  | .epbRingFill => ⟨0x1001028, 0x40000, 64, 0x40, 64, 64, [⟨34, 0, .ro, 0⟩]⟩
  | .epbRingStat => ⟨0x1001030, 0x40000, 64, 0x40, 64, 32, [⟨31, 29, .ro, 0⟩, ⟨28, 25, .ro, 0⟩, ⟨24, 21, .ro, 0⟩]⟩
  | .epbRingRej => ⟨0x10000A0, 0x40000, 64, 0x0, 1, 32, [⟨31, 0, .ro, 0⟩]⟩
  | .epbVisCtrl => ⟨0x10000B0, 0x40000, 64, 0x0, 1, 32, [⟨2, 2, .wo, 0⟩, ⟨1, 1, .rw, 0⟩, ⟨0, 0, .rw, 1⟩]⟩
  | .epbTileCompat => ⟨0x10000B8, 0x40000, 64, 0x0, 1, 64, [⟨63, 0, .rw, 0⟩]⟩
  | .epbRrcStat => ⟨0x10000C0, 0x40000, 64, 0x0, 1, 64, [⟨63, 32, .ro, 0⟩, ⟨31, 0, .ro, 0⟩]⟩
  | .hubCoord => ⟨0x200110, 0x0, 1, 0x0, 1, 32, [⟨11, 8, .rwl, 0⟩, ⟨7, 4, .rwl, 0⟩, ⟨3, 0, .rwl, 0⟩]⟩
  | .hubCmark => ⟨0x200120, 0x0, 1, 0x0, 1, 32, [⟨31, 16, .rw, 2048⟩, ⟨15, 0, .rw, 512⟩]⟩
  | .hubMcrow => ⟨0x200400, 0x4, 16, 0x0, 1, 32, [⟨31, 31, .rw, 0⟩, ⟨8, 2, .rw, 0⟩, ⟨1, 0, .rw, 0⟩]⟩
  | .hubMccol => ⟨0x200440, 0x4, 16, 0x0, 1, 32, [⟨31, 31, .rw, 0⟩, ⟨8, 2, .rw, 0⟩, ⟨1, 0, .rw, 0⟩]⟩
  | .hubDestDown => ⟨0x200200, 0x8, 4, 0x0, 1, 64, [⟨63, 0, .ro, 0⟩]⟩
  | .hubRtW0 => ⟨0x210000, 0x20, 256, 0x0, 1, 64, [⟨63, 63, .rw, 0⟩, ⟨62, 60, .rw, 0⟩, ⟨59, 58, .rw, 0⟩, ⟨57, 57, .rwl, 0⟩, ⟨39, 0, .rw, 0⟩]⟩
  | .hubRtW => ⟨0x210008, 0x20, 256, 0x8, 3, 64, [⟨63, 63, .rw, 0⟩, ⟨62, 60, .rw, 0⟩, ⟨39, 0, .rw, 0⟩]⟩
  | .hubMcrtW0 => ⟨0x230000, 0x10, 256, 0x0, 1, 64, [⟨63, 63, .rw, 0⟩, ⟨62, 60, .rw, 0⟩, ⟨59, 0, .rw, 0⟩]⟩
  | .hubMcrtW1 => ⟨0x230008, 0x10, 256, 0x0, 1, 64, [⟨7, 0, .rw, 0⟩]⟩
  | .epbCcCtrl => ⟨0x10000D0, 0x40000, 64, 0x0, 1, 32, [⟨31, 31, .rw, 1⟩, ⟨27, 24, .rw, 5⟩, ⟨23, 16, .rw, 8⟩, ⟨15, 12, .rw, 2⟩, ⟨10, 0, .rw, 16⟩]⟩
  | .epbCcRate => ⟨0x1003000, 0x40000, 64, 0x4, 256, 32, [⟨10, 0, .ro, 1024⟩]⟩
  | .hubHold => ⟨0x200130, 0x0, 1, 0x0, 1, 32, [⟨31, 22, .ro, 20⟩, ⟨17, 10, .rw, 128⟩, ⟨9, 0, .rw, 20⟩]⟩
  | .hubFreeReq => ⟨0x200140, 0x0, 1, 0x0, 1, 32, [⟨31, 0, .ro, 0⟩]⟩
  | .hubFreeRsp => ⟨0x200144, 0x0, 1, 0x0, 1, 32, [⟨31, 0, .ro, 0⟩]⟩
  | .hubFreeMc => ⟨0x200148, 0x0, 1, 0x0, 1, 32, [⟨31, 0, .ro, 0⟩]⟩
  | .hubBufstat => ⟨0x200150, 0x8, 2, 0x0, 1, 64, [⟨50, 32, .ro, 0⟩, ⟨18, 0, .ro, 0⟩]⟩
  | .hubLink => ⟨0x200800, 0x4, 128, 0x0, 1, 32, [⟨31, 31, .rw, 0⟩, ⟨27, 8, .ro, 0⟩, ⟨2, 0, .ro, 2⟩]⟩
  | .hubInlim => ⟨0x204000, 0x40, 126, 0x8, 8, 64, [⟨63, 44, .ro, 0⟩, ⟨39, 20, .rw, 4096⟩, ⟨19, 0, .rw, 64⟩]⟩
  | .hubEglim => ⟨0x206000, 0x40, 124, 0x8, 8, 64, [⟨63, 44, .ro, 0⟩, ⟨19, 0, .rw, 65536⟩]⟩
  | .hubMirsamp => ⟨0x208000, 0x8, 123, 0x0, 1, 64, [⟨31, 31, .rwl, 0⟩, ⟨30, 30, .rwl, 0⟩, ⟨15, 0, .rwl, 0⟩]⟩
  | .hubMirringBase => ⟨0x200500, 0x0, 1, 0x0, 1, 64, [⟨51, 12, .rwl, 0⟩]⟩
  | .hubMirringCtrl => ⟨0x200508, 0x0, 1, 0x0, 1, 32, [⟨31, 31, .rwl, 0⟩, ⟨30, 30, .rwl, 0⟩, ⟨3, 0, .rwl, 0⟩]⟩
  | .hubMirringHead => ⟨0x20050C, 0x0, 1, 0x0, 1, 32, [⟨31, 0, .rw, 0⟩]⟩
  | .hubMirringTail => ⟨0x200510, 0x0, 1, 0x0, 1, 32, [⟨31, 0, .ro, 0⟩]⟩
  | .hubMirringLost => ⟨0x200514, 0x0, 1, 0x0, 1, 32, [⟨31, 0, .ro, 0⟩]⟩
  | .hubSchedCtrl => ⟨0x200160, 0x0, 1, 0x0, 1, 32, [⟨31, 24, .rw, 0⟩, ⟨23, 16, .rw, 0⟩, ⟨14, 12, .rw, 0⟩, ⟨11, 11, .rw, 0⟩]⟩
  | .hubBoundstat => ⟨0x200168, 0x0, 1, 0x0, 1, 64, [⟨63, 32, .ro, 0⟩, ⟨31, 0, .ro, 0⟩]⟩
  | .hubSchedMode0 => ⟨0x200170, 0x0, 1, 0x0, 1, 64, [⟨63, 0, .ro, 18446744073709551615⟩]⟩
  | .hubSchedMode1 => ⟨0x200178, 0x0, 1, 0x0, 1, 64, [⟨59, 0, .ro, 1152921504606846975⟩]⟩
  | .hubVcw => ⟨0x20A000, 0x8, 124, 0x0, 1, 64, [⟨63, 0, .rw, 1154056235505422352⟩]⟩
  | .hubQW0 => ⟨0x240000, 0x10, 15872, 0x0, 1, 64, [⟨63, 56, .ro, 0⟩, ⟨55, 48, .ro, 16⟩, ⟨47, 47, .ro, 0⟩, ⟨43, 32, .ro, 64⟩, ⟨13, 0, .ro, 0⟩]⟩
  | .hubQW1 => ⟨0x240008, 0x10, 15872, 0x0, 1, 64, [⟨63, 44, .ro, 0⟩, ⟨31, 0, .ro, 16384⟩]⟩
  | .epbAdm => ⟨0x10000E0, 0x40000, 64, 0x8, 2, 32, [⟨31, 31, .rw, 0⟩, ⟨29, 16, .rw, 0⟩, ⟨11, 0, .rw, 16⟩]⟩
  | .epbAdmDemote => ⟨0x10000F0, 0x40000, 64, 0x0, 1, 32, [⟨31, 0, .ro, 0⟩]⟩
  | .spnQuota => ⟨0x100000, 0x2000, 16, 0x0, 1, 32, [⟨24, 16, .rw, 256⟩, ⟨10, 0, .rw, 256⟩]⟩
  | .spnQstat => ⟨0x100008, 0x2000, 16, 0x0, 1, 32, [⟨24, 16, .ro, 0⟩, ⟨14, 0, .ro, 0⟩]⟩
  | .spnProg => ⟨0x100010, 0x2000, 16, 0x0, 1, 32, [⟨31, 31, .ro, 0⟩, ⟨18, 0, .ro, 0⟩]⟩
  | .spnProgd => ⟨0x100040, 0x2000, 16, 0x8, 6, 64, [⟨63, 0, .ro, 0⟩]⟩
  | .spnCtxW0 => ⟨0x100400, 0x2000, 16, 0x10, 64, 64, [⟨63, 63, .rw, 0⟩, ⟨62, 62, .rw, 0⟩, ⟨61, 61, .rw, 0⟩, ⟨60, 60, .rw, 0⟩, ⟨59, 52, .rw, 0⟩, ⟨27, 14, .rw, 0⟩, ⟨13, 0, .rw, 0⟩]⟩
  | .spnCtxW1 => ⟨0x100408, 0x2000, 16, 0x10, 64, 64, [⟨31, 0, .ro, 0⟩]⟩
  | .spnThrW0 => ⟨0x101000, 0x2000, 16, 0x10, 256, 64, [⟨63, 61, .ro, 0⟩, ⟨60, 57, .ro, 0⟩, ⟨56, 53, .ro, 0⟩, ⟨52, 45, .ro, 0⟩, ⟨44, 33, .ro, 0⟩, ⟨31, 28, .ro, 0⟩, ⟨17, 0, .ro, 0⟩]⟩
  | .spnThrW1 => ⟨0x101008, 0x2000, 16, 0x10, 256, 64, [⟨63, 0, .ro, 0⟩]⟩
  | .spnCsaElems => ⟨0x140000, 0x40, 8, 0x0, 1, 64, [⟨63, 0, .ro, 0⟩]⟩
  | .spnCsaFail => ⟨0x140008, 0x40, 8, 0x0, 1, 32, [⟨31, 16, .ro, 0⟩]⟩
  | .spnBdaOut => ⟨0x140400, 0x40, 8, 0x0, 1, 64, [⟨63, 0, .ro, 0⟩]⟩
  | .spnBdaSpec => ⟨0x140408, 0x40, 8, 0x0, 1, 64, [⟨63, 32, .ro, 0⟩, ⟨31, 0, .ro, 0⟩]⟩
  | .epbNiCtrl => ⟨0x1000110, 0x40000, 64, 0x0, 1, 32, [⟨21, 16, .rw, 16⟩, ⟨15, 0, .rw, 1000⟩]⟩
  | .epbNiStat => ⟨0x1000118, 0x40000, 64, 0x0, 1, 32, [⟨31, 26, .ro, 0⟩, ⟨25, 15, .ro, 0⟩, ⟨10, 0, .ro, 0⟩]⟩
  | .epbToW0 => ⟨0x1024000, 0x40000, 64, 0x40, 1024, 64, [⟨63, 60, .rw, 0⟩, ⟨59, 57, .rw, 0⟩, ⟨56, 54, .rw, 0⟩, ⟨53, 50, .rw, 0⟩, ⟨49, 46, .rw, 0⟩, ⟨45, 44, .rw, 0⟩, ⟨43, 43, .rw, 0⟩, ⟨42, 42, .rw, 0⟩, ⟨41, 41, .rw, 0⟩, ⟨40, 40, .rw, 0⟩, ⟨39, 39, .rw, 0⟩, ⟨38, 38, .rw, 0⟩, ⟨37, 32, .rw, 0⟩, ⟨31, 24, .rw, 0⟩, ⟨23, 16, .rw, 0⟩, ⟨15, 8, .rw, 0⟩, ⟨7, 0, .rw, 0⟩]⟩
  | .epbToW1 => ⟨0x1024008, 0x40000, 64, 0x40, 1024, 64, [⟨63, 32, .rw, 0⟩, ⟨31, 24, .rw, 0⟩, ⟨23, 0, .rw, 0⟩]⟩
  | .epbToW2 => ⟨0x1024010, 0x40000, 64, 0x40, 1024, 64, [⟨63, 0, .rw, 0⟩]⟩
  | .epbToW3 => ⟨0x1024018, 0x40000, 64, 0x40, 1024, 64, [⟨63, 0, .rw, 0⟩]⟩
  | .epbToW4 => ⟨0x1024020, 0x40000, 64, 0x40, 1024, 64, [⟨63, 32, .rw, 0⟩, ⟨31, 24, .rw, 0⟩]⟩
  | .epbToW5 => ⟨0x1024028, 0x40000, 64, 0x40, 1024, 64, [⟨56, 0, .rw, 0⟩]⟩
  | .epbToW6 => ⟨0x1024030, 0x40000, 64, 0x40, 1024, 64, [⟨63, 32, .ro, 0⟩]⟩
  | .epbToW7 => ⟨0x1024038, 0x40000, 64, 0x40, 1024, 64, [⟨63, 61, .ro, 0⟩, ⟨60, 57, .ro, 0⟩, ⟨56, 56, .wo, 0⟩, ⟨55, 55, .wo, 0⟩]⟩
  | .epbNctrW0 => ⟨0x1034000, 0x40000, 64, 0x10, 256, 64, [⟨63, 63, .rw, 0⟩, ⟨55, 48, .rw, 0⟩, ⟨31, 0, .ro, 0⟩]⟩
  | .epbNctrW1 => ⟨0x1034008, 0x40000, 64, 0x10, 256, 64, [⟨31, 0, .wo, 0⟩]⟩
  | .spnHregSizes => ⟨0x140800, 0x40, 8, 0x0, 1, 64, [⟨35, 27, .ro, 2⟩, ⟨26, 18, .ro, 382⟩, ⟨17, 9, .ro, 0⟩, ⟨8, 0, .ro, 0⟩]⟩
  | .spnHregState => ⟨0x140808, 0x40, 8, 0x0, 1, 32, [⟨31, 31, .ro, 0⟩, ⟨8, 0, .ro, 0⟩]⟩
  | .spnHregCe => ⟨0x140810, 0x40, 8, 0x0, 1, 32, [⟨31, 0, .ro, 0⟩]⟩
  | .spnHregUe => ⟨0x140814, 0x40, 8, 0x0, 1, 32, [⟨31, 0, .ro, 0⟩]⟩
  | .spnHregLasterr => ⟨0x140818, 0x40, 8, 0x0, 1, 64, [⟨28, 0, .ro, 0⟩]⟩
  | .spnHregScrub => ⟨0x140820, 0x40, 8, 0x0, 1, 32, [⟨31, 31, .rw, 1⟩, ⟨7, 0, .rw, 24⟩]⟩
  | .spnHregScrubpos => ⟨0x140828, 0x40, 8, 0x0, 1, 64, [⟨28, 0, .ro, 0⟩]⟩
  | .rsvHeat => ⟨0x80000, 0x0, 1, 0x0, 1, 64, [⟨63, 48, .rw, 8⟩, ⟨47, 32, .rw, 4⟩, ⟨31, 16, .rw, 1000⟩, ⟨0, 0, .rw, 1⟩]⟩
  | .rsvStat => ⟨0x80008, 0x0, 1, 0x0, 1, 64, [⟨63, 46, .ro, 0⟩, ⟨45, 28, .ro, 0⟩, ⟨27, 20, .ro, 0⟩]⟩
  | .rsvCnt => ⟨0x80010, 0x0, 1, 0x0, 1, 64, [⟨63, 32, .ro, 0⟩, ⟨31, 0, .ro, 0⟩]⟩
  | .rsvBad => ⟨0x80018, 0x0, 1, 0x0, 1, 32, [⟨31, 0, .ro, 0⟩]⟩
  | .rsvStrStat => ⟨0x80100, 0x40, 8, 0x0, 1, 64, [⟨63, 61, .ro, 0⟩, ⟨60, 60, .ro, 0⟩, ⟨59, 40, .ro, 0⟩, ⟨31, 0, .ro, 0⟩]⟩
  | .rsvStrCfg => ⟨0x80108, 0x40, 8, 0x0, 1, 64, [⟨63, 52, .ro, 0⟩, ⟨51, 32, .ro, 0⟩, ⟨31, 0, .ro, 0⟩]⟩
  | .rsvStrOut => ⟨0x80110, 0x40, 8, 0x0, 1, 64, [⟨63, 0, .ro, 0⟩]⟩
  | .rickStat => ⟨0xA0000, 0x0, 1, 0x0, 1, 32, [⟨31, 29, .ro, 0⟩]⟩
  | .rickFree => ⟨0xA0008, 0x0, 1, 0x0, 1, 32, [⟨31, 0, .ro, 0⟩]⟩
  | .rickRetire => ⟨0xA0010, 0x0, 1, 0x0, 1, 32, [⟨31, 0, .ro, 0⟩]⟩
  | .rickJrnl => ⟨0xA0018, 0x0, 1, 0x0, 1, 64, [⟨63, 32, .ro, 0⟩, ⟨15, 0, .rw, 60⟩]⟩
  | .rickCh => ⟨0xA0100, 0x8, 32, 0x0, 1, 32, [⟨31, 31, .ro, 0⟩, ⟨27, 26, .ro, 0⟩, ⟨25, 24, .ro, 0⟩, ⟨15, 0, .ro, 0⟩]⟩
  | .rickObjW0 => ⟨0xB0000, 0x10, 4096, 0x0, 1, 64, [⟨63, 61, .ro, 0⟩, ⟨60, 60, .ro, 0⟩, ⟨59, 55, .ro, 0⟩, ⟨54, 52, .ro, 0⟩, ⟨31, 0, .ro, 0⟩]⟩
  | .rickObjW1 => ⟨0xB0008, 0x10, 4096, 0x0, 1, 64, [⟨63, 32, .ro, 0⟩, ⟨31, 0, .ro, 0⟩]⟩
  | .lnkCtrl => ⟨0xF0000, 0x100, 192, 0x0, 1, 32, [⟨31, 31, .rw, 1⟩, ⟨30, 30, .wo, 0⟩, ⟨29, 29, .rw, 0⟩, ⟨28, 28, .rw, 0⟩, ⟨27, 24, .rw, 3⟩, ⟨23, 16, .rw, 8⟩, ⟨15, 8, .rw, 4⟩]⟩
  | .lnkStat => ⟨0xF0008, 0x100, 192, 0x0, 1, 32, [⟨31, 28, .ro, 0⟩, ⟨27, 27, .ro, 0⟩, ⟨26, 26, .ro, 0⟩, ⟨25, 25, .ro, 0⟩, ⟨23, 16, .ro, 0⟩, ⟨15, 8, .ro, 0⟩]⟩
  | .lnkFec => ⟨0xF0010, 0x100, 192, 0x0, 1, 64, [⟨63, 32, .ro, 0⟩, ⟨31, 0, .ro, 0⟩]⟩
  | .lnkLl => ⟨0xF0018, 0x100, 192, 0x0, 1, 64, [⟨63, 48, .ro, 0⟩, ⟨47, 32, .ro, 0⟩, ⟨31, 16, .ro, 0⟩, ⟨15, 0, .ro, 0⟩]⟩
  | .lnkPeer => ⟨0xF0020, 0x100, 192, 0x0, 1, 32, [⟨31, 0, .ro, 0⟩]⟩
  | .lnkLane => ⟨0xF0040, 0x100, 192, 0x8, 8, 64, [⟨63, 32, .ro, 0⟩, ⟨31, 16, .ro, 0⟩]⟩
  | .lnkPrbs => ⟨0xE0700, 0x0, 1, 0x0, 1, 64, [⟨63, 32, .rw, 200000⟩, ⟨31, 0, .rw, 10000⟩]⟩
  | .optOcPwr => ⟨0xC0000, 0x40, 8, 0x0, 1, 32, [⟨31, 16, .rw, 400⟩, ⟨15, 0, .ro, 0⟩]⟩
  | .optOcStat => ⟨0xC0008, 0x40, 8, 0x0, 1, 32, [⟨31, 31, .ro, 0⟩]⟩
  | .optGCtrl => ⟨0xC1000, 0x800, 32, 0x0, 1, 32, [⟨31, 31, .rw, 1⟩, ⟨30, 30, .rw, 1⟩, ⟨23, 20, .rw, 4⟩, ⟨19, 16, .rw, 4⟩, ⟨15, 8, .rw, 179⟩, ⟨7, 0, .rw, 77⟩]⟩
  | .optGStat => ⟨0xC1008, 0x800, 32, 0x0, 1, 32, [⟨31, 27, .ro, 0⟩, ⟨26, 25, .ro, 0⟩, ⟨24, 24, .ro, 0⟩, ⟨15, 0, .ro, 0⟩]⟩
  | .optGRing => ⟨0xC1100, 0x800, 32, 0x8, 80, 64, [⟨63, 61, .ro, 0⟩, ⟨60, 56, .ro, 0⟩, ⟨47, 32, .ro, 0⟩, ⟨27, 16, .ro, 0⟩, ⟨11, 0, .ro, 0⟩]⟩
  | .optGLanemap => ⟨0xC1400, 0x800, 32, 0x40, 4, 64, [⟨63, 0, .ro, 0⟩]⟩
  | .optGBurst => ⟨0xC1408, 0x800, 32, 0x40, 4, 64, [⟨63, 32, .ro, 0⟩, ⟨31, 0, .ro, 0⟩]⟩
  | .optGFail => ⟨0xC1410, 0x800, 32, 0x40, 4, 32, [⟨31, 16, .ro, 0⟩, ⟨15, 0, .ro, 0⟩]⟩
  | .optGVisits => ⟨0xC1418, 0x800, 32, 0x40, 4, 32, [⟨31, 0, .ro, 0⟩]⟩
  | .klnState => ⟨0x10000, 0x0, 1, 0x0, 1, 32, [⟨31, 29, .ro, 0⟩, ⟨28, 28, .ro, 0⟩, ⟨27, 27, .ro, 0⟩]⟩
  | .klnTenant => ⟨0x10008, 0x8, 6, 0x0, 1, 64, [⟨63, 0, .ro, 0⟩]⟩
  | .klnDevid => ⟨0x10040, 0x8, 2, 0x0, 1, 64, [⟨63, 0, .ro, 0⟩]⟩
  | .klnFwver => ⟨0x10050, 0x0, 1, 0x0, 1, 64, [⟨63, 32, .ro, 0⟩, ⟨31, 0, .ro, 0⟩]⟩
  | .klnBoot => ⟨0x10058, 0x0, 1, 0x0, 1, 32, [⟨31, 0, .ro, 0⟩]⟩
  | .klnErases => ⟨0x10060, 0x0, 1, 0x0, 1, 32, [⟨31, 0, .ro, 0⟩]⟩
  | .cmdIdent => ⟨0x0, 0x0, 1, 0x0, 1, 64, [⟨63, 48, .ro, 12800⟩, ⟨47, 32, .ro, 0⟩, ⟨31, 24, .ro, 0⟩, ⟨23, 16, .ro, 1⟩]⟩
  | .cmdCtrl => ⟨0x10, 0x0, 1, 0x0, 1, 32, [⟨8, 8, .ro, 0⟩, ⟨7, 0, .ro, 0⟩]⟩
  | .cmdMpMac => ⟨0x100, 0x40, 2, 0x0, 1, 64, [⟨47, 0, .ro, 0⟩]⟩
  | .cmdMpCfg => ⟨0x108, 0x40, 2, 0x0, 1, 32, [⟨31, 31, .rw, 0⟩, ⟨23, 16, .rw, 5⟩, ⟨15, 0, .rw, 34997⟩]⟩
  | .cmdMpPeer => ⟨0x110, 0x40, 2, 0x0, 1, 64, [⟨47, 0, .rw, 0⟩]⟩
  | .cmdMpStat => ⟨0x118, 0x40, 2, 0x0, 1, 32, [⟨31, 31, .ro, 0⟩, ⟨30, 29, .ro, 0⟩, ⟨15, 0, .ro, 0⟩]⟩
  | .cmdMpEmber => ⟨0x120, 0x40, 2, 0x0, 1, 64, [⟨63, 0, .ro, 0⟩]⟩
  | .cmdMpEmbert => ⟨0x128, 0x40, 2, 0x0, 1, 64, [⟨63, 0, .ro, 0⟩]⟩
  | .cmdMpFrames => ⟨0x130, 0x40, 2, 0x0, 1, 64, [⟨63, 32, .ro, 0⟩, ⟨31, 16, .ro, 0⟩, ⟨15, 0, .ro, 0⟩]⟩
  | .cmdPstatCnt => ⟨0x200, 0x20, 4, 0x0, 1, 64, [⟨63, 32, .ro, 0⟩, ⟨31, 16, .ro, 0⟩, ⟨15, 0, .ro, 0⟩]⟩
  | .cmdPstatErr => ⟨0x208, 0x20, 4, 0x0, 1, 64, [⟨63, 32, .ro, 0⟩, ⟨31, 16, .ro, 0⟩, ⟨15, 0, .ro, 0⟩]⟩
  | .cmdPstatEvtmask => ⟨0x210, 0x20, 4, 0x0, 1, 64, [⟨63, 0, .rw, 0⟩]⟩
  | .cmdBarstat => ⟨0x300, 0x8, 2, 0x0, 1, 64, [⟨63, 32, .ro, 0⟩, ⟨31, 0, .ro, 0⟩]⟩
  | .cmdMboxReqBase => ⟨0x400, 0x0, 1, 0x0, 1, 64, [⟨63, 12, .rw, 0⟩]⟩
  | .cmdMboxReqTail => ⟨0x408, 0x0, 1, 0x0, 1, 32, [⟨31, 0, .rw, 0⟩]⟩
  | .cmdMboxReqHead => ⟨0x40C, 0x0, 1, 0x0, 1, 32, [⟨31, 0, .ro, 0⟩]⟩
  | .cmdMboxRspBase => ⟨0x410, 0x0, 1, 0x0, 1, 64, [⟨63, 12, .rw, 0⟩]⟩
  | .cmdMboxRspCtrl => ⟨0x418, 0x0, 1, 0x0, 1, 32, [⟨31, 31, .rw, 0⟩, ⟨30, 30, .rw, 0⟩, ⟨19, 16, .rw, 4⟩, ⟨10, 0, .rw, 0⟩]⟩
  | .cmdMboxRspHead => ⟨0x41C, 0x0, 1, 0x0, 1, 32, [⟨31, 0, .rw, 0⟩]⟩
  | .cmdMboxRspTail => ⟨0x420, 0x0, 1, 0x0, 1, 32, [⟨31, 0, .ro, 0⟩]⟩
  | .cmdMboxLost => ⟨0x424, 0x0, 1, 0x0, 1, 32, [⟨31, 0, .ro, 0⟩]⟩
  | .errCtrl => ⟨0x30000, 0x0, 1, 0x0, 1, 32, [⟨31, 22, .rw, 100⟩, ⟨21, 18, .rw, 4⟩, ⟨17, 8, .rw, 10⟩, ⟨2, 0, .rw, 2⟩]⟩
  | .errStat => ⟨0x30008, 0x0, 1, 0x0, 1, 32, [⟨31, 31, .w1c, 0⟩, ⟨30, 30, .ro, 0⟩, ⟨8, 0, .ro, 0⟩]⟩
  | .errWinfull => ⟨0x30010, 0x0, 1, 0x0, 1, 32, [⟨31, 0, .ro, 0⟩]⟩
  | .errDieCnt0 => ⟨0x30100, 0x20, 15, 0x0, 1, 64, [⟨63, 48, .ro, 0⟩, ⟨47, 32, .ro, 0⟩, ⟨31, 16, .ro, 0⟩, ⟨15, 0, .ro, 0⟩]⟩
  | .errDieCnt1 => ⟨0x30108, 0x20, 15, 0x0, 1, 64, [⟨63, 48, .ro, 0⟩, ⟨47, 32, .ro, 0⟩, ⟨6, 0, .ro, 0⟩]⟩
  | .errDieCap => ⟨0x30110, 0x20, 15, 0x0, 1, 32, [⟨0, 0, .w1c, 0⟩]⟩
  | .errDeststat => ⟨0x30300, 0x8, 4, 0x0, 1, 64, [⟨63, 0, .ro, 0⟩]⟩
  | .errWinW0 => ⟨0x31000, 0x10, 256, 0x0, 1, 64, [⟨63, 63, .ro, 0⟩, ⟨62, 62, .w1c, 0⟩, ⟨61, 58, .ro, 0⟩, ⟨57, 42, .ro, 0⟩]⟩
  | .errWinW1 => ⟨0x31008, 0x10, 256, 0x0, 1, 64, [⟨63, 0, .ro, 0⟩]⟩
  | .errArm => ⟨0x32000, 0x8, 32, 0x0, 1, 64, [⟨63, 0, .ro, 0⟩]⟩
  | .pwrDamp => ⟨0x20000, 0x0, 1, 0x0, 1, 64, [⟨63, 48, .rw, 3000⟩, ⟨31, 20, .rw, 20⟩, ⟨19, 8, .rw, 40⟩, ⟨7, 0, .rw, 2⟩]⟩
  | .pwrDampstat => ⟨0x20008, 0x0, 1, 0x0, 1, 64, [⟨63, 32, .ro, 0⟩, ⟨31, 16, .ro, 0⟩, ⟨15, 0, .w1c, 0⟩]⟩
  | .pwrSmoulder => ⟨0x20010, 0x0, 1, 0x0, 1, 32, [⟨31, 31, .rw, 0⟩, ⟨30, 16, .rw, 0⟩, ⟨15, 0, .rw, 100⟩]⟩
  | .pwrDwell => ⟨0x20018, 0x0, 1, 0x0, 1, 64, [⟨47, 32, .rw, 10⟩, ⟨31, 16, .rw, 100⟩, ⟨15, 0, .rw, 10⟩]⟩
  | .pwrEst => ⟨0x20020, 0x0, 1, 0x0, 1, 64, [⟨63, 48, .ro, 0⟩, ⟨47, 32, .ro, 0⟩, ⟨31, 16, .ro, 0⟩, ⟨15, 15, .ro, 1⟩, ⟨14, 0, .ro, 0⟩]⟩
  | .pwrRegcmp => ⟨0x20028, 0x0, 1, 0x0, 1, 32, [⟨31, 24, .rw, 15⟩, ⟨23, 16, .rw, 4⟩, ⟨0, 0, .wo, 0⟩]⟩
  | .pwrCap => ⟨0x20030, 0x0, 1, 0x0, 1, 64, [⟨63, 48, .ro, 0⟩, ⟨31, 31, .ro, 0⟩, ⟨30, 30, .ro, 0⟩, ⟨29, 26, .ro, 0⟩]⟩
  | .pwrTherm => ⟨0x20038, 0x0, 1, 0x0, 1, 32, [⟨31, 24, .ro, 0⟩, ⟨23, 20, .ro, 0⟩, ⟨19, 16, .ro, 0⟩, ⟨15, 15, .ro, 0⟩, ⟨14, 12, .ro, 0⟩, ⟨1, 0, .ro, 0⟩]⟩
  | .pwrTemp => ⟨0x20100, 0x8, 23, 0x0, 1, 32, [⟨15, 8, .ro, 0⟩, ⟨7, 0, .ro, 0⟩]⟩
  | .pwrFunc => ⟨0x20200, 0x8, 10, 0x0, 1, 32, [⟨15, 0, .ro, 0⟩]⟩
  | .pwrDomW0 => ⟨0x20400, 0x10, 50, 0x0, 1, 64, [⟨63, 62, .ro, 0⟩, ⟨61, 60, .ro, 0⟩, ⟨55, 48, .ro, 0⟩, ⟨47, 40, .ro, 0⟩]⟩
  | .pwrDomW1 => ⟨0x20408, 0x10, 50, 0x0, 1, 64, [⟨63, 32, .ro, 0⟩, ⟨31, 0, .ro, 0⟩]⟩
  | .cmdBootW0 => ⟨0x500, 0x0, 1, 0x0, 1, 64, [⟨63, 61, .ro, 0⟩, ⟨60, 60, .ro, 0⟩, ⟨59, 58, .ro, 0⟩, ⟨55, 48, .ro, 0⟩, ⟨47, 40, .ro, 0⟩]⟩
  | .cmdBootW1 => ⟨0x508, 0x0, 1, 0x0, 1, 64, [⟨63, 0, .ro, 0⟩]⟩
  | .cmdHeld0 => ⟨0x520, 0x0, 1, 0x0, 1, 64, [⟨63, 0, .ro, 0⟩]⟩
  | .cmdHeld1 => ⟨0x528, 0x0, 1, 0x0, 1, 64, [⟨42, 41, .ro, 0⟩, ⟨40, 37, .ro, 0⟩, ⟨36, 35, .ro, 0⟩, ⟨34, 34, .ro, 0⟩, ⟨33, 32, .ro, 0⟩, ⟨31, 24, .ro, 0⟩, ⟨23, 16, .ro, 0⟩, ⟨15, 0, .ro, 0⟩]⟩
  | .sbdCtrl => ⟨0x60000, 0x0, 1, 0x0, 1, 32, [⟨31, 31, .wo, 0⟩, ⟨30, 30, .rw, 1⟩, ⟨7, 0, .rw, 1⟩]⟩
  | .sbdStat => ⟨0x60008, 0x0, 1, 0x0, 1, 32, [⟨31, 31, .ro, 0⟩, ⟨30, 30, .ro, 0⟩, ⟨29, 23, .ro, 0⟩, ⟨15, 0, .ro, 0⟩]⟩
  | .sbdRegW0 => ⟨0x60100, 0x10, 16, 0x0, 1, 64, [⟨63, 63, .rw, 0⟩, ⟨62, 62, .rw, 0⟩, ⟨61, 60, .rw, 0⟩, ⟨22, 16, .rw, 0⟩, ⟨15, 0, .rw, 16⟩]⟩
  | .sbdRegW1 => ⟨0x60108, 0x10, 16, 0x0, 1, 64, [⟨63, 48, .ro, 0⟩, ⟨47, 32, .ro, 0⟩, ⟨31, 16, .ro, 0⟩, ⟨15, 0, .ro, 0⟩]⟩
  | .crcPoly => ⟨0x50100, 0x40, 16, 0x0, 1, 64, [⟨63, 0, .rwl, 517762881⟩]⟩
  | .crcInit => ⟨0x50108, 0x40, 16, 0x0, 1, 64, [⟨63, 0, .rwl, 4294967295⟩]⟩
  | .crcCfg => ⟨0x50110, 0x40, 16, 0x0, 1, 32, [⟨31, 31, .rwl, 1⟩, ⟨30, 30, .rwl, 1⟩, ⟨6, 0, .rwl, 32⟩]⟩
  | .crcStat => ⟨0x50118, 0x40, 16, 0x0, 1, 64, [⟨63, 62, .ro, 0⟩, ⟨61, 56, .ro, 0⟩, ⟨55, 50, .ro, 0⟩, ⟨39, 0, .ro, 0⟩]⟩
  | .crcValue => ⟨0x50120, 0x40, 16, 0x0, 1, 64, [⟨63, 0, .ro, 0⟩]⟩
  | .crcCtrl => ⟨0x50128, 0x40, 16, 0x0, 1, 32, [⟨0, 0, .wo, 0⟩]⟩
  | .telTime => ⟨0x40000, 0x0, 1, 0x0, 1, 64, [⟨63, 0, .ro, 0⟩]⟩
  | .telTctrl => ⟨0x40008, 0x0, 1, 0x0, 1, 64, [⟨63, 63, .ro, 0⟩, ⟨31, 0, .ro, 0⟩]⟩
  | .telSnapctl => ⟨0x40010, 0x0, 1, 0x0, 1, 32, [⟨0, 0, .wo, 0⟩]⟩
  | .telSnaptime => ⟨0x40018, 0x0, 1, 0x0, 1, 64, [⟨63, 0, .ro, 0⟩]⟩
  | .telPortW0 => ⟨0x41000, 0x10, 124, 0x0, 1, 64, [⟨63, 0, .ro, 0⟩]⟩
  | .telPortW1 => ⟨0x41008, 0x10, 124, 0x0, 1, 64, [⟨63, 0, .ro, 0⟩]⟩
  | .telShadW0 => ⟨0x42000, 0x10, 124, 0x0, 1, 64, [⟨63, 0, .ro, 0⟩]⟩
  | .telShadW1 => ⟨0x42008, 0x10, 124, 0x0, 1, 64, [⟨63, 0, .ro, 0⟩]⟩
  | .hubCoppiceCtrl => ⟨0x200180, 0x0, 1, 0x0, 1, 64, [⟨63, 62, .ro, 0⟩, ⟨47, 32, .ro, 0⟩, ⟨11, 8, .ro, 0⟩, ⟨6, 0, .ro, 0⟩]⟩
  | .hubCoppiceLim => ⟨0x200188, 0x0, 1, 0x0, 1, 32, [⟨19, 0, .rw, 65536⟩]⟩
  | .hubCoppiceSum => ⟨0x200190, 0x0, 1, 0x0, 1, 64, [⟨63, 0, .ro, 0⟩]⟩
  | .hubCoppiceCnt => ⟨0x200198, 0x0, 1, 0x0, 1, 64, [⟨63, 32, .ro, 0⟩, ⟨31, 0, .ro, 0⟩]⟩
  | .hubCoppiceLoss => ⟨0x2001A0, 0x0, 1, 0x0, 1, 64, [⟨63, 32, .ro, 0⟩, ⟨31, 0, .ro, 0⟩]⟩
  | .hubEprole => ⟨0x220000, 0x40, 256, 0x8, 8, 64, [⟨63, 0, .rw, 0⟩]⟩
  | .errFirst => ⟨0x30400, 0x40, 15, 0x8, 8, 64, [⟨63, 0, .ro, 0⟩]⟩

/-- Register names, part 0. -/
def regNames0 : List RegName := [.epbTxnCtrl, .epbTagLend, .epbTagStat, .epbLateRsp, .epbEpochRej, .epbRole, .hubFence, .epbTwtW0, .epbTwtW1, .epbTwtW2, .epbTwtW3, .epbFasW0, .epbFasW1, .epbXlateCtrl, .epbXlateMiss, .epbXlatePf, .epbZarStat, .epbZarState, .errFringBase, .telHringBase]
/-- Register names, part 1. -/
def regNames1 : List RegName := [.errFringCtrl, .telHringCtrl, .errFringHead, .telHringHead, .errFringTail, .telHringTail, .errFringLost, .telHringLost, .epbHeatCtrl, .epbParkStat, .epbParkRings, .lnkHwinWbase, .lnkHwinWlim, .epbRingBase, .epbRingCqbase, .epbRingCfg, .epbRingTail, .epbRingLow, .epbRingFetch, .epbRingFill]
/-- Register names, part 2. -/
def regNames2 : List RegName := [.epbRingStat, .epbRingRej, .epbVisCtrl, .epbTileCompat, .epbRrcStat, .hubCoord, .hubCmark, .hubMcrow, .hubMccol, .hubDestDown, .hubRtW0, .hubRtW, .hubMcrtW0, .hubMcrtW1, .epbCcCtrl, .epbCcRate, .hubHold, .hubFreeReq, .hubFreeRsp, .hubFreeMc]
/-- Register names, part 3. -/
def regNames3 : List RegName := [.hubBufstat, .hubLink, .hubInlim, .hubEglim, .hubMirsamp, .hubMirringBase, .hubMirringCtrl, .hubMirringHead, .hubMirringTail, .hubMirringLost, .hubSchedCtrl, .hubBoundstat, .hubSchedMode0, .hubSchedMode1, .hubVcw, .hubQW0, .hubQW1, .epbAdm, .epbAdmDemote, .spnQuota]
/-- Register names, part 4. -/
def regNames4 : List RegName := [.spnQstat, .spnProg, .spnProgd, .spnCtxW0, .spnCtxW1, .spnThrW0, .spnThrW1, .spnCsaElems, .spnCsaFail, .spnBdaOut, .spnBdaSpec, .epbNiCtrl, .epbNiStat, .epbToW0, .epbToW1, .epbToW2, .epbToW3, .epbToW4, .epbToW5, .epbToW6]
/-- Register names, part 5. -/
def regNames5 : List RegName := [.epbToW7, .epbNctrW0, .epbNctrW1, .spnHregSizes, .spnHregState, .spnHregCe, .spnHregUe, .spnHregLasterr, .spnHregScrub, .spnHregScrubpos, .rsvHeat, .rsvStat, .rsvCnt, .rsvBad, .rsvStrStat, .rsvStrCfg, .rsvStrOut, .rickStat, .rickFree, .rickRetire]
/-- Register names, part 6. -/
def regNames6 : List RegName := [.rickJrnl, .rickCh, .rickObjW0, .rickObjW1, .lnkCtrl, .lnkStat, .lnkFec, .lnkLl, .lnkPeer, .lnkLane, .lnkPrbs, .optOcPwr, .optOcStat, .optGCtrl, .optGStat, .optGRing, .optGLanemap, .optGBurst, .optGFail, .optGVisits]
/-- Register names, part 7. -/
def regNames7 : List RegName := [.klnState, .klnTenant, .klnDevid, .klnFwver, .klnBoot, .klnErases, .cmdIdent, .cmdCtrl, .cmdMpMac, .cmdMpCfg, .cmdMpPeer, .cmdMpStat, .cmdMpEmber, .cmdMpEmbert, .cmdMpFrames, .cmdPstatCnt, .cmdPstatErr, .cmdPstatEvtmask, .cmdBarstat, .cmdMboxReqBase]
/-- Register names, part 8. -/
def regNames8 : List RegName := [.cmdMboxReqTail, .cmdMboxReqHead, .cmdMboxRspBase, .cmdMboxRspCtrl, .cmdMboxRspHead, .cmdMboxRspTail, .cmdMboxLost, .errCtrl, .errStat, .errWinfull, .errDieCnt0, .errDieCnt1, .errDieCap, .errDeststat, .errWinW0, .errWinW1, .errArm, .pwrDamp, .pwrDampstat, .pwrSmoulder]
/-- Register names, part 9. -/
def regNames9 : List RegName := [.pwrDwell, .pwrEst, .pwrRegcmp, .pwrCap, .pwrTherm, .pwrTemp, .pwrFunc, .pwrDomW0, .pwrDomW1, .cmdBootW0, .cmdBootW1, .cmdHeld0, .cmdHeld1, .sbdCtrl, .sbdStat, .sbdRegW0, .sbdRegW1, .crcPoly, .crcInit, .crcCfg]
/-- Register names, part 10. -/
def regNames10 : List RegName := [.crcStat, .crcValue, .crcCtrl, .telTime, .telTctrl, .telSnapctl, .telSnaptime, .telPortW0, .telPortW1, .telShadW0, .telShadW1, .hubCoppiceCtrl, .hubCoppiceLim, .hubCoppiceSum, .hubCoppiceCnt, .hubCoppiceLoss, .hubEprole, .errFirst]
/-- Every register name, in the order of the chapters. -/
def allRegs : List RegName :=
  List.flatten [regNames0, regNames1, regNames2, regNames3, regNames4, regNames5, regNames6, regNames7, regNames8, regNames9, regNames10]

/-- R54: DEAD_BOUND. -/
abbrev Fld.epbTxnCtrl_DEAD_BOUND : Fld := ⟨.epbTxnCtrl, 9, 0⟩
/-- R55: SPN_LEND. -/
abbrev Fld.epbTagLend_SPN_LEND : Fld := ⟨.epbTagLend, 12, 8⟩
/-- R55: HOST_LEND. -/
abbrev Fld.epbTagLend_HOST_LEND : Fld := ⟨.epbTagLend, 5, 0⟩
/-- R56: IN_USE. -/
abbrev Fld.epbTagStat_IN_USE : Fld := ⟨.epbTagStat, 12, 0⟩
/-- R56: LATE. -/
abbrev Fld.epbLateRsp_LATE : Fld := ⟨.epbLateRsp, 31, 0⟩
/-- R56: FENCED_CNT. -/
abbrev Fld.epbEpochRej_FENCED_CNT : Fld := ⟨.epbEpochRej, 31, 16⟩
/-- R56: STALE_CNT. -/
abbrev Fld.epbEpochRej_STALE_CNT : Fld := ⟨.epbEpochRej, 15, 0⟩
/-- R57: ROLE_EPOCH. -/
abbrev Fld.epbRole_ROLE_EPOCH : Fld := ⟨.epbRole, 7, 0⟩
/-- R58: NEXT_OK. -/
abbrev Fld.hubFence_NEXT_OK : Fld := ⟨.hubFence, 17, 17⟩
/-- R58: PREV_OK. -/
abbrev Fld.hubFence_PREV_OK : Fld := ⟨.hubFence, 16, 16⟩
/-- R58: STAMP. -/
abbrev Fld.hubFence_STAMP : Fld := ⟨.hubFence, 15, 0⟩
/-- R85: EN. -/
abbrev Fld.epbTwtW0_EN : Fld := ⟨.epbTwtW0, 63, 63⟩
/-- R85: RD. -/
abbrev Fld.epbTwtW0_RD : Fld := ⟨.epbTwtW0, 60, 60⟩
/-- R85: WR. -/
abbrev Fld.epbTwtW0_WR : Fld := ⟨.epbTwtW0, 59, 59⟩
/-- R85: AT. -/
abbrev Fld.epbTwtW0_AT : Fld := ⟨.epbTwtW0, 58, 58⟩
/-- R85: BASE. -/
abbrev Fld.epbTwtW0_BASE : Fld := ⟨.epbTwtW0, 44, 16⟩
/-- R85: LIMIT. -/
abbrev Fld.epbTwtW1_LIMIT : Fld := ⟨.epbTwtW1, 44, 16⟩
/-- R85: SRC_MODE. -/
abbrev Fld.epbTwtW2_SRC_MODE : Fld := ⟨.epbTwtW2, 63, 62⟩
/-- R85: SRC. -/
abbrev Fld.epbTwtW2_SRC : Fld := ⟨.epbTwtW2, 61, 43⟩
/-- R85: KSEL_REQ. -/
abbrev Fld.epbTwtW2_KSEL_REQ : Fld := ⟨.epbTwtW2, 42, 37⟩
/-- R85: TROOT. -/
abbrev Fld.epbTwtW3_TROOT : Fld := ⟨.epbTwtW3, 51, 12⟩
/-- R86: EN. -/
abbrev Fld.epbFasW0_EN : Fld := ⟨.epbFasW0, 63, 63⟩
/-- R86: LEVELS. -/
abbrev Fld.epbFasW0_LEVELS : Fld := ⟨.epbFasW0, 62, 60⟩
/-- R86: ROOT. -/
abbrev Fld.epbFasW0_ROOT : Fld := ⟨.epbFasW0, 51, 12⟩
/-- R87: PF_WALKS. -/
abbrev Fld.epbXlateCtrl_PF_WALKS : Fld := ⟨.epbXlateCtrl, 13, 8⟩
/-- R87: PF_DEPTH. -/
abbrev Fld.epbXlateCtrl_PF_DEPTH : Fld := ⟨.epbXlateCtrl, 6, 0⟩
/-- R87: MISS. -/
abbrev Fld.epbXlateMiss_MISS : Fld := ⟨.epbXlateMiss, 31, 0⟩
/-- R87: PF. -/
abbrev Fld.epbXlatePf_PF : Fld := ⟨.epbXlatePf, 31, 0⟩
/-- R87: LATE_TGT. -/
abbrev Fld.epbZarStat_LATE_TGT : Fld := ⟨.epbZarStat, 31, 16⟩
/-- R87: STALE_TOKEN. -/
abbrev Fld.epbZarStat_STALE_TOKEN : Fld := ⟨.epbZarStat, 15, 0⟩
/-- R87: IDENT_OK. -/
abbrev Fld.epbZarState_IDENT_OK : Fld := ⟨.epbZarState, 31, 31⟩
/-- R87: TGT_MAX. -/
abbrev Fld.epbZarState_TGT_MAX : Fld := ⟨.epbZarState, 27, 16⟩
/-- R87: SLOTS_USED. -/
abbrev Fld.epbZarState_SLOTS_USED : Fld := ⟨.epbZarState, 8, 0⟩
/-- R108: ADDR. -/
abbrev Fld.errFringBase_ADDR : Fld := ⟨.errFringBase, 63, 12⟩
/-- R108: ADDR. -/
abbrev Fld.telHringBase_ADDR : Fld := ⟨.telHringBase, 63, 12⟩
/-- R108: EN. -/
abbrev Fld.errFringCtrl_EN : Fld := ⟨.errFringCtrl, 31, 31⟩
/-- R108: ALL. -/
abbrev Fld.errFringCtrl_ALL : Fld := ⟨.errFringCtrl, 30, 30⟩
/-- R108: SIZE. -/
abbrev Fld.errFringCtrl_SIZE : Fld := ⟨.errFringCtrl, 19, 16⟩
/-- R108: VEC. -/
abbrev Fld.errFringCtrl_VEC : Fld := ⟨.errFringCtrl, 10, 0⟩
/-- R108: EN. -/
abbrev Fld.telHringCtrl_EN : Fld := ⟨.telHringCtrl, 31, 31⟩
/-- R108: SIZE. -/
abbrev Fld.telHringCtrl_SIZE : Fld := ⟨.telHringCtrl, 19, 16⟩
/-- R108: VEC. -/
abbrev Fld.telHringCtrl_VEC : Fld := ⟨.telHringCtrl, 10, 0⟩
/-- R108: HEAD. -/
abbrev Fld.errFringHead_HEAD : Fld := ⟨.errFringHead, 15, 0⟩
/-- R108: HEAD. -/
abbrev Fld.telHringHead_HEAD : Fld := ⟨.telHringHead, 15, 0⟩
/-- R108: TAIL. -/
abbrev Fld.errFringTail_TAIL : Fld := ⟨.errFringTail, 15, 0⟩
/-- R108: TAIL. -/
abbrev Fld.telHringTail_TAIL : Fld := ⟨.telHringTail, 15, 0⟩
/-- R108: LOST. -/
abbrev Fld.errFringLost_LOST : Fld := ⟨.errFringLost, 31, 0⟩
/-- R108: LOST. -/
abbrev Fld.telHringLost_LOST : Fld := ⟨.telHringLost, 31, 0⟩
/-- R109: EN. -/
abbrev Fld.epbHeatCtrl_EN : Fld := ⟨.epbHeatCtrl, 31, 31⟩
/-- R109: PERIOD. -/
abbrev Fld.epbHeatCtrl_PERIOD : Fld := ⟨.epbHeatCtrl, 27, 16⟩
/-- R109: THRESH. -/
abbrev Fld.epbHeatCtrl_THRESH : Fld := ⟨.epbHeatCtrl, 11, 0⟩
/-- R109: PARKED. -/
abbrev Fld.epbParkStat_PARKED : Fld := ⟨.epbParkStat, 9, 0⟩
/-- R109: RINGS. -/
abbrev Fld.epbParkRings_RINGS : Fld := ⟨.epbParkRings, 63, 0⟩
/-- R109: WBASE. -/
abbrev Fld.lnkHwinWbase_WBASE : Fld := ⟨.lnkHwinWbase, 63, 12⟩
/-- R109: EN. -/
abbrev Fld.lnkHwinWlim_EN : Fld := ⟨.lnkHwinWlim, 63, 63⟩
/-- R109: WLIM. -/
abbrev Fld.lnkHwinWlim_WLIM : Fld := ⟨.lnkHwinWlim, 44, 12⟩
/-- R129: ADDR. -/
abbrev Fld.epbRingBase_ADDR : Fld := ⟨.epbRingBase, 51, 12⟩
/-- R129: ADDR. -/
abbrev Fld.epbRingCqbase_ADDR : Fld := ⟨.epbRingCqbase, 51, 12⟩
/-- R129: DB_SRC_MODE. -/
abbrev Fld.epbRingCfg_DB_SRC_MODE : Fld := ⟨.epbRingCfg, 63, 62⟩
/-- R129: DB_SRC. -/
abbrev Fld.epbRingCfg_DB_SRC : Fld := ⟨.epbRingCfg, 61, 43⟩
/-- R129: VEC. -/
abbrev Fld.epbRingCfg_VEC : Fld := ⟨.epbRingCfg, 42, 32⟩
/-- R129: FAS. -/
abbrev Fld.epbRingCfg_FAS : Fld := ⟨.epbRingCfg, 31, 20⟩
/-- R129: ORDER. -/
abbrev Fld.epbRingCfg_ORDER : Fld := ⟨.epbRingCfg, 19, 16⟩
/-- R129: PUSH. -/
abbrev Fld.epbRingCfg_PUSH : Fld := ⟨.epbRingCfg, 15, 15⟩
/-- R129: STOP_ON_ERR. -/
abbrev Fld.epbRingCfg_STOP_ON_ERR : Fld := ⟨.epbRingCfg, 14, 14⟩
/-- R129: ENG_MAX. -/
abbrev Fld.epbRingCfg_ENG_MAX : Fld := ⟨.epbRingCfg, 11, 8⟩
/-- R129: ENG_MIN. -/
abbrev Fld.epbRingCfg_ENG_MIN : Fld := ⟨.epbRingCfg, 7, 4⟩
/-- R129: TAIL. -/
abbrev Fld.epbRingTail_TAIL : Fld := ⟨.epbRingTail, 31, 0⟩
/-- R129: LOW. -/
abbrev Fld.epbRingLow_LOW : Fld := ⟨.epbRingLow, 31, 0⟩
/-- R129: FETCH. -/
abbrev Fld.epbRingFetch_FETCH : Fld := ⟨.epbRingFetch, 31, 0⟩
/-- R129: FILL. -/
abbrev Fld.epbRingFill_FILL : Fld := ⟨.epbRingFill, 34, 0⟩
/-- R129: STATE. -/
abbrev Fld.epbRingStat_STATE : Fld := ⟨.epbRingStat, 31, 29⟩
/-- R129: ENG_USE. -/
abbrev Fld.epbRingStat_ENG_USE : Fld := ⟨.epbRingStat, 28, 25⟩
/-- R129: PARKED. -/
abbrev Fld.epbRingStat_PARKED : Fld := ⟨.epbRingStat, 24, 21⟩
/-- R129: REJ. -/
abbrev Fld.epbRingRej_REJ : Fld := ⟨.epbRingRej, 31, 0⟩
/-- R146: INVAL. -/
abbrev Fld.epbVisCtrl_INVAL : Fld := ⟨.epbVisCtrl, 2, 2⟩
/-- R146: ACQ_SCOPE. -/
abbrev Fld.epbVisCtrl_ACQ_SCOPE : Fld := ⟨.epbVisCtrl, 1, 1⟩
/-- R146: RRC_EN. -/
abbrev Fld.epbVisCtrl_RRC_EN : Fld := ⟨.epbVisCtrl, 0, 0⟩
/-- R146: RING_MASK. -/
abbrev Fld.epbTileCompat_RING_MASK : Fld := ⟨.epbTileCompat, 63, 0⟩
/-- R146: HIT. -/
abbrev Fld.epbRrcStat_HIT : Fld := ⟨.epbRrcStat, 63, 32⟩
/-- R146: MISS. -/
abbrev Fld.epbRrcStat_MISS : Fld := ⟨.epbRrcStat, 31, 0⟩
/-- R169: X. -/
abbrev Fld.hubCoord_X : Fld := ⟨.hubCoord, 11, 8⟩
/-- R169: Y. -/
abbrev Fld.hubCoord_Y : Fld := ⟨.hubCoord, 7, 4⟩
/-- R169: P. -/
abbrev Fld.hubCoord_P : Fld := ⟨.hubCoord, 3, 0⟩
/-- R169: MARK2. -/
abbrev Fld.hubCmark_MARK2 : Fld := ⟨.hubCmark, 31, 16⟩
/-- R169: MARK1. -/
abbrev Fld.hubCmark_MARK1 : Fld := ⟨.hubCmark, 15, 0⟩
/-- R169: EN. -/
abbrev Fld.hubMcrow_EN : Fld := ⟨.hubMcrow, 31, 31⟩
/-- R169: PORT. -/
abbrev Fld.hubMcrow_PORT : Fld := ⟨.hubMcrow, 8, 2⟩
/-- R169: FIBRE. -/
abbrev Fld.hubMcrow_FIBRE : Fld := ⟨.hubMcrow, 1, 0⟩
/-- R169: EN. -/
abbrev Fld.hubMccol_EN : Fld := ⟨.hubMccol, 31, 31⟩
/-- R169: PORT. -/
abbrev Fld.hubMccol_PORT : Fld := ⟨.hubMccol, 8, 2⟩
/-- R169: FIBRE. -/
abbrev Fld.hubMccol_FIBRE : Fld := ⟨.hubMccol, 1, 0⟩
/-- R169: DOWN. -/
abbrev Fld.hubDestDown_DOWN : Fld := ⟨.hubDestDown, 63, 0⟩
/-- R170: V. -/
abbrev Fld.hubRtW0_V : Fld := ⟨.hubRtW0, 63, 63⟩
/-- R170: OHOPS. -/
abbrev Fld.hubRtW0_OHOPS : Fld := ⟨.hubRtW0, 62, 60⟩
/-- R170: NALT. -/
abbrev Fld.hubRtW0_NALT : Fld := ⟨.hubRtW0, 59, 58⟩
/-- R170: ALLOW. -/
abbrev Fld.hubRtW0_ALLOW : Fld := ⟨.hubRtW0, 57, 57⟩
/-- R170: HOPS. -/
abbrev Fld.hubRtW0_HOPS : Fld := ⟨.hubRtW0, 39, 0⟩
/-- R170: V. -/
abbrev Fld.hubRtW_V : Fld := ⟨.hubRtW, 63, 63⟩
/-- R170: OHOPS. -/
abbrev Fld.hubRtW_OHOPS : Fld := ⟨.hubRtW, 62, 60⟩
/-- R170: HOPS. -/
abbrev Fld.hubRtW_HOPS : Fld := ⟨.hubRtW, 39, 0⟩
/-- R171: V. -/
abbrev Fld.hubMcrtW0_V : Fld := ⟨.hubMcrtW0, 63, 63⟩
/-- R171: HOPCNT. -/
abbrev Fld.hubMcrtW0_HOPCNT : Fld := ⟨.hubMcrtW0, 62, 60⟩
/-- R171: ROUTE. -/
abbrev Fld.hubMcrtW0_ROUTE : Fld := ⟨.hubMcrtW0, 59, 0⟩
/-- R171: ROLE. -/
abbrev Fld.hubMcrtW1_ROLE : Fld := ⟨.hubMcrtW1, 7, 0⟩
/-- R172: EN. -/
abbrev Fld.epbCcCtrl_EN : Fld := ⟨.epbCcCtrl, 31, 31⟩
/-- R172: INC_PERIOD. -/
abbrev Fld.epbCcCtrl_INC_PERIOD : Fld := ⟨.epbCcCtrl, 27, 24⟩
/-- R172: INC_STEP. -/
abbrev Fld.epbCcCtrl_INC_STEP : Fld := ⟨.epbCcCtrl, 23, 16⟩
/-- R172: DEC_GAP. -/
abbrev Fld.epbCcCtrl_DEC_GAP : Fld := ⟨.epbCcCtrl, 15, 12⟩
/-- R172: RATE_MIN. -/
abbrev Fld.epbCcCtrl_RATE_MIN : Fld := ⟨.epbCcCtrl, 10, 0⟩
/-- R172: RATE. -/
abbrev Fld.epbCcRate_RATE : Fld := ⟨.epbCcRate, 10, 0⟩
/-- R193: HOLD_EFF. -/
abbrev Fld.hubHold_HOLD_EFF : Fld := ⟨.hubHold, 31, 22⟩
/-- R193: HOLD_LIM. -/
abbrev Fld.hubHold_HOLD_LIM : Fld := ⟨.hubHold, 17, 10⟩
/-- R193: HOLD_TIME. -/
abbrev Fld.hubHold_HOLD_TIME : Fld := ⟨.hubHold, 9, 0⟩
/-- R193: REQ. -/
abbrev Fld.hubFreeReq_REQ : Fld := ⟨.hubFreeReq, 31, 0⟩
/-- R193: RSP. -/
abbrev Fld.hubFreeRsp_RSP : Fld := ⟨.hubFreeRsp, 31, 0⟩
/-- R193: MC. -/
abbrev Fld.hubFreeMc_MC : Fld := ⟨.hubFreeMc, 31, 0⟩
/-- R193: PEAK. -/
abbrev Fld.hubBufstat_PEAK : Fld := ⟨.hubBufstat, 50, 32⟩
/-- R193: USED. -/
abbrev Fld.hubBufstat_USED : Fld := ⟨.hubBufstat, 18, 0⟩
/-- R193: ADMIN. -/
abbrev Fld.hubLink_ADMIN : Fld := ⟨.hubLink, 31, 31⟩
/-- R193: HELD. -/
abbrev Fld.hubLink_HELD : Fld := ⟨.hubLink, 27, 8⟩
/-- R193: STATE. -/
abbrev Fld.hubLink_STATE : Fld := ⟨.hubLink, 2, 0⟩
/-- R194: OCC. -/
abbrev Fld.hubInlim_OCC : Fld := ⟨.hubInlim, 63, 44⟩
/-- R194: LIM. -/
abbrev Fld.hubInlim_LIM : Fld := ⟨.hubInlim, 39, 20⟩
/-- R194: RES. -/
abbrev Fld.hubInlim_RES : Fld := ⟨.hubInlim, 19, 0⟩
/-- R194: OCC. -/
abbrev Fld.hubEglim_OCC : Fld := ⟨.hubEglim, 63, 44⟩
/-- R194: LIM_EG. -/
abbrev Fld.hubEglim_LIM_EG : Fld := ⟨.hubEglim, 19, 0⟩
/-- R195: EG_EN. -/
abbrev Fld.hubMirsamp_EG_EN : Fld := ⟨.hubMirsamp, 31, 31⟩
/-- R195: IN_EN. -/
abbrev Fld.hubMirsamp_IN_EN : Fld := ⟨.hubMirsamp, 30, 30⟩
/-- R195: NM1. -/
abbrev Fld.hubMirsamp_NM1 : Fld := ⟨.hubMirsamp, 15, 0⟩
/-- R195: ADDR. -/
abbrev Fld.hubMirringBase_ADDR : Fld := ⟨.hubMirringBase, 51, 12⟩
/-- R195: EN. -/
abbrev Fld.hubMirringCtrl_EN : Fld := ⟨.hubMirringCtrl, 31, 31⟩
/-- R195: WRAP. -/
abbrev Fld.hubMirringCtrl_WRAP : Fld := ⟨.hubMirringCtrl, 30, 30⟩
/-- R195: SIZE. -/
abbrev Fld.hubMirringCtrl_SIZE : Fld := ⟨.hubMirringCtrl, 3, 0⟩
/-- R195: HEAD. -/
abbrev Fld.hubMirringHead_HEAD : Fld := ⟨.hubMirringHead, 31, 0⟩
/-- R195: TAIL. -/
abbrev Fld.hubMirringTail_TAIL : Fld := ⟨.hubMirringTail, 31, 0⟩
/-- R195: LOST. -/
abbrev Fld.hubMirringLost_LOST : Fld := ⟨.hubMirringLost, 31, 0⟩
/-- R218: BTC0. -/
abbrev Fld.hubSchedCtrl_BTC0 : Fld := ⟨.hubSchedCtrl, 31, 24⟩
/-- R218: BTC1. -/
abbrev Fld.hubSchedCtrl_BTC1 : Fld := ⟨.hubSchedCtrl, 23, 16⟩
/-- R218: DEMOTE_TC. -/
abbrev Fld.hubSchedCtrl_DEMOTE_TC : Fld := ⟨.hubSchedCtrl, 14, 12⟩
/-- R218: SHAPER_RESET_MODE. -/
abbrev Fld.hubSchedCtrl_SHAPER_RESET_MODE : Fld := ⟨.hubSchedCtrl, 11, 11⟩
/-- R218: LATE1. -/
abbrev Fld.hubBoundstat_LATE1 : Fld := ⟨.hubBoundstat, 63, 32⟩
/-- R218: LATE0. -/
abbrev Fld.hubBoundstat_LATE0 : Fld := ⟨.hubBoundstat, 31, 0⟩
/-- R218: STRICT. -/
abbrev Fld.hubSchedMode0_STRICT : Fld := ⟨.hubSchedMode0, 63, 0⟩
/-- R218: STRICT. -/
abbrev Fld.hubSchedMode1_STRICT : Fld := ⟨.hubSchedMode1, 59, 0⟩
/-- R218: VCW. -/
abbrev Fld.hubVcw_VCW : Fld := ⟨.hubVcw, 63, 0⟩
/-- R219: ROLE. -/
abbrev Fld.hubQW0_ROLE : Fld := ⟨.hubQW0, 63, 56⟩
/-- R219: QW. -/
abbrev Fld.hubQW0_QW : Fld := ⟨.hubQW0, 55, 48⟩
/-- R219: SH_EN. -/
abbrev Fld.hubQW0_SH_EN : Fld := ⟨.hubQW0, 47, 47⟩
/-- R219: SH_BURST. -/
abbrev Fld.hubQW0_SH_BURST : Fld := ⟨.hubQW0, 43, 32⟩
/-- R219: SH_RATE. -/
abbrev Fld.hubQW0_SH_RATE : Fld := ⟨.hubQW0, 13, 0⟩
/-- R219: CELLS. -/
abbrev Fld.hubQW1_CELLS : Fld := ⟨.hubQW1, 63, 44⟩
/-- R219: TOKENS. -/
abbrev Fld.hubQW1_TOKENS : Fld := ⟨.hubQW1, 31, 0⟩
/-- R220: EN. -/
abbrev Fld.epbAdm_EN : Fld := ⟨.epbAdm, 31, 31⟩
/-- R220: RATE. -/
abbrev Fld.epbAdm_RATE : Fld := ⟨.epbAdm, 29, 16⟩
/-- R220: BURST. -/
abbrev Fld.epbAdm_BURST : Fld := ⟨.epbAdm, 11, 0⟩
/-- R220: DEMOTED. -/
abbrev Fld.epbAdmDemote_DEMOTED : Fld := ⟨.epbAdmDemote, 31, 0⟩
/-- R243: THR_MAX. -/
abbrev Fld.spnQuota_THR_MAX : Fld := ⟨.spnQuota, 24, 16⟩
/-- R243: SCR_MAX. -/
abbrev Fld.spnQuota_SCR_MAX : Fld := ⟨.spnQuota, 10, 0⟩
/-- R243: THR_USED. -/
abbrev Fld.spnQstat_THR_USED : Fld := ⟨.spnQstat, 24, 16⟩
/-- R243: SCR_USED. -/
abbrev Fld.spnQstat_SCR_USED : Fld := ⟨.spnQstat, 14, 0⟩
/-- R243: LOADED. -/
abbrev Fld.spnProg_LOADED : Fld := ⟨.spnProg, 31, 31⟩
/-- R243: LEN. -/
abbrev Fld.spnProg_LEN : Fld := ⟨.spnProg, 18, 0⟩
/-- R243: DIGEST. -/
abbrev Fld.spnProgd_DIGEST : Fld := ⟨.spnProgd, 63, 0⟩
/-- R244: EN. -/
abbrev Fld.spnCtxW0_EN : Fld := ⟨.spnCtxW0, 63, 63⟩
/-- R244: RD. -/
abbrev Fld.spnCtxW0_RD : Fld := ⟨.spnCtxW0, 62, 62⟩
/-- R244: WR. -/
abbrev Fld.spnCtxW0_WR : Fld := ⟨.spnCtxW0, 61, 61⟩
/-- R244: AT. -/
abbrev Fld.spnCtxW0_AT : Fld := ⟨.spnCtxW0, 60, 60⟩
/-- R244: ROLE. -/
abbrev Fld.spnCtxW0_ROLE : Fld := ⟨.spnCtxW0, 59, 52⟩
/-- R244: LIMIT. -/
abbrev Fld.spnCtxW0_LIMIT : Fld := ⟨.spnCtxW0, 27, 14⟩
/-- R244: BASE. -/
abbrev Fld.spnCtxW0_BASE : Fld := ⟨.spnCtxW0, 13, 0⟩
/-- R244: COUNT. -/
abbrev Fld.spnCtxW1_COUNT : Fld := ⟨.spnCtxW1, 31, 0⟩
/-- R245: STATE. -/
abbrev Fld.spnThrW0_STATE : Fld := ⟨.spnThrW0, 63, 61⟩
/-- R245: ERRCODE. -/
abbrev Fld.spnThrW0_ERRCODE : Fld := ⟨.spnThrW0, 60, 57⟩
/-- R245: LAST_STATUS. -/
abbrev Fld.spnThrW0_LAST_STATUS : Fld := ⟨.spnThrW0, 56, 53⟩
/-- R245: ROLE. -/
abbrev Fld.spnThrW0_ROLE : Fld := ⟨.spnThrW0, 52, 45⟩
/-- R245: FAS. -/
abbrev Fld.spnThrW0_FAS : Fld := ⟨.spnThrW0, 44, 33⟩
/-- R245: XMASK. -/
abbrev Fld.spnThrW0_XMASK : Fld := ⟨.spnThrW0, 31, 28⟩
/-- R245: PC. -/
abbrev Fld.spnThrW0_PC : Fld := ⟨.spnThrW0, 17, 0⟩
/-- R245: ISSUED. -/
abbrev Fld.spnThrW1_ISSUED : Fld := ⟨.spnThrW1, 63, 0⟩
/-- R267: ELEMS. -/
abbrev Fld.spnCsaElems_ELEMS : Fld := ⟨.spnCsaElems, 63, 0⟩
/-- R267: POISONED. -/
abbrev Fld.spnCsaFail_POISONED : Fld := ⟨.spnCsaFail, 31, 16⟩
/-- R267: BYTES. -/
abbrev Fld.spnBdaOut_BYTES : Fld := ⟨.spnBdaOut, 63, 0⟩
/-- R267: NAN_BLOCKS. -/
abbrev Fld.spnBdaSpec_NAN_BLOCKS : Fld := ⟨.spnBdaSpec, 63, 32⟩
/-- R267: OVERFLOWS. -/
abbrev Fld.spnBdaSpec_OVERFLOWS : Fld := ⟨.spnBdaSpec, 31, 0⟩
/-- R285: NI_MAX. -/
abbrev Fld.epbNiCtrl_NI_MAX : Fld := ⟨.epbNiCtrl, 21, 16⟩
/-- R285: WDOG. -/
abbrev Fld.epbNiCtrl_WDOG : Fld := ⟨.epbNiCtrl, 15, 0⟩
/-- R285: RUNNING. -/
abbrev Fld.epbNiStat_RUNNING : Fld := ⟨.epbNiStat, 31, 26⟩
/-- R285: QUEUED. -/
abbrev Fld.epbNiStat_QUEUED : Fld := ⟨.epbNiStat, 25, 15⟩
/-- R285: FAILED. -/
abbrev Fld.epbNiStat_FAILED : Fld := ⟨.epbNiStat, 10, 0⟩
/-- R286: OP. -/
abbrev Fld.epbToW0_OP : Fld := ⟨.epbToW0, 63, 60⟩
/-- R286: VC. -/
abbrev Fld.epbToW0_VC : Fld := ⟨.epbToW0, 59, 57⟩
/-- R286: TC. -/
abbrev Fld.epbToW0_TC : Fld := ⟨.epbToW0, 56, 54⟩
/-- R286: FLOW. -/
abbrev Fld.epbToW0_FLOW : Fld := ⟨.epbToW0, 53, 50⟩
/-- R286: FMT. -/
abbrev Fld.epbToW0_FMT : Fld := ⟨.epbToW0, 49, 46⟩
/-- R286: ROP. -/
abbrev Fld.epbToW0_ROP : Fld := ⟨.epbToW0, 45, 44⟩
/-- R286: ORDER. -/
abbrev Fld.epbToW0_ORDER : Fld := ⟨.epbToW0, 43, 43⟩
/-- R286: REARM. -/
abbrev Fld.epbToW0_REARM : Fld := ⟨.epbToW0, 42, 42⟩
/-- R286: CMPL_EN. -/
abbrev Fld.epbToW0_CMPL_EN : Fld := ⟨.epbToW0, 41, 41⟩
/-- R286: FC_EN. -/
abbrev Fld.epbToW0_FC_EN : Fld := ⟨.epbToW0, 40, 40⟩
/-- R286: WD_EN. -/
abbrev Fld.epbToW0_WD_EN : Fld := ⟨.epbToW0, 39, 39⟩
/-- R286: LEN_IND. -/
abbrev Fld.epbToW0_LEN_IND : Fld := ⟨.epbToW0, 38, 38⟩
/-- R286: RING. -/
abbrev Fld.epbToW0_RING : Fld := ⟨.epbToW0, 37, 32⟩
/-- R286: TRIG. -/
abbrev Fld.epbToW0_TRIG : Fld := ⟨.epbToW0, 31, 24⟩
/-- R286: CMPL. -/
abbrev Fld.epbToW0_CMPL : Fld := ⟨.epbToW0, 23, 16⟩
/-- R286: FCTR. -/
abbrev Fld.epbToW0_FCTR : Fld := ⟨.epbToW0, 15, 8⟩
/-- R286: MCR. -/
abbrev Fld.epbToW0_MCR : Fld := ⟨.epbToW0, 7, 0⟩
/-- R286: THRESH. -/
abbrev Fld.epbToW1_THRESH : Fld := ⟨.epbToW1, 63, 32⟩
/-- R286: ROLE. -/
abbrev Fld.epbToW1_ROLE : Fld := ⟨.epbToW1, 31, 24⟩
/-- R286: LENM1. -/
abbrev Fld.epbToW1_LENM1 : Fld := ⟨.epbToW1, 23, 0⟩
/-- R286: SRC. -/
abbrev Fld.epbToW2_SRC : Fld := ⟨.epbToW2, 63, 0⟩
/-- R286: DST. -/
abbrev Fld.epbToW3_DST : Fld := ⟨.epbToW3, 63, 0⟩
/-- R286: STEP. -/
abbrev Fld.epbToW4_STEP : Fld := ⟨.epbToW4, 63, 32⟩
/-- R286: WDC. -/
abbrev Fld.epbToW4_WDC : Fld := ⟨.epbToW4, 31, 24⟩
/-- R286: LENADDR. -/
abbrev Fld.epbToW5_LENADDR : Fld := ⟨.epbToW5, 56, 0⟩
/-- R286: FIRED. -/
abbrev Fld.epbToW6_FIRED : Fld := ⟨.epbToW6, 63, 32⟩
/-- R286: STATE. -/
abbrev Fld.epbToW7_STATE : Fld := ⟨.epbToW7, 63, 61⟩
/-- R286: LAST. -/
abbrev Fld.epbToW7_LAST : Fld := ⟨.epbToW7, 60, 57⟩
/-- R286: ARM. -/
abbrev Fld.epbToW7_ARM : Fld := ⟨.epbToW7, 56, 56⟩
/-- R286: DISARM. -/
abbrev Fld.epbToW7_DISARM : Fld := ⟨.epbToW7, 55, 55⟩
/-- R288: BIND_EN. -/
abbrev Fld.epbNctrW0_BIND_EN : Fld := ⟨.epbNctrW0, 63, 63⟩
/-- R288: WIN. -/
abbrev Fld.epbNctrW0_WIN : Fld := ⟨.epbNctrW0, 55, 48⟩
/-- R288: COUNT. -/
abbrev Fld.epbNctrW0_COUNT : Fld := ⟨.epbNctrW0, 31, 0⟩
/-- R288: ADD. -/
abbrev Fld.epbNctrW1_ADD : Fld := ⟨.epbNctrW1, 31, 0⟩
/-- R306: META. -/
abbrev Fld.spnHregSizes_META : Fld := ⟨.spnHregSizes, 35, 27⟩
/-- R306: POOL. -/
abbrev Fld.spnHregSizes_POOL : Fld := ⟨.spnHregSizes, 26, 18⟩
/-- R306: RSVW. -/
abbrev Fld.spnHregSizes_RSVW : Fld := ⟨.spnHregSizes, 17, 9⟩
/-- R306: SCR. -/
abbrev Fld.spnHregSizes_SCR : Fld := ⟨.spnHregSizes, 8, 0⟩
/-- R306: BUSY. -/
abbrev Fld.spnHregState_BUSY : Fld := ⟨.spnHregState, 31, 31⟩
/-- R306: DRAINING. -/
abbrev Fld.spnHregState_DRAINING : Fld := ⟨.spnHregState, 8, 0⟩
/-- R306: CE. -/
abbrev Fld.spnHregCe_CE : Fld := ⟨.spnHregCe, 31, 0⟩
/-- R306: UE. -/
abbrev Fld.spnHregUe_UE : Fld := ⟨.spnHregUe, 31, 0⟩
/-- R306: LINE. -/
abbrev Fld.spnHregLasterr_LINE : Fld := ⟨.spnHregLasterr, 28, 0⟩
/-- R306: SCRUB_EN. -/
abbrev Fld.spnHregScrub_SCRUB_EN : Fld := ⟨.spnHregScrub, 31, 31⟩
/-- R306: SCRUB_HRS. -/
abbrev Fld.spnHregScrub_SCRUB_HRS : Fld := ⟨.spnHregScrub, 7, 0⟩
/-- R306: LINE. -/
abbrev Fld.spnHregScrubpos_LINE : Fld := ⟨.spnHregScrubpos, 28, 0⟩
/-- R333: PROMOTE. -/
abbrev Fld.rsvHeat_PROMOTE : Fld := ⟨.rsvHeat, 63, 48⟩
/-- R333: HYST. -/
abbrev Fld.rsvHeat_HYST : Fld := ⟨.rsvHeat, 47, 32⟩
/-- R333: PERIOD. -/
abbrev Fld.rsvHeat_PERIOD : Fld := ⟨.rsvHeat, 31, 16⟩
/-- R333: PROMO_EN. -/
abbrev Fld.rsvHeat_PROMO_EN : Fld := ⟨.rsvHeat, 0, 0⟩
/-- R333: RESIDENT. -/
abbrev Fld.rsvStat_RESIDENT : Fld := ⟨.rsvStat, 63, 46⟩
/-- R333: PINNED. -/
abbrev Fld.rsvStat_PINNED : Fld := ⟨.rsvStat, 45, 28⟩
/-- R333: FILLING. -/
abbrev Fld.rsvStat_FILLING : Fld := ⟨.rsvStat, 27, 20⟩
/-- R333: FILLS. -/
abbrev Fld.rsvCnt_FILLS : Fld := ⟨.rsvCnt, 63, 32⟩
/-- R333: EVICTS. -/
abbrev Fld.rsvCnt_EVICTS : Fld := ⟨.rsvCnt, 31, 0⟩
/-- R333: BAD. -/
abbrev Fld.rsvBad_BAD : Fld := ⟨.rsvBad, 31, 0⟩
/-- R333: STATE. -/
abbrev Fld.rsvStrStat_STATE : Fld := ⟨.rsvStrStat, 63, 61⟩
/-- R333: DONE. -/
abbrev Fld.rsvStrStat_DONE : Fld := ⟨.rsvStrStat, 60, 60⟩
/-- R333: LAYER. -/
abbrev Fld.rsvStrStat_LAYER : Fld := ⟨.rsvStrStat, 59, 40⟩
/-- R333: SEQ. -/
abbrev Fld.rsvStrStat_SEQ : Fld := ⟨.rsvStrStat, 31, 0⟩
/-- R333: OBJ. -/
abbrev Fld.rsvStrCfg_OBJ : Fld := ⟨.rsvStrCfg, 63, 52⟩
/-- R333: NLAYERM1. -/
abbrev Fld.rsvStrCfg_NLAYERM1 : Fld := ⟨.rsvStrCfg, 51, 32⟩
/-- R333: DECODE. -/
abbrev Fld.rsvStrCfg_DECODE : Fld := ⟨.rsvStrCfg, 31, 0⟩
/-- R333: BYTES. -/
abbrev Fld.rsvStrOut_BYTES : Fld := ⟨.rsvStrOut, 63, 0⟩
/-- R334: STATE. -/
abbrev Fld.rickStat_STATE : Fld := ⟨.rickStat, 31, 29⟩
/-- R334: FREE. -/
abbrev Fld.rickFree_FREE : Fld := ⟨.rickFree, 31, 0⟩
/-- R334: RETIRED. -/
abbrev Fld.rickRetire_RETIRED : Fld := ⟨.rickRetire, 31, 0⟩
/-- R334: JSEQ. -/
abbrev Fld.rickJrnl_JSEQ : Fld := ⟨.rickJrnl, 63, 32⟩
/-- R334: JPERIOD. -/
abbrev Fld.rickJrnl_JPERIOD : Fld := ⟨.rickJrnl, 15, 0⟩
/-- R334: UP. -/
abbrev Fld.rickCh_UP : Fld := ⟨.rickCh, 31, 31⟩
/-- R334: TARGETS. -/
abbrev Fld.rickCh_TARGETS : Fld := ⟨.rickCh, 27, 26⟩
/-- R334: LUNS. -/
abbrev Fld.rickCh_LUNS : Fld := ⟨.rickCh, 25, 24⟩
/-- R334: UNCORR. -/
abbrev Fld.rickCh_UNCORR : Fld := ⟨.rickCh, 15, 0⟩
/-- R334: STATE. -/
abbrev Fld.rickObjW0_STATE : Fld := ⟨.rickObjW0, 63, 61⟩
/-- R334: KIND. -/
abbrev Fld.rickObjW0_KIND : Fld := ⟨.rickObjW0, 60, 60⟩
/-- R334: START_CH. -/
abbrev Fld.rickObjW0_START_CH : Fld := ⟨.rickObjW0, 59, 55⟩
/-- R334: BSIZE. -/
abbrev Fld.rickObjW0_BSIZE : Fld := ⟨.rickObjW0, 54, 52⟩
/-- R334: VERSION. -/
abbrev Fld.rickObjW0_VERSION : Fld := ⟨.rickObjW0, 31, 0⟩
/-- R334: BADUNITS. -/
abbrev Fld.rickObjW1_BADUNITS : Fld := ⟨.rickObjW1, 63, 32⟩
/-- R334: LENGTH. -/
abbrev Fld.rickObjW1_LENGTH : Fld := ⟨.rickObjW1, 31, 0⟩
/-- R354: EN. -/
abbrev Fld.lnkCtrl_EN : Fld := ⟨.lnkCtrl, 31, 31⟩
/-- R354: RETRAIN. -/
abbrev Fld.lnkCtrl_RETRAIN : Fld := ⟨.lnkCtrl, 30, 30⟩
/-- R354: SLEEP_EN. -/
abbrev Fld.lnkCtrl_SLEEP_EN : Fld := ⟨.lnkCtrl, 29, 29⟩
/-- R354: SSC_OK. -/
abbrev Fld.lnkCtrl_SSC_OK : Fld := ⟨.lnkCtrl, 28, 28⟩
/-- R354: REPLAY_MAX. -/
abbrev Fld.lnkCtrl_REPLAY_MAX : Fld := ⟨.lnkCtrl, 27, 24⟩
/-- R354: QIDLE. -/
abbrev Fld.lnkCtrl_QIDLE : Fld := ⟨.lnkCtrl, 23, 16⟩
/-- R354: CRED_PER. -/
abbrev Fld.lnkCtrl_CRED_PER : Fld := ⟨.lnkCtrl, 15, 8⟩
/-- R354: STATE. -/
abbrev Fld.lnkStat_STATE : Fld := ⟨.lnkStat, 31, 28⟩
/-- R354: REV. -/
abbrev Fld.lnkStat_REV : Fld := ⟨.lnkStat, 27, 27⟩
/-- R354: TXQ. -/
abbrev Fld.lnkStat_TXQ : Fld := ⟨.lnkStat, 26, 26⟩
/-- R354: RXQ. -/
abbrev Fld.lnkStat_RXQ : Fld := ⟨.lnkStat, 25, 25⟩
/-- R354: POLINV. -/
abbrev Fld.lnkStat_POLINV : Fld := ⟨.lnkStat, 23, 16⟩
/-- R354: ALIGNED. -/
abbrev Fld.lnkStat_ALIGNED : Fld := ⟨.lnkStat, 15, 8⟩
/-- R354: CORR. -/
abbrev Fld.lnkFec_CORR : Fld := ⟨.lnkFec, 63, 32⟩
/-- R354: UNCORR. -/
abbrev Fld.lnkFec_UNCORR : Fld := ⟨.lnkFec, 31, 0⟩
/-- R354: NAKS. -/
abbrev Fld.lnkLl_NAKS : Fld := ⟨.lnkLl, 63, 48⟩
/-- R354: REPLAYS. -/
abbrev Fld.lnkLl_REPLAYS : Fld := ⟨.lnkLl, 47, 32⟩
/-- R354: RETRAINS. -/
abbrev Fld.lnkLl_RETRAINS : Fld := ⟨.lnkLl, 31, 16⟩
/-- R354: CRED_FAIL. -/
abbrev Fld.lnkLl_CRED_FAIL : Fld := ⟨.lnkLl, 15, 0⟩
/-- R354: LINK_ID. -/
abbrev Fld.lnkPeer_LINK_ID : Fld := ⟨.lnkPeer, 31, 0⟩
/-- R354: PRBS_ERR. -/
abbrev Fld.lnkLane_PRBS_ERR : Fld := ⟨.lnkLane, 63, 32⟩
/-- R354: EYE. -/
abbrev Fld.lnkLane_EYE : Fld := ⟨.lnkLane, 31, 16⟩
/-- R354: PRBS_MAX. -/
abbrev Fld.lnkPrbs_PRBS_MAX : Fld := ⟨.lnkPrbs, 63, 32⟩
/-- R354: PRBS_WIN. -/
abbrev Fld.lnkPrbs_PRBS_WIN : Fld := ⟨.lnkPrbs, 31, 0⟩
/-- R373: LASER_MIN. -/
abbrev Fld.optOcPwr_LASER_MIN : Fld := ⟨.optOcPwr, 31, 16⟩
/-- R373: PWR. -/
abbrev Fld.optOcPwr_PWR : Fld := ⟨.optOcPwr, 15, 0⟩
/-- R373: LASER_LOW. -/
abbrev Fld.optOcStat_LASER_LOW : Fld := ⟨.optOcStat, 31, 31⟩
/-- R373: AUTO_SEARCH. -/
abbrev Fld.optGCtrl_AUTO_SEARCH : Fld := ⟨.optGCtrl, 31, 31⟩
/-- R373: AUTO_RELOCK. -/
abbrev Fld.optGCtrl_AUTO_RELOCK : Fld := ⟨.optGCtrl, 30, 30⟩
/-- R373: BMISS_MAX. -/
abbrev Fld.optGCtrl_BMISS_MAX : Fld := ⟨.optGCtrl, 23, 20⟩
/-- R373: DARK_MAX. -/
abbrev Fld.optGCtrl_DARK_MAX : Fld := ⟨.optGCtrl, 19, 16⟩
/-- R373: TAKEN_HI. -/
abbrev Fld.optGCtrl_TAKEN_HI : Fld := ⟨.optGCtrl, 15, 8⟩
/-- R373: TAKEN_LO. -/
abbrev Fld.optGCtrl_TAKEN_LO : Fld := ⟨.optGCtrl, 7, 0⟩
/-- R373: BUS_OK. -/
abbrev Fld.optGStat_BUS_OK : Fld := ⟨.optGStat, 31, 27⟩
/-- R373: SEARCH. -/
abbrev Fld.optGStat_SEARCH : Fld := ⟨.optGStat, 26, 25⟩
/-- R373: REVERSED. -/
abbrev Fld.optGStat_REVERSED : Fld := ⟨.optGStat, 24, 24⟩
/-- R373: AMBIG. -/
abbrev Fld.optGStat_AMBIG : Fld := ⟨.optGStat, 15, 0⟩
/-- R374: STATE. -/
abbrev Fld.optGRing_STATE : Fld := ⟨.optGRing, 63, 61⟩
/-- R374: DIPS. -/
abbrev Fld.optGRing_DIPS : Fld := ⟨.optGRing, 60, 56⟩
/-- R374: LOSSES. -/
abbrev Fld.optGRing_LOSSES : Fld := ⟨.optGRing, 47, 32⟩
/-- R374: SWEPT. -/
abbrev Fld.optGRing_SWEPT : Fld := ⟨.optGRing, 27, 16⟩
/-- R374: HEAT. -/
abbrev Fld.optGRing_HEAT : Fld := ⟨.optGRing, 11, 0⟩
/-- R374: LANEMAP. -/
abbrev Fld.optGLanemap_LANEMAP : Fld := ⟨.optGLanemap, 63, 0⟩
/-- R374: BURSTS. -/
abbrev Fld.optGBurst_BURSTS : Fld := ⟨.optGBurst, 63, 32⟩
/-- R374: BMISS. -/
abbrev Fld.optGBurst_BMISS : Fld := ⟨.optGBurst, 31, 0⟩
/-- R374: DARK_FAIL. -/
abbrev Fld.optGFail_DARK_FAIL : Fld := ⟨.optGFail, 31, 16⟩
/-- R374: BMISS_FAIL. -/
abbrev Fld.optGFail_BMISS_FAIL : Fld := ⟨.optGFail, 15, 0⟩
/-- R374: VISITS. -/
abbrev Fld.optGVisits_VISITS : Fld := ⟨.optGVisits, 31, 0⟩
/-- R397: BSTATE. -/
abbrev Fld.klnState_BSTATE : Fld := ⟨.klnState, 31, 29⟩
/-- R397: DEBUG_OPEN. -/
abbrev Fld.klnState_DEBUG_OPEN : Fld := ⟨.klnState, 28, 28⟩
/-- R397: BUSY. -/
abbrev Fld.klnState_BUSY : Fld := ⟨.klnState, 27, 27⟩
/-- R397: TENANT_ID. -/
abbrev Fld.klnTenant_TENANT_ID : Fld := ⟨.klnTenant, 63, 0⟩
/-- R397: DEVICE_ID. -/
abbrev Fld.klnDevid_DEVICE_ID : Fld := ⟨.klnDevid, 63, 0⟩
/-- R397: KINDLING_SVN. -/
abbrev Fld.klnFwver_KINDLING_SVN : Fld := ⟨.klnFwver, 63, 32⟩
/-- R397: CLOENTIM_SVN. -/
abbrev Fld.klnFwver_CLOENTIM_SVN : Fld := ⟨.klnFwver, 31, 0⟩
/-- R397: BOOTCNT. -/
abbrev Fld.klnBoot_BOOTCNT : Fld := ⟨.klnBoot, 31, 0⟩
/-- R397: ERASES. -/
abbrev Fld.klnErases_ERASES : Fld := ⟨.klnErases, 31, 0⟩
/-- R422: DEVICE. -/
abbrev Fld.cmdIdent_DEVICE : Fld := ⟨.cmdIdent, 63, 48⟩
/-- R422: PCI_VID. -/
abbrev Fld.cmdIdent_PCI_VID : Fld := ⟨.cmdIdent, 47, 32⟩
/-- R422: STEPPING. -/
abbrev Fld.cmdIdent_STEPPING : Fld := ⟨.cmdIdent, 31, 24⟩
/-- R422: IFVER. -/
abbrev Fld.cmdIdent_IFVER : Fld := ⟨.cmdIdent, 23, 16⟩
/-- R422: RR. -/
abbrev Fld.cmdCtrl_RR : Fld := ⟨.cmdCtrl, 8, 8⟩
/-- R422: CEPOCH. -/
abbrev Fld.cmdCtrl_CEPOCH : Fld := ⟨.cmdCtrl, 7, 0⟩
/-- R422: MAC. -/
abbrev Fld.cmdMpMac_MAC : Fld := ⟨.cmdMpMac, 47, 0⟩
/-- R422: PEER_EN. -/
abbrev Fld.cmdMpCfg_PEER_EN : Fld := ⟨.cmdMpCfg, 31, 31⟩
/-- R422: EMBER_MISS. -/
abbrev Fld.cmdMpCfg_EMBER_MISS : Fld := ⟨.cmdMpCfg, 23, 16⟩
/-- R422: ETYPE. -/
abbrev Fld.cmdMpCfg_ETYPE : Fld := ⟨.cmdMpCfg, 15, 0⟩
/-- R422: PEER_MAC. -/
abbrev Fld.cmdMpPeer_PEER_MAC : Fld := ⟨.cmdMpPeer, 47, 0⟩
/-- R422: LINK. -/
abbrev Fld.cmdMpStat_LINK : Fld := ⟨.cmdMpStat, 31, 31⟩
/-- R422: EMBER. -/
abbrev Fld.cmdMpStat_EMBER : Fld := ⟨.cmdMpStat, 30, 29⟩
/-- R422: LOSSES. -/
abbrev Fld.cmdMpStat_LOSSES : Fld := ⟨.cmdMpStat, 15, 0⟩
/-- R422: FM_SEQ. -/
abbrev Fld.cmdMpEmber_FM_SEQ : Fld := ⟨.cmdMpEmber, 63, 0⟩
/-- R422: TIME. -/
abbrev Fld.cmdMpEmbert_TIME : Fld := ⟨.cmdMpEmbert, 63, 0⟩
/-- R422: RX. -/
abbrev Fld.cmdMpFrames_RX : Fld := ⟨.cmdMpFrames, 63, 32⟩
/-- R422: DISCARD. -/
abbrev Fld.cmdMpFrames_DISCARD : Fld := ⟨.cmdMpFrames, 31, 16⟩
/-- R422: TXLOST. -/
abbrev Fld.cmdMpFrames_TXLOST : Fld := ⟨.cmdMpFrames, 15, 0⟩
/-- R422: TAKEN. -/
abbrev Fld.cmdPstatCnt_TAKEN : Fld := ⟨.cmdPstatCnt, 63, 32⟩
/-- R422: RETRIED. -/
abbrev Fld.cmdPstatCnt_RETRIED : Fld := ⟨.cmdPstatCnt, 31, 16⟩
/-- R422: DUPS. -/
abbrev Fld.cmdPstatCnt_DUPS : Fld := ⟨.cmdPstatCnt, 15, 0⟩
/-- R422: FULL. -/
abbrev Fld.cmdPstatErr_FULL : Fld := ⟨.cmdPstatErr, 63, 32⟩
/-- R422: SEQCLASH. -/
abbrev Fld.cmdPstatErr_SEQCLASH : Fld := ⟨.cmdPstatErr, 31, 16⟩
/-- R422: EVLOST. -/
abbrev Fld.cmdPstatErr_EVLOST : Fld := ⟨.cmdPstatErr, 15, 0⟩
/-- R422: EVTMASK. -/
abbrev Fld.cmdPstatEvtmask_EVTMASK : Fld := ⟨.cmdPstatEvtmask, 63, 0⟩
/-- R422: BADACC. -/
abbrev Fld.cmdBarstat_BADACC : Fld := ⟨.cmdBarstat, 63, 32⟩
/-- R422: DISCARDW. -/
abbrev Fld.cmdBarstat_DISCARDW : Fld := ⟨.cmdBarstat, 31, 0⟩
/-- R422: ADDR. -/
abbrev Fld.cmdMboxReqBase_ADDR : Fld := ⟨.cmdMboxReqBase, 63, 12⟩
/-- R422: REQ_TAIL. -/
abbrev Fld.cmdMboxReqTail_REQ_TAIL : Fld := ⟨.cmdMboxReqTail, 31, 0⟩
/-- R422: REQ_HEAD. -/
abbrev Fld.cmdMboxReqHead_REQ_HEAD : Fld := ⟨.cmdMboxReqHead, 31, 0⟩
/-- R422: ADDR. -/
abbrev Fld.cmdMboxRspBase_ADDR : Fld := ⟨.cmdMboxRspBase, 63, 12⟩
/-- R422: EN. -/
abbrev Fld.cmdMboxRspCtrl_EN : Fld := ⟨.cmdMboxRspCtrl, 31, 31⟩
/-- R422: HOST. -/
abbrev Fld.cmdMboxRspCtrl_HOST : Fld := ⟨.cmdMboxRspCtrl, 30, 30⟩
/-- R422: RSP_ORDER. -/
abbrev Fld.cmdMboxRspCtrl_RSP_ORDER : Fld := ⟨.cmdMboxRspCtrl, 19, 16⟩
/-- R422: VEC. -/
abbrev Fld.cmdMboxRspCtrl_VEC : Fld := ⟨.cmdMboxRspCtrl, 10, 0⟩
/-- R422: RSP_HEAD. -/
abbrev Fld.cmdMboxRspHead_RSP_HEAD : Fld := ⟨.cmdMboxRspHead, 31, 0⟩
/-- R422: RSP_TAIL. -/
abbrev Fld.cmdMboxRspTail_RSP_TAIL : Fld := ⟨.cmdMboxRspTail, 31, 0⟩
/-- R422: LOST. -/
abbrev Fld.cmdMboxLost_LOST : Fld := ⟨.cmdMboxLost, 31, 0⟩
/-- R439: REC_WIN. -/
abbrev Fld.errCtrl_REC_WIN : Fld := ⟨.errCtrl, 31, 22⟩
/-- R439: FLAP_N. -/
abbrev Fld.errCtrl_FLAP_N : Fld := ⟨.errCtrl, 21, 18⟩
/-- R439: FLAP_WIN. -/
abbrev Fld.errCtrl_FLAP_WIN : Fld := ⟨.errCtrl, 17, 8⟩
/-- R439: NOTIFY_MIN. -/
abbrev Fld.errCtrl_NOTIFY_MIN : Fld := ⟨.errCtrl, 2, 0⟩
/-- R439: FATAL. -/
abbrev Fld.errStat_FATAL : Fld := ⟨.errStat, 31, 31⟩
/-- R439: FIR_ANY. -/
abbrev Fld.errStat_FIR_ANY : Fld := ⟨.errStat, 30, 30⟩
/-- R439: WINOPEN. -/
abbrev Fld.errStat_WINOPEN : Fld := ⟨.errStat, 8, 0⟩
/-- R439: WINFULL. -/
abbrev Fld.errWinfull_WINFULL : Fld := ⟨.errWinfull, 31, 0⟩
/-- R439: CORR. -/
abbrev Fld.errDieCnt0_CORR : Fld := ⟨.errDieCnt0, 63, 48⟩
/-- R439: DEFER. -/
abbrev Fld.errDieCnt0_DEFER : Fld := ⟨.errDieCnt0, 47, 32⟩
/-- R439: CONTAIN. -/
abbrev Fld.errDieCnt0_CONTAIN : Fld := ⟨.errDieCnt0, 31, 16⟩
/-- R439: PORTF. -/
abbrev Fld.errDieCnt0_PORTF : Fld := ⟨.errDieCnt0, 15, 0⟩
/-- R439: DEVF. -/
abbrev Fld.errDieCnt1_DEVF : Fld := ⟨.errDieCnt1, 63, 48⟩
/-- R439: OVF. -/
abbrev Fld.errDieCnt1_OVF : Fld := ⟨.errDieCnt1, 47, 32⟩
/-- R439: LEVEL. -/
abbrev Fld.errDieCnt1_LEVEL : Fld := ⟨.errDieCnt1, 6, 0⟩
/-- R439: VALID. -/
abbrev Fld.errDieCap_VALID : Fld := ⟨.errDieCap, 0, 0⟩
/-- R439: FAIL. -/
abbrev Fld.errDeststat_FAIL : Fld := ⟨.errDeststat, 63, 0⟩
/-- R440: V. -/
abbrev Fld.errWinW0_V : Fld := ⟨.errWinW0, 63, 63⟩
/-- R440: FIR. -/
abbrev Fld.errWinW0_FIR : Fld := ⟨.errWinW0, 62, 62⟩
/-- R440: KIND. -/
abbrev Fld.errWinW0_KIND : Fld := ⟨.errWinW0, 61, 58⟩
/-- R440: IDX. -/
abbrev Fld.errWinW0_IDX : Fld := ⟨.errWinW0, 57, 42⟩
/-- R440: END. -/
abbrev Fld.errWinW1_END : Fld := ⟨.errWinW1, 63, 0⟩
/-- R440: ACTIONS. -/
abbrev Fld.errArm_ACTIONS : Fld := ⟨.errArm, 63, 0⟩
/-- R463: I_MAX. -/
abbrev Fld.pwrDamp_I_MAX : Fld := ⟨.pwrDamp, 63, 48⟩
/-- R463: SLEW. -/
abbrev Fld.pwrDamp_SLEW : Fld := ⟨.pwrDamp, 31, 20⟩
/-- R463: STEP_MAX. -/
abbrev Fld.pwrDamp_STEP_MAX : Fld := ⟨.pwrDamp, 19, 8⟩
/-- R463: SLOT. -/
abbrev Fld.pwrDamp_SLOT : Fld := ⟨.pwrDamp, 7, 0⟩
/-- R463: MISSES. -/
abbrev Fld.pwrDampstat_MISSES : Fld := ⟨.pwrDampstat, 63, 32⟩
/-- R463: QUEUED. -/
abbrev Fld.pwrDampstat_QUEUED : Fld := ⟨.pwrDampstat, 31, 16⟩
/-- R463: MAXWAIT. -/
abbrev Fld.pwrDampstat_MAXWAIT : Fld := ⟨.pwrDampstat, 15, 0⟩
/-- R463: EN. -/
abbrev Fld.pwrSmoulder_EN : Fld := ⟨.pwrSmoulder, 31, 31⟩
/-- R463: FLOOR. -/
abbrev Fld.pwrSmoulder_FLOOR : Fld := ⟨.pwrSmoulder, 30, 16⟩
/-- R463: FALL. -/
abbrev Fld.pwrSmoulder_FALL : Fld := ⟨.pwrSmoulder, 15, 0⟩
/-- R463: DW_BANK. -/
abbrev Fld.pwrDwell_DW_BANK : Fld := ⟨.pwrDwell, 47, 32⟩
/-- R463: DW_DROWSE. -/
abbrev Fld.pwrDwell_DW_DROWSE : Fld := ⟨.pwrDwell, 31, 16⟩
/-- R463: DW_IDLE. -/
abbrev Fld.pwrDwell_DW_IDLE : Fld := ⟨.pwrDwell, 15, 0⟩
/-- R463: P. -/
abbrev Fld.pwrEst_P : Fld := ⟨.pwrEst, 63, 48⟩
/-- R463: I_EST. -/
abbrev Fld.pwrEst_I_EST : Fld := ⟨.pwrEst, 47, 32⟩
/-- R463: I_TEL. -/
abbrev Fld.pwrEst_I_TEL : Fld := ⟨.pwrEst, 31, 16⟩
/-- R463: TRUSTED. -/
abbrev Fld.pwrEst_TRUSTED : Fld := ⟨.pwrEst, 15, 15⟩
/-- R463: FILLER. -/
abbrev Fld.pwrEst_FILLER : Fld := ⟨.pwrEst, 14, 0⟩
/-- R463: DIS_PCT. -/
abbrev Fld.pwrRegcmp_DIS_PCT : Fld := ⟨.pwrRegcmp, 31, 24⟩
/-- R463: DIS_N. -/
abbrev Fld.pwrRegcmp_DIS_N : Fld := ⟨.pwrRegcmp, 23, 16⟩
/-- R463: RETRUST. -/
abbrev Fld.pwrRegcmp_RETRUST : Fld := ⟨.pwrRegcmp, 0, 0⟩
/-- R463: CAP. -/
abbrev Fld.pwrCap_CAP : Fld := ⟨.pwrCap, 63, 48⟩
/-- R463: ARMED. -/
abbrev Fld.pwrCap_ARMED : Fld := ⟨.pwrCap, 31, 31⟩
/-- R463: APPLIED. -/
abbrev Fld.pwrCap_APPLIED : Fld := ⟨.pwrCap, 30, 30⟩
/-- R463: TRIG. -/
abbrev Fld.pwrCap_TRIG : Fld := ⟨.pwrCap, 29, 26⟩
/-- R463: HOT. -/
abbrev Fld.pwrTherm_HOT : Fld := ⟨.pwrTherm, 31, 24⟩
/-- R463: HOTDIE. -/
abbrev Fld.pwrTherm_HOTDIE : Fld := ⟨.pwrTherm, 23, 20⟩
/-- R463: LEVEL. -/
abbrev Fld.pwrTherm_LEVEL : Fld := ⟨.pwrTherm, 19, 16⟩
/-- R463: HOTSTK. -/
abbrev Fld.pwrTherm_HOTSTK : Fld := ⟨.pwrTherm, 15, 15⟩
/-- R463: STACK. -/
abbrev Fld.pwrTherm_STACK : Fld := ⟨.pwrTherm, 14, 12⟩
/-- R463: QSTATE. -/
abbrev Fld.pwrTherm_QSTATE : Fld := ⟨.pwrTherm, 1, 0⟩
/-- R464: PEAK. -/
abbrev Fld.pwrTemp_PEAK : Fld := ⟨.pwrTemp, 15, 8⟩
/-- R464: TEMP. -/
abbrev Fld.pwrTemp_TEMP : Fld := ⟨.pwrTemp, 7, 0⟩
/-- R464: LAT. -/
abbrev Fld.pwrFunc_LAT : Fld := ⟨.pwrFunc, 15, 0⟩
/-- R464: STATE. -/
abbrev Fld.pwrDomW0_STATE : Fld := ⟨.pwrDomW0, 63, 62⟩
/-- R464: MAXDEEP. -/
abbrev Fld.pwrDomW0_MAXDEEP : Fld := ⟨.pwrDomW0, 61, 60⟩
/-- R464: STEP_DROWSE. -/
abbrev Fld.pwrDomW0_STEP_DROWSE : Fld := ⟨.pwrDomW0, 55, 48⟩
/-- R464: STEP_BANKED. -/
abbrev Fld.pwrDomW0_STEP_BANKED : Fld := ⟨.pwrDomW0, 47, 40⟩
/-- R464: WAKES. -/
abbrev Fld.pwrDomW1_WAKES : Fld := ⟨.pwrDomW1, 63, 32⟩
/-- R464: LASTWAIT. -/
abbrev Fld.pwrDomW1_LASTWAIT : Fld := ⟨.pwrDomW1, 31, 0⟩
/-- R475: PHASE. -/
abbrev Fld.cmdBootW0_PHASE : Fld := ⟨.cmdBootW0, 63, 61⟩
/-- R475: IMAGE. -/
abbrev Fld.cmdBootW0_IMAGE : Fld := ⟨.cmdBootW0, 60, 60⟩
/-- R475: CAUSE. -/
abbrev Fld.cmdBootW0_CAUSE : Fld := ⟨.cmdBootW0, 59, 58⟩
/-- R475: HBM_OK. -/
abbrev Fld.cmdBootW0_HBM_OK : Fld := ⟨.cmdBootW0, 55, 48⟩
/-- R475: OPT_OK. -/
abbrev Fld.cmdBootW0_OPT_OK : Fld := ⟨.cmdBootW0, 47, 40⟩
/-- R475: READY_TIME. -/
abbrev Fld.cmdBootW1_READY_TIME : Fld := ⟨.cmdBootW1, 63, 0⟩
/-- R475: EPB. -/
abbrev Fld.cmdHeld0_EPB : Fld := ⟨.cmdHeld0, 63, 0⟩
/-- R475: HUBDIE. -/
abbrev Fld.cmdHeld1_HUBDIE : Fld := ⟨.cmdHeld1, 42, 41⟩
/-- R475: SPNDIE. -/
abbrev Fld.cmdHeld1_SPNDIE : Fld := ⟨.cmdHeld1, 40, 37⟩
/-- R475: HOST. -/
abbrev Fld.cmdHeld1_HOST : Fld := ⟨.cmdHeld1, 36, 35⟩
/-- R475: RSV. -/
abbrev Fld.cmdHeld1_RSV : Fld := ⟨.cmdHeld1, 34, 34⟩
/-- R475: CORE. -/
abbrev Fld.cmdHeld1_CORE : Fld := ⟨.cmdHeld1, 33, 32⟩
/-- R475: OPT. -/
abbrev Fld.cmdHeld1_OPT : Fld := ⟨.cmdHeld1, 31, 24⟩
/-- R475: HBM. -/
abbrev Fld.cmdHeld1_HBM : Fld := ⟨.cmdHeld1, 23, 16⟩
/-- R475: CLUSTER. -/
abbrev Fld.cmdHeld1_CLUSTER : Fld := ⟨.cmdHeld1, 15, 0⟩
/-- R489: REVIVE. -/
abbrev Fld.sbdCtrl_REVIVE : Fld := ⟨.sbdCtrl, 31, 31⟩
/-- R489: SPEED. -/
abbrev Fld.sbdCtrl_SPEED : Fld := ⟨.sbdCtrl, 30, 30⟩
/-- R489: POLL_MS. -/
abbrev Fld.sbdCtrl_POLL_MS : Fld := ⟨.sbdCtrl, 7, 0⟩
/-- R489: DOWN. -/
abbrev Fld.sbdStat_DOWN : Fld := ⟨.sbdStat, 31, 31⟩
/-- R489: I3C. -/
abbrev Fld.sbdStat_I3C : Fld := ⟨.sbdStat, 30, 30⟩
/-- R489: DYNADDR. -/
abbrev Fld.sbdStat_DYNADDR : Fld := ⟨.sbdStat, 29, 23⟩
/-- R489: SHORT. -/
abbrev Fld.sbdStat_SHORT : Fld := ⟨.sbdStat, 15, 0⟩
/-- R489: EN. -/
abbrev Fld.sbdRegW0_EN : Fld := ⟨.sbdRegW0, 63, 63⟩
/-- R489: PEC. -/
abbrev Fld.sbdRegW0_PEC : Fld := ⟨.sbdRegW0, 62, 62⟩
/-- R489: RAIL. -/
abbrev Fld.sbdRegW0_RAIL : Fld := ⟨.sbdRegW0, 61, 60⟩
/-- R489: ADDR. -/
abbrev Fld.sbdRegW0_ADDR : Fld := ⟨.sbdRegW0, 22, 16⟩
/-- R489: PHASE_MASK. -/
abbrev Fld.sbdRegW0_PHASE_MASK : Fld := ⟨.sbdRegW0, 15, 0⟩
/-- R489: IOUT. -/
abbrev Fld.sbdRegW1_IOUT : Fld := ⟨.sbdRegW1, 63, 48⟩
/-- R489: VOUT. -/
abbrev Fld.sbdRegW1_VOUT : Fld := ⟨.sbdRegW1, 47, 32⟩
/-- R489: STATUS. -/
abbrev Fld.sbdRegW1_STATUS : Fld := ⟨.sbdRegW1, 31, 16⟩
/-- R489: FAILS. -/
abbrev Fld.sbdRegW1_FAILS : Fld := ⟨.sbdRegW1, 15, 0⟩
/-- R500: POLY. -/
abbrev Fld.crcPoly_POLY : Fld := ⟨.crcPoly, 63, 0⟩
/-- R500: INIT. -/
abbrev Fld.crcInit_INIT : Fld := ⟨.crcInit, 63, 0⟩
/-- R500: REFLECT. -/
abbrev Fld.crcCfg_REFLECT : Fld := ⟨.crcCfg, 31, 31⟩
/-- R500: INV. -/
abbrev Fld.crcCfg_INV : Fld := ⟨.crcCfg, 30, 30⟩
/-- R500: WIDTH. -/
abbrev Fld.crcCfg_WIDTH : Fld := ⟨.crcCfg, 6, 0⟩
/-- R500: OWNER. -/
abbrev Fld.crcStat_OWNER : Fld := ⟨.crcStat, 63, 62⟩
/-- R500: EPB. -/
abbrev Fld.crcStat_EPB : Fld := ⟨.crcStat, 61, 56⟩
/-- R500: RING. -/
abbrev Fld.crcStat_RING : Fld := ⟨.crcStat, 55, 50⟩
/-- R500: FED. -/
abbrev Fld.crcStat_FED : Fld := ⟨.crcStat, 39, 0⟩
/-- R500: VALUE. -/
abbrev Fld.crcValue_VALUE : Fld := ⟨.crcValue, 63, 0⟩
/-- R500: RESTART. -/
abbrev Fld.crcCtrl_RESTART : Fld := ⟨.crcCtrl, 0, 0⟩
/-- R500: TIME. -/
abbrev Fld.telTime_TIME : Fld := ⟨.telTime, 63, 0⟩
/-- R500: HOLDING. -/
abbrev Fld.telTctrl_HOLDING : Fld := ⟨.telTctrl, 63, 63⟩
/-- R500: LAST_STEP. -/
abbrev Fld.telTctrl_LAST_STEP : Fld := ⟨.telTctrl, 31, 0⟩
/-- R500: SNAP. -/
abbrev Fld.telSnapctl_SNAP : Fld := ⟨.telSnapctl, 0, 0⟩
/-- R500: SNAPTIME. -/
abbrev Fld.telSnaptime_SNAPTIME : Fld := ⟨.telSnaptime, 63, 0⟩
/-- R500: IN_CELLS. -/
abbrev Fld.telPortW0_IN_CELLS : Fld := ⟨.telPortW0, 63, 0⟩
/-- R500: OUT_CELLS. -/
abbrev Fld.telPortW1_OUT_CELLS : Fld := ⟨.telPortW1, 63, 0⟩
/-- R500: IN_CELLS. -/
abbrev Fld.telShadW0_IN_CELLS : Fld := ⟨.telShadW0, 63, 0⟩
/-- R500: OUT_CELLS. -/
abbrev Fld.telShadW1_OUT_CELLS : Fld := ⟨.telShadW1, 63, 0⟩
/-- R531: MODE. -/
abbrev Fld.hubCoppiceCtrl_MODE : Fld := ⟨.hubCoppiceCtrl, 63, 62⟩
/-- R531: CMASK. -/
abbrev Fld.hubCoppiceCtrl_CMASK : Fld := ⟨.hubCoppiceCtrl, 47, 32⟩
/-- R531: CH. -/
abbrev Fld.hubCoppiceCtrl_CH : Fld := ⟨.hubCoppiceCtrl, 11, 8⟩
/-- R531: LINK. -/
abbrev Fld.hubCoppiceCtrl_LINK : Fld := ⟨.hubCoppiceCtrl, 6, 0⟩
/-- R531: COP_LIM. -/
abbrev Fld.hubCoppiceLim_COP_LIM : Fld := ⟨.hubCoppiceLim, 19, 0⟩
/-- R531: SUM. -/
abbrev Fld.hubCoppiceSum_SUM : Fld := ⟨.hubCoppiceSum, 63, 0⟩
/-- R531: ACCESSES. -/
abbrev Fld.hubCoppiceCnt_ACCESSES : Fld := ⟨.hubCoppiceCnt, 63, 32⟩
/-- R531: COPIES. -/
abbrev Fld.hubCoppiceCnt_COPIES : Fld := ⟨.hubCoppiceCnt, 31, 0⟩
/-- R531: DROPPED. -/
abbrev Fld.hubCoppiceLoss_DROPPED : Fld := ⟨.hubCoppiceLoss, 63, 32⟩
/-- R531: STRAY. -/
abbrev Fld.hubCoppiceLoss_STRAY : Fld := ⟨.hubCoppiceLoss, 31, 0⟩
/-- R170: ROLES. -/
abbrev Fld.hubEprole_ROLES : Fld := ⟨.hubEprole, 63, 0⟩
/-- R440: W. -/
abbrev Fld.errFirst_W : Fld := ⟨.errFirst, 63, 0⟩

/-- The address of register `(i, j)` of array `r`. -/
def regAddr (r : RegName) (i j : Nat) : Nat := (regDef r).base + (regDef r).s1 * i + (regDef r).s2 * j

/-- The number that the fields' reset values make. -/
def fieldsReset : List FieldDef → Nat
  | [] => 0
  | f :: t => f.reset * 2 ^ f.lo + fieldsReset t

/-- MAXDEEP of power domain `d` after a cold reset (R464). -/
def maxdeepReset (d : Nat) : Nat :=
  if d ≤ 7 || (10 ≤ d && d ≤ 41) || d = 45 || d = 46 || d = 49 then 3
  else if d = 44 then 2
  else if d = 8 || d = 9 || d = 47 then 1
  else 0

/-- The value of register `(i, j)` after a cold reset (R9): the table's numbers, with the fused and held values of
`Config` where the table says Fused, From image or Held (log entry 5). -/
def regReset (r : RegName) (i _j : Nat) : Word :=
  match r with
  | .klnDevid => Config.fusedDeviceId i
  | .klnFwver => Config.fusedFwver
  | .klnBoot => Config.heldBootCount
  | .cmdIdent => setBits (setBits (BitVec.ofNat 64 (fieldsReset (regDef r).fields)) 47 32 Config.fusedPciVid) 31 24 Config.fusedStepping
  | .cmdMpMac => BitVec.ofNat 64 (Config.fusedMac i % 2 ^ 48)
  | .pwrDomW0 =>
    BitVec.ofNat 64 (maxdeepReset i * 2 ^ 60 + (Config.fusedStepDrowse i % 256) * 2 ^ 48 + (Config.fusedStepBanked i % 256) * 2 ^ 40)
  | _ => BitVec.ofNat 64 (fieldsReset (regDef r).fields)

/-- A register that an address names: its array, its indices, and the byte offset within it. -/
structure RegAt where
  reg : RegName
  i : Nat
  j : Nat
  off : Nat
  deriving DecidableEq, Repr

/-- The indices at which `addr` falls in array `r`, if it does. -/
def regMatch (addr : Nat) (r : RegName) : Option RegAt :=
  let d := regDef r
  if addr < d.base then none
  else
    let o := addr - d.base
    let i := if d.s1 = 0 then 0 else min (o / d.s1) (d.n1 - 1)
    let o1 := o - d.s1 * i
    let j := if d.s2 = 0 then 0 else min (o1 / d.s2) (d.n2 - 1)
    let o2 := o1 - d.s2 * j
    if o2 * 8 < d.width && !(r == .hubInlim && i == 123) then some ⟨r, i, j, o2⟩ else none

/-- The first hit of a list of register arrays. -/
def regSearch (addr : Nat) : List RegName → Option RegAt
  | [] => none
  | r :: t =>
    match regMatch addr r with
    | some x => some x
    | none => regSearch addr t

/-- The register that holds byte `addr` of the register space (R415); none where no register lies. -/
def regAt (addr : Nat) : Option RegAt := regSearch addr allRegs

/-- Bytes of a register. -/
def regBytes (r : RegName) : Nat := (regDef r).width / 8

end Sys2Proof.Machine
end

