-- ==== Sys2Proof/Machine/State.lean ====
section
/-! DEFINITION. The state of the GX3200 as plain data, its faults and refusals, and the state after reset. -/

namespace Sys2Proof.Machine
open Sys2Proof

/-! ### End-point Blocks, tags and requests (02 to 06) -/

/-- States of a fault-switch slot (R94). -/
inductive SlotSt where
  | free | waiting | woken
  deriving DecidableEq, Repr

/-- A fault-switch slot (R66). -/
structure Slot where
  st : SlotSt := .free
  ctx : Nat := 0
  gen : Nat := 0
  deriving DecidableEq, Repr

/-- A translation space (R75): a FAS tag, or a target window. -/
inductive Space where
  | fas (f : Nat)
  | win (w : Nat)
  deriving DecidableEq, Repr

/-- One entry of a translation cache (R75): its space, its page and the leaf. -/
structure CacheEnt where
  space : Space
  page : Nat
  size : Nat
  leaf : Word
  /-- its way in the set -/
  way : Nat := 0
  prefetched : Bool := false
  deriving DecidableEq, Repr

/-- The page visit that a prefetch serves (R80): its mover, the tile offset, and whether it is of the destination. -/
structure Visit where
  mover : Nat
  off : Nat
  dst : Bool
  deriving DecidableEq, Repr

/-- A walk in progress (R76): its space, its 64 KiB page, what it starts from (R71, R84: word 0 of the FAS entry, or a window's TROOT), and
whether it is stale or a prefetch. -/
structure Walk where
  space : Space
  page : Nat
  root : Word := 0
  stale : Bool := false
  prefetch : Option Visit := none
  deriving DecidableEq, Repr

/-- For whom a unit holds a request or a tag. -/
inductive Owner where
  /-- an accelerator request -/
  | zar (m : ZMsg)
  /-- the fill of the named lines of the remote-read cache (R143): lines, cache generation, FAS tag -/
  | fill (lines : List Nat) (gen fas : Nat)
  /-- a DMA segment: engine, segment number, and whether it is the write part -/
  | dma (engine seg : Nat) (write : Bool)
  /-- a segment of a triggered operation: entry, segment number, write part -/
  | ni (entry seg : Nat) (write : Bool)
  /-- a Spindle thread's remote access: thread key 16 × core + thread, part number -/
  | spn (thread part : Nat)
  /-- a PCI Express request of the host: its identifier, and whether it was posted -/
  | host (id : Nat) (posted : Bool)
  /-- a STORE of a weight stream: stream and part -/
  | rsv (strm part : Nat)
  deriving DecidableEq, Repr

/-- A request that an issuing unit has formed and not yet issued. -/
structure Req where
  own : Owner
  typ : Nat
  vc : Nat := 0
  tc : Nat := 0
  flow : Nat := 0
  dclass : Nat := 0
  poison : Bool := false
  order : Bool := false
  ksel : Nat := 0
  fas : Nat := 0
  fmt : Nat := 0
  rop : Nat := 0
  gfa : Nat := 0
  len : Nat := 0
  role : Nat := 0
  payload : List Byte := []
  /-- ordering stream (R136): kind and number -/
  stream : Nat × Nat := (0, 0)
  /-- order of arrival at the unit -/
  serial : Nat := 0
  /-- multicast route entry, for a multicast STORE -/
  mcr : Option Nat := none
  /-- posted under R32 or R140 -/
  posted : Bool := false
  /-- address of the request before translation -/
  fva : Nat := 0
  /-- the Z_LOAD may use the remote-read cache (R142) -/
  cacheable : Bool := false
  /-- PCI Express ordering holds it behind earlier memory writes of the port (R138) -/
  behindWrites : Bool := false
  /-- R209 lets it be admitted, as its header was formed (R210) -/
  metered : Bool := false
  /-- ROUTE, HOPCNT and ROLE, fixed when the header is formed (R154) -/
  route : Nat := 0
  hopcnt : Nat := 0
  rrole : Nat := 0
  deriving DecidableEq, Repr

/-- An outstanding request (R34): its header, owner, stream, and the time of its allocation and deadline (R44, R45). -/
structure Tag where
  hdr : Packet
  own : Owner
  stream : Nat × Nat := (0, 0)
  serial : Nat := 0
  /-- serial number of the issue: a tag with a lower one was issued earlier -/
  issued : Nat := 0
  born : Nat := 0
  deadline : Nat := 0
  /-- a FENCE that has been answered with this status and waits for earlier requests (R29) -/
  answered : Option Nat := none
  fva : Nat := 0
  /-- posted (R32, R140): retired when its last cell enters the buffer -/
  posted : Bool := false
  /-- the EPB that lends its index (R35), when the unit borrows -/
  lender : Option Nat := none
  deriving DecidableEq, Repr

/-- A fabric request accepted by a target window (R68, R82). -/
structure TgtReq where
  pkt : Packet
  win : Nat
  /-- window-relative offset -/
  rel : Nat
  /-- window's page table root as read (R84) -/
  troot : Nat
  /-- accelerator-local address, once translated -/
  laddr : Option Nat := none
  /-- ZTAG of the Z_TGT message, once sent -/
  ztag : Option Nat := none
  arrived : Nat := 0
  deriving DecidableEq, Repr

/-- Where a line of a Z_LOAD comes from (R143). -/
inductive LineSrc where
  | got (data : List Byte) (poison : Bool)
  | tag (idx : Nat)
  /-- a fill whose LOAD has not been given a tag yet, named by the serial of its request -/
  | serial (n : Nat)
  | failed (status : Nat)
  /-- the fill met a restartable fault (FSW_RSP): the target's record identifier -/
  | restart (detail : Nat)
  deriving DecidableEq, Repr

/-- A cacheable Z_LOAD that waits for its lines (R143): the message, its GFA, one source per line, and its serial number. -/
structure ZLoad where
  msg : ZMsg
  gfa : Nat
  srcs : List (Nat × LineSrc)
  serial : Nat := 0
  deriving DecidableEq, Repr

/-- A line of the remote-read cache (R142): its GFA divided by 128, its FAS tag. Its data is in the cache data area (R293). -/
structure RrcLine where
  line : Nat
  fas : Nat
  way : Nat
  deriving DecidableEq, Repr

/-- A way of the heat table (R105). -/
structure HeatWay where
  tag : Nat := 0
  count : Nat := 0
  flagged : Bool := false
  valid : Bool := false
  deriving DecidableEq, Repr

/-- State of a segment (R96, R97). -/
inductive SegSt where
  | loading | loaded | storing | ok
  | restart (cause : Nat)
  | failed (cause status : Nat)
  deriving DecidableEq, Repr

/-- A segment issued and not yet retired from the window of 32 (R96): its number, tile offset and length, its state, whether its
write part has begun, and whether a resumption skips it (R98). -/
structure Seg where
  num : Nat
  off : Nat
  len : Nat
  st : SegSt
  wr : Bool := false
  skip : Bool := false
  data : List Byte := []
  poison : Bool := false
  /-- source and destination FVA, and GFA and key selector of each once translated -/
  sva : Nat := 0
  dva : Nat := 0
  sgfa : Nat := 0
  dgfa : Nat := 0
  sksel : Nat := 0
  dksel : Nat := 0
  /-- a fault's walk level, detail word, and whether its GFA is known -/
  level : Nat := 7
  detail : Nat := 0
  gfaV : Bool := true
  /-- its final fault is one that R43 counts and does not record -/
  quiet : Bool := false
  /-- serial number of its translation (R78) -/
  serial : Nat := 0
  deriving DecidableEq, Repr

/-- A descriptor in execution on a DMA engine, or a triggered operation in execution (R96, R272). -/
structure Mover where
  /-- ring, and index of the item; for a triggered operation, the carrier ring and the entry -/
  ring : Nat := 0
  index : Nat := 0
  /-- 1: a triggered operation; its words are those of the descriptor that moves the same bytes -/
  ni : Bool := false
  words : List Word := []
  fas : Nat := 0
  nextSeg : Nat := 0
  nextOff : Nat := 0
  segs : List Seg := []
  /-- on resumption (R98): RESUME_SEG and DONE_MASK of the park -/
  resumeSeg : Nat := 0
  doneMask : Nat := 0
  /-- the resumption segment had been performed before, and is only read again for the CRC (R98, R126) -/
  reread : Bool := false
  stopped : Bool := false
  /-- the item completes with this status, whatever its segments do (R115, R122, R51, R98) -/
  failed : Option Nat := none
  /-- identifier of the last fault record written for the item (R120) -/
  record : Nat := 0
  /-- RESUME_OFF of the park that FAULT_RESUME abandoned (R120) -/
  abortOff : Nat := 0
  /-- posted mode (R140), fixed at start -/
  posted : Bool := false
  /-- MCAST: the multicast route entry (R272) -/
  mcr : Option Nat := none
  /-- role epoch for Spindle targets (R273) -/
  role : Nat := 0
  /-- LEN_IND (R273): FVA of the length word still to be read -/
  lenAt : Option Nat := none
  /-- the CRC channel it claims (R126) -/
  crc : Option Nat := none
  /-- a prefetch found no leaf for this page visit: tile offset, of the destination (R81) -/
  pfStop : Option (Nat × Bool) := none
  /-- a reset of PD46 took its claim (R499) -/
  crcLost : Bool := false
  deriving DecidableEq, Repr

/-- A parked descriptor or triggered operation (R97, R99). -/
structure Park where
  mover : Mover
  resumeSeg : Nat
  resumeOff : Nat
  doneMask : Nat
  reread : Bool := false
  deriving DecidableEq, Repr

/-- Rate control toward one destination (R166): its credit at time `at_`, in units of 1/4096 byte (it may be negative), the
time of the last decrease, and whether the running period saw a mark. -/
structure Rate where
  credit : Int := 33554432
  lastDec : Option Nat := none
  marked : Bool := false
  at_ : Nat := 0
  deriving DecidableEq, Repr

/-- What an EPB holds beside its registers. -/
structure Epb where
  identSeen : Bool := false
  badVersion : Bool := false
  slots : Tbl Slot := []
  /-- Z_WAKE messages held while the accelerator is not identified (R94) -/
  wakes : List ZMsg := []
  /-- accelerator requests that wait on a walk, with the serial numbers of their arrival -/
  zwait : List (Nat × ZMsg) := []
  walks : List Walk := []
  cache : Tbl (List CacheEnt) := []
  /-- pseudo-LRU trees of the sets of the translation cache (R75) -/
  cacheLru : Tbl Nat := []
  tgts : List TgtReq := []
  /-- ZTAGs of Z_TGT messages whose request was answered without a Z_TGT_RSP (R69), and whether that answer still brings data -/
  lateTags : List (Nat × Bool) := []
  zloads : List ZLoad := []
  rrc : Tbl (List RrcLine) := []
  /-- pseudo-LRU trees of the sets of the remote-read cache (R142) -/
  rrcLru : Tbl Nat := []
  rrcGen : Nat := 0
  heat : Tbl HeatWay := []
  /-- start of the running heat period and its length in units of 10 µs (R105); start of the running INC_PERIOD and its length in µs (R166) -/
  heatAt : Nat := 0
  heatLen : Nat := 100
  incAt : Nat := 0
  incLen : Nat := 5
  engines : Tbl Mover := []
  lastRing : Nat := 63
  parks : List Park := []
  /-- park entries released by FAULT_RESUME that wait for an engine (R98) -/
  resumes : List Park := []
  /-- item indices at or above LOW whose completion has been recorded, by ring (R121) -/
  ringDone : Tbl (List Nat) := []
  rates : Tbl Rate := []
  /-- admission tokens per deadline class, in units of 1/16 byte, and the time they were last raised (R211) -/
  tokens : Tbl (Int × Nat) := []
  /-- destination end-points and epochs whose first record has been written (R43): kind, end-point, epoch -/
  firstRec : List (Nat × Nat × Nat) := []
  /-- running triggered operations by entry, and the fire queue (R271, R272) -/
  niRun : Tbl Mover := []
  fireq : List Nat := []
  /-- watchdog starts by entry (R277) -/
  wdStart : Tbl Nat := []
  deriving DecidableEq, Repr

/-- Why a request waits at its issuing unit. -/
inductive WaitFor where
  | tag | admission | order
  /-- the controller that holds the remote-read cache's data is in reset or zero-filling (R305) -/
  | memory
  deriving DecidableEq, Repr

/-- A waiting request. -/
structure Wait where
  req : Req
  why : WaitFor
  deriving DecidableEq, Repr

/-! ### Command interface (18) -/

/-- A queued command: the packet, the management port it came on, and its arrival time. -/
structure Queued where
  cmd : Cmd
  port : Nat := 0
  time : Nat := 0
  deriving DecidableEq, Repr

/-- A reply or event (R402). -/
structure Reply where
  partner : Nat
  event : Bool := false
  opcode : Nat
  seq : Nat
  status : Nat
  cepoch : Nat := 0
  ticket : Nat := 0
  body : List Byte := []
  /-- on a management port: the destination of its frame, whose source is the port's own address, and the command's 802.1Q tag (R399); an unsolicited
  event has neither (log entry 67) -/
  dst : Option Nat := none
  tag : Option Nat := none
  deriving DecidableEq, Repr

/-- An entry of a reply cache (R408): sequence number, CRC of the packet, the reply. -/
structure CachedReply where
  seq : Nat
  crc : Nat
  reply : Reply
  /-- its reply has been placed -/
  placed : Bool := true
  deriving DecidableEq, Repr

/-- A slot of the ticket table (R406). -/
structure Ticket where
  issue : Nat
  cmd : Cmd
  port : Nat := 0
  done : Bool := false
  doneAt : Nat := 0
  status : Nat := 0
  results : List Byte := []
  deriving DecidableEq, Repr

/-! ### Errors (19) -/

/-- A recovery window's close, in cycles of the free-running clock (R432). -/
structure Window where
  slot : Nat
  closeAt : Nat
  deriving DecidableEq, Repr

/-! ### HBM (13) -/

/-- The state of one 128-byte line of HBM or scratchpad (R300). -/
inductive LineSt where
  | ok | correctable | uncorrectable | poison
  deriving DecidableEq, Repr

/-- A region change in progress on one stack (R297): the sizes META, POOL, RSVW, SCR it sets, and its ticket. -/
structure RegionChange where
  sizes : List Nat
  ticket : Nat
  deriving DecidableEq, Repr

/-- A draining granule (R297): its physical number, and whether its zero-fill has begun. -/
structure Drain where
  granule : Nat
  zeroing : Bool := false
  deriving DecidableEq, Repr

/-- Cloentim's command state (R398 to R408). -/
structure CmdSt where
  /-- the partner queues, oldest first -/
  queues : Tbl (List Queued) := []
  /-- reply caches, newest first: 0 management ports, 1 mailbox, 2 sideband -/
  caches : Tbl (List CachedReply) := []
  tickets : Tbl Ticket := []
  issue : Nat := 0
  /-- packets waiting for the mailbox's reply ring -/
  holding : List Reply := []
  lastServed : Nat := 3
  evSeq : Tbl Nat := []
  /-- REFUSED replies waiting for their 20 µs, and the time of each take -/
  refused : List (Reply × Nat) := []
  /-- time of the last valid Ember of a management port -/
  emberAt : Tbl Nat := []
  /-- replies in the sideband reply buffer, oldest first -/
  sbBuf : List Reply := []
  deriving DecidableEq, Repr

/-- A record of an armable code that a step has yet to write (R430). -/
structure Later where
  cls : Nat
  code : Nat
  kind : Nat
  idx : Nat
  d : List Nat
  deriving DecidableEq, Repr

/-- Error reporting state (R424 to R435). -/
structure ErrSt where
  fifos : Tbl (List (List Word)) := []
  seqs : Tbl Nat := []
  windows : List Window := []
  /-- failure events per link, newest first (R434) -/
  flaps : Tbl (List Nat) := []
  /-- last DEST_FAIL record per destination (R435) -/
  destAt : Tbl Nat := []
  /-- armable records that the running step has yet to write, oldest first; empty between steps -/
  later : List Later := []
  deriving DecidableEq, Repr

/-- HBM controller state beside the registers (R292 to R305). -/
structure HbmSt where
  /-- granule tables, key 4 × stack + region (0 META, 1 POOL, 2 RSVW, 3 SCR) -/
  grans : Tbl (List Nat) := []
  draining : Tbl (List Drain) := []
  change : Tbl RegionChange := []
  /-- controllers whose contents are being zero-filled -/
  filling : List Nat := []
  lastCe : Tbl Nat := []
  deriving DecidableEq, Repr

/-- A drained XLATE_INVAL in progress (R78): its ticket, and the requests it waits for: the units' own by serial number, and target requests
(EPB, packet). -/
structure Drained where
  ticket : Nat
  reqs : List Nat := []
  tgts : List (Nat × Packet) := []
  deriving DecidableEq, Repr

/-- Translation state of the whole device. -/
structure XlatSt where
  drains : List Drained := []
  deriving DecidableEq, Repr


/-! ### The test access port (24) -/

/-- The scanned lands: functional, driven by EXTEST, held by CLAMP, floated by HIGHZ (R515). -/
inductive Lands where
  | functional | driven | held | floated
  deriving DecidableEq, Repr

/-- Test access port state (R515 to R518). -/
structure JtagSt where
  /-- the instruction register -/
  ir : Nat := 1
  /-- the values captured last, and the values preloaded, of the boundary-scan register -/
  captured : List Bool := []
  preload : List Bool := []
  lands : Lands := .functional
  deriving DecidableEq, Repr

/-! ### Kiln (17) -/

/-- A secure session (R377, R379): its number, whether FINISH has ended its handshake, whether it was established with mutual authentication, the
SHA-384 of the requester's public key, the time of its last message, and the secured responses made in it. -/
structure Session where
  id : Nat
  isOpen : Bool := false
  authed : Bool := false
  keyHash : List Byte := []
  lastSeen : Nat := 0
  sent : Nat := 0
  deriving DecidableEq, Repr

/-- A KLN_SPDM in progress (R378): its ticket, the time of its acceptance, the message bytes, the response once Kiln has made it; and when a last
chunk has completed a large message: its session, and what precedes its response. -/
structure SpdmMsg where
  ticket : Nat
  at_ : Nat := 0
  data : List Byte := []
  resp : Option (List Byte) := none
  whole : Option Nat := none
  pre : List Byte := []
  deriving DecidableEq, Repr

/-- A large message in chunks (R377): its session, handle and next chunk number, and the bytes received, or those still to be fetched. -/
structure Chunks where
  sid : Nat
  handle : Nat
  seq : Nat := 0
  data : List Byte := []
  deriving DecidableEq, Repr

/-- Kiln state beside the registers. A key is represented by its bytes. -/
structure KlnSt where
  memKey : Option (List Byte) := none
  rickKey : Option (List Byte) := none
  weightKey : Option (List Byte) := none
  linkKeys : Tbl (List Byte) := []
  /-- measurement log, oldest first -/
  log : List (List Word) := []
  /-- SEQ of the last entry made (R389) -/
  logSeq : Nat := 0
  /-- refusal log, oldest first, at most 256 entries -/
  refusals : List (List Word) := []
  sessions : List Session := []
  /-- messages accepted and not completed, oldest first; 0 nothing negotiated, 1 version, 2 capabilities, 3 algorithms; large messages -/
  spdm : List SpdmMsg := []
  nego : Nat := 0
  chunkIn : Option Chunks := none
  chunkOut : Option Chunks := none
  /-- tickets of KLN_UNBIND that wait for UNBOUND -/
  unbinds : List Nat := []
  /-- when the last bind or unbind reset began (R382) -/
  clearAt : Nat := 0
  deriving DecidableEq, Repr

/-! ### Links (15, 16) -/

/-- A data flit (R340, R341): link channel, credit pool (0 to 7, a VC7 request's being 7; 8 for a VC7 response), marks, the packet-abort
marker (R180), key selector, its 256 bytes, the copy whose cell it carries, and once `sent` its FSEQ, its extended sequence number and its replays. -/
structure Flit where
  vc : Nat
  pool : Nat
  sop : Bool := false
  eop : Bool := false
  abort : Bool := false
  ksel : Nat := 0
  data : List Byte := []
  copy : Nat := 0
  sent : Bool := false
  seq : Nat := 0
  ext : Nat := 0
  replays : Nat := 0
  deriving DecidableEq, Repr

/-- The credits of one pool (R348, R349): held of the partner and the last count accepted; granted to the partner, and held by it;
and the time of the last update received. -/
structure Credit where
  held : Nat := 0
  cumIn : Nat := 0
  cumOut : Nat := 0
  partner : Nat := 0
  at_ : Nat := 0
  deriving DecidableEq, Repr

/-- What a link holds beside its registers (R338, R344 to R351, R361). -/
structure Lnk where
  /-- entry to the training state -/
  entered : Nat := 0
  /-- time of the failure whose link-layer state is still kept (R347) -/
  keptAt : Option Nat := none
  /-- flits that wait for a credit, the retry buffer, or the link; and the retry buffer -/
  txq : List Flit := []
  retry : List Flit := []
  /-- FSEQ of the next new flit with its wraps, 4,096 × wraps + FSEQ -/
  next : Nat := 0
  /-- extended number after the last data flit received correctly and in order -/
  expect : Nat := 0
  /-- time at which ACKSEQ last advanced, or a flit became the oldest unacknowledged one -/
  ackAt : Nat := 0
  /-- a NAK is owed; and a gap is open (R346) -/
  nak : Bool := false
  gap : Bool := false
  /-- an ACKSEQ or credit change is unsent (R351) -/
  owed : Bool := false
  credits : Tbl Credit := []
  /-- bytes received of the incomplete packet or message of each channel; and the key selectors of the channels whose aborted packet is discarded
  up to its last cell (R180, R384) -/
  parts : Tbl (List Byte) := []
  cut : Tbl Nat := []
  /-- INITs completed since either LINK_ID last changed, and the LINK_ID sent at the last INIT -/
  inits : Nat := 0
  sentId : Nat := 0
  /-- advances of the boot count in LINK_ID (R353, R372) -/
  boots : Nat := 0
  /-- transmit sleep: 0 ACTIVE, 1 TXQ, 2 WAKING; receive sleep: 0 ACTIVE, 1 RXQ, 2 RELOCK (R351); times of the last flit sent and of
  the last change -/
  tx : Nat := 0
  rx : Nat := 0
  sentAt : Nat := 0
  rxAt : Nat := 0
  txAt : Nat := 0
  /-- when something was last owed, and QUIET flits received of a round (R351) -/
  idleAt : Nat := 0
  quiet : Nat := 0
  /-- a replay waits until no packet of another fibre is incomplete (R359) -/
  resend : Bool := false
  /-- transmit taps of each lane in steps from their first setting: pre2, pre1, main, post1 (R338) -/
  txTaps : Tbl (List Int) := []
  /-- source phase and equaliser taps of each receive lane as they adapt, and as the last burst stored them (R338, R361) -/
  rxTaps : List (List Int) := []
  stored : List (List Int) := []
  /-- FLAGS of the training frames sent: 4 EQ_DONE, 2 PRBS_PASS, 1 ALIGNED (R345) -/
  flags : Nat := 0
  /-- codeword slots sent in training (SLOT), and the PRBS31 register of each lane (R345) -/
  slot : Nat := 0
  prbs : Tbl Nat := []
  /-- codewords sent and consumed since striping began, those received and not yet consumed with their lanes, and each lane's consecutive
  comma positions without a hit (R342, R343) -/
  txRound : Nat := 0
  rxRound : Nat := 0
  skew : List (Nat × List Nat) := []
  missed : Tbl Nat := []
  /-- last TRAIN_TIMEOUT record (R344) -/
  toRec : Option Nat := none
  /-- last burst received, consecutive missed bursts, visits sent in the last CRED_PER, and the last training burst sent (R360, R361, R364) -/
  burstAt : Nat := 0
  misses : Nat := 0
  visits : List Nat := []
  trainAt : Nat := 0
  deriving DecidableEq, Repr

/-- Link-layer state: attach links 0 to 63, optical link L as 64 + L (R354). -/
structure LnkSt where
  links : Tbl Lnk := []
  /-- the next link, in round-robin order, for a credit of a group's channel: key 16 × port + pool (R362) -/
  turn : Tbl Nat := []
  /-- the link to which a group's steering switch points (R359) -/
  aim : Tbl Nat := []
  /-- Zaralos messages received on attach links and not yet handled, oldest first -/
  zin : List (Nat × ZMsg) := []
  deriving DecidableEq, Repr

/-! ### Switch core (08, 09) -/

/-- A packet in the packet buffer (R173, R181): as it entered, its ingress attachment, fibre and channel, its cells, its count REF, whether
it has more copies than one by a multicast hop or the Coppice link, and the cycle in which its cell 0 was written. -/
structure Stored where
  pkt : Packet
  port : Nat
  fib : Nat := 0
  chan : Nat
  cells : Nat
  refs : Nat
  mc : Bool
  at_ : Nat
  deriving DecidableEq, Repr

/-- A copy of a stored packet on its way to an egress: the stored packet's key, the egress port, fibre and link channel, the packet as
this copy carries it, whether nobody is answered when it is freed, and the hop number of R213. -/
structure Copy where
  id : Nat
  port : Nat
  fib : Nat
  chan : Nat
  pkt : Packet
  mc : Bool := false
  hop : Nat := 1
  deriving DecidableEq, Repr

/-- A subqueue (R196, R199): tags S and F, and its packets. -/
structure SubQ where
  s : Nat := 0
  f : Nat := 0
  copies : List Copy := []
  deriving DecidableEq, Repr

/-- The budget of an optical egress link's hold (R184): start of the last full hold, the deadline, and the time of the failure. -/
structure HoldTime where
  start : Option Nat := none
  deadline : Nat := 0
  since : Nat := 0
  deriving DecidableEq, Repr

/-- A burst of mirror records on its way to the ring (R191): the index of its first record, and the records. -/
structure MirBurst where
  first : Nat
  recs : List (List Word)
  deriving DecidableEq, Repr

/-- A SCHED_MODE whose reply waits (R202): the egresses that have not changed yet, the mode, the reply. -/
structure ModeSet where
  egresses : List Nat
  strict : Bool
  reply : Reply
  deriving DecidableEq, Repr

/-- Switch core state beside the registers (R173 to R221). -/
structure SwSt where
  pkts : Tbl Stored := []
  nextId : Nat := 0
  /-- copies of written packets that are not enqueued yet, in the order of their writing -/
  waiting : List Copy := []
  /-- subqueues, key 8 × queue + link channel -/
  subq : Tbl SubQ := []
  /-- virtual time V and LASTFIB of each egress -/
  vt : Tbl Nat := []
  lastFib : Tbl Nat := []
  /-- shaper tokens of a queue in units of 1/16 byte, and their time; unlisted: the cap (R204) -/
  tokens : Tbl (Int × Nat) := []
  /-- SCHED_MODEs that wait for dispatch opportunities, oldest first (R202) -/
  modes : List ModeSet := []
  /-- QUEUE_SETs answered OK and not applied: queue and word 0 of its entry (R206) -/
  qsets : List (Nat × Word) := []
  /-- hold lists by optical link (R183) -/
  hold : Tbl (List Copy) := []
  holdT : Tbl HoldTime := []
  /-- copies whose cell 0 has been read out and whose last cell has not -/
  sending : List Copy := []
  /-- mirror: FIFO of each Hub die; counters and sample numbers, key 2 × port + point; next record index; bursts under way -/
  fifos : Tbl (List (List Word)) := []
  mirCount : Tbl Nat := []
  mirSeq : Tbl Nat := []
  mirNext : Nat := 0
  bursts : List MirBurst := []
  /-- COPPICE_CTRL OFF commands in progress: ticket and Coppice link of each (R524) -/
  copOff : List (Nat × Nat) := []
  deriving DecidableEq, Repr


/-! ### Optics (16) -/

/-- A ring search of a bus (R365, R366, R368): reversed order, the place in that order, whether only one ring is swept (and which), and
the start of the running sweep. -/
structure BusSearch where
  rev : Bool := false
  place : Nat := 0
  single : Option Nat := none
  at_ : Nat := 0
  deriving DecidableEq, Repr

/-- The dither of a ring (R367): its start and last update, and the consecutive updates within LOCK_TOL and beyond LOSS_TOL. -/
structure RingLock where
  start : Nat := 0
  last : Nat := 0
  good : Nat := 0
  bad : Nat := 0
  deriving DecidableEq, Repr

/-- An OPT_SEARCH in progress (R369): its ticket, group and buses. -/
structure OptCmd where
  ticket : Nat
  group : Nat
  buses : Nat
  deriving DecidableEq, Repr

/-- Optical state beside the registers (R355 to R374). -/
structure OptSt where
  /-- running searches, key 5 × group + bus -/
  search : Tbl BusSearch := []
  /-- dithered rings, key 80 × group + 16 × bus + ring -/
  locks : Tbl RingLock := []
  cmds : List OptCmd := []
  /-- groups with a failed bus among the searches that run together -/
  failed : List Nat := []
  deriving DecidableEq, Repr


/-! ### Power (20) -/

/-- A wake that waits for the Damper (R450): its domain, the state it wakes from, its arrival, and the amperes not yet granted. -/
structure WakeReq where
  dom : Nat
  deep : Nat
  at_ : Nat
  rem : Nat
  deriving DecidableEq, Repr

/-- A PWR_SET in progress (R448): its ticket, domains, MAXDEEP and time of acceptance. -/
structure PwrCmd where
  ticket : Nat
  domains : Nat
  deep : Nat
  at_ : Nat
  deriving DecidableEq, Repr

/-- Power and thermal state beside the registers (R443 to R458). -/
structure PwrSt where
  /-- time of each domain's last wake cause -/
  cause : Tbl Nat := []
  reqs : List WakeReq := []
  /-- granted wakes: completion time by domain -/
  waking : Tbl Nat := []
  cmds : List PwrCmd := []
  /-- domains that FORCE sends to MAXDEEP once they are quiet -/
  forced : List Nat := []
  /-- the envelope R in mW; since when the filler is short; the last FLOOR_MISS (R452) -/
  env : Nat := 0
  short : Option Nat := none
  missAt : Option Nat := none
  /-- consecutive disagreeing polls; RETRUST has been written since the last poll (R453) -/
  disagree : Nat := 0
  retrust : Bool := false
  /-- samples in a row at or above a threshold, and the thresholds that are reached: 0 warning, 1 throttle, 2 quench (R455) -/
  hits : Tbl Nat := []
  reached : List Nat := []
  /-- last change of the throttle level, and its cause: 1 the cap (R456) -/
  stepAt : Nat := 0
  stepCap : Nat := 0
  /-- times of the last choice, Damper slot, estimate, microsecond of Smoulder and sample (R445, R450, R452, R453, R455) -/
  choiceAt : Nat := 0
  slotAt : Nat := 0
  estAt : Nat := 0
  smAt : Nat := 0
  sampleAt : Nat := 0
  /-- time of the quench; THERMTRIP_N is asserted (R457, R458) -/
  quenchAt : Nat := 0
  cut : Bool := false
  deriving DecidableEq, Repr


/-! ### Sideband (22) -/

/-- An SBD_XFER in progress (R482): its ticket, address, whether PEC is used, the bytes to write, and how many to read. -/
structure Xfer where
  ticket : Nat
  addr : Nat := 0
  pec : Bool := false
  data : List Byte := []
  rlen : Nat
  deriving DecidableEq, Repr

/-- Sideband state beside the registers (R476 to R485). -/
structure SbdSt where
  /-- the tray target's in-band interrupts are enabled; its maximum write and read lengths (R477) -/
  ibi : Bool := false
  mwl : Nat := 4112
  mrl : Nat := 4112
  /-- transfers on the regulator bus, oldest first -/
  xfers : List Xfer := []
  /-- VOUT_MODE of the regulators has been read since the last recovery, and its value by entry (R478); the last poll (R480) -/
  vmode : Bool := false
  vmodes : Tbl Nat := []
  pollAt : Nat := 0
  /-- attempts made of a running recovery, and the time of the last one (R483) -/
  tries : Option (Nat × Nat) := none
  /-- REVIVE was written during one -/
  again : Bool := false
  /-- last POLL_FAIL, and last alert record, by entry; 16 for an address that matches no entry (R480, R481) -/
  failAt : Tbl Nat := []
  alertAt : Tbl Nat := []
  /-- bytes of the image slots, 256 to an entry, key 2^24 × slot + offset / 256 (R485) -/
  flash : Tbl (List Byte) := []
  /-- the loader's operation: erase, slot; and its last ending was an error -/
  load : Option (Bool × Nat) := none
  loadErr : Bool := false
  deriving DecidableEq, Repr


/-! ### The Rick and the reservoir (14) -/

/-- An object of the Rick (R310, R311, R317): STATE as RICK_OBJ shows it (1 OPEN, 2 SEALED, 3 DAMAGED, 4 DELETING), KIND, START_CH, BSIZE,
VERSION, LENGTH in units, the KEYID of its RICK key, its units' bytes (log entry 18), its torn or uncorrectable units, its manifest. -/
structure RickObj where
  st : Nat := 1
  kind : Nat := 0
  startCh : Nat := 0
  bsize : Nat := 0
  version : Nat := 0
  length : Nat := 0
  keyid : List Byte := []
  bad : List Nat := []
  /-- billets of a sealed set -/
  nbil : Nat := 0
  /-- the manifest, as the engine last read it -/
  manifest : List Byte := []
  deriving DecidableEq, Repr

/-- A programmed NAND page (R309, R312): the bytes stored, the block it lies in, and its page tag: object, unit, program sequence number of the channel, and
the CRC-32C of the stored bytes and the tag. -/
structure RickPage where
  data : List Byte
  block : Nat := 0
  obj : Nat
  unit : Nat
  seq : Nat
  crc : Nat
  deriving DecidableEq, Repr

/-- A block in use on a channel (R310, R328): its number, the object whose units it takes, and its write pointer, the pages programmed. -/
structure RickBlock where
  num : Nat
  obj : Nat
  used : Nat := 0
  deriving DecidableEq, Repr

/-- A NAND channel (R309, R312, R328): its block list, its retired blocks, and its next program sequence number. -/
structure RickChan where
  blocks : List RickBlock := []
  retired : List Nat := []
  seq : Nat := 0
  deriving DecidableEq, Repr

/-- A copy of the Rick journal (R328): the object table, the channels, JSEQ and the CRC-64. -/
structure RickJrnl where
  objs : Tbl RickObj := []
  chans : Tbl RickChan := []
  jseq : Nat := 0
  crc : Nat := 0
  deriving DecidableEq, Repr

/-- A Rick command in progress (R315): its ticket, opcode, object, address, first unit and count, and the units done. -/
structure RickCmd where
  ticket : Nat
  op : Nat
  obj : Nat
  addr : Nat
  unit : Nat
  count : Nat
  done : Nat := 0
  /-- a pool read has failed (R316) -/
  failed : Bool := false
  /-- time of the command's start, or of the last periodic journal since (R328) -/
  jAt : Nat := 0
  deriving DecidableEq, Repr

/-- Rick state beside the registers (R307 to R318, R328 to R330). -/
structure RickSt where
  objs : Tbl RickObj := []
  /-- programmed pages, key 2^44 × object + unit -/
  pages : Tbl RickPage := []
  chans : Tbl RickChan := []
  /-- the journal areas J0 and J1 -/
  j0 : Option RickJrnl := none
  j1 : Option RickJrnl := none
  cmds : List RickCmd := []
  /-- time of the quench signal -/
  quenchAt : Nat := 0
  deriving DecidableEq, Repr

/-- A slot of the Reservoir window in use (R319, R320): its page, whether it is being filled, and its bad billets. -/
structure RsvSlot where
  obj : Nat
  page : Nat
  filling : Bool := true
  bad : List Nat := []
  deriving DecidableEq, Repr

/-- A pin of a page (R325): stream, sequence, part, object and page. A pin whose page has no slot waits for one. -/
structure Pin where
  strm : Nat
  seq : Nat
  part : Nat
  obj : Nat
  page : Nat
  deriving DecidableEq, Repr

/-- A way of the reservoir's heat table (R321). -/
structure RsvWay where
  obj : Nat
  page : Nat
  heat : Nat := 0
  deriving DecidableEq, Repr

/-- A weight stream (R322 to R327): the five words of its START, its sequence, whether the sequence is current and its select word, the
parts of its layer, the layer table index after that layer, the next part to emit. -/
structure Strm where
  words : List Word := []
  n : Nat := 0
  current : Bool := false
  sel : Word := 0
  parts : List (Word × Word) := []
  after : Nat := 0
  emitted : Nat := 0
  /-- number of this run, and STOREs outstanding by 2^33 × (64 × run + part) + page -/
  run : Nat := 0
  out : Tbl Nat := []
  deriving DecidableEq, Repr

/-- Reservoir state beside the registers (R319 to R327). -/
structure RsvSt where
  /-- slots in use, key 65536 × stack + slot -/
  slots : Tbl RsvSlot := []
  pins : List Pin := []
  /-- heat ways, key 4 × set + way -/
  heat : Tbl RsvWay := []
  /-- times of the last halving of the heats and of the last promotion scan (R321) -/
  heatAt : Nat := 0
  promoAt : Nat := 0
  streams : Tbl Strm := []
  deriving DecidableEq, Repr

/-! ### Spindle (10) -/

/-- The end of a part of a thread's remote access: the part, its status, its data, its poison flag, and for a restartable
fault the target's record identifier. -/
structure RemoteEnd where
  part : Nat
  status : Nat
  data : List Byte := []
  poison : Bool := false
  restart : Option Nat := none
  /-- the request's GFA -/
  gfa : Option Nat := none
  deriving DecidableEq, Repr

/-- A thread's private state beside its status registers (R223, R226, R232): PC, registers, predicates as 256-bit numbers, generator
state, windows, and the fabric fields of its start. -/
structure Thread where
  pc : Nat := 0
  sr : Tbl Word := []
  vr : Tbl (List Byte) := []
  pr : Tbl Nat := []
  gen : Nat := 0
  lsBase : Nat := 0
  lsSize : Nat := 0
  scrBase : Nat := 0
  scrPages : Nat := 0
  vc : Nat := 0
  tc : Nat := 0
  flow : Nat := 0
  /-- SPN_CLK cycle in which the latency of its last instruction has elapsed (R227) -/
  freeAt : Nat := 0
  deriving DecidableEq, Repr

/-- What a core holds beside its threads (R227): the thread that issued last, the first SPN_CLK cycle whose issue slot is unused, and the cycle in
which its vector pipe is free. DESIGN CHOICE (log entry 59): thread 0 is the first in order after a reset. -/
structure SpnCore where
  last : Nat := 15
  slot : Nat := 0
  pipe : Nat := 0
  deriving DecidableEq, Repr

/-- One lane of an exact accumulator (R255): its flags, and VALUE as a two's complement integer. -/
structure Lane where
  ovf : Bool := false
  ninf : Bool := false
  pinf : Bool := false
  nan : Bool := false
  value : Int := 0
  deriving DecidableEq, Repr

/-- A program load in progress (R233): its ticket, clusters, source and length. -/
structure ProgLoad where
  ticket : Nat
  cmask : Nat
  src : Nat
  len : Nat
  deriving DecidableEq, Repr

/-- Spindle state beside the registers. -/
structure SpnSt where
  /-- ended parts of remote accesses, by thread key 16 × core + thread -/
  ends : Tbl (List RemoteEnd) := []
  /-- remote accesses that a walk or an HBM controller holds up, by thread key, each with the words its walk read from host memory -/
  waits : Tbl (List Word) := []
  threads : Tbl Thread := []
  cores : Tbl SpnCore := []
  /-- accumulators, key 4 × core + number; unlisted: 64 zero lanes -/
  accs : Tbl (List Lane) := []
  loads : List ProgLoad := []
  deriving DecidableEq, Repr

/-! ### Check-value units (23) -/

/-- A CRC_FEED in progress (R493): its ticket, the next address, the bytes left and the bytes fed. -/
structure CrcFeed where
  ticket : Nat
  addr : Nat
  left : Nat
  fed : Nat := 0
  deriving DecidableEq, Repr

/-- Check-value state beside the registers (R490, R491). -/
structure CrcSt where
  /-- the state S of each channel since its last restart; unlisted: INIT -/
  state : Tbl Nat := []
  feeds : Tbl CrcFeed := []
  deriving DecidableEq, Repr

/-! ### Host ports (04, 06) -/

/-- A fabric request that a host port target has sent to PCI Express and not answered (R104, R131). -/
structure HostTgt where
  hp : Nat
  id : Nat
  pkt : Packet
  deriving DecidableEq, Repr

/-- Host port state beside the registers (R104, R138). -/
structure HostSt where
  tgts : List HostTgt := []
  nextId : Nat := 0
  deriving DecidableEq, Repr

/-! ### Telemetry (23) -/

/-- Telemetry state beside the registers (R495). -/
structure TelSt where
  /-- end of a hold of the time counter -/
  hold : Option Nat := none
  deriving DecidableEq, Repr


/-! ### Reset and host ports (20, 21) -/

/-- A reset in progress (R467): its start; what raised it: 0 a RESET_UNIT pulse or release, 1 a RESET_UNIT assert, which holds it, 2 an armed
response, 3 PERST_N of a host port; and the ticket that its end completes. -/
structure Hold where
  since : Nat := 0
  how : Nat := 0
  ticket : Option Nat := none
  deriving DecidableEq, Repr

/-- Boot and reset state beside the registers (R465 to R471). -/
structure BootSt where
  /-- the package is in cold reset: PKG_RESET_N is asserted, or supplies are missing (R465, R506) -/
  inReset : Bool := true
  /-- PKG_RESET_N is asserted (R505, R516) -/
  rstLow : Bool := true
  /-- since a brownout, PKG_RESET_N has not been asserted again (R506) -/
  brown : Bool := false
  /-- time of its last deassertion (R469) -/
  started : Nat := 0
  /-- phases whose BOOT_SLOW has been written -/
  slow : List Nat := []
  /-- CMD_SERVICE with MODE 1 has been accepted since (R471) -/
  service : Bool := false
  /-- the root PLL has lost lock, and why (R442) -/
  unlocked : Option Nat := none
  /-- units in reset or held, key 65536 × KIND + IDX -/
  held : Tbl Hold := []
  /-- host ports whose PCI Express link is up -/
  hostLinks : List Nat := []
  /-- host functions in D3hot (R449) -/
  d3hot : List Nat := []
  /-- stacks whose training failed (R469) -/
  untrained : List Nat := []
  deriving DecidableEq, Repr



/-- What the block sends out of the package or hands to a unit outside the model, in order. -/
inductive Out where
  /-- a reply or event placed on a partner: port 0, 1 or the partner's number -/
  | reply (port : Nat) (r : Reply)
  /-- a Zaralos message to the accelerator of an EPB -/
  | zar (epb : Nat) (m : ZMsg)
  /-- a PCI Express posted write by a host port: address and bytes -/
  | hostWrite (hp addr : Nat) (data : List Byte)
  /-- a PCI Express request of a host port target for a fabric packet, and its identifier -/
  | hostReq (hp addr id : Nat) (p : Packet)
  /-- the zero-length PCI Express read behind a posted write, and its identifier (R131) -/
  | hostFlush (hp addr id : Nat)
  /-- a PCI Express completion to the host: request identifier, status, data -/
  | hostCpl (hp id status : Nat) (data : List Byte)
  /-- an MSI-X vector signalled -/
  | msix (hp vec : Nat)
  /-- a slot of 1,168 levels: on a lane of a link, or, with lane 16, on the 16 lanes of an optical link symbol by symbol (R336, R345, R357) -/
  | slot (link lane : Nat) (levels : List Nat)
  /-- the steering gap and the preamble before a burst to an optical link, and the wake sequence of a link (R351, R359) -/
  | steer (link : Nat)
  | wakeSeq (link : Nat)
  /-- THERMTRIP_N asserted (R458) -/
  | thermTrip
  /-- a transfer of an SBD_XFER on the regulator bus: address, PEC, bytes written, bytes read (R482) -/
  | regXfer (addr : Nat) (pec : Bool) (data : List Byte) (rlen : Nat)
  /-- bytes that a tray-bus read or CCC returns, and an in-band interrupt with its data byte (R477, R479) -/
  | tray (data : List Byte)
  | ibi (data : Nat)
  /-- contents that an instruction captures in the data register it selects, bit 0 first (R515) -/
  | tdo (bits : List Bool)
  /-- the plaintext of a secured response, as only the peer of its session can read it (R378) -/
  | secured (sid : Nat) (msg : List Byte)
  /-- the completion of a BAR read: its identifier, whether it is a Completer Abort, its data (R418) -/
  | barCpl (hp id : Nat) (abort : Bool) (data : List Byte)
  deriving DecidableEq, Repr

/-- The machine. -/
structure State where
  /-- free-running CORE_CLK cycles since power-on (model's own field: times of waits are measured on it) -/
  now : Nat := 0
  /-- next free value (model's own field, log entry 3) -/
  freeN : Nat := 0
  /-- every register that has been written, by address; an unlisted register holds its reset value -/
  regs : Tbl Word := []
  /-- HBM stacks, scratchpads, local stores, instruction memories: bytes by physical key -/
  mem : List Host.Cell := []
  /-- state of HBM and scratchpad lines, by physical key divided by 128; unlisted: ok -/
  lines : Tbl LineSt := []
  /-- what has left the block, oldest first -/
  out : List Out := []
  epb : Tbl Epb := []
  /-- outstanding requests, key 4096 × logical port of the issuing unit + index (R34) -/
  tags : Tbl Tag := []
  /-- generation of each tag index -/
  gens : Tbl Nat := []
  /-- responses discarded by each Spindle cluster and host port, by logical port: the counterpart of EPB_LATE_RSP (R34) -/
  late : Tbl Nat := []
  /-- requests waiting at their issuing unit, by logical port -/
  waitq : Tbl (List Wait) := []
  /-- serial numbers given to requests -/
  serial : Nat := 1
  /-- SEQ of the last fault record, by logical port of the writing unit (R90) -/
  fseq : Tbl Nat := []
  /-- packets at the crossbar ingress of each logical port, oldest first -/
  inq : Tbl (List Packet) := []
  /-- packets handed over by an egress to its local unit and not yet handled there -/
  delivered : List (Nat × Packet) := []
  /-- Cloentim's command state (R398 to R408) -/
  cmd : CmdSt := {}
  /-- Error reporting state (R424 to R435) -/
  err : ErrSt := {}
  /-- HBM controller state beside the registers (R292 to R305) -/
  hbm : HbmSt := {}
  /-- Translation state of the whole device -/
  xlat : XlatSt := {}
  /-- Test access port state (R515 to R518) -/
  jtag : JtagSt := {}
  /-- Kiln state beside the registers. A key is represented by its bytes -/
  kln : KlnSt := {}
  /-- Link-layer state: attach links 0 to 63, optical link L as 64 + L (R354) -/
  lnk : LnkSt := {}
  /-- Switch core state beside the registers (R173 to R221) -/
  sw : SwSt := {}
  /-- Optical state beside the registers (R355 to R374) -/
  opt : OptSt := {}
  /-- Power and thermal state beside the registers (R443 to R458) -/
  pwr : PwrSt := {}
  /-- Sideband state beside the registers (R476 to R485) -/
  sbd : SbdSt := {}
  /-- Rick state beside the registers (R307 to R318, R328 to R330) -/
  rick : RickSt := {}
  /-- Reservoir state beside the registers (R319 to R327) -/
  rsv : RsvSt := {}
  /-- Spindle state beside the registers -/
  spn : SpnSt := {}
  /-- Check-value state beside the registers (R490, R491) -/
  crc : CrcSt := {}
  /-- Host port state beside the registers (R104, R138) -/
  host : HostSt := {}
  /-- Telemetry state beside the registers (R495) -/
  tel : TelSt := {}
  /-- Boot and reset state beside the registers (R465 to R471) -/
  boot : BootSt := {}
  /-- commands waiting, first in, first out -/
  pending : List Instr := []
  deriving DecidableEq, Repr

/-- Reasons a step stops with a fault: there is none, since the spec's commands answer their errors and its events always have an effect. -/
inductive Fault where
  deriving DecidableEq, Repr

/-- Reasons a step is refused. -/
inductive Refusal where
  /-- the command has no meaning in this model yet. Safe. -/
  | notModelled (mnemonic : String)
  /-- raised by PRIVATE_INSTRUCTION while KLN_DEBUG has opened the private JTAG instructions (R388, R515): the spec says nothing of what they do. Safe:
  the run stops. -/
  | privateJtag (code : Nat)
  deriving DecidableEq, Repr

/-- The machine right after power is applied: every register at its reset value, memory with nothing listed. -/
def State.reset : State := {}

end Sys2Proof.Machine
end

