-- ==== Sys2Proof/Machine/Table.lean ====
section
/-! DEFINITION. Sparse tables: read, write and remove an entry; the canonical memory list. -/

namespace Sys2Proof.Machine
open Sys2Proof

/-- The entry at key `q`, when one is listed. -/
def tblFind {α : Type} : Tbl α → Nat → Option α
  | [], _ => none
  | (k, v) :: t, q => if q = k then some v else tblFind t q

/-- The entry at key `q`, or `d` where none is listed. -/
def tblGet {α : Type} (d : α) (t : Tbl α) (q : Nat) : α := (tblFind t q).getD d

/-- Write the entry at key `q`, keeping rising key order. -/
def tblPut {α : Type} : Tbl α → Nat → α → Tbl α
  | [], q, x => [(q, x)]
  | (k, v) :: t, q, x =>
    if q = k then (q, x) :: t else if q < k then (q, x) :: (k, v) :: t else (k, v) :: tblPut t q x

/-- Remove every entry at key `q`. -/
def tblDel {α : Type} (t : Tbl α) (q : Nat) : Tbl α := t.filter (fun e => e.1 != q)

/-- Change the entry at key `q`, starting from `d` where none is listed. -/
def tblMod {α : Type} (d : α) (t : Tbl α) (q : Nat) (f : α → α) : Tbl α := tblPut t q (f (tblGet d t q))

/-- Remove the entries whose key satisfies `p`. -/
def tblDrop {α : Type} (t : Tbl α) (p : Nat → Bool) : Tbl α := t.filter (fun e => !p e.1)

/-- The values of a table, in key order. -/
def tblVals {α : Type} (t : Tbl α) : List α := t.map (·.2)

/-- The lowest key of `[0, n)` with no entry. -/
def tblFree {α : Type} (t : Tbl α) : Nat → Nat → Option Nat
  | 0, _ => none
  | n + 1, k => if (tblFind t k).isSome then tblFree t n (k + 1) else some k

/-- What an unlisted memory byte reads as (log entry 4: zero-filled at boot, R305). -/
def memDflt : Byte := 0

/-- One byte of memory. -/
def memGet (m : List Host.Cell) (a : Nat) : Byte := tblGet memDflt m a

/-- Write one byte of memory, keeping the canonical form. -/
def memPut : List Host.Cell → Nat → Byte → List Host.Cell
  | [], a, x => if x = memDflt then [] else [(a, x)]
  | (k, v) :: t, a, x =>
    if a = k then (if x = memDflt then t else (a, x) :: t)
    else if a < k then (if x = memDflt then (k, v) :: t else (a, x) :: (k, v) :: t)
    else (k, v) :: memPut t a x

/-- `n` bytes of memory from `a` upward. -/
def memRead (m : List Host.Cell) (a : Nat) : Nat → List Byte
  | 0 => []
  | n + 1 => memGet m a :: memRead m (a + 1) n

/-- Store bytes from `a` upward. -/
def memWrite (m : List Host.Cell) (a : Nat) : List Byte → List Host.Cell
  | [] => m
  | b :: t => memWrite (memPut m a b) (a + 1) t

/-- Set `n` bytes from `a` upward to the unlisted value: their cells are removed. -/
def memClear (m : List Host.Cell) (a n : Nat) : List Host.Cell :=
  m.filter (fun c => !(decide (a ≤ c.1) && decide (c.1 < a + n)))

/-- Every key of `m` lies above `lo`. -/
def memAbove (lo : Nat) : List Host.Cell → Bool
  | [] => true
  | (k, v) :: t => decide (lo ≤ k) && decide (v ≠ memDflt) && memAbove (k + 1) t

/-- The canonical form: addresses strictly rising, no cell equal to the unlisted value. -/
def Memory.wf (m : List Host.Cell) : Bool := memAbove 0 m

end Sys2Proof.Machine
end

