-- ==== Sys2Proof/Machine/Ops.lean ====
section
/-! DEFINITION. The named operations over registers, memory, outputs, free values and the units' records that every
meaning is written in. -/

namespace Sys2Proof.Machine
open Sys2Proof

/-- What a meaning answers. -/
abbrev Res := Host.Outcome State Fault Refusal

/-! ### Registers -/

/-- Register `(i, j)` of array `r`: the value written last, or its reset value. -/
def State.rd (s : State) (r : RegName) (i : Nat := 0) (j : Nat := 0) : Word :=
  tblGet (regReset r i j) s.regs (regAddr r i j)

/-- Write register `(i, j)` of array `r` whole. -/
def State.wr (s : State) (r : RegName) (i j : Nat) (w : Word) : State :=
  { s with regs := tblPut s.regs (regAddr r i j) w }

/-- A register field, as a number. -/
def State.fget (s : State) (f : Fld) (i : Nat := 0) (j : Nat := 0) : Nat := bits (s.rd f.reg i j) f.hi f.lo

/-- Replace a register field. -/
def State.fset (s : State) (f : Fld) (i j v : Nat) : State := s.wr f.reg i j (setBits (s.rd f.reg i j) f.hi f.lo v)

/-- Width of a field. -/
def Fld.width (f : Fld) : Nat := f.hi + 1 - f.lo

/-- Add to a saturating counter field. -/
def State.fsat (s : State) (f : Fld) (i j k : Nat) : State := s.fset f i j (satAdd f.width (s.fget f i j) k)

/-- Add to a counter field that wraps. -/
def State.fwrap (s : State) (f : Fld) (i j k : Nat) : State := s.fset f i j ((s.fget f i j + k) % 2 ^ f.width)

/-- Subtract from a count, stopping at 0. -/
def State.fdec (s : State) (f : Fld) (i j k : Nat) : State := s.fset f i j (s.fget f i j - k)

/-- Set or clear bit `b` of a register. -/
def State.setBit (s : State) (r : RegName) (i j b : Nat) (v : Bool) : State :=
  s.wr r i j (setBits (s.rd r i j) b b (b2n v))

/-- The registers from `lo` up to `hi`, exclusive, take their reset values. -/
def State.regsReset (s : State) (lo hi : Nat) : State :=
  { s with regs := tblDrop s.regs (fun a => decide (lo ≤ a) && decide (a < hi)) }

/-! ### Time, outputs and free values -/

/-- The time counter TEL_TIME (R494). -/
def State.time (s : State) : Nat := (s.rd .telTime).toNat

/-- Cycles of `n` microseconds. -/
def us (n : Nat) : Nat := n * Config.cyclesPerUs

/-- A wake cause of power domain `d` arises: the domain is not quiet (R445, R446). -/
def State.stir (s : State) (d : Nat) : State := { s with pwr := { s.pwr with cause := tblPut s.pwr.cause d s.now } }

/-- Append an output. -/
def State.emit (s : State) (o : Out) : State := { s with out := s.out ++ [o] }

/-- Append outputs. -/
def State.emits (s : State) (l : List Out) : State := { s with out := s.out ++ l }

/-- Draw a free value: the value, and the state that has drawn it (log entry 3). -/
def State.draw (s : State) : Nat × State := (Config.freeValue s.freeN, { s with freeN := s.freeN + 1 })

/-- Draw a free byte string of `n` bytes. -/
def State.drawBytes (s : State) (n : Nat) : List Byte × State :=
  ((List.range n).map (fun i => (Config.freeBytes s.freeN n).getD i 0), { s with freeN := s.freeN + 1 })

/-! ### Memory -/

/-- Physical key of byte `b` of HBM stack `k`. -/
def hbmKey (k b : Nat) : Nat := k * 2 ^ 36 + b
/-- Physical key of byte `b` of the scratchpad of Spindle die `d`. -/
def scrKey (d b : Nat) : Nat := 2 ^ 40 + d * 2 ^ 26 + b
/-- Physical key of byte `b` of the local store of core `i`. -/
def lsKey (i b : Nat) : Nat := 2 ^ 41 + i * 2 ^ 18 + b
/-- Physical key of byte `b` of the instruction memory of cluster `c`. -/
def imemKey (c b : Nat) : Nat := 2 ^ 42 + c * 2 ^ 18 + b

/-- `n` bytes at a physical key. -/
def State.load (s : State) (a n : Nat) : List Byte := memRead s.mem a n
/-- Store bytes at a physical key. -/
def State.store (s : State) (a : Nat) (l : List Byte) : State := { s with mem := memWrite s.mem a l }
/-- Set the state of line number `l` (a physical key divided by 128). -/
def State.setLine (s : State) (l : Nat) (x : LineSt) : State :=
  { s with lines := if x = .ok then tblDel s.lines l else tblPut s.lines l x }
/-- The lines that `n` bytes at key `a` touch. -/
def linesOf (a n : Nat) : List Nat := if n = 0 then [] else (List.range ((a + n - 1) / 128 - a / 128 + 1)).map (· + a / 128)

/-! ### End-point blocks -/

/-- What EPB `n` holds. -/
def State.epbAt (s : State) (n : Nat) : Epb := tblGet {} s.epb n
/-- Change what EPB `n` holds. -/
def State.epbMod (s : State) (n : Nat) (f : Epb → Epb) : State := { s with epb := tblMod {} s.epb n f }

/-! ### Binding -/

/-- A tenant is bound: BINDING, BOUND or UNBINDING (R375). -/
def State.bound (s : State) : Bool := s.fget Fld.klnState_BSTATE != 0

/-! ### Units held in reset (R475) -/

/-- EPB `n`, and so on, are in reset or held. -/
def State.epbHeld (s : State) (n : Nat) : Bool := bit (s.rd .cmdHeld0) n
def State.clusterHeld (s : State) (c : Nat) : Bool := bit (s.rd .cmdHeld1) c
def State.hbmHeld (s : State) (k : Nat) : Bool := bit (s.rd .cmdHeld1) (16 + k)
def State.opticHeld (s : State) (c : Nat) : Bool := bit (s.rd .cmdHeld1) (24 + c)
def State.coreHeld (s : State) (d : Nat) : Bool := bit (s.rd .cmdHeld1) (32 + d)
def State.rsvHeld (s : State) : Bool := bit (s.rd .cmdHeld1) 34
def State.hubDieHeld (s : State) (d : Nat) : Bool := bit (s.rd .cmdHeld1) (41 + d)

/-! ### Coordinates of this GX3200 -/

/-- X, Y and P of this GX3200, as one 12-bit number (R169). -/
def State.xyp (s : State) : Nat := s.fget Fld.hubCoord_X * 256 + s.fget Fld.hubCoord_Y * 16 + s.fget Fld.hubCoord_P
/-- Bits of a GFA (R70). -/
def gfaX (a : Nat) : Nat := a / 2 ^ 60 % 16
def gfaY (a : Nat) : Nat := a / 2 ^ 56 % 16
def gfaP (a : Nat) : Nat := a / 2 ^ 52 % 16
def gfaE (a : Nat) : Nat := a / 2 ^ 45 % 128
def gfaOff (a : Nat) : Nat := a % 2 ^ 45
/-- X, Y and P of a GFA as one number. -/
def gfaXyp (a : Nat) : Nat := a / 2 ^ 52 % 4096
/-- The GFA of an offset at an end-point of this GX3200. -/
def State.localGfa (s : State) (e off : Nat) : Nat := s.xyp * 2 ^ 52 + e * 2 ^ 45 + off
/-- Target ports (R12). -/
def isTarget (e : Nat) : Bool := decide (e < 64) || (decide (96 ≤ e) && decide (e ≤ 121))

/-- Replace the first element that satisfies `p`. -/
def modFirst {α : Type} (p : α → Bool) (f : α → α) : List α → List α
  | [] => []
  | a :: t => if p a then f a :: t else a :: modFirst p f t

/-- Remove the first element that satisfies `p`. -/
def delFirst {α : Type} (p : α → Bool) : List α → List α
  | [] => []
  | a :: t => if p a then t else a :: delFirst p t

/-- Apply `f` for each element, threading the state. -/
def State.each {α : Type} (l : List α) (f : State → α → State) (s : State) : State := l.foldl f s

/-- A command that still waits belongs to the same CORE_CLK cycle (log entry 65): one that satisfies `f` comes behind this one. -/
def State.soon (s : State) (f : Instr → Bool) : Bool := s.pending.any f

end Sys2Proof.Machine
end

