-- ==== Sys2Proof/Machine/Report.lean ====
section
/-! DEFINITION. Status codes, replies, events, tickets, error records and fault records (04, 18, 19). -/

namespace Sys2Proof.Machine
open Sys2Proof

/-! ### Status codes (R39, R412) -/

def Status.ok : Nat := 0
def Status.accepted : Nat := 1
def Status.invalidOpcode : Nat := 2
def Status.badParam : Nat := 3
def Status.busy : Nat := 4
def Status.refused : Nat := 5
def Status.notBound : Nat := 6
def Status.staleRole : Nat := 7
def Status.fenced : Nat := 8
def Status.quota : Nat := 9
def Status.timeout : Nat := 10
def Status.flushed : Nat := 11
def Status.fault : Nat := 12
def Status.portDown : Nat := 13
def Status.unreachable : Nat := 14

/-- The 4-bit transaction statuses (R39). -/
def TStat.ok : Nat := 0
def TStat.fault : Nat := 1
def TStat.unreachable : Nat := 2
def TStat.portDown : Nat := 3
def TStat.fenced : Nat := 4
def TStat.staleRole : Nat := 5
def TStat.badParam : Nat := 6
def TStat.timeout : Nat := 7
def TStat.flushed : Nat := 8

/-! ### Host ports -/

/-- A host port carries ring writes while its link is up, it is out of reset and its function is in D0 (R92, R449). -/
def State.hostUp (s : State) (h : Nat) : Bool :=
  s.boot.hostLinks.contains h && !s.boot.d3hot.contains h && !bit (s.rd .cmdHeld1) (35 + h)

/-! ### Replies and events (R398 to R414) -/

/-- The 16-byte header of a reply or event (R402). -/
def replyHeader (r : Reply) : List Word :=
  [BitVec.ofNat 64 (2 ^ 56 + r.partner * 2 ^ 52 + 2 ^ 51 + b2n r.event * 2 ^ 50 + r.opcode * 2 ^ 32 + r.seq * 2 ^ 16 + r.body.length),
   BitVec.ofNat 64 (r.status * 2 ^ 48 + r.cepoch * 2 ^ 40 + r.ticket)]

/-- Place a packet in the mailbox's reply ring (R401): the bytes, then RSP_TAIL, then the vector. -/
def State.mboxWrite (s : State) (r : Reply) : State :=
  let size := 2 ^ s.fget Fld.cmdMboxRspCtrl_RSP_ORDER
  let tail := s.fget Fld.cmdMboxRspTail_RSP_TAIL
  let hp := s.fget Fld.cmdMboxRspCtrl_HOST
  let addr := s.fget Fld.cmdMboxRspBase_ADDR * 4096 + 8192 * (tail % size)
  ((s.emit (.hostWrite hp addr (bytesOfWords (replyHeader r) ++ r.body))).fwrap Fld.cmdMboxRspTail_RSP_TAIL 0 0 1).emit
    (.msix hp (s.fget Fld.cmdMboxRspCtrl_VEC))

/-- The mailbox's reply ring takes no packet now: it is full (R401), the mailbox is not in use, or its host port writes nothing (R449; log entry 43). -/
def State.mboxWaits (s : State) : Bool :=
  s.fget Fld.cmdMboxRspCtrl_EN == 0 || !s.hostUp (s.fget Fld.cmdMboxRspCtrl_HOST) || decide (2 ^ s.fget Fld.cmdMboxRspCtrl_RSP_ORDER ≤
    (s.fget Fld.cmdMboxRspTail_RSP_TAIL + 2 ^ 32 - s.fget Fld.cmdMboxRspHead_RSP_HEAD) % 2 ^ 32)

/-- Sequence space of a partner: MP0 and MP1 share one. -/
def seqSpace (p : Nat) : Nat := p - 1

/-- Place a packet at a partner (R398, R401, R479): the state, and whether the packet was placed. The sideband's buffer takes an event while it
holds fewer than 4 packets, and raises an in-band interrupt in I3C mode. -/
def State.placeAt (s : State) (r : Reply) : State × Bool :=
  if r.partner = 0 ∨ r.partner = 1 then
    if s.fget Fld.cmdMpStat_LINK r.partner = 1 then (s.emit (.reply r.partner r), true)
    else (s.fsat Fld.cmdMpFrames_TXLOST r.partner 0 1, false)
  else if r.partner = 2 then
    if s.fget Fld.cmdMboxRspCtrl_EN = 0 then (s.fsat Fld.cmdMboxLost_LOST 0 0 1, false)
    else if s.mboxWaits || !s.cmd.holding.isEmpty then
      if s.cmd.holding.length < 64 then ({ s with cmd := { s.cmd with holding := s.cmd.holding ++ [r] } }, true)
      else (s.fsat Fld.cmdMboxLost_LOST 0 0 1, false)
    else (s.mboxWrite r, true)
  else if r.event ∧ 4 ≤ s.cmd.sbBuf.length then (s, false)
  else
    let s1 : State := { s with cmd := { s.cmd with sbBuf := s.cmd.sbBuf ++ [r] } }
    (if s.fget Fld.sbdStat_I3C = 1 ∧ s.sbd.ibi = true then s1.emit (.ibi s1.cmd.sbBuf.length) else s1, true)

/-- Move held packets into the mailbox's reply ring while it takes them (R401); `n` bounds the moves. -/
def State.mboxDrain : Nat → State → State
  | 0, s => s
  | n + 1, s =>
    match s.cmd.holding with
    | [] => s
    | r :: t =>
      if s.mboxWaits then s
      else State.mboxDrain n (({ s with cmd := { s.cmd with holding := t } }).mboxWrite r)

/-- Place a reply that has been held back since its command was taken; its cache entry is no longer one of a command in progress (R392, R202, R408). -/
def State.placeHeld (s : State) (r : Reply) : State :=
  let sp := seqSpace r.partner
  let mark := fun (e : CachedReply) => if e.seq = r.seq then { e with placed := true } else e
  ({ s with cmd := { s.cmd with caches := tblPut s.cmd.caches sp ((tblGet [] s.cmd.caches sp).map mark) } }.placeAt r).1

/-- CEPOCH (R421). -/
def State.cepoch (s : State) : Nat := s.fget Fld.cmdCtrl_CEPOCH

/-- Post an event to one partner (R414): numbered, never cached; a loss is counted. -/
def State.eventTo (s : State) (p code : Nat) (body : List Byte) : State :=
  let n := tblGet 0 s.cmd.evSeq p
  let s1 := { s with cmd := { s.cmd with evSeq := tblPut s.cmd.evSeq p ((n + 1) % 65536) } }
  let r : Reply := { partner := p, event := true, opcode := code, seq := (n + 1) % 65536, status := Status.ok, cepoch := s.cepoch, body := body }
  match s1.placeAt r with
  | (s2, true) => s2
  | (s2, false) => s2.fsat Fld.cmdPstatErr_EVLOST p 0 1

/-- Post an event to every partner whose mask bit is set (R414). -/
def State.event (s : State) (code : Nat) (body : List Byte) : State :=
  State.each [0, 1, 2, 3] (fun s p => if bit (s.rd .cmdPstatEvtmask p) (code - 0x0F00) then s.eventTo p code body else s) s

/-! ### Tickets (R406) -/

/-- The 32-bit ticket of a slot. -/
def State.ticketNo (s : State) (slot : Nat) : Nat :=
  s.cepoch * 2 ^ 24 + (tblGet { issue := 0, cmd := {} } s.cmd.tickets slot).issue * 256 + slot

/-- The slot whose command completed earliest, of the completed ones. -/
def oldestDone : Tbl Ticket → Option (Nat × Nat) → Option Nat
  | [], best => best.map (·.1)
  | (k, t) :: r, best =>
    if t.done then
      match best with
      | some (_, d) => oldestDone r (if t.doneAt < d then some (k, t.doneAt) else best)
      | none => oldestDone r (some (k, t.doneAt))
    else oldestDone r best

/-- The slot a new ticket takes: a free one, or else the one that completed earliest; none when all are incomplete (R406). -/
def State.ticketSlot (s : State) : Option Nat :=
  match tblFree s.cmd.tickets 256 0 with
  | some k => some k
  | none => oldestDone s.cmd.tickets none

/-- Give a command a ticket: its number, and the state that holds it. -/
def State.ticketNew (s : State) (slot : Nat) (c : Cmd) : Nat × State :=
  let s1 := { s with cmd := { s.cmd with
    issue := (s.cmd.issue + 1) % 65536
    tickets := tblPut s.cmd.tickets slot { issue := s.cmd.issue, cmd := c, port := c.partner } } }
  (s1.ticketNo slot, s1)

/-- Post a completion event to the partner of a ticket (R406): a management partner whose link is down gives way to the other port. -/
def State.completeTicket (s : State) (ticket status : Nat) (results : List Byte) : State :=
  let slot := ticket % 256
  match tblFind s.cmd.tickets slot with
  | none => s
  | some t =>
    if t.done || s.ticketNo slot != ticket then s
    else
      let s1 := { s with cmd := { s.cmd with
        tickets := tblPut s.cmd.tickets slot { t with done := true, doneAt := s.now, status := status, results := results } } }
      let p := if t.port ≤ 1 ∧ s.fget Fld.cmdMpStat_LINK t.port = 0 then 1 - t.port else t.port
      let r : Reply := { partner := p, event := true, opcode := t.cmd.opcode, seq := t.cmd.seq, status := status,
                         cepoch := s.cepoch, ticket := ticket, body := results
                         dst := if p < 2 then some t.cmd.src else none, tag := if p < 2 then t.cmd.tag else none }
      match s1.placeAt r with
      | (s2, true) => s2
      | (s2, false) => s2.fsat Fld.cmdPstatErr_EVLOST p 0 1

/-! ### Error records (R424 to R433) -/

/-- DIE of a unit (R424, Table — unit kinds). -/
def unitDie (kind idx : Nat) : Nat :=
  match kind with
  | 0 => idx
  | 1 => idx / 32
  | 2 => idx / 32
  | 3 => idx / 64
  | 4 => 2 + idx / 1024
  | 5 => 2 + idx / 4
  | 6 => 2 + idx / 2
  | 7 => 2 + idx / 2
  | 8 => 6 + idx / 20
  | 9 => 6 + idx
  | 13 => idx
  | 14 => idx / 32768
  | _ => 14

/-- The armed ACTION of a code (R430, R440). -/
def State.armedAction (s : State) (code : Nat) : Nat := bits (s.rd .errArm (code / 8)) (8 * (code % 8) + 1) (8 * (code % 8))

/-- The window-table entry that an open window of a unit holds (R432, R433); a failed-in-recovery window does not expire. -/
def State.windowOf (s : State) (kind idx : Nat) : Option Nat :=
  (s.err.windows.find? (fun w =>
    s.fget Fld.errWinW0_KIND w.slot == kind && s.fget Fld.errWinW0_IDX w.slot == idx
      && (s.fget Fld.errWinW0_FIR w.slot == 1 || decide (s.now < w.closeAt)))).map (·.slot)

/-- The earliest-ending window that is not failed-in-recovery. -/
def earliestWindow : List Window → Option Window → Option Nat
  | [], b => b.map (·.slot)
  | w :: t, none => earliestWindow t (some w)
  | w :: t, some b => earliestWindow t (if w.closeAt < b.closeAt then some w else some b)

/-- Number of open windows, shown in ERR_STAT. -/
def State.winCount (s : State) : Nat := s.err.windows.length

/-- Close the windows whose time has come (R432). -/
def State.winExpire (s : State) : State :=
  let due := s.err.windows.filter (fun w => decide (w.closeAt ≤ s.now) && s.fget Fld.errWinW0_FIR w.slot == 0)
  let s1 := State.each due (fun s w => (s.wr .errWinW0 w.slot 0 0).wr .errWinW1 w.slot 0 0) s
  { s1 with err := { s1.err with windows := s1.err.windows.filter (fun w => !due.contains w) } }

/-- Open a recovery window for a unit (R432). -/
def State.winOpen (s : State) (kind idx : Nat) : State :=
  let s := s.winExpire
  let free := (List.range 256).find? (fun i => !s.err.windows.any (fun w => w.slot == i))
  let slot := match free with
    | some i => some i
    | none => earliestWindow (s.err.windows.filter (fun w => s.fget Fld.errWinW0_FIR w.slot == 0)) none
  match slot with
  | none => s.fsat Fld.errWinfull_WINFULL 0 0 1
  | some i =>
    let len := us (1000 * s.fget Fld.errCtrl_REC_WIN)
    let w0 := BitVec.ofNat 64 (2 ^ 63 + kind * 2 ^ 58 + idx * 2 ^ 42)
    let s1 := (s.wr .errWinW0 i 0 w0).wr .errWinW1 i 0 (BitVec.ofNat 64 (s.time + len))
    { s1 with err := { s1.err with windows := { slot := i, closeAt := s.now + len } :: s1.err.windows.filter (fun w => w.slot != i) } }

/-- Close a unit's window and clear its FIR (R433). -/
def State.winClear (s : State) (kind idx : Nat) : State :=
  match s.windowOf kind idx with
  | none => s
  | some i =>
    let s1 := (s.wr .errWinW0 i 0 0).wr .errWinW1 i 0 0
    { s1 with err := { s1.err with windows := s1.err.windows.filter (fun w => w.slot != i) } }

/-- Class counter of a die (R425). -/
def classFld : Nat → Fld
  | 0 => Fld.errDieCnt0_CORR
  | 1 => Fld.errDieCnt0_DEFER
  | 2 => Fld.errDieCnt0_CONTAIN
  | 3 => Fld.errDieCnt0_PORTF
  | _ => Fld.errDieCnt1_DEVF

/-- The eight words of an error record (R424). -/
def errWords (die cls fir action code kind idx seq time : Nat) (d : List Nat) : List Word :=
  [BitVec.ofNat 64 (die * 2 ^ 60 + cls * 2 ^ 57 + fir * 2 ^ 55 + action * 2 ^ 53 + code * 2 ^ 40 + kind * 2 ^ 36 + idx * 2 ^ 20),
   BitVec.ofNat 64 (seq * 2 ^ 32), BitVec.ofNat 64 time,
   BitVec.ofNat 64 (d.getD 0 0), BitVec.ofNat 64 (d.getD 1 0), BitVec.ofNat 64 (d.getD 2 0), BitVec.ofNat 64 (d.getD 3 0), 0]

/-- First-error capture (R425). -/
def State.capture (s : State) (die : Nat) (ws : List Word) : State :=
  if s.fget Fld.errDieCap_VALID die = 1 then s
  else
    let s1 := s.fset Fld.errDieCap_VALID die 0 1
    State.each (List.range 8) (fun s j => s.wr .errFirst die j (if j = 0 then setBits (wordAt ws 0) 56 56 1 else wordAt ws j)) s1

/-- Put a record into its die's FIFO, capture it, and post it as ERR_NOTIFY (R425, R426); FIRST is set in the captured copy alone (log entry 51). -/
def State.errPlace (s : State) (die cls fir : Nat) (ws : List Word) : State :=
  let s0 := s.fsat (classFld cls) die 0 1
  let q := tblGet [] s0.err.fifos die
  let s1 := if q.length < 64 then
      ({ s0 with err := { s0.err with fifos := tblPut s0.err.fifos die (q ++ [ws]) } }).fset Fld.errDieCnt1_LEVEL die 0 (q.length + 1)
    else s0.fsat Fld.errDieCnt1_OVF die 0 1
  let s2 := s1.capture die ws
  let s3 := if cls = 4 then s2.fset Fld.errStat_FATAL 0 0 1 else s2
  if s3.fget Fld.errCtrl_NOTIFY_MIN ≤ cls ∨ fir = 1 then s3.event 0x0F10 (bytesOfWords ws) else s3

/-- The windows of a contained record (R432, R433): whether the unit is failed-in-recovery, and the new state. -/
def State.errWindow (s : State) (cls kind idx : Nat) : Nat × State :=
  if cls = 2 then
    match s.windowOf kind idx with
    | some i => (1, (s.fset Fld.errWinW0_FIR i 0 1).fset Fld.errStat_FIR_ANY 0 0 1)
    | none => (0, s.winOpen kind idx)
  else (0, s)

/-- Write an error record whose armed response, if any, has been settled as `action` (R424 to R433). -/
def State.errWrite (s : State) (cls code kind idx action : Nat) (d : List Nat) : State :=
  let die := unitDie kind idx
  let (fir, s1) := s.errWindow cls kind idx
  let seq := tblGet 0 s1.err.seqs die + 1
  let s2 := { s1 with err := { s1.err with seqs := tblPut s1.err.seqs die (seq % 2 ^ 32) } }
  let s3 := s2.fset Fld.errStat_WINOPEN 0 0 s2.winCount
  s3.errPlace die cls fir (errWords die cls fir action code kind idx (seq % 2 ^ 32) s.time d)

/-- Write an error record of a code that no armed response can be set for. -/
def State.errRec (s : State) (cls code kind idx : Nat) (d : List Nat) : State := s.errWrite cls code kind idx 0 d

/-- A record of a code that an armed response may be set for: it is written when the step settles (R430). -/
def State.errLater (s : State) (cls code kind idx : Nat) (d : List Nat) : State :=
  { s with err := { s.err with later := s.err.later ++ [{ cls := cls, code := code, kind := kind, idx := idx, d := d }] } }

/-! ### Fault records (R90 to R92) -/

/-- The fields of a fault record (R90). -/
structure FaultRec where
  cause : Nat
  status : Nat := 1
  actor : Nat := 0
  parked : Bool := false
  fva : Option Nat := none
  gfa : Option Nat := none
  typ : Nat := 0
  level : Nat := 7
  fas : Nat := 0
  count : Nat := 1
  context : Nat := 0
  resumeOff : Nat := 0
  doneMask : Nat := 0
  detail : Nat := 0
  deriving DecidableEq, Repr

/-- The host ring a unit's records go to (R91). -/
def State.faultRing (s : State) (port : Nat) : Nat :=
  let own := if port < 64 then port / 32 else if port < 112 then (port - 96) / 8 else if port < 120 then (port - 112) / 4 else port - 120
  let a0 := s.fget Fld.errFringCtrl_ALL 0
  let a1 := s.fget Fld.errFringCtrl_ALL 1
  if a0 = 1 ∧ a1 = 0 then 0 else if a0 = 0 ∧ a1 = 1 then 1 else own

/-- The eight words of a fault record. -/
def faultWords (ident time : Nat) (f : FaultRec) : List Word :=
  [BitVec.ofNat 64 ident,
   BitVec.ofNat 64 (f.cause * 2 ^ 58 + f.status * 2 ^ 54 + f.actor * 2 ^ 51 + b2n f.parked * 2 ^ 50 + b2n f.fva.isSome * 2 ^ 49
     + b2n f.gfa.isSome * 2 ^ 48 + f.typ * 2 ^ 42 + f.level * 2 ^ 39 + f.fas * 2 ^ 27 + f.count % 65536),
   BitVec.ofNat 64 (f.fva.getD 0), BitVec.ofNat 64 (f.gfa.getD 0), BitVec.ofNat 64 f.context,
   BitVec.ofNat 64 (f.resumeOff * 2 ^ 32 + f.doneMask), BitVec.ofNat 64 time, BitVec.ofNat 64 f.detail]

/-- Write bytes to a host ring of `esize`-byte entries (R91, R92), or count the entry as lost. -/
def State.hostRing (s : State) (h esize : Nat) (base ctrlEn ctrlSize ctrlVec head tail lost : Fld) (data : List Byte) : State :=
  let size := 2 ^ (s.fget ctrlSize h + 6)
  let t := s.fget tail h
  if s.fget ctrlEn h = 0 ∨ (t + 1) % size = s.fget head h % size ∨ s.hostUp h = false
      ∨ Config.hostRefuses h (s.fget base h * 4096 + esize * t) s.now = true then s.fsat lost h 0 1
  else
    ((s.emit (.hostWrite h (s.fget base h * 4096 + esize * t) data)).fset tail h 0 ((t + 1) % size)).emit (.msix h (s.fget ctrlVec h))

/-- Write a fault record of the unit at logical port `port`: its identifier, and the state (R90 to R92). -/
def State.faultRec (s : State) (port : Nat) (f : FaultRec) : Nat × State :=
  let seq := (tblGet 0 s.fseq port + 1) % 2 ^ 57
  let ident := port * 2 ^ 57 + seq
  let s1 := { s with fseq := tblPut s.fseq port seq }
  (ident, s1.hostRing (s.faultRing port) 64 Fld.errFringBase_ADDR Fld.errFringCtrl_EN Fld.errFringCtrl_SIZE Fld.errFringCtrl_VEC
    Fld.errFringHead_HEAD Fld.errFringTail_TAIL Fld.errFringLost_LOST (bytesOfWords (faultWords ident s.time f)))

/-- Write a fault record. -/
def State.fault (s : State) (port : Nat) (f : FaultRec) : State := (s.faultRec port f).2

/-- Post a hot-page entry of EPB `n` (R106). -/
def State.hotPage (s : State) (n page count fas : Nat) : State :=
  s.hostRing (n / 32) 16 Fld.telHringBase_ADDR Fld.telHringCtrl_EN Fld.telHringCtrl_SIZE Fld.telHringCtrl_VEC
    Fld.telHringHead_HEAD Fld.telHringTail_TAIL Fld.telHringLost_LOST
    (bytesOfWords [BitVec.ofNat 64 (page % 2 ^ 48 * 2 ^ 16 + n * 2 ^ 10),
      BitVec.ofNat 64 (count * 2 ^ 52 + fas * 2 ^ 40 + s.time % 2 ^ 40)])

end Sys2Proof.Machine
end

