-- ==== Sys2Proof/Machine/Crc.lean ====
section
/-! DEFINITION. Check-value channels (23): restart, feed, claim and release. -/

namespace Sys2Proof.Machine
open Sys2Proof

/-- The low `n` bits of a number in reverse order. -/
def reflect (n v : Nat) : Nat := (List.range n).foldl (fun a i => 2 * a + v / 2 ^ i % 2) 0

/-- The number of `w` low one bits. -/
def onesNat (w : Nat) : Nat := 2 ^ w - 1

/-- One bit of a byte enters a state of width `w` (R490). -/
def crcBit (w poly s b : Nat) : Nat :=
  let f := (s / 2 ^ (w - 1) % 2) ^^^ b
  let s1 := 2 * s % 2 ^ w
  if f = 1 then s1 ^^^ poly else s1

/-- One byte enters a state (R490). -/
def crcByte (w poly : Nat) (refl : Bool) (s b : Nat) : Nat :=
  let b := if refl then reflect 8 b else b
  [7, 6, 5, 4, 3, 2, 1, 0].foldl (fun s i => crcBit w poly s (b / 2 ^ i % 2)) s

/-- A byte string enters a state. -/
def crcBytes (w poly : Nat) (refl : Bool) (s : Nat) (l : List Byte) : Nat := l.foldl (fun s b => crcByte w poly refl s b.toNat) s

/-- VALUE of a state (R490). -/
def crcValue (w : Nat) (refl inv : Bool) (s : Nat) : Nat := (if refl then reflect w s else s) ^^^ (if inv then onesNat w else 0)

/-- CRC-32C of a byte string (R490). -/
def crc32c (l : List Byte) : Nat := crcValue 32 true true (crcBytes 32 0x1EDC6F41 true 0xFFFFFFFF l)

/-- CRC-64 of a byte string (R313). -/
def crc64 (l : List Byte) : Nat := crcBytes 64 0x42F0E1EBA9EA3693 false 0 l

/-- The state of a channel. -/
def State.crcS (s : State) (c : Nat) : Nat := (tblFind s.crc.state c).getD (s.fget Fld.crcInit_INIT c)

/-- Set a channel's state and the number of bytes fed, as its registers show them. -/
def State.crcSet (s : State) (c x fed : Nat) : State :=
  let s1 := { s with crc := { s.crc with state := tblPut s.crc.state c x } }
  let v := crcValue (s.fget Fld.crcCfg_WIDTH c) (s.fget Fld.crcCfg_REFLECT c == 1) (s.fget Fld.crcCfg_INV c == 1) x
  (s1.fset Fld.crcValue_VALUE c 0 v).fset Fld.crcStat_FED c 0 fed

/-- Restart a channel: S = INIT, FED = 0 (R490). -/
def State.crcRestart (s : State) (c : Nat) : State := s.crcSet c (s.fget Fld.crcInit_INIT c) 0

/-- Feed bytes to a channel (R490). -/
def State.crcFeed (s : State) (c : Nat) (l : List Byte) : State :=
  if l.isEmpty then s
  else s.crcSet c (crcBytes (s.fget Fld.crcCfg_WIDTH c) (s.fget Fld.crcPoly_POLY c) (s.fget Fld.crcCfg_REFLECT c == 1) (s.crcS c) l)
    (s.fget Fld.crcStat_FED c + l.length)

/-- The channel is not claimed. -/
def State.crcFree (s : State) (c : Nat) : Bool := s.fget Fld.crcStat_OWNER c == 0

/-- Claim a channel for an owner (R491): 1 a DMA item, 2 CRC_FEED, 3 Coppice; with `cont = false` the claim restarts it. -/
def State.crcClaim (s : State) (c owner epb ring : Nat) (cont : Bool) : State :=
  let s1 := ((s.fset Fld.crcStat_OWNER c 0 owner).fset Fld.crcStat_EPB c 0 epb).fset Fld.crcStat_RING c 0 ring
  if cont then s1 else s1.crcRestart c

/-- Release a channel. -/
def State.crcRelease (s : State) (c : Nat) : State :=
  ((s.fset Fld.crcStat_OWNER c 0 0).fset Fld.crcStat_EPB c 0 0).fset Fld.crcStat_RING c 0 0

end Sys2Proof.Machine
end

