-- ==== Sys2Proof/Machine/Codec.lean ====
section
/-! DEFINITION. Symbols, codewords and flit headers of a link (15, 16), packets and Zaralos messages as bytes (02, 03). -/

namespace Sys2Proof.Machine
open Sys2Proof

/-! ### Levels on a lane (R336, R357) -/

/-- The Gray map of a bit pair, and its inverse. -/
def gray (p : Nat) : Nat := if p = 2 then 3 else if p = 3 then 2 else p

/-- The bit pairs of received levels of one lane: the precoder 1/(1+D) undone from `y(−1) = prev`, then the Gray map. -/
def pairsOf (prev : Nat) : List Nat → List Nat
  | [] => []
  | y :: t => gray ((y + prev) % 4) :: pairsOf y t

/-- The bit pairs of a byte, bits [1:0] first. -/
def pairsOfByte (b : Byte) : List Nat := [b.toNat % 4, b.toNat / 4 % 4, b.toNat / 16 % 4, b.toNat / 64]

/-- The levels sent for bit pairs: the Gray map, then the precoder 1/(1+D) from `y(−1) = prev` (R336). -/
def levelsOf (prev : Nat) : List Nat → List Nat
  | [] => []
  | p :: t =>
    let y := (gray p + 4 - prev) % 4
    y :: levelsOf y t

/-- Bytes from bit pairs, bits [1:0] first. -/
def bytesOfPairs : Nat → List Nat → List Byte
  | 0, _ => []
  | n + 1, l => BitVec.ofNat 8 (l.getD 0 0 + 4 * l.getD 1 0 + 16 * l.getD 2 0 + 64 * l.getD 3 0) :: bytesOfPairs n (l.drop 4)

/-- The 288 bytes that 1,152 levels of one attach lane carry (R336). -/
def laneBytes (levels : List Nat) : List Byte := bytesOfPairs 288 (pairsOf 0 levels)

/-- The levels of lane `j` in 72 group symbols, given symbol by symbol. -/
def laneOf (j : Nat) : Nat → List Nat → List Nat
  | 0, _ => []
  | n + 1, l => l.getD j 0 :: laneOf j n (l.drop 16)

/-- The 288 bytes that 72 group symbols of 16 lanes carry (R357): byte 4(m − 1) + ⌊j/4⌋ has its pair j mod 4 on lane j of symbol m. -/
def groupBytes (levels : List Nat) : List Byte :=
  let lanes := (List.range 16).map (fun j => pairsOf 0 (laneOf j 72 levels))
  (List.range 288).map (fun i => BitVec.ofNat 8
    ((List.range 4).foldl (fun a k => a + ((lanes.getD (4 * (i % 4) + k) []).getD (i / 4) 0) * 4 ^ k) 0))

/-- The comma (R342). -/
def commaLevels : List Nat := [3, 3, 3, 3, 3, 0, 0, 0, 0, 0, 3, 3, 0, 0, 3, 0]

/-- A slot of a lane: the comma, then the levels of 288 bytes (R336, R342). -/
def laneSlot (l : List Byte) : List Nat := commaLevels ++ levelsOf 0 (l.flatMap pairsOfByte)

/-- A slot of the 16 lanes of an optical link, symbol by symbol: element j of the comma on lane j, then 72 group symbols of 288 bytes (R357). -/
def groupSlot (l : List Byte) : List Nat :=
  let lanes := (List.range 16).map (fun j => levelsOf 0 ((List.range 72).map (fun m => (l.getD (4 * m + j / 4) 0).toNat / 4 ^ (j % 4) % 4)))
  commaLevels ++ (List.range 72).flatMap (fun m => lanes.map (fun x => x.getD m 0))

/-! ### PRBS31 (R344, R345; polynomial and order of the bits: log entry 64) -/

/-- One step of the PRBS31 register x^31 + x^28 + 1: the register, and the bit sent. -/
def prbsStep (r : Nat) : Nat × Nat :=
  let b := (r / 2 ^ 30 + r / 2 ^ 27) % 2
  ((2 * r + b) % 2 ^ 31, b)

/-- The next byte of PRBS31, its first bit in bit 0. -/
def prbsByte (r : Nat) : Nat × Byte :=
  (List.range 8).foldl (fun (acc : Nat × Byte) i => let (r1, b) := prbsStep acc.1; (r1, acc.2 + BitVec.ofNat 8 (b * 2 ^ i))) (r, 0)

/-- The next `k` bytes of PRBS31, and the register after them. -/
def prbsBytes : Nat → Nat → Nat × List Byte
  | 0, r => (r, [])
  | k + 1, r =>
    let (r1, b) := prbsByte r
    let (r2, l) := prbsBytes k r1
    (r2, b :: l)

/-- A comma hit: at least 14 of 16 levels match. -/
def commaHit (l : List Nat) : Bool :=
  decide (14 ≤ ((List.range 16).filter (fun i => l.getD i 4 == commaLevels.getD i 5)).length)

/-! ### RS(288,272) (R339; which end of a component is the high power is log entry 14) -/

/-- Product in GF(2^8) with field polynomial x^8 + x^4 + x^3 + x^2 + 1. -/
def gmul (a b : Nat) : Nat :=
  ((List.range 8).foldl (fun (acc : Nat × Nat) i =>
    (if b.testBit i then acc.1 ^^^ acc.2 else acc.1, if acc.2 < 128 then 2 * acc.2 else (2 * acc.2) ^^^ 0x11D)) (0, a)).1

/-- Power in the field. -/
def gpow (a : Nat) : Nat → Nat
  | 0 => 1
  | n + 1 => gmul a (gpow a n)

/-- Inverse: the 254th power, by squaring (0 for 0). -/
def ginv (a : Nat) : Nat :=
  (List.range 7).foldl (fun (acc : Nat × Nat) _ => let q := gmul acc.2 acc.2; (gmul acc.1 q, q)) (1, a) |>.1

/-- Value of a polynomial given highest coefficient first. -/
def polyEval (x : Nat) (p : List Nat) : Nat := p.foldl (fun a c => gmul a x ^^^ c) 0

/-- Value of a polynomial given lowest coefficient first. -/
def polyEvalLow (x : Nat) (p : List Nat) : Nat := p.foldr (fun c a => gmul a x ^^^ c) 0

/-- The generator, highest coefficient first: the product of (x − α^j) for j = 0 to 7. -/
def rsGen : List Nat :=
  (List.range 8).foldl (fun p j => List.zipWith (· ^^^ ·) (p ++ [0]) (0 :: p.map (gmul (gpow 2 j)))) [1]

/-- The eight parity symbols of a message. -/
def rsParity (msg : List Nat) : List Nat :=
  msg.foldl (fun r m =>
    let f := m ^^^ r.headD 0
    List.zipWith (· ^^^ ·) (r.drop 1 ++ [0]) ((rsGen.drop 1).map (gmul f))) (List.replicate 8 0)

/-- The eight syndromes of a component. -/
def rsSyndromes (c : List Nat) : List Nat := (List.range 8).map (fun j => polyEval (gpow 2 j) c)

/-- State of the Berlekamp–Massey search: locator, last locator, length, gap, last discrepancy (polynomials lowest first). -/
structure Bm where
  c : List Nat
  b : List Nat
  len : Nat
  gap : Nat
  last : Nat

/-- Sum of two polynomials, lowest coefficient first. -/
def polyAdd : List Nat → List Nat → List Nat
  | [], q => q
  | p, [] => p
  | a :: p, b :: q => (a ^^^ b) :: polyAdd p q

/-- One step with syndrome number `n`. -/
def bmStep (syn : List Nat) (st : Bm) (n : Nat) : Bm :=
  let d := (List.range (st.len + 1)).foldl (fun a i => a ^^^ gmul (st.c.getD i 0) (syn.getD (n - i) 0)) 0
  if d = 0 then { st with gap := st.gap + 1 }
  else
    let k := gmul d (ginv st.last)
    let c' := polyAdd st.c (List.replicate st.gap 0 ++ st.b.map (gmul k))
    if 2 * st.len ≤ n then { c := c', b := st.c, len := n + 1 - st.len, gap := 1, last := d }
    else { st with c := c', gap := st.gap + 1 }

/-- Correct one component of 144 symbols: the symbols and how many were changed; none when more than 4 are wrong (R339). -/
def rsCorrect (c : List Nat) : Option (List Nat × Nat) :=
  let syn := rsSyndromes c
  if syn.all (· == 0) then some (c, 0)
  else
    let st := (List.range 8).foldl (bmStep syn) { c := [1], b := [1], len := 0, gap := 1, last := 1 }
    let n := c.length
    let roots := (List.range n).filter (fun i => polyEvalLow (ginv (gpow 2 (n - 1 - i))) st.c == 0)
    if 4 < st.len ∨ roots.length ≠ st.len then none
    else
      let omega := (List.range 8).map (fun k => (List.range (k + 1)).foldl (fun a i => a ^^^ gmul (st.c.getD i 0) (syn.getD (k - i) 0)) 0)
      let deriv := (List.range st.c.length).map (fun k => if k % 2 = 0 then st.c.getD (k + 1) 0 else 0)
      let fixed := (List.range n).map (fun i =>
        if roots.contains i then
          let x := gpow 2 (n - 1 - i)
          let xi := ginv x
          c.getD i 0 ^^^ gmul x (gmul (polyEvalLow xi omega) (ginv (polyEvalLow xi deriv)))
        else c.getD i 0)
      if (rsSyndromes fixed).all (· == 0) then some (fixed, st.len) else none

/-- Every second element, from the first. -/
def evens {α : Type} : List α → List α
  | [] => []
  | [a] => [a]
  | a :: _ :: t => a :: evens t

/-- Two lists interleaved. -/
def interleave {α : Type} : List α → List α → List α
  | a :: p, b :: q => a :: b :: interleave p q
  | _, _ => []

/-- A codeword from its 272 message bytes. -/
def rsEncode (msg : List Byte) : List Byte :=
  let m := msg.map BitVec.toNat
  msg ++ (interleave (rsParity (evens m)) (rsParity (evens (m.drop 1)))).map (BitVec.ofNat 8)

/-- The 272 message bytes of a received codeword, and whether any symbol was corrected; none when uncorrectable. -/
def rsDecode (cw : List Byte) : Option (List Byte × Bool) :=
  let m := cw.map BitVec.toNat
  match rsCorrect (evens m), rsCorrect (evens (m.drop 1)) with
  | some (a, x), some (b, y) => some (((interleave a b).take 272).map (BitVec.ofNat 8), decide (0 < x + y))
  | _, _ => none

/-! ### The flit header (R340) -/

/-- A flit header. -/
structure FlitHdr where
  kind : Nat := 0
  vc : Nat := 0
  sop : Bool := false
  eop : Bool := false
  abort : Bool := false
  fseq : Nat := 0
  ackseq : Nat := 0
  nak : Bool := false
  cvc : Nat := 0
  cpool : Nat := 0
  ccum : Nat := 0
  crc : Nat := 0
  deriving DecidableEq, Repr

/-- The 16 header bytes. -/
def FlitHdr.bytes (h : FlitHdr) : List Byte :=
  toBytes 8 (h.kind * 2 ^ 62 + h.vc * 2 ^ 59 + b2n h.sop * 2 ^ 58 + b2n h.eop * 2 ^ 57 + b2n h.abort * 2 ^ 56 + h.fseq * 2 ^ 44
    + h.ackseq * 2 ^ 32 + b2n h.nak * 2 ^ 31 + h.cvc * 2 ^ 28 + h.cpool * 2 ^ 27 + h.ccum * 2 ^ 15) ++ toBytes 8 (h.crc * 2 ^ 32)

/-- The header that 16 bytes spell. -/
def flitHdrOf (l : List Byte) : FlitHdr :=
  let w : Word := BitVec.ofNat 64 (ofBytes (l.take 8))
  { kind := bits w 63 62, vc := bits w 61 59, sop := bit w 58, eop := bit w 57, abort := bit w 56, fseq := bits w 55 44,
    ackseq := bits w 43 32, nak := bit w 31, cvc := bits w 30 28, cpool := bits w 27 27, ccum := bits w 26 15,
    crc := ofBytes ((l.drop 12).take 4) }

/-- CRC-32C of header bytes 0 to 11 and the flit's bytes. -/
def flitCrc (hdr flit : List Byte) : Nat :=
  crc32c (hdr.take 12 ++ flit)

/-- The codeword of a header, whose check field is `check`, and 256 bytes. -/
def codewordOf (h : FlitHdr) (flit : List Byte) (check : Nat) : List Byte := rsEncode (({ h with crc := check }).bytes ++ flit)

/-! ### Fabric packets in cells (R173, R341) -/

/-- Cells of a packet with `n` payload bytes. -/
def cellsOf (n : Nat) : Nat := 1 + (n - 224 + 255) / 256

/-- Payload bytes of a packet, from its header (R22, R23). -/
def payloadLen (p : Packet) : Nat :=
  if p.typ = 6 then 2 * (p.len + 1)
  else if (2 ≤ p.typ ∧ p.typ ≤ 7) ∨ p.typ = 9 ∨ p.typ = 0x0B ∨ p.typ = 0x20 ∨ p.typ = 0x22 ∨ p.typ = 0x23 then p.len + 1
  else 0

/-- Pad a byte list to `n` bytes with zeros. -/
def padTo (n : Nat) (l : List Byte) : List Byte := (l ++ List.replicate (n - l.length) 0)

/-- Split into `k` runs of `n` bytes, the last padded. -/
def chunks (n : Nat) : Nat → List Byte → List (List Byte)
  | 0, _ => []
  | k + 1, l => padTo n (l.take n) :: chunks n k (l.drop n)

/-! ### Zaralos messages as bytes (R59, R60) -/

/-- Payload bytes that a message of an accelerator or the EPB carries; `tgt` is the LEN of a Z_TGT_RSP that returns data, if it does. -/
def zPayloadLen (m : ZMsg) (tgt : Bool) : Nat :=
  if m.ztype = 6 ∨ m.ztype = 0x36 then 2 * (m.len + 1)
  else if m.ztype = 2 ∨ m.ztype = 3 ∨ m.ztype = 4 ∨ m.ztype = 5 ∨ m.ztype = 7 ∨ m.ztype = 9 ∨ m.ztype = 0x0B then m.len + 1
  else if m.ztype = 0x3E then 32
  else if m.ztype = 0x11 then (if tgt then m.len + 1 else 0)
  else 0

/-- The message whose 32 header bytes are given. -/
def zOfHeader (l : List Byte) : ZMsg :=
  let w := fun i => (BitVec.ofNat 64 (ofBytes ((l.drop (8 * i)).take 8)) : Word)
  { ztype := bits (w 0) 63 58, vc := bits (w 0) 57 55, tc := bits (w 0) 54 52, flow := bits (w 0) 51 48, dclass := bits (w 0) 47 46,
    poison := bit (w 0) 45, order := bit (w 0) 44, status := bits (w 0) 43 40, fmt := bits (w 0) 39 36, rop := bits (w 0) 35 34,
    fas := bits (w 0) 31 20, ztag := bits (w 0) 19 8, ctx := bits (w 1) 63 48, len := bits (w 1) 47 36, wtoken := bits (w 1) 31 0,
    addr := bits (w 2) 56 0, rqid := bits (w 3) 63 45, win := bits (w 3) 44 37,
    resv := bits (w 0) 33 32 + 4 * bits (w 0) 7 0 + 2 ^ 10 * bits (w 1) 35 32 + 2 ^ 14 * bits (w 2) 63 57 + 2 ^ 21 * bits (w 3) 36 0 }

/-- The 32 header bytes of a message that the EPB sends. -/
def zHeaderBytes (m : ZMsg) : List Byte :=
  toBytes 8 (m.ztype * 2 ^ 58 + m.vc * 2 ^ 55 + m.tc * 2 ^ 52 + m.flow * 2 ^ 48 + m.dclass * 2 ^ 46 + b2n m.poison * 2 ^ 45
    + b2n m.order * 2 ^ 44 + m.status * 2 ^ 40 + m.fmt * 2 ^ 36 + m.rop * 2 ^ 34 + m.fas * 2 ^ 20 + m.ztag * 2 ^ 8)
  ++ toBytes 8 (m.ctx * 2 ^ 48 + m.len * 2 ^ 36 + m.wtoken) ++ toBytes 8 (m.addr % 2 ^ 57)
  ++ toBytes 8 (m.rqid * 2 ^ 45 + m.win * 2 ^ 37)

/-- A message's bytes, its payload padded to a multiple of 32. -/
def zBytes (m : ZMsg) : List Byte := zHeaderBytes m ++ padTo ((m.payload.length + 31) / 32 * 32) m.payload

end Sys2Proof.Machine
end

