-- ==== Sys2Proof/Machine/Fabric.lean ====
section
/-! DEFINITION. Packets and routes (02, 07): the header's words, hops, responses, NACKs made by a switch, and the route an
issuing unit writes. -/

namespace Sys2Proof.Machine
open Sys2Proof

/-! ### Operation types (R23) -/

def Ty.load : Nat := 0x01
def Ty.store : Nat := 0x02
def Ty.atomicAdd : Nat := 0x03
def Ty.atomicMin : Nat := 0x04
def Ty.atomicMax : Nat := 0x05
def Ty.cas : Nat := 0x06
def Ty.reduceStore : Nat := 0x07
def Ty.acquire : Nat := 0x08
def Ty.release : Nat := 0x09
def Ty.fence : Nat := 0x0A
def Ty.doorbell : Nat := 0x0B
def Ty.loadRsp : Nat := 0x20
def Ty.ack : Nat := 0x21
def Ty.atomicRsp : Nat := 0x22
def Ty.fswRsp : Nat := 0x23
def Ty.nack : Nat := 0x24

/-- A request type. -/
def isReqTy (t : Nat) : Bool := decide (1 ≤ t) && decide (t ≤ 0x0B)
/-- A response type. -/
def isRspTy (t : Nat) : Bool := decide (0x20 ≤ t) && decide (t ≤ 0x24)
/-- The request types whose completion returns data (R40). -/
def returnsData (t : Nat) : Bool := t == 1 || t == 8 || (decide (3 ≤ t) && decide (t ≤ 6))
/-- The request types that write. -/
def isWriteTy (t : Nat) : Bool := decide (2 ≤ t) && decide (t ≤ 7) || t == 9

/-- Bytes of an operand format (R24); untyped bytes have size 1. -/
def fmtSize (f : Nat) : Nat :=
  if f = 1 ∨ f = 2 ∨ f = 5 then 4
  else if f = 3 ∨ f = 4 ∨ f = 6 then 8
  else if f = 7 then 16
  else if f = 8 ∨ f = 9 ∨ f = 0xE ∨ f = 0xF then 2
  else 1

/-! ### The header in words (R20) -/

/-- The four header words of a packet. -/
def headerWords (p : Packet) : List Word :=
  [BitVec.ofNat 64 (p.typ * 2 ^ 58 + p.vc * 2 ^ 55 + p.tc * 2 ^ 52 + p.flow * 2 ^ 48 + p.dclass * 2 ^ 46 + p.cmark * 2 ^ 44
     + b2n p.poison * 2 ^ 43 + b2n p.order * 2 ^ 42 + p.status * 2 ^ 38 + p.ksel * 2 ^ 32 + p.fas * 2 ^ 20 + p.tag * 2 ^ 4 + p.fmt),
   BitVec.ofNat 64 p.addr,
   BitVec.ofNat 64 (p.sx * 2 ^ 60 + p.sy * 2 ^ 56 + p.sp * 2 ^ 52 + p.se * 2 ^ 45 + p.fence * 2 ^ 29 + p.role * 2 ^ 21
     + p.hopidx * 2 ^ 18 + p.hopcnt * 2 ^ 15 + p.rop * 2 ^ 13 + p.len * 2),
   BitVec.ofNat 64 p.route]

/-- The packet that four header words and a payload spell. -/
def ofHeader (w0 w1 w2 w3 : Word) (payload : List Byte) : Packet :=
  { typ := bits w0 63 58, vc := bits w0 57 55, tc := bits w0 54 52, flow := bits w0 51 48, dclass := bits w0 47 46,
    cmark := bits w0 45 44, poison := bit w0 43, order := bit w0 42, status := bits w0 41 38, ksel := bits w0 37 32,
    fas := bits w0 31 20, tag := bits w0 19 4, fmt := bits w0 3 0, addr := w1.toNat,
    sx := bits w2 63 60, sy := bits w2 59 56, sp := bits w2 55 52, se := bits w2 51 45, fence := bits w2 44 29,
    role := bits w2 28 21, hopidx := bits w2 20 18, hopcnt := bits w2 17 15, rop := bits w2 14 13, len := bits w2 12 1,
    route := bits w3 59 0, payload := payload }

/-! ### Hops (R20, R21, R159, R161) -/

/-- Hop `i` of a route. -/
def hopAt (route i : Nat) : Nat := route / 2 ^ (10 * i) % 1024
def hopPort (h : Nat) : Nat := h / 8
def hopFibre (h : Nat) : Nat := h / 2 % 4
def hopMc (h : Nat) : Bool := h % 2 == 1
/-- A hop from its parts. -/
def mkHop (port fibre mc : Nat) : Nat := port * 8 + fibre * 2 + mc
/-- The null hop (R161). -/
def nullHop : Nat := 1017
/-- Replace hop `i`. -/
def setHop (route i h : Nat) : Nat := route - hopAt route i * 2 ^ (10 * i) + h * 2 ^ (10 * i)

/-- Consume the hop at HOPIDX: overwrite it with `h`, and advance HOPIDX (R21, R161). -/
def consumeHop (p : Packet) (h : Nat) : Packet := { p with route := setHop p.route p.hopidx h, hopidx := p.hopidx + 1 }

/-- Skip null hops at HOPIDX (R161); at most six. -/
def skipNull : Nat → Packet → Packet
  | 0, p => p
  | n + 1, p => if p.hopidx < p.hopcnt ∧ hopAt p.route p.hopidx = nullHop then skipNull n { p with hopidx := p.hopidx + 1 } else p

/-- The first `n` hops in reverse order. -/
def reverseHops (route : Nat) : Nat → Nat
  | 0 => 0
  | n + 1 => hopAt route n + 1024 * reverseHops route n

/-- The packet has a multicast hop that is not a null hop (R32). -/
def hasMulticast (p : Packet) : Bool :=
  (List.range p.hopcnt).any (fun i => hopMc (hopAt p.route i) && hopAt p.route i != nullHop)

/-! ### Responses (R22, R533) -/

/-- This GX3200's X, Y and P in a source field. -/
def State.stampSource (s : State) (p : Packet) (se : Nat) : Packet :=
  { p with sx := s.fget Fld.hubCoord_X, sy := s.fget Fld.hubCoord_Y, sp := s.fget Fld.hubCoord_P, se := se,
           fence := s.fget Fld.hubFence_STAMP }

/-- A response to `p`, by the unit at end-point `se` (R22): the return route is the consumed hops in reverse. -/
def State.response (s : State) (p : Packet) (se typ status : Nat) (poison : Bool) (payload : List Byte) : Packet :=
  s.stampSource
    { p with typ := typ, vc := 1, order := false, status := status, poison := poison,
             addr := p.sx * 2 ^ 60 + p.sy * 2 ^ 56 + p.sp * 2 ^ 52 + p.se * 2 ^ 45 + gfaOff p.addr,
             hopidx := 0, len := payload.length - 1, route := reverseHops p.route p.hopcnt, payload := payload, posted := false, mute := false } se

/-- A NACK that this GX3200 makes as a switch for a request whose hop here has been consumed (R533). -/
def State.switchNack (s : State) (p : Packet) (group status : Nat) : Packet :=
  { s.response p group Ty.nack status false [] with route := reverseHops p.route p.hopidx, hopcnt := p.hopidx, hopidx := 0, len := 0 }

/-- Put a packet at the crossbar ingress of a port. -/
def State.inject (s : State) (port : Nat) (p : Packet) : State := { s with inq := tblMod [] s.inq port (· ++ [p]) }

/-- The request is a triggered operation's segment to its own port, which stays inside the EPB (R273). -/
def State.ownSegment (s : State) (p : Packet) (e : Nat) : Bool :=
  decide (e < 64) && p.sx * 2 ^ 15 + p.sy * 2 ^ 11 + p.sp * 2 ^ 7 + p.se == s.xyp * 2 ^ 7 + e
    && (match tblFind s.tags (4096 * e + p.tag % 4096) with
      | some t => (match t.own with
        | .ni _ _ _ => true
        | _ => false)
      | none => false)

/-- A unit's packet goes to the crossbar ingress, or, inside an EPB, straight to its other side. -/
def State.sendFrom (s : State) (e : Nat) (own : Bool) (p : Packet) : State :=
  if own then { s with delivered := s.delivered ++ [(e, p)] } else s.inject e p

/-- Send a response from the unit at logical port `e`; a posted STORE is answered only by a NACK (R32, R162), a Coppice copy by
nothing (R526), an own-port segment without crossing the crossbar (R273). -/
def State.respond (s : State) (p : Packet) (e typ status : Nat) (poison : Bool) (payload : List Byte) : State :=
  if p.mute || (p.posted && typ != Ty.nack && typ != Ty.fswRsp) then s
  else s.sendFrom e (s.ownSegment p e) (s.response p e typ status poison payload)

/-! ### Routes (R149 to R163) -/

/-- The role epoch of the end-point role table (R156). -/
def State.eprole (s : State) (d e : Nat) : Nat := bits (s.rd .hubEprole d (e / 8)) (8 * (e % 8) + 7) (8 * (e % 8))

/-- Destination number of a GFA (R151). -/
def gfaDest (a : Nat) : Nat := 16 * gfaY a + gfaX a

/-- Word `a` of a route table entry. -/
def State.rtWord (s : State) (d a : Nat) : Word := if a = 0 then s.rd .hubRtW0 d else s.rd .hubRtW d (a - 1)

/-- The unicast route of a request from logical port `q`: ROUTE, HOPCNT and ROLE; none where R149 finds no target. -/
def State.unicast (s : State) (q gfa flow : Nat) : Option (Nat × Nat × Nat) :=
  let e := gfaE gfa
  let d := gfaDest gfa
  let role := if e < 64 then s.eprole d e else 0
  if gfaP gfa ≠ s.fget Fld.hubCoord_P then none
  else if gfaX gfa = s.fget Fld.hubCoord_X ∧ gfaY gfa = s.fget Fld.hubCoord_Y then some (mkHop e 0 0, 1, role)
  else
    let a := (flow + q) % (s.fget Fld.hubRtW0_NALT d + 1)
    let w := s.rtWord d a
    if s.fget Fld.hubRtW0_ALLOW d = 0 ∨ bit w 63 = false then none
    else
      let oh := bits w 62 60
      some (bits w 39 0 + mkHop e 0 0 * 2 ^ (10 * oh), oh + 1, role)

/-- The route of a multicast route entry (R163); none while V = 0. -/
def State.mcRoute (s : State) (m : Nat) : Option (Nat × Nat × Nat) :=
  if s.fget Fld.hubMcrtW0_V m = 0 then none
  else some (s.fget Fld.hubMcrtW0_ROUTE m, s.fget Fld.hubMcrtW0_HOPCNT m, s.fget Fld.hubMcrtW1_ROLE m)

/-- E of a multicast STORE: the first attach port of its final line (R162). -/
def mcFirstPort (route hopcnt : Nat) : Nat :=
  let c := hopPort (hopAt route (hopcnt - 1))
  if c < 8 then 8 * c else c - 8

end Sys2Proof.Machine
end

