-- ==== Sys2Proof/Machine/Links.lean ====
section
/-! DEFINITION. The link layer (15): codewords out, the retry buffer, credits, codewords in, lane sleep. Attach link n is link n; optical
link L is link 64 + L (R354). -/

namespace Sys2Proof.Machine
open Sys2Proof

/-! ### Links and pools -/

/-- Training states (Table — link registers). -/
def LnkS.reset : Nat := 0
def LnkS.detect : Nat := 1
def LnkS.cdr : Nat := 2
def LnkS.eq : Nat := 3
def LnkS.prbsChk : Nat := 4
def LnkS.align : Nat := 5
def LnkS.init : Nat := 6
def LnkS.up : Nat := 7
def LnkS.recover : Nat := 8

/-- What link `n` holds. -/
def State.lk (s : State) (n : Nat) : Lnk := tblGet {} s.lnk.links n
/-- Change what link `n` holds. -/
def State.lkMod (s : State) (n : Nat) (f : Lnk → Lnk) : State := { s with lnk := { s.lnk with links := tblMod {} s.lnk.links n f } }
/-- Training state of link `n`. -/
def State.lkState (s : State) (n : Nat) : Nat := s.fget Fld.lnkStat_STATE n
/-- Lanes of a link. -/
def lanesOf (n : Nat) : Nat := if n < 64 then 8 else 16
/-- Power domain of a link: its quadrant's or its chiplet's. -/
def linkDomain (n : Nat) : Nat := if n < 64 then n / 8 else 34 + (n - 64) / 16

/-- The credit pools (R348): 0 to 6 the channels, 7 and 8 the request and response pools of VC7. -/
def poolOf (vc typ : Nat) : Nat := if vc = 7 ∧ isRspTy typ = true then 8 else vc
/-- CVC and CPOOL of a pool. -/
def poolVc (pool : Nat) : Nat := min pool 7
def poolBit (pool : Nat) : Nat := if pool = 8 then 1 else 0

/-- Optical port of a link, and fibre pair. -/
def linkPort (n : Nat) : Nat := if n < 64 then n else 64 + (n - 64) / 4
def linkFib (n : Nat) : Nat := if n < 64 then 0 else (n - 64) % 4

/-- The LINK_ID that this GX3200 sends on a link (R345). -/
def State.ownLinkId (s : State) (n : Nat) : Nat :=
  s.fget Fld.hubCoord_X * 2 ^ 28 + s.fget Fld.hubCoord_Y * 2 ^ 24 + s.fget Fld.hubCoord_P * 2 ^ 20 + linkPort n * 2 ^ 13
    + linkFib n * 2 ^ 11 + ((s.rd .klnBoot).toNat + (s.lk n).boots) % 2 ^ 11

/-- Last data FSEQ received correctly and in order. -/
def Lnk.ackseq (l : Lnk) : Nat := (l.expect + 4095) % 4096

/-- The four links of a link's optical group. -/
def groupLinks (n : Nat) : List Nat := (List.range 4).map (fun f => 64 + 4 * ((n - 64) / 4) + f)

/-- The steering switch points to an optical link: a burst to it begins with the steering gap and the preamble (R359). -/
def State.aimAt (s : State) (n : Nat) : State :=
  if tblFind s.lnk.aim (linkPort n) = some n then s
  else ({ s with lnk := { s.lnk with aim := tblPut s.lnk.aim (linkPort n) n } }).emit (.steer n)

/-! ### Training frames (R344, R345, R363, R364) -/

/-- TFTYPE of the frames sent in a training state: RECOVER sends ALIGN frames until the lanes are aligned, then INIT frames; 0: PRBS31. -/
def tfType (st flags : Nat) : Nat :=
  if st = LnkS.eq then 1
  else if st = LnkS.align ∨ (st = LnkS.recover ∧ flags % 2 = 0) then 2
  else if st = LnkS.init ∨ st = LnkS.recover then 3
  else 0

/-- Bytes 0 to 15 of lane `j`'s training frame of a TFTYPE (Table — training frame); an optical link asks for no coefficient. -/
def State.trainHeader (s : State) (n j tf : Nat) : List Byte :=
  let l := s.lk n
  let coef := if tf = 1 ∧ n < 64 then Config.coefRequest n j l.slot % 256 else 0
  toBytes 8 (tf * 2 ^ 56 + j * 2 ^ 52 + coef * 2 ^ 40 + l.flags % 8 * 2 ^ 37 + s.ownLinkId n % 2 ^ 32)
    ++ toBytes 8 ((if tf = 3 then l.ackseq else 0) * 2 ^ 52 + l.slot % 65536 * 2 ^ 16)

/-- What lane `j` sends in one slot of training: a frame, or PRBS31. -/
def State.trainLane (s : State) (n st j : Nat) : State :=
  let l := s.lk n
  let r := tblGet (Config.prbsSeed n j % 2 ^ 31) l.prbs j
  let tf := tfType st l.flags
  let (r1, b) := prbsBytes (if tf = 0 then 292 else 272) r
  (s.emit (.slot n j (if tf = 0 then levelsOf 0 (b.flatMap pairsOfByte) else laneSlot (s.trainHeader n j tf ++ b)))).lkMod n
    (fun k => { k with prbs := tblPut k.prbs j r1 })

/-- One slot of training on every lane. -/
def State.trainSlot (s : State) (n st : Nat) : State :=
  (State.each (List.range (lanesOf n)) (fun s j => s.trainLane n st j) s).lkMod n (fun l => { l with slot := (l.slot + 1) % 65536 })

/-- A link in training transmits without gaps, an optical one while no fibre of its group is UP (R364). -/
def State.trainsNow (s : State) (n : Nat) : Bool := decide (n < 64) || (groupLinks n).all (fun m => s.lkState m != LnkS.up)

/-- FLAGS once a training state is entered: DETECT and CDR start anew, RECOVER aligns anew. -/
def flagsIn (st flags : Nat) : Nat := if st ≤ LnkS.cdr then 0 else if st = LnkS.recover then flags / 2 * 2 else flags

/-- Enter a training state: no lane is aligned before ALIGN; what the state sends begins (its later frames follow by R345, log entry 64). -/
def State.lkEnter (s : State) (n st : Nat) : State :=
  let s1 := (s.fset Fld.lnkStat_STATE n 0 st).lkMod n (fun l => { l with entered := s.now, flags := flagsIn st l.flags })
  let s2 := if n < 64 ∧ st ≤ LnkS.cdr then s1.fset Fld.lnkStat_ALIGNED n 0 0 else s1
  if st ≠ LnkS.reset ∧ st ≠ LnkS.up ∧ s2.trainsNow n = true then s2.trainSlot n st else s2

/-! ### Link encryption (R384) -/

/-- The nonce of a data flit: direction, INIT count, extended sequence number. -/
def linkNonce (higher : Bool) (inits ext : Nat) : Nat := b2n higher * 2 ^ 95 + inits % 2 ^ 31 * 2 ^ 64 + ext % 2 ^ 64

/-- The key of a flit with a key selector on a link, when the slot holds one. -/
def State.flitKey (s : State) (n ksel : Nat) : Option (List Byte) :=
  let mine := (s.lk n).sentId
  let peer := s.fget Fld.lnkPeer_LINK_ID n
  (tblFind s.kln.linkKeys ksel).map (fun k => linkKey k (min mine peer) (max mine peer) ksel)

/-- Bytes of a flit that are authenticated but not encrypted: the 32 header bytes of cell 0. -/
def gcmClear (sop : Bool) : Nat := if sop then 32 else 0

/-- Encrypt or decrypt the bytes of a flit. -/
def gcmCrypt (key : List Byte) (nonce : Nat) (sop : Bool) (l : List Byte) : List Byte :=
  let n := gcmClear sop
  l.take n ++ xorBytes (l.drop n) (gcmStream key nonce (l.length - n))

/-- The check field of an encrypted flit. -/
def gcmCheck (key : List Byte) (nonce : Nat) (sop : Bool) (c : List Byte) : Nat := gcmTag key nonce (c.take (gcmClear sop)) (c.drop (gcmClear sop))

/-- The bytes that a data flit puts on the link, and its check field: ciphertext and tag on an optical link while bound, else plain bytes
and none. -/
def State.sealFlit (s : State) (n : Nat) (f : Flit) (ext : Nat) : List Byte × Option Nat :=
  if s.bound && decide (64 ≤ n) then
    match s.flitKey n f.ksel with
    | some k =>
      let nonce := linkNonce (decide (s.fget Fld.lnkPeer_LINK_ID n < (s.lk n).sentId)) (s.lk n).inits ext
      let c := gcmCrypt k nonce f.sop f.data
      (c, some (gcmCheck k nonce f.sop c))
    | none => (f.data, none)
  else (f.data, none)

/-! ### Codewords out (R340, R346, R349) -/

/-- Nothing is owed: no flit queued, none unacknowledged, no ACKSEQ, NAK or credit change unsent (R351). -/
def Lnk.nothingOwed (l : Lnk) : Bool := l.txq.isEmpty && l.retry.isEmpty && !l.nak && !l.owed

/-- Put a codeword on the link: striped over the lanes of an attach link (R343), or on all lanes of an optical link (R357). -/
def State.putCodeword (s : State) (n : Nat) (cw : List Byte) : State :=
  if n < 64 then (s.emit (.slot n ((s.lk n).txRound % 8) (laneSlot cw))).lkMod n (fun l => { l with txRound := l.txRound + 1 })
  else (s.aimAt n).emit (.slot n 16 (groupSlot cw))

/-- Send a codeword: the header takes ACKSEQ, NAK and the credit count of a pool; a NAK is sent once. -/
def State.sendCodeword (s : State) (n : Nat) (h : FlitHdr) (flit : List Byte) (check : Option Nat) (pool : Nat) : State :=
  let l := s.lk n
  let h1 := { h with ackseq := l.ackseq, nak := l.nak, cvc := poolVc pool, cpool := poolBit pool,
                     ccum := (tblGet ({} : Credit) l.credits pool).cumOut }
  let s1 := s.putCodeword n (codewordOf h1 flit (check.getD (flitCrc h1.bytes flit)))
  let s2 := if l.nak then s1.fsat Fld.lnkLl_NAKS n 0 1 else s1
  s2.lkMod n (fun l => { l with nak := false, owed := false, sentAt := s.now, idleAt := if l.nothingOwed then l.idleAt else s.now })

/-- Send an idle flit with the credit count of a pool. -/
def State.sendIdle (s : State) (n pool : Nat) : State := s.sendCodeword n { kind := 1 } (List.replicate 256 0) none pool

/-- The header of a data flit. -/
def flitHdr (f : Flit) : FlitHdr := { vc := f.vc, sop := f.sop, eop := f.eop, abort := f.abort, fseq := f.seq }

/-- Send data flit `f`, numbered already. -/
def State.sendData (s : State) (n : Nat) (f : Flit) : State :=
  let (bytes, check) := s.sealFlit n f f.ext
  s.sendCodeword n (flitHdr f) bytes check f.pool

/-- The transmitter may send data flits now: UP and ACTIVE (R344, R351). -/
def State.lkActive (s : State) (n : Nat) : Bool := s.lkState n == LnkS.up && (s.lk n).tx == 0

/-- Send one flit of the waiting list: a new one takes the next FSEQ, one sent before an INIT keeps its own; either spends a credit. -/
def State.sendNext (s : State) (n : Nat) (f : Flit) : State :=
  let l := s.lk n
  let g : Flit := if f.sent then { f with replays := f.replays + 1 } else { f with sent := true, seq := l.next % 4096, ext := l.next }
  let s1 := s.lkMod n (fun l => { l with
    next := if f.sent then l.next else l.next + 1
    retry := l.retry ++ [g]
    ackAt := if l.retry.isEmpty then s.now else l.ackAt
    credits := tblMod {} l.credits f.pool (fun c => { c with held := c.held - 1 }) })
  s1.sendData n g

/-- Some channel's next flit continues a packet: the packet is incomplete on the fibre (R359). -/
def Lnk.midPacket (l : Lnk) : Bool :=
  (List.range 8).any (fun v => match l.txq.find? (fun f => f.vc == v) with
    | some f => !f.sop
    | none => false)

/-- The group's transmitter may send to this link's fibre: it goes on with its own packet, or no packet of another UP fibre is incomplete (R359). -/
def State.fibreFree (s : State) (n : Nat) : Bool :=
  decide (n < 64) || (tblFind s.lnk.aim (linkPort n) == some n && (s.lk n).midPacket)
    || (groupLinks n).all (fun m => m == n || s.lkState m != LnkS.up || !(s.lk m).midPacket)

/-- Resend the retry buffer in order (R346). -/
def State.resendNow (s : State) (n : Nat) : State :=
  State.each (s.lk n).retry (fun s f => s.sendData n f) (s.lkMod n (fun k => { k with resend := false, ackAt := s.now }))

/-- The flit must wait: it continues a replay or its channel behind a flit that waits, or it has no credit or no place in the retry buffer. -/
def Lnk.flitWaits (l : Lnk) (before : List Flit) (f : Flit) : Bool :=
  before.any (fun g => g.sent || g.vc == f.vc) || decide ((tblGet ({} : Credit) l.credits f.pool).held = 0) || decide (2048 ≤ l.retry.length)

/-- Send what one link can: a replay that is due, then as many waiting flits as credits and the retry buffer allow; kept flits go first and in
order, and the flits of one channel stay in order (R341, R346, R347, R348). -/
def State.pumpOne (s : State) (n : Nat) : State :=
  if s.lkActive n && s.fibreFree n then
    let s0 := if (s.lk n).resend then s.resendNow n else s
    let r := (s0.lk n).txq.foldl (fun (acc : State × List Flit) f =>
      if (acc.1.lk n).flitWaits acc.2 f then (acc.1, acc.2 ++ [f]) else (acc.1.sendNext n f, acc.2)) (s0, [])
    r.1.lkMod n (fun l => { l with txq := r.2 })
  else s

/-- Send what a link can, and after an optical link what the other fibres of its group have waited to send. -/
def State.linkPump (s : State) (n : Nat) : State :=
  if n < 64 then s.pumpOne n else State.each (n :: (groupLinks n).filter (· != n)) (fun s m => s.pumpOne m) s

/-- Queue flits on a link. -/
def State.linkQueue (s : State) (n : Nat) (fs : List Flit) : State := (s.lkMod n (fun l => { l with txq := l.txq ++ fs })).linkPump n

/-- The flits of a packet on a link channel (R341): one for each cell. -/
def packetFlits (id chan : Nat) (p : Packet) : List Flit :=
  let k := cellsOf p.payload.length
  let bytes := bytesOfWords (headerWords p) ++ p.payload
  let cs := chunks 256 k bytes
  (List.range k).map (fun i => { vc := chan, pool := poolOf chan p.typ, sop := i == 0, eop := i + 1 == k, ksel := p.ksel,
                                 data := cs.getD i [], copy := id })

/-- The flits of a Zaralos message. -/
def zFlits (m : ZMsg) : List Flit :=
  let b := zBytes m
  (chunks 256 ((b.length + 255) / 256) b).map (fun c => { vc := m.vc, pool := m.vc, data := c })

/-! ### Acknowledgement and replay (R346) -/

/-- The flits of the retry buffer that an ACKSEQ leaves. -/
def ackDrop (ack : Nat) (l : List Flit) : List Flit :=
  match l.findIdx? (fun f => f.seq == ack) with
  | some i => l.drop (i + 1)
  | none => l

/-- Replay the retry buffer in order, on a fibre once no packet of another one is incomplete. The state, and the failure cause 2 when a flit has
been replayed too often. -/
def State.replay (s : State) (n : Nat) : State × Option Nat :=
  let l := (s.lk n).retry.map (fun f => { f with replays := f.replays + 1 })
  if l.isEmpty then (s, none)
  else if l.any (fun f => decide (s.fget Fld.lnkCtrl_REPLAY_MAX n < f.replays)) then (s, some 2)
  else
    let s1 := (s.fsat Fld.lnkLl_REPLAYS n 0 1).lkMod n (fun k => { k with retry := l, ackAt := s.now })
    (if s1.fibreFree n then s1.resendNow n else s1.lkMod n (fun k => { k with resend := true }), none)

/-- A received header's ACKSEQ, credit count and NAK. -/
def State.rxHeader (s : State) (n : Nat) (h : FlitHdr) : State × Option Nat :=
  let pool := if h.cvc = 7 ∧ h.cpool = 1 then 8 else h.cvc
  let s1 := s.lkMod n (fun l =>
    let r := ackDrop h.ackseq l.retry
    { l with
      retry := r
      ackAt := if r.length < l.retry.length then s.now else l.ackAt
      idleAt := if l.retry.isEmpty then l.idleAt else s.now
      credits := tblMod {} l.credits pool (fun c =>
        { c with held := c.held + (h.ccum + 4096 - c.cumIn) % 4096, cumIn := h.ccum, at_ := s.now }) })
  if h.nak then s1.replay n else (s1, none)

/-! ### Codewords in (R346, R341, R384) -/

/-- A NAK is owed; an attach link's next outgoing header is sent at once, an optical link is visited (R360). -/
def State.owesNak (s : State) (n : Nat) : State :=
  let s1 := s.lkMod n (fun l => { l with nak := true, owed := true })
  if n < 64 ∧ s1.lkActive n = true then s1.sendIdle n 0 else s1

/-- Take the Zaralos messages out of a channel's bytes (R59): the messages, oldest first, and the bytes of an incomplete one. `tgt` tells
whether the Z_TGT_RSP of a ZTAG returns data; `fuel` bounds the slots. -/
def zParse (tgt : Nat → Bool) : Nat → List Byte → List ZMsg × List Byte
  | 0, l => ([], l)
  | fuel + 1, l =>
    if l.length < 32 then ([], l)
    else if (l.take 32).all (· == 0) then zParse tgt fuel (l.drop 32)
    else
      let m := zOfHeader l
      let n := zPayloadLen m (tgt m.ztag)
      let k := (n + 31) / 32 * 32
      if l.length < 32 + k then ([], l)
      else
        let (r, rest) := zParse tgt fuel (l.drop (32 + k))
        ({ m with payload := (l.drop 32).take n } :: r, rest)

/-- The Z_TGT message of a ZTAG expects data back; one whose answer came too late has not lost its payload (R59, R69). -/
def State.tgtReturns (s : State) (n ztag : Nat) : Bool :=
  match (s.epbAt n).tgts.find? (fun t => t.ztag == some ztag) with
  | some t => returnsData t.pkt.typ
  | none => ((s.epbAt n).lateTags.find? (fun x => x.1 == ztag)).any (·.2)

/-- Bytes of an attach link's flit join those of their channel; the messages that are complete are received. -/
def State.rxAttach (s : State) (n vc : Nat) (flit : List Byte) : State :=
  let l := tblGet [] (s.lk n).parts vc ++ flit
  let (ms, rest) := zParse (s.tgtReturns n) (l.length / 32 + 1) l
  let s1 := s.lkMod n (fun k => { k with parts := tblPut k.parts vc rest })
  { s1 with lnk := { s1.lnk with zin := s1.lnk.zin ++ ms.map (fun m => (n, m)) } }

/-- The packet that the bytes of its cells spell. -/
def packetOfBytes (l : List Byte) : Packet :=
  let w := fun i => (BitVec.ofNat 64 (ofBytes ((l.drop (8 * i)).take 8)) : Word)
  let p := ofHeader (w 0) (w 1) (w 2) (w 3) []
  { p with payload := (l.drop 32).take (payloadLen p) }

/-- Key of the ingress list of an optical link's channel. -/
def optKey (n vc : Nat) : Nat := 128 + 8 * (n - 64) + vc

/-- An optical link's flit joins its packet; a complete packet stands at the ingress. The cells of an interrupted packet that come after a
retrain are discarded (R180). -/
def State.rxOptical (s : State) (n : Nat) (h : FlitHdr) (flit : List Byte) : State :=
  if !h.sop && (tblFind (s.lk n).cut h.vc).isSome then
    (if h.eop then s.lkMod n (fun k => { k with cut := tblDel k.cut h.vc }) else s)
  else
    let l := (if h.sop then [] else tblGet [] (s.lk n).parts h.vc) ++ flit
    let s1 := s.lkMod n (fun k => { k with
      cut := tblDel k.cut h.vc
      parts := if h.eop then tblDel k.parts h.vc else tblPut k.parts h.vc l })
    if h.eop then s1.inject (optKey n h.vc) (packetOfBytes l) else s1

/-- Key selector of a received flit: its own packet header's, or that of the packet it continues. -/
def State.rxKsel (s : State) (n : Nat) (h : FlitHdr) (flit : List Byte) : Nat :=
  if h.sop then (packetOfBytes flit).ksel else (tblFind (s.lk n).cut h.vc).getD (packetOfBytes (tblGet [] (s.lk n).parts h.vc)).ksel

/-- The request of a flit whose key slot is empty is answered by this GX3200 (R384, R533), and its packet is aborted: its later flits are discarded. -/
def State.rxNoKey (s : State) (n : Nat) (h : FlitHdr) (flit : List Byte) : State :=
  let p := packetOfBytes (if h.sop then flit else tblGet [] (s.lk n).parts h.vc)
  let gone := !h.sop && (tblFind (s.lk n).cut h.vc).isSome
  let k1 := if gone then (tblFind (s.lk n).cut h.vc).getD 0 else p.ksel
  let s1 := s.lkMod n (fun k => { k with
    parts := tblDel k.parts h.vc, cut := if h.eop then tblDel k.cut h.vc else tblPut k.cut h.vc k1 })
  if !gone && isReqTy p.typ then
    s1.inject (linkPort n) (s1.switchNack (consumeHop p (mkHop (linkPort n) (linkFib n) 0)) (linkPort n) TStat.fault)
  else s1

/-- An uncorrectable codeword, or a flit that fails its check: discarded, and NAKed once per gap unless it is an idle or control flit. -/
def State.rxBad (s : State) (n kind : Nat) : State :=
  let s1 := s.fsat Fld.lnkFec_UNCORR n 0 1
  if kind = 1 ∨ kind = 2 ∨ (s.lk n).gap = true then s1
  else (s1.lkMod n (fun l => { l with gap := true })).owesNak n

/-- A data flit of the right number is accepted: its credit is spent, and its bytes are delivered. -/
def State.rxAccept (s : State) (n : Nat) (h : FlitHdr) (flit : List Byte) (keyed : Bool) : State :=
  let typ := (packetOfBytes (if h.sop then flit else tblGet [] (s.lk n).parts h.vc)).typ
  let pool := if n < 64 then h.vc else poolOf h.vc typ
  let s1 := s.lkMod n (fun l => { l with
    expect := l.expect + 1
    gap := false
    owed := true
    quiet := 0
    credits := tblMod {} l.credits pool (fun c => { c with partner := c.partner - 1 }) })
  let s2 := if !keyed then s1.rxNoKey n h flit else if n < 64 then s1.rxAttach n h.vc flit else s1.rxOptical n h flit
  if h.abort then s2.lkMod n (fun l => { l with parts := tblDel l.parts h.vc }) else s2

/-- A NACK with FAULT that a GX3200 on the way makes (R384, R533). It names the key slot that is empty there, so it travels in the clear, with
the CRC-32C (log entry 50). -/
def keylessNack (h : FlitHdr) (flit : List Byte) : Bool :=
  let p := packetOfBytes flit
  h.sop && p.typ == Ty.nack && p.status == TStat.fault && decide (64 ≤ p.se) && decide (p.se ≤ 95)

/-- The bytes of a data flit once authenticated and decrypted, and whether its key slot holds a key; none when its check fails. -/
def State.rxOpen (s : State) (n : Nat) (h : FlitHdr) (hdr flit : List Byte) : Option (List Byte × Bool) :=
  if s.bound && decide (64 ≤ n) && !(keylessNack h flit && h.crc == flitCrc hdr flit) then
    match s.flitKey n (s.rxKsel n h flit) with
    | none => some (flit, false)
    | some k =>
      let nonce := linkNonce (decide ((s.lk n).sentId < s.fget Fld.lnkPeer_LINK_ID n)) (s.lk n).inits (s.lk n).expect
      if h.crc = gcmCheck k nonce h.sop flit then some (gcmCrypt k nonce h.sop flit, true) else none
  else if h.crc = flitCrc hdr flit then some (flit, true) else none

/-- QUIET flits of a round: one for each lane of an attach link, one on an optical link. -/
def quietRound (n : Nat) : Nat := if n < 64 then 8 else 1

/-- A QUIET control flit: with the last of a round the receive side enters RXQ (R351). -/
def State.rxQuiet (s : State) (n : Nat) : State :=
  let k := (s.lk n).quiet + 1
  if k < quietRound n then s.lkMod n (fun l => { l with quiet := k })
  else (s.fset Fld.lnkStat_RXQ n 0 1).lkMod n (fun l => { l with rx := 1, rxAt := s.now, quiet := 0 })

/-- A codeword of 288 bytes is received on a link in UP (R346). The state, and a failure cause. -/
def State.rxCodeword (s : State) (n : Nat) (cw : List Byte) : State × Option Nat :=
  match rsDecode cw with
  | none => (s.rxBad n (flitHdrOf (cw.take 16)).kind, none)
  | some (m, fixed) =>
    let s1 := if fixed then s.fsat Fld.lnkFec_CORR n 0 1 else s
    let hdr := m.take 16
    let flit := m.drop 16
    let h := flitHdrOf hdr
    if h.kind = 0 then
      if h.fseq ≠ (s1.lk n).expect % 4096 then
        if flitCrc hdr flit ≠ h.crc ∧ (s1.bound && decide (64 ≤ n)) = false then (s1.rxBad n 0, none)
        else
          match s1.rxHeader n h with
          | (s2, c) => (if (s2.lk n).gap then s2 else (s2.lkMod n (fun l => { l with gap := true })).owesNak n, c)
      else
        match s1.rxOpen n h hdr flit with
        | none => (s1.rxBad n 0, none)
        | some (plain, keyed) =>
          match s1.rxHeader n h with
          | (s2, c) => ((s2.rxAccept n h plain keyed).linkPump n, c)
    else if flitCrc hdr flit ≠ h.crc then (s1.rxBad n h.kind, none)
    else
      match s1.rxHeader n h with
      | (s2, c) =>
        let s3 := (if h.abort then s2.lkMod n (fun l => { l with parts := tblDel l.parts h.vc }) else s2).linkPump n
        (if h.kind = 2 ∧ flit.getD 0 0 = 1 then s3.rxQuiet n else s3.lkMod n (fun l => { l with quiet := 0 }), c)

/-! ### Kept state (R347, R353) -/

/-- Drop the flits of each channel that continue a packet whose first flit is gone. -/
def dropTails : List Nat → List Flit → List Flit
  | _, [] => []
  | open_, f :: t =>
    if f.sop then f :: dropTails (f.vc :: open_) t else if open_.contains f.vc then f :: dropTails open_ t else dropTails open_ t

/-- Discard the kept link-layer state: the retry buffer is emptied, with the flits of it that wait to be replayed, partial packets are discarded,
FSEQ restarts at 0. -/
def Lnk.discard (optical : Bool) (l : Lnk) : Lnk :=
  { l with retry := [], txq := if optical then dropTails [] (l.txq.filter (fun f => !f.sent)) else [], parts := [], cut := [], next := 0, expect := 0,
           gap := false, nak := false, resend := false, keptAt := none }

end Sys2Proof.Machine
end

