-- ==== Sys2Proof/Machine/Plru.lean ====
section
/-! DEFINITION. Pseudo-LRU replacement in a set of 16 ways (R75, R142, R229): a binary tree of 15 bits. Node 1 is the root, node `i` has the
children `2 i` and `2 i + 1`, and way `w` hangs below as node `16 + w`; the bit of a node is 1 where its right half is the older one. The spec
names the policy and not its tree (PRESUMED: the usual binary tree; log entry 9). -/

namespace Sys2Proof.Machine
open Sys2Proof

/-- Bit `i` of `t` made `v`. -/
def plruBit (t i : Nat) (v : Bool) : Nat := if t.testBit i = v then t else t ^^^ 2 ^ i

/-- Every node on the path to way `w` points to the half that does not hold it. -/
def plruTouch (t w : Nat) : Nat :=
  [8, 4, 2, 1].foldl (fun t k => plruBit t ((16 + w) / (2 * k)) ((16 + w) / k % 2 == 0)) t

/-- One step down the tree, toward the older half. -/
def plruStep (t i : Nat) : Nat := 2 * i + (if t.testBit i then 1 else 0)

/-- The way that the tree gives up. -/
def plruVictim (t : Nat) : Nat := plruStep t (plruStep t (plruStep t (plruStep t 1))) - 16

end Sys2Proof.Machine
end

