-- ==== Sys2Proof/Machine/Mem.lean ====
section
/-! DEFINITION. HBM regions, granules and lines (13), and the remote-read cache's data area. -/

namespace Sys2Proof.Machine
open Sys2Proof

/-- Bytes of a granule (R292). -/
def granuleBytes : Nat := 2 ^ 27

/-- The granule table of a region after a cold reset: META holds physical granules 0 and 1, POOL 2 to 383
(R305; the order of the first allocation is log entry 8). -/
def granDflt (region : Nat) : List Nat :=
  match region with
  | 0 => [0, 1]
  | 1 => List.range' 2 382
  | _ => []

/-- The granule table of a region of stack `k`: 0 META, 1 POOL, 2 RSVW, 3 SCR. -/
def State.grans (s : State) (k region : Nat) : List Nat := tblGet (granDflt region) s.hbm.grans (4 * k + region)

/-- SIZE of a region, as SPN_HREGk.SIZES shows it. -/
def sizeFld (region : Nat) : Fld :=
  match region with
  | 0 => Fld.spnHregSizes_META
  | 1 => Fld.spnHregSizes_POOL
  | 2 => Fld.spnHregSizes_RSVW
  | _ => Fld.spnHregSizes_SCR

/-- The physical key of byte `b` of a region of stack `k`; none outside the region's SIZE. -/
def State.regionKey (s : State) (k region b : Nat) : Option Nat :=
  if b / granuleBytes < s.fget (sizeFld region) k then
    ((s.grans k region)[b / granuleBytes]?).map (fun g => hbmKey k (g * granuleBytes + b % granuleBytes))
  else none

/-- The region and region byte that a pool-port offset names (R294, R293): META, POOL or RSVW. -/
def poolRange (off : Nat) : Option (Nat × Nat) :=
  if off < 2 ^ 32 then some (0, off + granuleBytes)
  else if off < 2 ^ 40 then some (1, off - 2 ^ 32)
  else if off < 2 ^ 41 then some (2, off - 2 ^ 40)
  else none

/-- The physical key of `n` bytes at a pool-port offset of stack `k`, with the ingress checked (R294): reservoir attachments reach
only the reservoir window, every other unit only the Metadata and Pool ranges. -/
def State.poolKey (s : State) (k off n : Nat) (reservoir : Bool := false) : Option Nat :=
  match poolRange off, poolRange (off + n - 1) with
  | some (r, b), some (r2, b2) =>
    if r ≠ r2 ∨ (r == 2) ≠ reservoir then none
    else
      match s.regionKey k r b, s.regionKey k r b2 with
      | some a, some _ => some a
      | _, _ => none
  | _, _ => none

/-- Record an uncorrectable line (R301): the counter, LASTERR, the line as stored poison, and the deferred-class record. -/
def State.hbmUe (s : State) (line found : Nat) : State :=
  let k := line / 2 ^ 29
  let s1 := (s.fsat Fld.spnHregUe_UE k 0 1).fset Fld.spnHregLasterr_LINE k 0 (line % 2 ^ 29)
  (s1.setLine line .poison).errRec 1 0x21 6 k [line % 2 ^ 29, found]

/-- Count a corrected read (R301): a record at most once per controller and 1 ms, the line rewritten corrected. -/
def State.hbmCe (s : State) (line : Nat) : State :=
  let k := line / 2 ^ 29
  let s1 := (s.fsat Fld.spnHregCe_CE k 0 1).setLine line .ok
  let due := match tblFind s1.hbm.lastCe k with
    | none => true
    | some t => decide (t + us 1000 ≤ s1.now)
  if due then
    ({ s1 with hbm := { s1.hbm with lastCe := tblPut s1.hbm.lastCe k s1.now } }).errRec 0 0x20 6 k [line % 2 ^ 29]
  else s1

/-- A scratchpad line number (a key at or above the scratchpads). -/
def isScrLine (line : Nat) : Bool := decide (2 ^ 40 / 128 ≤ line)

/-- Record an uncorrectable line of a stack or a scratchpad (R301, R429). -/
def State.lineUe (s : State) (line found : Nat) : State :=
  if isScrLine line then (s.setLine line .poison).errRec 1 0x24 0 (2 + (line - 2 ^ 33) / 2 ^ 19) [line % 2 ^ 19 * 128]
  else s.hbmUe line found

/-- Correct a correctable line. -/
def State.lineCe (s : State) (line : Nat) : State := if isScrLine line then s.setLine line .ok else s.hbmCe line

/-- What the lines of an access hold, worst first: uncorrectable, stored poison, or good. -/
inductive LineView where
  | good | poison | bad
  deriving DecidableEq, Repr

/-- The worst line of an access. -/
def State.view (s : State) (a n : Nat) : LineView :=
  let l := linesOf a n
  if l.any (fun x => tblGet LineSt.ok s.lines x == .uncorrectable) then .bad
  else if l.any (fun x => tblGet LineSt.ok s.lines x == .poison) then .poison
  else .good

/-- Correct the correctable lines of an access and treat its uncorrectable lines (R301). -/
def State.touch (s : State) (a n found : Nat) : State :=
  State.each (linesOf a n) (fun s x =>
    match tblGet LineSt.ok s.lines x with
    | .correctable => s.lineCe x
    | .uncorrectable => s.lineUe x found
    | _ => s) s

/-- Whether line `x` lies wholly in the access. -/
def wholeLine (a n x : Nat) : Bool := decide (a ≤ 128 * x) && decide (128 * x + 128 ≤ a + n)

/-- A plain store of bytes under R301: whole lines are always performed and lose their poison; a partial line that is
uncorrectable or poisoned leaves the whole store not performed. The state, and whether it was performed. -/
def State.storeLines (s : State) (a : Nat) (data : List Byte) : State × Bool :=
  let n := data.length
  let partBad := (linesOf a n).filter (fun x => !wholeLine a n x &&
    (tblGet LineSt.ok s.lines x == .uncorrectable || tblGet LineSt.ok s.lines x == .poison))
  if partBad.isEmpty then
    let s1 := State.each (linesOf a n) (fun s x =>
      if wholeLine a n x then s.setLine x .ok
      else if tblGet LineSt.ok s.lines x = .correctable then s.lineCe x else s) s
    (s1.store a data, true)
  else
    (State.each (partBad.filter (fun x => tblGet LineSt.ok s.lines x == .uncorrectable)) (fun s x => s.lineUe x 1) s, false)

/-- A store that carries POISON (R41): every line it touches becomes stored poison. -/
def State.storePoison (s : State) (a n : Nat) : State := State.each (linesOf a n) (fun s x => s.setLine x .poison) s

/-- Controller `k` takes no access: it is in reset or held with its die, or is being zero-filled, or its domain sleeps (R305, R446). -/
def State.poolHeld (s : State) (k : Nat) : Bool :=
  bit (s.rd .cmdHeld1) (16 + k) || bit (s.rd .cmdHeld1) (37 + k / 2) || s.hbm.filling.contains k
    || s.fget Fld.pwrDomW0_STATE (26 + k) != 0

/-- The stack of controller `k` failed training: every access fails (R469). -/
def State.poolDead (s : State) (k : Nat) : Bool := s.boot.untrained.contains k

/-- An access to the pool port of stack `k` is performed now. -/
def State.poolReady (s : State) (k : Nat) : Bool := !s.poolHeld k && !s.poolDead k

/-- An internal read at a GFA has to wait for its controller (R305). -/
def State.readWaits (s : State) (gfa : Nat) : Bool :=
  let e := gfaE gfa
  decide (112 ≤ e) && decide (e ≤ 119) && s.poolHeld (e - 112) && !s.poolDead (e - 112)

/-- Internal read at end-points 112 to 121 of this GX3200 (R14, R111): pool bytes from memory, host bytes as PCI Express returned
them in `ext`; none when the read fails or meets poison. -/
def State.internalRead (s : State) (gfa n : Nat) (ext : Option (List Byte)) : Option (List Byte) :=
  let e := gfaE gfa
  if 112 ≤ e ∧ e ≤ 119 then
    if s.poolDead (e - 112) then none
    else
      match s.poolKey (e - 112) (gfaOff gfa) n with
      | some a => if s.view a n = .good then some (s.load a n) else none
      | none => none
  else if e = 120 ∨ e = 121 then ext.map (fun l => (l ++ List.replicate n 0).take n)
  else none

/-- `n` bytes of host memory that a read at end-points 120 and 121 brings back (R104): none where the window, the link or the host refuses it (log
entry 52). -/
def State.hostRead (s : State) (gfa n : Nat) : Option (List Byte) :=
  let h := gfaE gfa - 120
  let a := (s.fget Fld.lnkHwinWbase_WBASE h * 4096 + gfaOff gfa) % 2 ^ 64
  if s.fget Fld.lnkHwinWlim_EN h = 1 ∧ gfaOff gfa / 4096 ≤ s.fget Fld.lnkHwinWlim_WLIM h ∧ s.hostUp h = true ∧ Config.hostRefuses h a s.now = false then
    some ((List.range n).map (fun i => Config.hostMemory h ((a + i) % 2 ^ 64) s.now))
  else none

/-- What an internal read does to the lines it meets (R301). -/
def State.internalTouch (s : State) (gfa n : Nat) : State :=
  let e := gfaE gfa
  if 112 ≤ e ∧ e ≤ 119 then
    if s.poolDead (e - 112) then s
    else
      match s.poolKey (e - 112) (gfaOff gfa) n with
      | some a => s.touch a n 0
      | none => s
  else s

/-- Internal write at end-points 112 to 121 of this GX3200: the state, and whether it was performed. A write that meets a zero-fill stands once
it has ended, as one that waited (R305; log entry 54). -/
def State.internalWrite (s : State) (gfa : Nat) (data : List Byte) : State × Bool :=
  let e := gfaE gfa
  if 112 ≤ e ∧ e ≤ 119 then
    if s.poolDead (e - 112) then (s, false)
    else
      match s.poolKey (e - 112) (gfaOff gfa) data.length with
      | some a => s.storeLines a data
      | none => (s, false)
  else if e = 120 ∨ e = 121 then
    let h := e - 120
    if s.fget Fld.lnkHwinWlim_EN h = 1 ∧ gfaOff gfa / 4096 ≤ s.fget Fld.lnkHwinWlim_WLIM h ∧ s.hostUp h
        ∧ Config.hostRefuses h ((s.fget Fld.lnkHwinWbase_WBASE h * 4096 + gfaOff gfa) % 2 ^ 64) s.now = false then
      (s.emit (.hostWrite h ((s.fget Fld.lnkHwinWbase_WBASE h * 4096 + gfaOff gfa) % 2 ^ 64) data), true)
    else (s, false)
  else (s, false)

/-- Key of the cache data of EPB `n`, set and way (R293). -/
def State.rrcKey (s : State) (n set way : Nat) : Nat :=
  hbmKey (n % 8) ((s.grans (n % 8) 0).headD 0 * granuleBytes + 2 ^ 24 * (n / 8) + (set * 16 + way) * 128)

end Sys2Proof.Machine
end

