-- ==== Sys2Proof/Machine/Reservoir.lean ====
section
/-! DEFINITION. The Reservoir window (14): slots, heat, pins, demands, fills and evictions. -/

namespace Sys2Proof.Machine
open Sys2Proof

/-! ### Slots (R319) -/

/-- Key of slot `j` of stack `k`. -/
def slotKey (k j : Nat) : Nat := 65536 * k + j

/-- Slots of stack `k`: 64 per granule of its Reservoir window. -/
def State.slotCount (s : State) (k : Nat) : Nat := 64 * s.fget Fld.spnHregSizes_RSVW k

/-- Slots of stack `k` in use. -/
def State.slotsOf (s : State) (k : Nat) : Nat := (s.rsv.slots.filter (fun x => x.1 / 65536 == k)).length

/-- Free slots of stack `k`. -/
def State.slotsFree (s : State) (k : Nat) : Nat := s.slotCount k - s.slotsOf k

/-- The stack with the most free slots, the lowest on a tie, when it has one. -/
def State.freestStack (s : State) : Option Nat :=
  let k := (List.range 8).foldl (fun b i => if s.slotsFree b < s.slotsFree i then i else b) 0
  if 0 < s.slotsFree k then some k else none

/-- The slot a fill takes from the free ones: the lowest of that stack. -/
def State.rsvFreeSlot (s : State) : Option Nat :=
  match s.freestStack with
  | none => none
  | some k => ((List.range (s.slotCount k)).find? (fun j => (tblFind s.rsv.slots (slotKey k j)).isNone)).map (slotKey k)

/-- The slot that holds a page. -/
def State.pageSlot (s : State) (obj page : Nat) : Option (Nat × RsvSlot) := s.rsv.slots.find? (fun x => x.2.obj == obj && x.2.page == page)

/-- The page is pinned. -/
def State.pinned (s : State) (obj page : Nat) : Bool := s.rsv.pins.any (fun p => p.obj == obj && p.page == page)

/-- Fills in progress. -/
def State.fills (s : State) : Nat := (s.rsv.slots.filter (fun x => x.2.filling)).length

/-- RSV_STAT shows the slots. -/
def State.rsvShow (s : State) : State :=
  let l := tblVals s.rsv.slots
  ((s.fset Fld.rsvStat_RESIDENT 0 0 (l.filter (fun x => !x.filling)).length).fset Fld.rsvStat_PINNED 0 0
    (l.filter (fun x => s.pinned x.obj x.page)).length).fset Fld.rsvStat_FILLING 0 0 (l.filter (fun x => x.filling)).length

/-! ### Heat (R321) -/

/-- Set of a page. -/
def rsvSet (obj page : Nat) : Nat := (page ^^^ (obj * 1031)) % 16384

/-- Ways of a set: number and content. -/
def State.rsvWays (s : State) (set : Nat) : List (Nat × Option RsvWay) := (List.range 4).map (fun i => (i, tblFind s.rsv.heat (4 * set + i)))

/-- HEAT of a way; an empty way has none. -/
def wayHeat (x : Nat × Option RsvWay) : Nat := match x.2 with | some w => w.heat | none => 0

/-- HEAT of a page. -/
def State.pageHeat (s : State) (obj page : Nat) : Nat :=
  match (s.rsvWays (rsvSet obj page)).find? (fun x => match x.2 with | some w => w.obj == obj && w.page == page | none => false) with
  | some x => wayHeat x
  | none => 0

/-- A demand adds 1 to a page's HEAT; its way replaces the one of lowest HEAT, lowest way on a tie, where it has none. -/
def State.heatDemand (s : State) (obj page : Nat) : State :=
  let set := rsvSet obj page
  let ws := s.rsvWays set
  let put := fun (i h : Nat) => { s with rsv := { s.rsv with heat := tblPut s.rsv.heat (4 * set + i) ({ obj := obj, page := page, heat := h } : RsvWay) } }
  match ws.find? (fun x => match x.2 with | some w => w.obj == obj && w.page == page | none => false) with
  | some x => put x.1 (min (wayHeat x + 1) 65535)
  | none => put (ws.foldl (fun b x => if wayHeat x < wayHeat b then x else b) (ws.headD (0, none))).1 1

/-- The victim below a heat (R321): resident, unpinned, lowest heat, then lowest stack and slot; `none`: no bound. -/
def State.rsvVictim (s : State) (h : Option Nat) : Option Nat :=
  let l := s.rsv.slots.filter (fun x => !x.2.filling && !s.pinned x.2.obj x.2.page)
  let best := l.foldl (fun (b : Option (Nat × Nat)) x =>
    let v := s.pageHeat x.2.obj x.2.page
    match b with
    | some (_, v0) => if v < v0 then some (x.1, v) else b
    | none => some (x.1, v)) none
  match best, h with
  | some (k, v), some h => if v < h then some k else none
  | some (k, _), none => some k
  | none, _ => none

/-! ### Fills and demands -/

/-- A fill of a page takes a slot; a page it evicts is counted. -/
def State.fillStart (s : State) (obj page key : Nat) (evict : Bool) : State :=
  let s1 : State := { s with rsv := { s.rsv with slots := tblPut s.rsv.slots key { obj := obj, page := page } } }
  (if evict then s1.fsat Fld.rsvCnt_EVICTS 0 0 1 else s1).rsvShow

/-- A free slot, or else a victim below a heat: its key, and whether a page is evicted. -/
def State.rsvTake (s : State) (h : Option Nat) : Option (Nat × Bool) :=
  match s.rsvFreeSlot with
  | some k => some (k, false)
  | none => (s.rsvVictim h).map (fun k => (k, true))

/-- The farthest read-ahead sequence that a stream holds pins of. -/
def State.farthest (s : State) (strm cur : Nat) : Option Nat :=
  let l := (s.rsv.pins.filter (fun p => p.strm == strm && decide (cur < p.seq))).map (·.seq)
  l.foldl (fun b x => match b with | some y => some (max x y) | none => some x) none

/-- Release the pins that satisfy `p`. -/
def State.unpin (s : State) (p : Pin → Bool) : State := ({ s with rsv := { s.rsv with pins := s.rsv.pins.filter (fun x => !p x) } }).rsvShow

/-- Find a slot for a pinned page that has none: a current-layer demand releases read-ahead pins, the farthest sequence first (R325);
`fuel` bounds those releases. A stream that has left RUN demands no more (R327). -/
def State.rsvDemand (s : State) (p : Pin) : Nat → State
  | 0 => s
  | fuel + 1 =>
    if (s.pageSlot p.obj p.page).isSome || decide (64 ≤ s.fills) || s.fget Fld.rsvStrStat_STATE p.strm != 1 || s.kln.weightKey.isNone then s
    else
      match s.rsvTake none with
      | some (k, e) => s.fillStart p.obj p.page k e
      | none =>
        let cur := (tblGet ({} : Strm) s.rsv.streams p.strm).n
        if p.seq ≠ cur then s
        else
          match s.farthest p.strm cur with
          | none => s
          | some q => (s.unpin (fun x => x.strm == p.strm && x.seq == q)).rsvDemand p fuel

/-- Pin a page: a demand (R321, R325). -/
def State.pinPage (s : State) (p : Pin) : State :=
  (({ s with rsv := { s.rsv with pins := s.rsv.pins ++ [p] } }).heatDemand p.obj p.page |>.rsvDemand p 10).rsvShow

/-- Demands that wait for a slot try again, oldest first. -/
def State.rsvRetry (s : State) : State := State.each s.rsv.pins (fun s p => if s.rsv.pins.contains p then s.rsvDemand p 10 else s) s

/-- Key of the STOREs of a page of part `j` of a stream's run. -/
def storeKey (run j page : Nat) : Nat := (64 * run + j) * 2 ^ 33 + page
/-- Part and page of such a key. -/
def keyPart (key : Nat) : Nat := key / 2 ^ 33 % 64
def keyPage (key : Nat) : Nat := key % 2 ^ 33

/-- A STORE of a page has retired or completed; the part's pin of the page ends with its last one (R325). A STORE of an earlier run counts nowhere. -/
def State.rsvStored (s : State) (i key : Nat) : State :=
  let st := tblGet ({} : Strm) s.rsv.streams i
  match tblFind st.out key with
  | none => s
  | some m =>
    let st' := { st with out := if m ≤ 1 then tblDel st.out key else tblPut st.out key (m - 1) }
    let s1 : State := { s with rsv := { s.rsv with streams := tblPut s.rsv.streams i st' } }
    if m ≤ 1 then (s1.unpin (fun p => p.strm == i && p.seq == st.n && p.part == keyPart key && p.page == keyPage key)).rsvRetry else s1

/-- Every fill is abandoned and its slot freed (R327, R330). -/
def State.fillsAbandon (s : State) : State :=
  ({ s with rsv := { s.rsv with slots := s.rsv.slots.filter (fun x => !x.2.filling) } }).rsvShow

end Sys2Proof.Machine
end

