-- ==== Sys2Proof/Machine/Issue.lean ====
section
/-! DEFINITION. Issuing units: waiting requests, tags, admission, issue, and the completion of a tag toward its owner
(02, 04, 06, 07, 09). -/

namespace Sys2Proof.Machine
open Sys2Proof

/-! ### Zaralos answers (R61, R66, R94) -/

/-- The attach link of an EPB is UP (R344). -/
def State.attachUp (s : State) (n : Nat) : Bool := s.fget Fld.lnkStat_STATE n == 7

/-- Send a message to the accelerator: it is queued on the attach link, flit by flit; it is discarded while that link is down (R103). -/
def State.zsend (s : State) (n : Nat) (m : ZMsg) : State :=
  if s.attachUp n then (s.emit (.zar n m)).linkQueue n (zFlits m) else s

/-- All-ones data of `n` bytes (R40). -/
def onesBytes (n : Nat) : List Byte := List.replicate n 255

/-- Z_RSP to an accelerator request with a status other than OK: the error value where the operation returns data (R61). -/
def State.zfail (s : State) (n : Nat) (m : ZMsg) (status : Nat) : State :=
  let d := returnsData m.ztype
  s.zsend n { m with ztype := 0x20, vc := 1, order := false, status := status, wtoken := 0, addr := 0, rqid := 0, win := 0, resv := 0,
                     poison := d, payload := if d then onesBytes (m.len + 1) else [] }

/-- Z_RSP with OK. -/
def State.zok (s : State) (n : Nat) (m : ZMsg) (poison : Bool) (data : List Byte) : State :=
  s.zsend n { m with ztype := 0x20, vc := 1, order := false, status := 0, wtoken := 0, addr := 0, rqid := 0, win := 0, resv := 0,
                     poison := poison, payload := data }

/-- Wake token of a slot (R66). -/
def wtoken (ctx gen slot : Nat) : Nat := ctx * 65536 + gen * 256 + slot

/-- The slot bound to a context, if one is. -/
def slotOf (t : Tbl Slot) (ctx : Nat) : Option (Nat × Slot) := t.find? (fun e => e.2.ctx == ctx && e.2.st != .free)

/-- A free fault-switch slot: the lowest (DESIGN CHOICE: R66 does not say which; log entry 53). -/
def freeSlot (t : Tbl Slot) : Option Nat := (List.range 256).find? (fun k => (tblGet ({} : Slot) t k).st == .free)

/-- The generation after `g` (R66): 1 to 255, wrapping to 1. -/
def nextGen (g : Nat) : Nat := if g ≥ 255 then 1 else g + 1

/-- EPB_ZAR_STATE.SLOTS_USED shows the slots bound (R87). -/
def State.slotsUsed (s : State) (n : Nat) : State :=
  s.fset Fld.epbZarState_SLOTS_USED n 0 ((s.epbAt n).slots.filter (fun x => x.2.st != .free)).length

/-- Bind slot `k` of EPB `n` to a context under its next generation, WAITING (R94). -/
def State.slotAlloc (s : State) (n k ctx : Nat) : State :=
  (s.epbMod n (fun e => { e with slots := tblMod {} e.slots k (fun x => { st := .waiting, ctx := ctx, gen := nextGen x.gen }) })).slotsUsed n

/-- A restartable fault of accelerator request `m` (R94, R95): Z_FSW and a record with PARKED = 1; with no slot free, Z_RSP FAULT. The
header's STATUS of a Z_FSW is a free value (log entry 3). -/
def State.faultSwitch (s : State) (n : Nat) (m : ZMsg) (f : FaultRec) : State :=
  let e := s.epbAt n
  let bound := slotOf e.slots m.ctx
  let pick : Option (Nat × Bool) := match bound with
    | some (k, x) => some (k, x.st == .woken)
    | none => (freeSlot e.slots).map (fun k => (k, true))
  match pick with
  | none =>
    (s.fault n { f with cause := 0x09, parked := false, context := m.ctx * 2 ^ 48 }).zfail n m TStat.fault
  | some (k, fresh) =>
    let s1 := if fresh then s.slotAlloc n k m.ctx else s
    let g := (tblGet ({} : Slot) (s1.epbAt n).slots k).gen
    let w := wtoken m.ctx g k
    let (ident, s2) := s1.faultRec n { f with parked := true, context := m.ctx * 2 ^ 48 + w }
    s2.draw.2.zsend n { m with ztype := 0x23, vc := 1, order := false, status := s2.draw.1 % 16, wtoken := w, addr := 0, rqid := 0, win := 0, resv := 0,
                               poison := false, len := 15, payload := toBytes 8 m.addr ++ toBytes 8 ident }

/-! ### The remote-read cache (R142 to R144) -/

/-- Set of a fabric line (log entry 9: the set is the line number modulo 8,192). -/
def rrcSet (line : Nat) : Nat := line % 8192

/-- The entry of a line, if it is cached. -/
def rrcFind (e : Epb) (line : Nat) : Option RrcLine := (tblGet [] e.rrc (rrcSet line)).find? (fun x => x.line == line)

/-- Remove the lines that satisfy `p`, and advance the cache generation. -/
def rrcInvalidate (e : Epb) (p : RrcLine → Bool) : Epb :=
  { e with rrc := e.rrc.map (fun t => (t.1, t.2.filter (fun x => !p x))), rrcGen := e.rrcGen + 1 }

/-- The fabric lines that `n` bytes at a GFA touch, by number. -/
def gfaLines (gfa n : Nat) : List Nat := linesOf gfa n

/-- The state of EPB `n`'s cache set of a line once way `w` has been used. -/
def rrcTouch (line w : Nat) (e : Epb) : Epb := { e with rrcLru := tblMod 0 e.rrcLru (rrcSet line) (fun t => plruTouch t w) }

/-- Install one line with its data (R142): the lowest free way, or the way that the pseudo-LRU tree of the set gives up. The line is written
whole through the pool port (R301); a controller that cannot take the write leaves the line out (log entry 54). -/
def State.rrcInstall (s : State) (n line fas : Nat) (data : List Byte) : State :=
  let e := s.epbAt n
  let set := tblGet [] e.rrc (rrcSet line)
  if (rrcFind e line).isSome || !s.poolReady (n % 8) then s
  else
    let w := ((List.range 16).find? (fun w => !set.any (fun x => x.way == w))).getD (plruVictim (tblGet 0 e.rrcLru (rrcSet line)))
    let set' := { line := line, fas := fas, way := w } :: set.filter (fun x => x.way != w)
    ((s.epbMod n (fun e => rrcTouch line w { e with rrc := tblPut e.rrc (rrcSet line) set' })).storeLines (s.rrcKey n (rrcSet line) w) data).1

/-- The bytes of a Z_LOAD that lie in one line, from that line's 128 bytes. -/
def lineSlice (gfa len line : Nat) (data : List Byte) : List Byte :=
  let lo := max gfa (128 * line)
  let hi := min (gfa + len) (128 * line + 128)
  (data.drop (lo - 128 * line)).take (hi - lo)

/-- Whether a source has arrived. -/
def LineSrc.arrived : LineSrc → Bool
  | .tag _ => false
  | .serial _ => false
  | _ => true

/-- Answer a Z_LOAD all of whose sources have arrived (R143). -/
def State.zloadAnswer (s : State) (n : Nat) (z : ZLoad) : State :=
  let bad := z.srcs.find? (fun x => match x.2 with | .failed _ => true | .restart _ => true | _ => false)
  match bad with
  | some (_, .failed st) => s.zfail n z.msg st
  | some (_, .restart d) => s.faultSwitch n z.msg { cause := 0x0F, fva := some z.msg.addr, gfa := some z.gfa, typ := 1, fas := z.msg.fas, detail := d }
  | _ =>
    let data := z.srcs.flatMap (fun x => match x.2 with | .got d _ => lineSlice z.gfa (z.msg.len + 1) x.1 d | _ => [])
    s.zok n z.msg (z.srcs.any (fun x => match x.2 with | .got _ p => p | _ => false)) data

/-- Answer every Z_LOAD of an EPB that is complete, and drop it. -/
def State.zloadsSettle (s : State) (n : Nat) : State :=
  let l := (s.epbAt n).zloads
  let done := l.filter (fun z => z.srcs.all (fun x => x.2.arrived))
  let s1 := s.epbMod n (fun e => { e with zloads := e.zloads.filter (fun z => !z.srcs.all (fun x => x.2.arrived)) })
  State.each done (fun s z => s.zloadAnswer n z) s1

/-- Replace the source `old` of every line of every Z_LOAD. -/
def zloadsMap (l : List ZLoad) (old : LineSrc) (mk : Nat → LineSrc) : List ZLoad :=
  l.map (fun z => { z with srcs := z.srcs.map (fun x => if x.2 = old then (x.1, mk x.1) else x) })

/-- A fill's answer reaches the Z_LOADs that wait on it: `mk` gives each line's source. -/
def State.fillArrive (s : State) (n idx : Nat) (mk : Nat → LineSrc) : State :=
  (s.epbMod n (fun e => { e with zloads := zloadsMap e.zloads (.tag idx) mk })).zloadsSettle n

/-! ### Tags (R34, R35) -/

/-- Key of tag index `i` of the unit at logical port `u`. -/
def tagKey (u i : Nat) : Nat := u * 4096 + i

/-- The outstanding requests of a unit. -/
def State.unitTags (s : State) (u : Nat) : Tbl Tag := s.tags.filter (fun e => e.1 / 4096 == u)

/-- The EPBs that a Spindle cluster or a host port borrows from (R35). -/
def lendersOf (u : Nat) : List Nat :=
  if u < 64 then [] else if u < 112 then (List.range 4).map (· + 4 * (u - 96)) else (List.range 32).map (· + 32 * (u - 120))

/-- The indices that EPB `l` lends to unit `u` now. -/
def State.lends (s : State) (u l : Nat) : Nat :=
  if u < 112 then s.fget Fld.epbTagLend_SPN_LEND l * 64 else s.fget Fld.epbTagLend_HOST_LEND l * 16

/-- The indices lent by EPB `l` that unit `u` holds. -/
def State.heldOf (s : State) (u l : Nat) : Nat := ((s.unitTags u).filter (fun t => t.2.lender == some l)).length

/-- The Spindle cluster and the host port that borrow from EPB `l`. -/
def borrowers (l : Nat) : Nat × Nat := (96 + l / 4, 120 + l / 32)

/-- Tag indices a unit may hold: a borrower those lent to it now; an EPB those it has not lent and that no borrower still holds (R35, R36). -/
def State.tagLimit (s : State) (u : Nat) : Nat :=
  if u < 64 then
    let (c, h) := borrowers u
    4096 - max (s.lends c u) (s.heldOf c u) - max (s.lends h u) (s.heldOf h u)
  else ((lendersOf u).map (s.lends u)).sum

/-- The EPB that lends index `i`: a borrower numbers its indices 0 upward in the order of the lending EPBs (R35). -/
def lenderAt (lend : Nat → Nat) : List Nat → Nat → Option Nat
  | [], _ => none
  | l :: t, i => if i < lend l then some l else lenderAt lend t (i - lend l)

/-- Lender `l` has an index to give to unit `u`: fewer are held of it than it lends, and it has one that nobody holds. -/
def State.lenderHas (s : State) (u l : Nat) : Bool :=
  let (c, h) := borrowers l
  decide (s.heldOf u l < s.lends u l) && decide ((s.unitTags l).length + s.heldOf c l + s.heldOf h l < 4096)

/-- The lender of index `i` of unit `u`. -/
def State.lenderOf (s : State) (u i : Nat) : Option Nat := lenderAt (s.lends u) (lendersOf u) i

/-- A free tag index of a unit, if its use is below its limit: the lowest (DESIGN CHOICE: the spec does not say which free index a unit takes;
log entry 53); a borrower's is one that its lender still has. -/
def State.freeTag (s : State) (u : Nat) : Option Nat :=
  if (s.unitTags u).length < s.tagLimit u then
    (List.range 4096).find? (fun i => (tblFind s.tags (tagKey u i)).isNone &&
      (decide (u < 64) || (match s.lenderOf u i with | some l => s.lenderHas u l | none => false)))
  else none

/-- DEAD_BOUND of a unit, in cycles: an EPB's own, or that of the lowest-numbered EPB that lends to it (R44). -/
def State.deadBound (s : State) (u : Nat) : Nat :=
  us (s.fget Fld.epbTxnCtrl_DEAD_BOUND (if u < 64 then u else
    ((lendersOf u).find? (fun l => decide (0 < s.lends u l))).getD ((lendersOf u).headD 0)))

/-! ### Order, rates and admission (R137, R166, R209 to R211) -/

/-- An earlier request that has not completed: its type, end-point (none while it is in translation), VC and stream. -/
structure Earlier where
  typ : Nat
  ep : Option Nat
  vc : Nat
  stream : Nat × Nat

/-- The earlier requests of a unit that have not completed: outstanding ones, waiting ones, and at an EPB those in translation and Z_LOADs that
wait for lines. -/
def State.earlier (s : State) (u serial : Nat) : List Earlier :=
  ((tblVals (s.unitTags u)).filter (fun t => decide (t.serial < serial))).map
      (fun t => { typ := t.hdr.typ, ep := some (t.hdr.addr / 2 ^ 45), vc := t.hdr.vc, stream := t.stream })
    ++ ((tblGet [] s.waitq u).filter (fun w => decide (w.req.serial < serial))).map
      (fun w => { typ := w.req.typ, ep := some (w.req.gfa / 2 ^ 45), vc := w.req.vc, stream := w.req.stream })
    ++ ((s.epbAt u).zwait.filter (fun x => decide (x.1 < serial))).map
      (fun x => { typ := x.2.ztype, ep := none, vc := x.2.vc, stream := (0, x.2.ctx) })
    ++ ((s.epbAt u).zloads.filter (fun z => decide (z.serial < serial))).map
      (fun z => { typ := z.msg.ztype, ep := some (z.gfa / 2 ^ 45), vc := z.msg.vc, stream := (0, z.msg.ctx) })

/-- An earlier request goes to the end-point of a GFA, or may. -/
def Earlier.sameEp (x : Earlier) (gfa : Nat) : Bool := x.ep.isNone || x.ep == some (gfa / 2 ^ 45)

/-- The ordering rules let a request be issued (R137); a host port's requests also keep PCI Express order behind its memory writes, which a
DOORBELL is too (R138). -/
def State.orderOk (s : State) (u : Nat) (r : Req) : Bool :=
  (s.earlier u r.serial).all (fun x =>
    x.stream != r.stream ||
      (!(r.order && x.sameEp r.gfa) && r.typ != Ty.release && x.typ != Ty.acquire
        && !(r.behindWrites && (x.typ == Ty.store || x.typ == Ty.doorbell))
        && !(x.typ == Ty.fence && x.sameEp r.gfa && x.vc == r.vc)))

/-- Cap of a destination's credit: 8 KiB in units of 1/4096 byte. -/
def creditCap : Int := 33554432

/-- The credit of EPB `u` toward destination `d` now (R166): it grows by RATE × 491 units per cycle, which is
RATE/1,024 × 196.4 GB/s in units of 1/4096 byte. -/
def State.creditNow (s : State) (u d : Nat) : Int :=
  let r := tblGet {} (s.epbAt u).rates d
  min creditCap (r.credit + (s.fget Fld.epbCcRate_RATE u d * 491 * (s.now - r.at_) : Nat))

/-- Settle the credit at this cycle and add `x` to it. -/
def State.creditAdd (s : State) (u d : Nat) (x : Int) : State :=
  let c := s.creditNow u d
  s.epbMod u (fun e => { e with rates := tblMod {} e.rates d (fun r => { r with credit := c + x, at_ := s.now }) })

/-- Admission tokens of a class now, in units of 1/16 byte (R211); a class never used holds its cap (log entry 10). -/
def State.tokensNow (s : State) (u d : Nat) : Int :=
  let cap : Int := (256 * s.fget Fld.epbAdm_BURST u d * 16 : Nat)
  match tblFind (s.epbAt u).tokens d with
  | none => cap
  | some (t, at_) => min cap (t + (s.fget Fld.epbAdm_RATE u d * (s.now - at_) : Nat))

/-- The mask of bounded traffic classes of a deadline class (R208). -/
def State.btc (s : State) (d : Nat) : Nat := if d = 0 then s.fget Fld.hubSchedCtrl_BTC0 else s.fget Fld.hubSchedCtrl_BTC1

/-- A request that R209 lets be admitted. -/
def State.admissible (s : State) (u : Nat) (r : Req) : Bool :=
  decide (u < 64) && (match r.own with | .zar _ => true | .fill _ _ _ => true | _ => false) && r.vc == 0 && decide (r.dclass < 2)
    && s.fget Fld.epbAdm_EN u r.dclass == 1 && (s.btc r.dclass).testBit r.tc

/-- Bytes that a request costs in credit and tokens (R166). -/
def reqCost (r : Req) : Nat := 32 + r.len + 1

/-- The destination of a request (R151); a multicast STORE carries this GX3200's own X and Y (R162). -/
def State.destOf (s : State) (r : Req) : Nat := if r.mcr.isSome then gfaDest (s.localGfa 0 0) else gfaDest r.gfa

/-- What holds a request back, if anything does: no request passes an earlier one of its class, or to its destination, that still waits
(R211). -/
def State.heldBy (s : State) (u : Nat) (r : Req) : Option WaitFor :=
  let before := (tblGet [] s.waitq u).filter (fun w => decide (w.req.serial < r.serial))
  if !s.orderOk u r then some .order
  else if (s.freeTag u).isNone then some .tag
  else if u < 64 then
    if before.any (fun w => s.destOf w.req == s.destOf r) then some .admission
    else if r.metered && before.any (fun w => w.req.metered && w.req.dclass == r.dclass) then some .admission
    else if s.fget Fld.epbCcCtrl_EN u = 1 ∧ s.creditNow u (s.destOf r) < 0 then some .admission
    else if r.metered = true ∧ s.tokensNow u r.dclass < 0 then some .admission
    else none
  else none

/-- Subtract a request's cost from its credit and tokens. -/
def State.charge (s : State) (u : Nat) (r : Req) : State :=
  if u < 64 then
    let s1 := if s.fget Fld.epbCcCtrl_EN u = 1 then s.creditAdd u (s.destOf r) (-(reqCost r * 4096 : Nat)) else s
    if r.metered then
      let t := s1.tokensNow u r.dclass
      s1.epbMod u (fun e => { e with tokens := tblPut e.tokens r.dclass (t - (reqCost r * 16 : Nat), s1.now) })
    else s1
  else s

/-- R210, as a header is formed: a request that will not be admitted takes DCLASS 2 and leaves the bounded traffic classes; an accelerator's of
DCLASS 0 or 1 is counted. -/
def State.demote (s : State) (u : Nat) (r : Req) : State × Req :=
  if s.admissible u r then (s, { r with metered := true })
  else
    let count := decide (u < 64) && (match r.own with | .zar _ => true | .fill _ _ _ => true | _ => false) && decide (r.dclass < 2)
    (if count then s.fsat Fld.epbAdmDemote_DEMOTED u 0 1 else s,
     { r with tc := if (s.btc 0).testBit r.tc || (s.btc 1).testBit r.tc then s.fget Fld.hubSchedCtrl_DEMOTE_TC else r.tc, dclass := 2 })

/-! ### Issue -/

/-- The route of a request: unicast, or a multicast route entry's. -/
def State.routeOf (s : State) (u : Nat) (r : Req) : Option (Nat × Nat × Nat) :=
  match r.mcr with
  | some m => s.mcRoute m
  | none => s.unicast u r.gfa r.flow

/-- Lines of the issuing EPB's cache that an own write removes when it is issued (R144). -/
def State.ownWrite (s : State) (u : Nat) (r : Req) : State :=
  match r.own with
  | .zar _ =>
    if isWriteTy r.typ then s.epbMod u (fun e => rrcInvalidate e (fun x => (gfaLines r.gfa (r.len + 1)).contains x.line)) else s
  | _ => s

/-- The generation of the remote-read cache under which a fill's LOAD is issued (R143). -/
def Owner.under (o : Owner) (gen : Nat) : Owner :=
  match o with
  | .fill l _ f => .fill l gen f
  | o => o

/-- Allocate the tag of a formed request and send its packet to the crossbar (R20, R34, R152). The request has passed `heldBy`. -/
def State.issue (s : State) (u : Nat) (r : Req) (idx : Nat) : State :=
  let key := tagKey u idx
  let addr := match r.mcr with
    | some _ => s.localGfa (mcFirstPort r.route r.hopcnt) (gfaOff r.gfa)
    | none => r.gfa
  let roleV := match r.mcr with
    | some _ => r.rrole
    | none => if 96 ≤ gfaE r.gfa ∧ gfaE r.gfa ≤ 111 then r.role else r.rrole
  let p : Packet := s.stampSource
    { typ := r.typ, vc := r.vc, tc := r.tc, flow := r.flow, dclass := r.dclass, poison := r.poison, order := r.order, ksel := r.ksel,
      fas := r.fas, tag := tblGet 0 s.gens key * 4096 + idx, fmt := r.fmt, addr := addr, role := roleV, hopcnt := r.hopcnt,
      rop := r.rop, len := r.len, route := r.route, payload := r.payload } u
  let p := { p with posted := r.posted || hasMulticast p }
  let s3 := (s.charge u r).ownWrite u r
  let t : Tag := { hdr := { p with payload := [] }, own := r.own.under (s.epbAt u).rrcGen, stream := r.stream, serial := r.serial,
                   issued := s.serial, born := s.now, deadline := s.now + s.deadBound u - us 1, fva := r.fva,
                   posted := r.posted || hasMulticast p, lender := s.lenderOf u idx }
  let s4 := { s3 with tags := tblPut s3.tags key t, serial := s3.serial + 1 }
  let s5 := if u < 64 then s4.fset Fld.epbTagStat_IN_USE u 0 (s4.unitTags u).length else s4
  let s6 := match r.own with
    | .fill _ _ _ => s5.epbMod u (fun e => { e with zloads := zloadsMap e.zloads (.serial r.serial) (fun _ => .tag idx) })
    | _ => s5
  let own : Bool := match r.own with
    | .ni _ _ _ => r.mcr.isNone && r.gfa / 2 ^ 45 == s.xyp * 128 + u
    | _ => false
  s6.sendFrom u own (if own then consumeHop p (mkHop u 0 0) else p)

/-! ### Completion toward the owner -/

/-- The outcome of a request, as its issuing unit sees it. -/
structure Done where
  status : Nat
  data : List Byte := []
  poison : Bool := false
  /-- FSW_RSP: identifier of the target's record -/
  restart : Option Nat := none
  /-- CAUSE of the record of a final fault (R89), and whether R43 counts it in place of recording it -/
  cause : Nat := 0x0E
  quiet : Bool := false
  deriving DecidableEq, Repr

/-- Actor of an owner's fault record (R90). -/
def Owner.actor : Owner → Nat
  | .zar _ => 0
  | .fill _ _ _ => 0
  | .dma _ _ _ => 1
  | .ni _ _ _ => 2
  | .spn _ _ => 3
  | .host _ _ => 4
  | .rsv _ _ => 3

/-- Context word of an owner's fault record (R90). -/
def State.contextOf (s : State) (u ctx : Nat) : Owner → Nat
  | .zar m => m.ctx * 2 ^ 48
  | .fill _ _ _ => ctx * 2 ^ 48
  | .dma e _ _ => let m := tblGet {} (s.epbAt u).engines e; m.ring * 2 ^ 58 + e * 2 ^ 55 + m.index % 2 ^ 32
  | .ni en _ _ => en * 2 ^ 48
  | .spn t _ => t / 16 * 2 ^ 56 + t % 16 * 2 ^ 52 + s.fget Fld.spnThrW0_ROLE (t / 256) (t % 256) * 2 ^ 44
      + s.fget Fld.spnThrW0_PC (t / 256) (t % 256)
  | .host _ _ => 0
  | .rsv _ _ => 0

/-- Update the segment of a descriptor or triggered operation. -/
def segDone (m : Mover) (num : Nat) (f : Seg → Seg) : Mover := { m with segs := modFirst (fun x => x.num == num) f m.segs }

/-- What a fabric completion does to a segment (R96, R97, R113): a LOAD's data waits for the write part; other ends close it. -/
def segEnd (op : Nat) (write : Bool) (d : Done) (x : Seg) : Seg :=
  match d.restart with
  | some id => { x with st := .restart 0x0F, detail := id }
  | none =>
    if d.status ≠ TStat.ok then { x with st := .failed d.cause d.status, quiet := d.quiet }
    else if write then { x with st := .ok }
    else if op = 4 || x.skip then { x with st := .ok, data := d.data, poison := d.poison }
    else { x with st := .loaded, data := d.data, poison := d.poison }

/-- A restartable or final outcome stops further issue for the descriptor (R97). -/
def segStops (d : Done) : Bool := d.restart.isSome || d.status != TStat.ok

/-- Operation code of a descriptor in execution. -/
def Mover.op (m : Mover) : Nat := bits (wordAt m.words 0) 63 60

/-- A fabric completion reaches its segment. -/
def moverEnd (num : Nat) (write : Bool) (d : Done) (m : Mover) : Mover :=
  { segDone m num (segEnd m.op write d) with stopped := m.stopped || segStops d }

/-- Deliver an outcome to the owner of a request that unit `u` held under tag index `idx` (R61, R89, R95 to R97). -/
def State.deliver (s : State) (u idx : Nat) (t : Tag) (d : Done) : State :=
  match t.own with
  | .zar m =>
    match d.restart with
    | some id => s.faultSwitch u m { cause := 0x0F, fva := some m.addr, gfa := some t.hdr.addr, typ := t.hdr.typ, fas := t.hdr.fas, detail := id }
    | none =>
      let s1 := if t.hdr.typ = Ty.acquire then
          s.epbMod u (fun e => rrcInvalidate e (fun x => s.fget Fld.epbVisCtrl_ACQ_SCOPE u == 0 || x.fas == t.hdr.fas))
        else s
      if d.status = TStat.ok then s1.zok u m d.poison (if returnsData t.hdr.typ then d.data else []) else s1.zfail u m d.status
  | .fill lines gen fas =>
    match d.restart with
    | some id => s.fillArrive u idx (fun _ => .restart id)
    | none =>
      if d.status = TStat.ok then
        let base := t.hdr.addr
        let slice := fun line => (d.data.drop (128 * line - base)).take 128
        let s1 := if d.poison || (s.epbAt u).rrcGen != gen then s
          else State.each lines (fun s line => s.rrcInstall u line fas (slice line)) s
        s1.fillArrive u idx (fun line => .got (slice line) d.poison)
      else s.fillArrive u idx (fun _ => .failed d.status)
  | .dma e num w =>
    s.epbMod u (fun x => { x with engines := tblMod {} x.engines e (moverEnd num w d) })
  | .ni en num w =>
    s.epbMod u (fun x => { x with niRun := tblMod {} x.niRun en (moverEnd num w d) })
  | .spn th part =>
    let e : RemoteEnd := { part := part, status := d.status, data := d.data, poison := d.poison, restart := d.restart,
                           gfa := some t.hdr.addr }
    { s with spn := { s.spn with ends := tblMod [] s.spn.ends th (· ++ [e]) } }
  | .rsv i part => s.rsvStored i part
  | .host id posted => if posted then s else s.emit (.hostCpl (u - 120) id d.status (if d.status = TStat.ok then d.data else []))

/-- ERR_DESTSTAT and DEST_FAIL (R435). -/
def State.destStat (s : State) (gfa status : Nat) : State :=
  let d := gfaDest gfa
  let was := bit (s.rd .errDeststat (d / 64)) (d % 64)
  if status = TStat.ok then (if was then s.setBit .errDeststat (d / 64) 0 (d % 64) false else s)
  else if (status = TStat.timeout ∨ status = TStat.unreachable ∨ status = TStat.portDown) ∧ !was then
    let s1 := s.setBit .errDeststat (d / 64) 0 (d % 64) true
    let due := match tblFind s1.err.destAt d with
      | none => true
      | some at_ => decide (at_ + us 1000 ≤ s1.now)
    if due then
      ({ s1 with err := { s1.err with destAt := tblPut s1.err.destAt d s1.now } }).errRec 0 0x07 0 14 [d, status]
    else s1
  else s

/-- An owner that parks or switches out on FSW_RSP, and writes its record then (R95 to R97, R236); a host port and a weight stream cannot. -/
def Owner.restarts : Owner → Bool
  | .host _ _ => false
  | .rsv _ _ => false
  | _ => true

/-- FENCED and STALE_ROLE are recorded once per destination end-point and epoch (R43): the key of such a completion. -/
def onceKey (t : Tag) (d : Done) : Option (Nat × Nat × Nat) :=
  if d.restart.isNone && (d.status == TStat.fenced || d.status == TStat.staleRole) then
    some (d.status, t.hdr.addr / 2 ^ 45, if d.status = TStat.fenced then t.hdr.fence else t.hdr.role)
  else none

/-- R43 counts this completion in place of recording it. A reset of the EPB forgets the pairs that have been recorded, with all that the EPB holds
(DESIGN CHOICE: R43 does not say; log entry 53). -/
def State.quietDone (s : State) (u : Nat) (t : Tag) (d : Done) : Bool :=
  match onceKey t d with
  | some k => (s.epbAt u).firstRec.contains k
  | none => false

/-- The count of completions that write no record: EPB_EPOCH_REJ, which only an EPB has (log entry 55). -/
def State.epochRej (s : State) (u status : Nat) : State :=
  if u < 64 then s.fsat (if status = TStat.fenced then Fld.epbEpochRej_FENCED_CNT else Fld.epbEpochRej_STALE_CNT) u 0 1 else s

/-- The fault record of a completion other than OK (R43): FENCED and STALE_ROLE only once per end-point and epoch. A mover's record is written
when it ends (R97). -/
def State.complRecord (s : State) (u : Nat) (t : Tag) (d : Done) : State :=
  if d.status = TStat.ok ∨ (d.restart.isSome = true ∧ t.own.restarts = true) then s
  else if s.quietDone u t d then s.epochRej u d.status
  else
    let s1 := match onceKey t d with
      | some k => s.epbMod u (fun e => { e with firstRec := k :: e.firstRec })
      | none => s
    match t.own with
    | .dma _ _ _ => s1
    | .ni _ _ _ => s1
    | _ => s1.fault u { cause := if d.restart.isSome then 0x0F else 0x0E, status := d.status, actor := t.own.actor, fva := some t.fva,
                        gfa := some t.hdr.addr, typ := t.hdr.typ, fas := t.hdr.fas, context := s1.contextOf u t.stream.2 t.own,
                        detail := d.restart.getD 0 }

/-- Retire a tag index: its generation advances (R34). -/
def State.retire (s : State) (key : Nat) : State :=
  let s1 := { s with tags := tblDel s.tags key, gens := tblPut s.gens key ((tblGet 0 s.gens key + 1) % 16) }
  let u := key / 4096
  if u < 64 then s1.fset Fld.epbTagStat_IN_USE u 0 (s1.unitTags u).length else s1

/-- Complete a tag once, toward its owner. -/
def State.complete (s : State) (key : Nat) (d : Done) : State :=
  match tblFind s.tags key with
  | none => s
  | some t =>
    let u := key / 4096
    let s1 := (s.retire key).destStat t.hdr.addr d.status
    (s1.complRecord u t d).deliver u (key % 4096) t { d with quiet := s1.quietDone u t d }

/-- A FENCE of the unit that has been answered, with every request issued before it to its end-point on its VC complete (R29). -/
def State.fenceReady (s : State) (u : Nat) (t : Tag) : Bool :=
  t.answered.isSome && (tblVals (s.unitTags u)).all (fun x =>
    !(decide (x.issued < t.issued) && x.hdr.addr / 2 ^ 45 == t.hdr.addr / 2 ^ 45 && x.hdr.vc == t.hdr.vc))

/-! ### Submitting a request -/

/-- Complete a request that never got a tag (R13, R25): its record and its status. -/
def State.refuseReq (s : State) (u : Nat) (r : Req) (cause status : Nat) : State :=
  let t : Tag := { hdr := { typ := r.typ, addr := r.gfa, fas := r.fas, len := r.len }, own := r.own, stream := r.stream, fva := r.fva }
  let s1 := match r.own with
    | .dma _ _ _ => s
    | .ni _ _ _ => s
    | .fill _ _ _ =>
      let f : FaultRec := { cause := cause, status := status, fva := some r.fva, gfa := some r.gfa, typ := r.typ,
                            fas := r.fas, context := s.contextOf u r.stream.2 r.own }
      (s.fault u f).epbMod u (fun e => { e with zloads := zloadsMap e.zloads (.serial r.serial) (fun _ => .tag 4096) })
    | _ => s.fault u { cause := cause, status := status, actor := r.own.actor, fva := some r.fva, gfa := some r.gfa, typ := r.typ,
                       fas := r.fas, context := s.contextOf u r.stream.2 r.own }
  s1.deliver u 4096 t { status := status, cause := cause }

/-- Put a request on its unit's waiting list. -/
def State.park (s : State) (u : Nat) (r : Req) (w : WaitFor) : State :=
  { s with waitq := tblMod [] s.waitq u (· ++ [{ req := r, why := w }]) }

/-- The fill in flight of a line, if there is one (R143): a tag whose LOAD was issued under the current generation, or a request whose LOAD is
still to be issued. -/
def State.fillOf (s : State) (u line : Nat) : Option LineSrc :=
  let g := (s.epbAt u).rrcGen
  let fills : Owner → Bool := fun o => match o with | .fill l _ _ => l.contains line | _ => false
  match (s.unitTags u).find? (fun t => fills t.2.own && t.2.own == t.2.own.under g) with
  | some t => some (.tag (t.1 % 4096))
  | none => ((tblGet [] s.waitq u).find? (fun w => fills w.req.own)).map (fun w => .serial w.req.serial)

/-- Drop one line from the cache, which is no event of R144. -/
def rrcDrop (e : Epb) (line : Nat) : Epb := { e with rrc := tblMod [] e.rrc (rrcSet line) (List.filter (fun x => x.line != line)) }

/-- Look one line up (R143): its source, `none` for a miss, and the state. A hit is read through the pool port (R301); one whose read brings an
error or poison is a miss, invalidated and recorded. -/
def State.rrcLook (s : State) (u line : Nat) : Option LineSrc × State :=
  match rrcFind (s.epbAt u) line with
  | some x =>
    let key := s.rrcKey u (rrcSet line) x.way
    if s.view key 128 = .good ∧ s.boot.untrained.contains (u % 8) = false then
      (some (.got (s.load key 128) false), (s.touch key 128 0).epbMod u (rrcTouch line x.way))
    else
      let s1 := if s.boot.untrained.contains (u % 8) then s else s.touch key 128 0
      (s.fillOf u line, (s1.epbMod u (fun e => rrcDrop e line)).errRec 0 0x23 1 u [line * 128])
  | none => (s.fillOf u line, s)

/-- The lookup of every line of a Z_LOAD, in ascending order. -/
def State.rrcScan (s : State) (u : Nat) : List Nat → List (Nat × Option LineSrc) × State
  | [] => ([], s)
  | l :: t =>
    let (x, s1) := s.rrcLook u l
    let (r, s2) := s1.rrcScan u t
    ((l, x) :: r, s2)

/-- A cacheable Z_LOAD at lookup (R143): it is answered, or waits on fills, or leaves one LOAD to issue, which the result names. -/
def State.rrcLookup (s : State) (u : Nat) (r : Req) (m : ZMsg) : Option Req × State :=
  let (srcs, s1) := s.rrcScan u (gfaLines r.gfa (r.len + 1))
  let missing := (srcs.filter (fun x => x.2.isNone)).map (·.1)
  let z : ZLoad := { msg := m, gfa := r.gfa, srcs := srcs.map (fun x => (x.1, x.2.getD (.serial r.serial))), serial := r.serial }
  let s2 := s1.epbMod u (fun e => { e with zloads := e.zloads ++ [z] })
  let allHit := srcs.all (fun x => match x.2 with | some (.got _ _) => true | _ => false)
  let s3 := if allHit then s2.fsat Fld.epbRrcStat_HIT u 0 1 else s2.fsat Fld.epbRrcStat_MISS u 0 1
  match missing.head?, missing.getLast? with
  | some lo, some hi =>
    (some { r with own := .fill missing (s3.epbAt u).rrcGen r.fas, gfa := 128 * lo, fva := r.fva + 128 * lo - r.gfa,
                   len := 128 * (hi - lo + 1) - 1, cacheable := false }, s3)
  | _, _ => (none, s3.zloadsSettle u)

/-- Issue a request whose header is formed, or hold it at its unit (R35, R137, R211). -/
def State.tryIssue (s : State) (u : Nat) (r : Req) : State :=
  match s.heldBy u r with
  | some w => s.park u r w
  | none =>
    match s.freeTag u with
    | some i => s.issue u r i
    | none => s.park u r .tag

/-- Form a request's header (R149, R154, R210), and issue it or let it wait. -/
def State.formIssue (s : State) (u : Nat) (r : Req) : State :=
  match s.routeOf u r with
  | none => s.refuseReq u r 0x07 TStat.fault
  | some (route, hc, role) =>
    let (s1, r1) := s.demote u { r with route := route, hopcnt := hc, rrole := role }
    s1.tryIssue u r1

/-- The pool port that holds the remote-read cache of a unit would have to be read, and takes no read yet (R15, R305). -/
def State.rrcWaits (s : State) (u : Nat) (r : Req) : Bool :=
  (gfaLines r.gfa (r.len + 1)).any (fun l => (rrcFind (s.epbAt u) l).isSome) && !s.poolReady (u % 8) && !s.boot.untrained.contains (u % 8)

/-- A cacheable Z_LOAD meets the cache first, once ordering lets it go and while RRC_EN is still 1 (R142, R143); any other request's header is
formed. -/
def State.goIssue (s : State) (u : Nat) (r : Req) : State :=
  match r.cacheable && s.fget Fld.epbVisCtrl_RRC_EN u == 1, r.own with
  | true, .zar m =>
    if !s.orderOk u r then s.park u r .order
    else if s.rrcWaits u r then s.park u r .memory
    else
      match s.rrcLookup u r m with
      | (some r', s') => s'.formIssue u r'
      | (none, s') => s'
  | _, _ => s.formIssue u { r with cacheable := false }

/-- Submit a request; one that has no serial number takes the next. -/
def State.submit (s : State) (u : Nat) (r : Req) : State :=
  if r.serial = 0 then ({ s with serial := s.serial + 1 }).goIssue u { r with serial := s.serial } else s.goIssue u r

/-- Submit waiting request `i` of a unit again: it is issued, or waits on with the reason it has now. -/
def State.reissue (s : State) (u i : Nat) : State :=
  let q := tblGet [] s.waitq u
  match q[i]? with
  | none => s
  | some w =>
    if w.req.cacheable then
      if s.orderOk u w.req && !s.rrcWaits u w.req then ({ s with waitq := tblPut s.waitq u (q.eraseIdx i) }).goIssue u w.req else s
    else
      match s.heldBy u w.req with
      | some why => { s with waitq := tblPut s.waitq u (q.set i { w with why := why }) }
      | none => ({ s with waitq := tblPut s.waitq u (q.eraseIdx i) }).tryIssue u w.req

/-! ### Operand rules (R25) -/

/-- Operand rules that do not depend on the target: LEN, alignment, format and block. -/
def operandOk (typ addr len fmt rop vc payloadLen : Nat) : Bool :=
  let n := len + 1
  let inBlock := addr % 4096 + n ≤ 4096
  if typ = 1 ∨ typ = 2 then inBlock && fmt == 0 && (vc == 0 || (2 ≤ vc && vc ≤ 5))
  else if 3 ≤ typ ∧ typ ≤ 5 then
    (1 ≤ fmt && fmt ≤ 6) && n == fmtSize fmt && addr % n == 0 && (vc == 0 || vc == 2 || vc == 3)
  else if typ = 6 then
    ((1 ≤ fmt && fmt ≤ 4) || fmt == 7) && n == fmtSize fmt && addr % n == 0 && payloadLen == 2 * n && (vc == 0 || vc == 2 || vc == 3)
  else if typ = 7 then
    (1 ≤ fmt && fmt != 7 && fmt ≤ 15) && n % fmtSize fmt == 0 && addr % fmtSize fmt == 0 && inBlock && rop != 3
      && (vc == 0 || vc == 2 || vc == 3 || vc == 5)
  else if typ = 8 ∨ typ = 9 then (n == 4 || n == 8) && addr % n == 0 && fmt == 0 && (vc == 0 || vc == 2 || vc == 3)
  else if typ = 10 then len == 0 && fmt == 0 && (vc == 0 || vc == 2 || vc == 3 || vc == 5)
  else if typ = 11 then n == 8 && addr % 8 == 0 && fmt == 0 && (vc == 0 || vc == 5)
  else false

/-- The ends of R25 on E: a FENCE names a target, a DOORBELL an EPB. -/
def endpointOk (typ gfa : Nat) : Bool := if typ = 11 then decide (gfaE gfa < 64) else isTarget (gfaE gfa)

end Sys2Proof.Machine
end

