-- ==== Sys2Proof/Machine/Counters.lean ====
section
/-! DEFINITION. Counters and triggered-operation entries: counting, falling due, the fire queue (12). -/

namespace Sys2Proof.Machine
open Sys2Proof

/-- STATE codes of a triggered-operation entry (R286). -/
def ToSt.idle : Nat := 0
def ToSt.armed : Nat := 1
def ToSt.queued : Nat := 2
def ToSt.running : Nat := 3
def ToSt.parked : Nat := 4
def ToSt.failed : Nat := 5

/-- STATE of entry `i` of EPB `n`. -/
def State.toState (s : State) (n i : Nat) : Nat := s.fget Fld.epbToW7_STATE n i

/-- EPB_NI_STAT shows the running and parked entries, the fire queue and the failed entries (R285). -/
def State.niStat (s : State) (n : Nat) : State :=
  let e := s.epbAt n
  let s1 := s.fset Fld.epbNiStat_RUNNING n 0 (e.niRun.length + (e.parks.filter (fun p => p.mover.ni)).length + (e.resumes.filter (fun p => p.mover.ni)).length)
  s1.fset Fld.epbNiStat_QUEUED n 0 e.fireq.length

/-- An ARMED entry is due (R271). -/
def State.toDue (s : State) (n i : Nat) : Bool :=
  s.toState n i == ToSt.armed &&
    decide ((s.fget Fld.epbNctrW0_COUNT n (s.fget Fld.epbToW0_TRIG n i) + 2 ^ 32 - s.fget Fld.epbToW1_THRESH n i) % 2 ^ 32 < 2 ^ 31)

/-- A due entry enters QUEUED and joins the tail of the fire queue (R271). -/
def State.toFire (s : State) (n i : Nat) : State :=
  if s.toDue n i then
    ((s.fset Fld.epbToW7_STATE n i ToSt.queued).epbMod n
      (fun e => { e with fireq := e.fireq ++ [i], wdStart := tblDel e.wdStart i })).niStat n
  else s

/-- A change of a counter starts the watchdogs that watch it (R277). -/
def State.wdogStart (s : State) (n c : Nat) : State :=
  let l := (List.range 1024).filter (fun i => s.toState n i == ToSt.armed && s.fget Fld.epbToW0_WD_EN n i == 1
    && s.fget Fld.epbToW4_WDC n i == c && (tblFind (s.epbAt n).wdStart i).isNone)
  s.epbMod n (fun e => { e with wdStart := l.foldl (fun t i => tblPut t i s.now) e.wdStart })

/-- Add to a counter, modulo 2^32, and start the watchdogs that watch it (R270, R277). -/
def State.ctrBump (s : State) (n c k : Nat) : State :=
  if k % 2 ^ 32 = 0 then s else (s.fwrap Fld.epbNctrW0_COUNT n c k).wdogStart n c

/-- Evaluate the entries that `p` names, in ascending order (R271). -/
def State.fireDue (s : State) (n : Nat) (p : Nat → Bool) : State := State.each ((List.range 1024).filter p) (fun s i => s.toFire n i) s

/-- Add to a counter, and evaluate the entries it triggers (R270, R271). -/
def State.ctrAdd (s : State) (n c k : Nat) : State :=
  if k % 2 ^ 32 = 0 then s else (s.ctrBump n c k).fireDue n (fun i => s.fget Fld.epbToW0_TRIG n i == c)

/-- A write performed through window `w` increments every counter bound to it (R270, R289); the entries that fall due join in ascending order. -/
def State.windowWrite (s : State) (n w : Nat) : State :=
  let cs := (List.range 256).filter (fun c => s.fget Fld.epbNctrW0_BIND_EN n c == 1 && s.fget Fld.epbNctrW0_WIN n c == w)
  (State.each cs (fun s c => s.ctrBump n c 1) s).fireDue n (fun i => cs.contains (s.fget Fld.epbToW0_TRIG n i))

/-- An entry enters FAILED with its last status (R274, R277). -/
def State.toFail (s : State) (n i status : Nat) : State :=
  let s1 := ((s.fset Fld.epbToW7_STATE n i ToSt.failed).fset Fld.epbToW7_LAST n i status).fsat Fld.epbNiStat_FAILED n 0 1
  let s2 := (s1.epbMod n (fun e => { e with niRun := tblDel e.niRun i, wdStart := tblDel e.wdStart i })).niStat n
  if s.fget Fld.epbToW0_FC_EN n i = 1 then s2.ctrAdd n (s.fget Fld.epbToW0_FCTR n i) 1 else s2

/-- A running entry completes OK (R274): the CMPL counter is incremented, then the entry is re-armed or idle, and the entries that are now due join
the fire queue in ascending order. -/
def State.toOk (s : State) (n i : Nat) : State :=
  let s1 := (s.fset Fld.epbToW7_LAST n i 0).epbMod n (fun e => { e with niRun := tblDel e.niRun i })
  let cmpl := s.fget Fld.epbToW0_CMPL_EN n i == 1
  let c := s.fget Fld.epbToW0_CMPL n i
  let s2 := if cmpl then s1.ctrBump n c 1 else s1
  let s3 := if s.fget Fld.epbToW0_REARM n i = 1 then
      (s2.fwrap Fld.epbToW1_THRESH n i (s.fget Fld.epbToW4_STEP n i)).fset Fld.epbToW7_STATE n i ToSt.armed
    else s2.fset Fld.epbToW7_STATE n i ToSt.idle
  (s3.niStat n).fireDue n (fun j => j == i || (cmpl && s.fget Fld.epbToW0_TRIG n j == c))

end Sys2Proof.Machine
end

