-- ==== Sys2Proof/Machine/Xlate.lean ====
section
/-! DEFINITION. Address translation (03): page table walks, the translation cache, window and FAS spaces, heat counting. -/

namespace Sys2Proof.Machine
open Sys2Proof

/-- How a walk ends (R72, R73): a leaf with its page size, or why there is none, with the level and the entry read. -/
inductive WalkEnd where
  | leaf (size : Nat) (entry : Word)
  | notPresent (restartable : Bool) (level : Nat) (entry : Word)
  | malformed (level : Nat) (entry : Word)
  | readFail (level : Nat)
  | disabled
  /-- a table's controller takes no read yet (R305): the walk goes on later -/
  | waits
  deriving DecidableEq, Repr

/-- Index into the table of a level (Table — page table levels). -/
def levelIndex (level va : Nat) : Nat := if level = 0 then va / 2 ^ 16 % 32 else va / 2 ^ (21 + 9 * (level - 1)) % 512

/-- Page size of a leaf at a level. -/
def levelPage (level : Nat) : Nat := if level = 0 then 2 ^ 16 else if level = 1 then 2 ^ 21 else 2 ^ 30

/-- A present leaf is malformed (R73, R83). -/
def leafBad (level : Nat) (w : Word) (window : Bool) : Bool :=
  decide (level ≥ 3) || (level == 1 && bits w 8 4 != 0) || (level == 2 && bits w 17 4 != 0) || bits w 1 0 != 0
    || (window && bits w 51 45 != 0)

/-- A present pointer is malformed (R73). -/
def pointerBad (level : Nat) (w : Word) : Bool :=
  let e := bits w 51 45
  level == 0 || bits w 60 52 != 0 || bits w 7 0 != 0 || decide (e < 112) || decide (121 < e) || (decide (level ≥ 2) && bits w 11 8 != 0)

/-- A walker's read of one entry: of a stack, only in its Metadata range (R294). -/
def State.tableRead (s : State) (gfa : Nat) (ext : Option (List Byte)) : Option (List Byte) :=
  if gfaE gfa < 120 ∧ 2 ^ 32 ≤ gfaOff gfa then none else s.internalRead gfa 8 ext

/-- What that read does to the line it meets (R301). -/
def State.tableTouch (s : State) (gfa : Nat) : State :=
  if gfaE gfa < 120 ∧ 2 ^ 32 ≤ gfaOff gfa then s else s.internalTouch gfa 8

/-- Walk the tables from `level` (one more than the level read next): the table's end-point and offset, and the host words
that the walk's reads of host memory returned, in order. -/
def State.walkFrom (s : State) (window : Bool) (va : Nat) : Nat → Nat → List Word → WalkEnd
  | 0, _, _ => .readFail 0
  | level + 1, table, ext =>
    let gfa := s.xyp * 2 ^ 52 + table + 8 * levelIndex level va
    let host := decide (120 ≤ gfaE gfa)
    if s.readWaits gfa then .waits else
    match s.tableRead gfa (ext.head?.map wordBytes) with
    | none => .readFail level
    | some b =>
      let w : Word := BitVec.ofNat 64 (ofBytes b)
      if bit w 63 = false then .notPresent (bit w 0) level w
      else if bits w 62 61 = 1 then (if leafBad level w window then .malformed level w else .leaf (levelPage level) w)
      else if bits w 62 61 = 0 then
        if pointerBad level w then .malformed level w
        else s.walkFrom window va level (bits w 51 8 * 256) (if host then ext.drop 1 else ext)
      else .malformed level w

/-- One level of a walk: its read of the table, and, where the entry points on, the next table and what is left of `ext`. -/
def State.walkStep (s : State) (va level table : Nat) (ext : List Word) : State × Option (Nat × List Word) :=
  let gfa := s.xyp * 2 ^ 52 + table + 8 * levelIndex level va
  (s.tableTouch gfa, (s.tableRead gfa (ext.head?.map wordBytes)).bind (fun b =>
    let w : Word := BitVec.ofNat 64 (ofBytes b)
    if bit w 63 && bits w 62 61 == 0 && !pointerBad level w then some (bits w 51 8 * 256, if 120 ≤ gfaE gfa then ext.drop 1 else ext) else none))

/-- What the reads of a walk do to the lines they meet (R301). -/
def State.walkTouch (s : State) (va : Nat) : Nat → Nat → List Word → State
  | 0, _, _ => s
  | level + 1, table, ext =>
    let x := s.walkStep va level table ext
    x.2.elim x.1 (fun y => x.1.walkTouch va level y.1 y.2)

/-- A field of a word. -/
def Fld.of (f : Fld) (w : Word) : Nat := bits w f.hi f.lo

/-- Word 0 of a FAS entry lets no FVA of this size be translated (R71). -/
def fasRefuses (w : Word) (va : Nat) : Bool :=
  Fld.epbFasW0_EN.of w == 0 || (Fld.epbFasW0_LEVELS.of w == 4 && decide (2 ^ 48 ≤ va)) || decide (2 ^ 57 ≤ va)

/-- What a walk of a space that starts now starts from (R71): word 0 of the FAS entry, or the window's TROOT. -/
def State.walkRoot (s : State) (n : Nat) (sp : Space) : Word :=
  match sp with
  | .fas f => s.rd .epbFasW0 n f
  | .win k => BitVec.ofNat 64 (s.fget Fld.epbTwtW3_TROOT n k)

/-- The walk of an FVA under a FAS tag (R71), or of a window-relative offset through a window's tables (R83), from `root`. -/
def State.walk (s : State) (sp : Space) (va : Nat) (root : Word) (ext : List Word) : WalkEnd :=
  match sp with
  | .fas _ =>
    if fasRefuses root va then .disabled
    else s.walkFrom false va (Fld.epbFasW0_LEVELS.of root) (Fld.epbFasW0_ROOT.of root * 4096) ext
  | .win _ => s.walkFrom true va 4 (root.toNat * 4096) ext

/-- The state that the walk's reads leave. -/
def State.walked (s : State) (sp : Space) (va : Nat) (root : Word) (ext : List Word) : State :=
  match sp with
  | .fas _ => if fasRefuses root va then s else s.walkTouch va (Fld.epbFasW0_LEVELS.of root) (Fld.epbFasW0_ROOT.of root * 4096) ext
  | .win _ => s.walkTouch va 4 (root.toNat * 4096) ext

/-- The address that a leaf gives: page address, and the bits below the page size. -/
def leafAddr (leaf : Word) (size va : Nat) : Nat := bits leaf 51 4 * 2 ^ 16 / size * size + va % size

/-- Set of a translation cache entry (log entry 9: the 64 KiB page number of its first byte, modulo the number of sets); an EPB's
cache has 512 sets of 16 ways (R75), a Spindle cluster's 64 (R229). -/
def xlateSet (n page : Nat) : Nat := page / 2 ^ 16 % (if n < 64 then 512 else 64)

/-- A cached leaf of a space that covers an address (R75). -/
def cacheFind (n : Nat) (e : Epb) (sp : Space) (va : Nat) : Option CacheEnt :=
  [2 ^ 16, 2 ^ 21, 2 ^ 30].findSome? (fun size =>
    let page := va / size * size
    (tblGet [] e.cache (xlateSet n page)).find? (fun c => c.space == sp && c.page == page && c.size == size))

/-- A hit makes a prefetched entry an ordinary one (R80), and the set's tree points away from its way (R75). -/
def cacheUse (n : Nat) (e : Epb) (c : CacheEnt) : Epb :=
  { e with
    cache := tblMod [] e.cache (xlateSet n c.page) (List.map (fun x => if x = c then { c with prefetched := false } else x))
    cacheLru := tblMod 0 e.cacheLru (xlateSet n c.page) (fun t => plruTouch t c.way) }

/-- The way that a new leaf takes in its set: the lowest free one, then that of a prefetched leaf not yet used, then the one that the tree gives
up (R75, R80). -/
def cacheWay (set : List CacheEnt) (tree : Nat) : Nat :=
  match (List.range 16).find? (fun w => !set.any (fun x => x.way == w)) with
  | some w => w
  | none => ((set.find? (·.prefetched)).map (·.way)).getD (plruVictim tree)

/-- Install a leaf (R75, R76): not twice. A prefetched one does not count as used. -/
def State.cacheInstall (s : State) (n : Nat) (c : CacheEnt) : State :=
  let k := xlateSet n c.page
  let set := tblGet [] (s.epbAt n).cache k
  if set.any (fun x => x.space == c.space && x.page == c.page && x.size == c.size) then s
  else
    let w := cacheWay set (tblGet 0 (s.epbAt n).cacheLru k)
    s.epbMod n (fun e => { e with
      cache := tblPut e.cache k ({ c with way := w } :: set.filter (fun x => x.way != w))
      cacheLru := if c.prefetched then e.cacheLru else tblMod 0 e.cacheLru k (fun t => plruTouch t w) })

/-- The 64 KiB page of an address, under which misses share a walk (R76). -/
def page64 (va : Nat) : Nat := va / 2 ^ 16

/-- A current walk of the page of an address runs in EPB `n`. -/
def State.walking (s : State) (n : Nat) (sp : Space) (va : Nat) : Bool :=
  (s.epbAt n).walks.any (fun w => w.space == sp && w.page == page64 va && !w.stale)

/-- Start a walk for a miss, from `root` as it stands now, unless a current walk of the same page runs or 32 walks run (R76). -/
def State.walkStart (s : State) (n : Nat) (sp : Space) (va : Nat) (root : Word) : State :=
  if s.walking n sp va then s
  else if (s.epbAt n).walks.length < 32 then
    (s.epbMod n (fun e => { e with walks := e.walks ++ [{ space := sp, page := page64 va, root := root }] })).fsat Fld.epbXlateMiss_MISS n 0 1
  else s

/-! ### Heat counting (R105) -/

/-- Key of a heat way. -/
def heatKey (set way : Nat) : Nat := 4 * set + way

/-- The way a page uses: the way that holds it, else the way with the lowest COUNT, lowest number on a tie. -/
def heatWay (t : Tbl HeatWay) (set page : Nat) : Nat × Bool :=
  let w := fun i => tblGet ({} : HeatWay) t (heatKey set i)
  match (List.range 4).find? (fun i => (w i).valid && (w i).tag == page) with
  | some i => (i, true)
  | none => ((List.range 4).foldl (fun b i => if (w i).count < (w b).count then i else b) 0, false)

/-- Count a request of EPB `n` to host page `page` that touches `lines` lines. -/
def State.heatCount (s : State) (n page lines fas : Nat) : State :=
  if s.fget Fld.epbHeatCtrl_EN n = 0 then s
  else
    let set := (page % 256) ^^^ (page / 256 % 256)
    let t := (s.epbAt n).heat
    let (i, hit) := heatWay t set page
    let w0 : HeatWay := if hit then tblGet {} t (heatKey set i) else { tag := page, valid := true }
    let c := min (w0.count + max 1 lines) 4095
    let post := !w0.flagged && decide (s.fget Fld.epbHeatCtrl_THRESH n ≤ c)
    let s1 := s.epbMod n (fun e => { e with heat := tblPut e.heat (heatKey set i) { w0 with count := c, flagged := w0.flagged || post } })
    if post then s1.hotPage n page c fas else s1

/-- The halving at the end of every PERIOD (R105). -/
def heatHalve (thresh : Nat) (w : HeatWay) : HeatWay :=
  { w with count := w.count / 2, flagged := if w.count / 2 < thresh / 2 then false else w.flagged }

end Sys2Proof.Machine
end

