-- ==== Sys2Proof/Machine/Move.lean ====
section
/-! DEFINITION. Bulk moves (04, 05, 12): bulk translation, the tile order, segments of a descriptor or triggered operation, their
issue, their completion, and the fault records of movers. -/

namespace Sys2Proof.Machine
open Sys2Proof

/-! ### Bulk translation (R74, R387) -/

/-- How a bulk translation ends. -/
inductive Tr where
  | ok (gfa ksel : Nat)
  | restart (level detail : Nat)
  | final (cause status level detail : Nat)
  /-- a walk of the page runs, or the walker has no place, or a table cannot be read yet: the translation is made later -/
  | waits
  deriving DecidableEq, Repr

/-- What a leaf gives bulk-class traffic. -/
def State.bulkLeaf (s : State) (leaf : Word) (size va : Nat) : Tr :=
  if s.bound && bits leaf 57 52 == 0 then .final 0x05 TStat.fault 7 0 else .ok (leafAddr leaf size va) (bits leaf 57 52)

/-- Translate for bulk-class traffic: `u` is the unit whose cache is used, `n` the EPB whose FAS table is used. A miss that no walk of its page
serves takes one of the 32 walks (R76) and walks at once, with `ext` the words that reads of host memory returned (log entry 11). -/
def State.bulk (s : State) (u n fas va : Nat) (ext : List Word) : Tr × State :=
  let root := s.walkRoot n (.fas fas)
  if fasRefuses root va then (.final 0x06 TStat.fault 7 0, s)
  else
  match cacheFind u (s.epbAt u) (.fas fas) va with
  | some c => (s.bulkLeaf c.leaf c.size va, s.epbMod u (fun e => cacheUse u e c))
  | none =>
    if s.walking u (.fas fas) va || decide (32 ≤ (s.epbAt u).walks.length) then (.waits, s)
    else
    let s1 := (if u < 64 then s.fsat Fld.epbXlateMiss_MISS u 0 1 else s).walked (.fas fas) va root ext
    match s.walk (.fas fas) va root ext with
    | .leaf size w =>
      (s.bulkLeaf w size va, s1.cacheInstall u { space := .fas fas, page := va / size * size, size := size, leaf := w })
    | .notPresent true level w => (.restart level w.toNat, s1)
    | .notPresent false level w => (.final 0x02 TStat.fault level w.toNat, s1)
    | .malformed level w => (.final 0x03 TStat.fault level w.toNat, s1)
    | .readFail level => (.final 0x04 TStat.fault level (2 ^ 64 - 1), s1)
    | .disabled => (.final 0x06 TStat.fault 7 0, s1)
    | .waits => (.waits, s)

/-! ### Tile order (R114) -/

def Mover.xlen (m : Mover) : Nat := bits (wordAt m.words 3) 63 32 + 1
def Mover.ycnt (m : Mover) : Nat := bits (wordAt m.words 3) 31 16 + 1
def Mover.zcnt (m : Mover) : Nat := bits (wordAt m.words 3) 15 0 + 1
/-- Bytes that a descriptor moves. -/
def Mover.total (m : Mover) : Nat := if m.op = 0 then 0 else m.xlen * m.ycnt * m.zcnt
/-- The operation reads a source; it writes a destination. -/
def Mover.hasSrc (m : Mover) : Bool := m.op == 1 || m.op == 3 || m.op == 4
def Mover.hasDst (m : Mover) : Bool := m.op == 1 || m.op == 2 || m.op == 3

/-- Byte address of tile offset `off`, from a base and two pitches. -/
def Mover.tileAddr (m : Mover) (base yp zp off : Nat) : Nat :=
  let row := off / m.xlen
  base + row / m.ycnt * zp + row % m.ycnt * yp + off % m.xlen

def Mover.srcAt (m : Mover) (off : Nat) : Nat :=
  m.tileAddr (bits (wordAt m.words 1) 56 0) (bits (wordAt m.words 4) 47 0) (bits (wordAt m.words 5) 47 0) off
def Mover.dstAt (m : Mover) (off : Nat) : Nat :=
  m.tileAddr (bits (wordAt m.words 2) 56 0) (bits (wordAt m.words 6) 47 0) (bits (wordAt m.words 7) 47 0) off

/-- Bytes of the segment at a tile offset (R96): within one row and one 4 KiB block of source and destination. SIGNAL is one STORE (R272). -/
def Mover.segLen (m : Mover) (off : Nat) : Nat :=
  let row := m.xlen - off % m.xlen
  if m.ni && m.op == 2 then row else
  let a := if m.hasSrc then min row (4096 - m.srcAt off % 4096) else row
  if m.hasDst then min a (4096 - m.dstAt off % 4096) else a

/-- FILL: destination byte at tile offset `t` is pattern byte `t mod 8` (R113). -/
def Mover.pattern (m : Mover) (off n : Nat) : List Byte :=
  (List.range n).map (fun i => (wordBytes (wordAt m.words 1)).getD ((off + i) % 8) 0)

/-! ### Movers of an EPB -/

/-- Mover `e` of EPB `n`: DMA engine 0 to 7, or triggered operation `e − 8`. -/
def State.mover (s : State) (n e : Nat) : Option Mover :=
  if e < 8 then tblFind (s.epbAt n).engines e else tblFind (s.epbAt n).niRun (e - 8)

/-- Replace mover `e`. -/
def State.setMover (s : State) (n e : Nat) (m : Mover) : State :=
  s.epbMod n (fun x => if e < 8 then { x with engines := tblPut x.engines e m } else { x with niRun := tblPut x.niRun (e - 8) m })

/-- Change mover `e`, if there is one. -/
def State.moverMod (s : State) (n e : Nat) (f : Mover → Mover) : State :=
  match s.mover n e with
  | some m => s.setMover n e (f m)
  | none => s

/-- Owner of a segment's request. -/
def segOwner (e num : Nat) (wr : Bool) : Owner := if e < 8 then .dma e num wr else .ni (e - 8) num wr

/-- Number of the pseudo-segment that reads the length word of LEN_IND (R273). -/
def lenNum : Nat := 2 ^ 40

/-- Ordering stream of a mover (R136). -/
def Mover.stream (m : Mover) : Nat × Nat := if m.ni then (2, m.index) else (1, m.ring * 2 ^ 32 + m.index)

/-- ORDER of its requests. -/
def Mover.ordered (m : Mover) : Bool := bit (wordAt m.words 0) 52

/-- The fabric type of a segment's request. -/
def Mover.segTyp (m : Mover) (wr : Bool) : Nat := if wr then (if m.op = 3 then Ty.reduceStore else Ty.store) else Ty.load

/-- The fabric request of a segment (R112, R113, R273). -/
def Mover.segReq (m : Mover) (e : Nat) (x : Seg) (wr : Bool) : Req :=
  let w := wordAt m.words 0
  let red := wr && m.op == 3
  { own := segOwner e x.num wr, typ := m.segTyp wr, vc := bits w 42 40, tc := bits w 51 49, flow := bits w 48 45, dclass := bits w 44 43,
    poison := wr && x.poison, order := m.ordered, ksel := if wr then x.dksel else x.sksel, fas := m.fas,
    fmt := if red then bits w 39 36 else 0, rop := if red then bits w 35 34 else 0,
    gfa := if wr then x.dgfa else x.sgfa, len := x.len - 1, role := m.role, payload := if wr then x.data else [],
    stream := m.stream, mcr := if wr then m.mcr else none, posted := wr && m.posted,
    fva := if wr then x.dva else x.sva }

/-- Submit a segment's request; an address that is no target, or an operand that R25 refuses, ends the segment instead. -/
def State.segSubmit (s : State) (n e : Nat) (m : Mover) (x : Seg) (wr : Bool) : State :=
  let r := m.segReq e x wr
  let fail := fun (cause status : Nat) =>
    s.moverMod n e (fun m => { segDone m x.num (fun y => { y with st := .failed cause status, wr := wr }) with stopped := true })
  if r.mcr.isNone && !isTarget (gfaE r.gfa) then fail 0x07 TStat.fault
  else if !operandOk r.typ (gfaOff r.gfa) r.len r.fmt r.rop r.vc r.payload.length then fail 0x08 TStat.badParam
  else s.submit n r

/-- Begin the write part of a loaded segment. -/
def State.segWrite (s : State) (n e num : Nat) : State :=
  match s.mover n e with
  | none => s
  | some m =>
    match m.segs.find? (fun x => x.num == num) with
    | none => s
    | some x =>
      let x' := { x with st := .storing, wr := true }
      (s.setMover n e (segDone m num (fun _ => x'))).segSubmit n e m x' true

/-- Segments that have been loaded and wait for their write part. -/
def Mover.loadedSegs (m : Mover) : List Nat := (m.segs.filter (fun x => x.st == .loaded && x.num != lenNum)).map (·.num)

/-- Retire the leading segments that completed OK: the mover, and the bytes they feed to a CRC channel, in tile order (R126). -/
def Mover.retireSegs (m : Mover) : List Seg → List Byte → Mover × List Byte
  | [], fed => ({ m with segs := [] }, fed)
  | x :: t, fed => if x.st = .ok then m.retireSegs t (fed ++ x.data) else ({ m with segs := x :: t }, fed)

/-- The length word of LEN_IND has arrived (R273): LEN, 0 for nothing to move, or a final fault. -/
def Mover.lenArrive (m : Mover) (x : Seg) : Mover :=
  let v := ofBytes x.data
  let m := { m with segs := [], lenAt := none }
  if v = 0 then { m with words := m.words.set 0 (setBits (wordAt m.words 0) 63 60 0) }
  else if 16777216 < v then { m with segs := [{ x with st := .failed 0x08 TStat.badParam }], stopped := true }
  else { m with words := m.words.set 3 (BitVec.ofNat 64 ((v - 1) * 2 ^ 32)) }

/-- Settle a mover: begin the write parts of loaded segments, take a length word, retire leading segments, feed the CRC channel. -/
def State.settle (s : State) (n e : Nat) : State :=
  match s.mover n e with
  | none => s
  | some m0 =>
    let s1 := State.each m0.loadedSegs (fun s k => s.segWrite n e k) s
    match s1.mover n e with
    | none => s1
    | some m =>
      match m.segs with
      | [x] =>
        if x.num = lenNum ∧ x.st = .loaded then s1.setMover n e (m.lenArrive x)
        else
          let (m', fed) := m.retireSegs m.segs []
          let s2 := s1.setMover n e m'
          match m.crc with
          | some c => if m.crcLost then s2 else s2.crcFeed c fed
          | none => s2
      | l =>
        let (m', fed) := m.retireSegs l []
        let s2 := s1.setMover n e m'
        match m.crc with
        | some c => if m.crcLost then s2 else s2.crcFeed c fed
        | none => s2

/-- Settle every mover of an EPB. -/
def State.pump (s : State) (u : Nat) : State :=
  if u < 64 then
    let e := s.epbAt u
    State.each (e.engines.map (·.1) ++ e.niRun.map (fun x => x.1 + 8)) (fun s k => s.settle u k) s
  else s

/-- Complete a tag, and go on with the movers of its unit. -/
def State.finishTag (s : State) (key : Nat) (d : Done) : State := (s.complete key d).pump (key / 4096)

/-! ### Issue of the next segment (R96, R98, R273) -/

/-- The lowest segment that has not completed. -/
def Mover.lowest (m : Mover) : Nat := (m.segs.head?.map (·.num)).getD m.nextSeg

/-- A segment that a resumption skips (R98). -/
def Mover.skips (m : Mover) (num : Nat) : Bool :=
  (m.reread && m.resumeSeg == num) || (decide (m.resumeSeg < num) && m.doneMask.testBit (num - m.resumeSeg - 1))

/-- A segment is outstanding: its completion is awaited. -/
def Seg.busy (x : Seg) : Bool := x.st == .loading || x.st == .loaded || x.st == .storing

/-- Add a segment at the mover's end; its translation takes a serial number (R78). -/
def State.addSeg (s : State) (n e : Nat) (x : Seg) (stop : Bool) : State :=
  ({ s with serial := s.serial + 1 }).moverMod n e (fun m => { m with
    segs := m.segs ++ [{ x with serial := s.serial }], nextSeg := m.nextSeg + 1, nextOff := m.nextOff + x.len, stopped := m.stopped || stop })

/-- The outcome of a failed translation of a segment's page. -/
def Seg.refuse (x : Seg) (wr : Bool) : Tr → Seg
  | .ok _ _ => x
  | .waits => x
  | .restart level detail => { x with st := .restart 0x01, wr := wr, level := level, detail := detail, gfaV := false }
  | .final cause status level detail =>
    { x with st := .failed cause status, wr := wr, level := level, detail := detail, gfaV := false }

/-- Issue a segment whose addresses are known. -/
def State.startSeg (s : State) (n e : Nat) (m : Mover) (x : Seg) : State :=
  if m.hasSrc then
    if x.skip && m.crc.isNone then s.addSeg n e { x with st := .ok } false
    else (s.addSeg n e { x with st := .loading } false).segSubmit n e m x false
  else
    let y := { x with data := m.pattern x.off x.len }
    if x.skip then s.addSeg n e { y with st := .ok } false
    else (s.addSeg n e { y with st := .storing, wr := true } false).segSubmit n e m { y with wr := true } true

/-- Read the length word of LEN_IND (R273). -/
def State.lenIssue (s : State) (n e : Nat) (m : Mover) (fva : Nat) (ext : List Word) : State :=
  let x : Seg := { num := lenNum, off := 0, len := 8, st := .loading, sva := fva }
  let put := fun (s : State) (y : Seg) (stop : Bool) =>
    s.moverMod n e (fun m => { m with segs := [y], stopped := m.stopped || stop })
  if fva % 8 ≠ 0 then put s { x with st := .failed 0x08 TStat.badParam, gfaV := false } true
  else
    match s.bulk n n m.fas fva ext with
    | (.ok gfa ksel, s1) =>
      let y := { x with sgfa := gfa, sksel := ksel }
      (put s1 y false).segSubmit n e m y false
    | (.waits, s1) => s1
    | (t, s1) => put s1 (x.refuse false t) true

/-- Translate and issue the next segment of mover `e` of EPB `n`; `xs` and `xd` are the words that the walks' reads of host memory
returned. With ORDER = 1 a segment waits for the previous one (R137); a segment that a resumption skips is not translated, unless the CRC needs its
source again (R98, R126). -/
def State.segmentIssue (s : State) (n e : Nat) (xs xd : List Word) : State :=
  match s.mover n e with
  | none => s
  | some m =>
    if m.stopped || m.failed.isSome then s
    else
      match m.lenAt with
      | some fva => if m.segs.isEmpty then s.lenIssue n e m fva xs else s
      | none =>
        if m.total ≤ m.nextOff ∨ m.lowest + 32 ≤ m.nextSeg ∨ (m.ordered && m.segs.any (·.busy)) = true then s
        else if m.skips m.nextSeg && m.crc.isNone then
          s.addSeg n e { num := m.nextSeg, off := m.nextOff, len := m.segLen m.nextOff, st := .ok, skip := true } false
        else
          let x : Seg := { num := m.nextSeg, off := m.nextOff, len := m.segLen m.nextOff, st := .loading, skip := m.skips m.nextSeg,
                           sva := m.srcAt m.nextOff, dva := m.dstAt m.nextOff }
          let (ts, s1) := if m.hasSrc then s.bulk n n m.fas x.sva xs else (.ok 0 0, s)
          match ts with
          | .ok sg sk =>
            let y := { x with sgfa := sg, sksel := sk }
            match m.mcr with
            | some _ => s1.startSeg n e m { y with dgfa := x.dva % 2 ^ 45, dksel := sk }
            | none =>
              if m.hasDst && !x.skip then
                match s1.bulk n n m.fas x.dva xd with
                | (.ok dg dk, s2) => s2.startSeg n e m { y with dgfa := dg, dksel := dk }
                | (.waits, s2) => s2
                | (t, s2) => s2.addSeg n e (y.refuse true t) true
              else s1.startSeg n e m y
          | .waits => s1
          | t => s1.addSeg n e (x.refuse false t) true

/-! ### How a mover's run stands -/

/-- A segment met a final fault; a restartable one. -/
def Seg.isFailed (x : Seg) : Bool := match x.st with | .failed _ _ => true | _ => false
def Seg.isRestart (x : Seg) : Bool := match x.st with | .restart _ => true | _ => false

/-- No segment is outstanding. -/
def Mover.quiet (m : Mover) : Bool := !m.segs.any (·.busy)
/-- The mover has moved everything. -/
def Mover.allDone (m : Mover) : Bool := m.segs.isEmpty && !m.stopped && m.lenAt.isNone && decide (m.total ≤ m.nextOff)
/-- The mover is to park (R97). -/
def Mover.toPark (m : Mover) : Bool := m.failed.isNone && m.quiet && !m.segs.any (·.isFailed) && m.segs.any (·.isRestart)
/-- The mover is to end with a final fault. -/
def Mover.toFail (m : Mover) : Bool := m.failed.isSome || (m.quiet && m.segs.any (·.isFailed))

/-- Context word of a mover's fault record (R90). -/
def Mover.context (m : Mover) (e : Nat) : Nat := if m.ni then m.index * 2 ^ 48 else m.ring * 2 ^ 58 + e * 2 ^ 55 + m.index % 2 ^ 32

/-- The fault record of a segment (R90, R97). -/
def Mover.segFault (m : Mover) (e : Nat) (x : Seg) (cause status count : Nat) (parked : Bool) (resumeOff mask : Nat) : FaultRec :=
  { cause := cause, status := status, actor := if m.ni then 2 else 1, parked := parked, fva := some (if x.wr then x.dva else x.sva),
    gfa := if x.gfaV then some (if x.wr then x.dgfa else x.sgfa) else none, typ := m.segTyp x.wr, level := x.level, fas := m.fas,
    count := count, context := m.context e, resumeOff := resumeOff, doneMask := mask, detail := x.detail }

/-- DONE_MASK over the segments after the resumption segment (R97). -/
def doneMaskOf (resume : Nat) (l : List Seg) : Nat :=
  l.foldl (fun a x => if x.st = .ok ∧ resume < x.num then a ||| 2 ^ (x.num - resume - 1) else a) 0

/-- CAUSE and STATUS of a segment's final fault. -/
def Seg.failure (x : Seg) : Option (Nat × Nat) := match x.st with | .failed cause status => some (cause, status) | _ => none

/-- Write the final-fault record of a mover (R97): the status its work completes with, its record, and the state. The record is that of the lowest
failing segment whose completion R43 did not count in place of recording it. -/
def State.moverFault (s : State) (n e : Nat) (m : Mover) : Nat × Nat × State :=
  match m.failed with
  | some st => (st, m.record, s)
  | none =>
    match m.segs.find? (·.isFailed) with
    | none => (TStat.fault, m.record, s)
    | some x =>
      let status := (x.failure.getD (0x0E, TStat.fault)).2
      match m.segs.find? (fun y => y.isFailed && !y.quiet) with
      | none => (status, m.record, s)
      | some y =>
        let (cause, st) := y.failure.getD (0x0E, TStat.fault)
        let (id, s1) := s.faultRec n (m.segFault e y cause st (m.segs.filter (·.isFailed)).length false 0 0)
        (status, id, s1)

/-- DONE_MASK of a mover that parks at segment `x` (R97): the segments after it that completed OK, in this run or before an earlier park. -/
def Mover.parkMask (m : Mover) (x : Seg) : Nat :=
  if x.num = lenNum then 0 else doneMaskOf x.num m.segs ||| m.doneMask >>> (x.num - m.resumeSeg)

/-- Park a mover: its park entry, its record with PARKED = 1, and the state (R97). -/
def State.moverPark (s : State) (n e : Nat) (m : Mover) : Park × State :=
  match m.segs with
  | [] => ({ mover := m, resumeSeg := m.nextSeg, resumeOff := m.nextOff, doneMask := 0 }, s)
  | x :: _ =>
    let cause := match x.st with | .restart c => c | _ => 0x01
    let mask := m.parkMask x
    let seg := if x.num = lenNum then 0 else x.num
    let (id, s1) := s.faultRec n (m.segFault e x cause TStat.fault (m.segs.filter (·.isRestart)).length true x.off mask)
    ({ mover := { m with segs := [], stopped := false, record := id }, resumeSeg := seg, resumeOff := x.off, doneMask := mask,
       reread := x.skip }, s1)

/-- The mover that a released park entry starts (R98). -/
def Park.restart (p : Park) : Mover :=
  { p.mover with nextSeg := p.resumeSeg, nextOff := p.resumeOff, resumeSeg := p.resumeSeg, doneMask := p.doneMask, reread := p.reread, segs := [],
                 stopped := false }

end Sys2Proof.Machine
end

