-- ==== Sys2Proof/Machine/Switch.lean ====
section
/-! DEFINITION. The switch core (08, 09): cells and limits, hop consumption and multicast, marking, queues, weighted fair queueing and
strict priority, hold lists, freed packets, mirroring, Coppice copies. -/

namespace Sys2Proof.Machine
open Sys2Proof

/-! ### Cells and limits (R173 to R177) -/

/-- The Hub die that carries an attachment (R173). -/
def dieOf (a : Nat) : Nat :=
  if a < 32 ∨ (64 ≤ a ∧ a < 80) ∨ (96 ≤ a ∧ a < 104) ∨ (112 ≤ a ∧ a < 116) ∨ a = 120 ∨ a = 122 ∨ a = 124 then 0 else 1

/-- The attachments of a Hub die that have an ingress. -/
def dieAttachments (d : Nat) : List Nat := (List.range 126).filter (fun a => a != 123 && dieOf a == d)

/-- Shared cells of a die that are free (R175); a mirror burst under way holds one of HD1 (R194). -/
def State.sharedFree (s : State) (d : Nat) : Nat :=
  393216 - ((dieAttachments d).map (fun a => ((List.range 8).map (fun v =>
    max (s.fget Fld.hubInlim_RES a v) (s.fget Fld.hubInlim_OCC a v))).sum)).sum - (if d = 1 then s.sw.bursts.length else 0)

/-- The buffer/crossbar core of a Hub die is held in reset, alone or with its die. -/
def State.coreOff (s : State) (d : Nat) : Bool := s.coreHeld d || s.hubDieHeld d

/-- Pair (a, v) can admit `n` cells (R175). -/
def State.admits (s : State) (a v n : Nat) : Bool :=
  let occ := s.fget Fld.hubInlim_OCC a v
  let res := s.fget Fld.hubInlim_RES a v
  !s.coreOff (dieOf a) && decide (occ + n ≤ s.fget Fld.hubInlim_LIM a v) && (decide (occ + n ≤ res) || decide (occ + n - max occ res ≤ s.sharedFree (dieOf a)))

/-- Count `n` more cells at an ingress pair, and in its die's USED and PEAK. -/
def State.cellsIn (s : State) (a v n : Nat) : State :=
  let d := dieOf a
  let used := s.fget Fld.hubBufstat_USED d + n
  let s1 := (s.fset Fld.hubInlim_OCC a v (s.fget Fld.hubInlim_OCC a v + n)).fset Fld.hubBufstat_USED d 0 used
  s1.fset Fld.hubBufstat_PEAK d 0 (max used (s.fget Fld.hubBufstat_PEAK d))

/-- One more cell of HD1 is in use, of a mirror burst. -/
def State.mirrorCell (s : State) : State :=
  let used := s.fget Fld.hubBufstat_USED 1 + 1
  (s.fset Fld.hubBufstat_USED 1 0 used).fset Fld.hubBufstat_PEAK 1 0 (max used (s.fget Fld.hubBufstat_PEAK 1))

/-- Free the cells of a stored packet. -/
def State.cellsFree (s : State) (x : Stored) : State :=
  (s.fdec Fld.hubInlim_OCC x.port x.chan x.cells).fdec Fld.hubBufstat_USED (dieOf x.port) 0 x.cells

/-- One copy of a stored packet has left or been freed: REF decreases, and the cells are freed at 0, once (R181). -/
def State.unref (s : State) (id : Nat) : State :=
  match tblFind s.sw.pkts id with
  | none => s
  | some x =>
    if x.refs ≤ 1 then ({ s with sw := { s.sw with pkts := tblDel s.sw.pkts id } }).cellsFree x
    else { s with sw := { s.sw with pkts := tblPut s.sw.pkts id { x with refs := x.refs - 1 } } }

/-! ### Mirroring (R189 to R191) -/

/-- A mirror record (R190). -/
def mirrorRecord (time port point lvc die free mseq ref cells qdepth : Nat) (hdr : List Word) (peer pfib wait : Nat) : List Word :=
  [BitVec.ofNat 64 time,
   BitVec.ofNat 64 (port * 2 ^ 57 + point * 2 ^ 55 + lvc * 2 ^ 52 + die * 2 ^ 51 + free * 2 ^ 48 + mseq * 2 ^ 32 + ref * 2 ^ 26
     + cells * 2 ^ 21 + qdepth % 2 ^ 21)] ++ hdr ++ [BitVec.ofNat 64 (peer * 2 ^ 57 + pfib * 2 ^ 55 + wait % 2 ^ 32), 0]

/-- A packet passes sampling point `eg` of a port: every (NM1 + 1)-th makes a record, which enters its die's FIFO or is lost. -/
def State.mirror (s : State) (port eg die : Nat) (mk : Nat → List Word) : State :=
  if port ≥ 123 ∨ s.fget (if eg = 1 then Fld.hubMirsamp_EG_EN else Fld.hubMirsamp_IN_EN) port = 0 then s
  else
    let k := 2 * port + eg
    let c := tblGet 0 s.sw.mirCount k
    let s1 : State := { s with sw := { s.sw with mirCount := tblPut s.sw.mirCount k ((c + 1) % (s.fget Fld.hubMirsamp_NM1 port + 1)) } }
    if c ≠ 0 then s1
    else
      let seq := tblGet 0 s.sw.mirSeq k
      let q := tblGet [] s.sw.fifos die
      let s2 : State := { s1 with sw := { s1.sw with mirSeq := tblPut s1.sw.mirSeq k ((seq + 1) % 65536) } }
      if q.length < 4096 then { s2 with sw := { s2.sw with fifos := tblPut s2.sw.fifos die (q ++ [mk seq]) } }
      else s2.fsat Fld.hubMirringLost_LOST 0 0 1

/-- The record of a copy read out or freed at an egress. QDEPTH counts what the queue holds once the packet has left it (DESIGN CHOICE: R190 does
not say whether the packet is counted; log entry 53). -/
def State.mirrorEgress (s : State) (c : Copy) (free : Nat) : State :=
  match tblFind s.sw.pkts c.id with
  | none => s
  | some x =>
    let hdr := headerWords (if free = 0 then c.pkt else x.pkt)
    s.mirror c.port 1 (dieOf x.port) (fun seq => mirrorRecord s.time c.port (if free = 0 then 1 else 2) c.chan (dieOf x.port) free seq
      (if x.mc then (if free = 0 then x.refs else x.refs - 1) else 0) x.cells (s.fget Fld.hubEglim_OCC c.port c.pkt.tc) hdr x.port x.fib
      (if free = 0 then s.now - x.at_ else 0))

/-! ### Hop consumption (R21, R157 to R162) -/

/-- Copies that a fabric line makes: one per enabled entry of a fan-out table whose destination is allowed (R160). -/
def State.fanout (s : State) (row : Bool) (q : Packet) : List (Nat × Nat × Packet) :=
  let x := s.fget Fld.hubCoord_X
  let y := s.fget Fld.hubCoord_Y
  if row then
    ((List.range 16).filter (fun i => i != x && s.fget Fld.hubMcrow_EN i == 1 && s.fget Fld.hubRtW0_ALLOW (16 * y + i) == 1)).map
      (fun i => (s.fget Fld.hubMcrow_PORT i, s.fget Fld.hubMcrow_FIBRE i, q))
  else
    ((List.range 16).filter (fun i => i != y && s.fget Fld.hubMccol_EN i == 1 && s.fget Fld.hubRtW0_ALLOW (16 * i + x) == 1)).map
      (fun i => (s.fget Fld.hubMccol_PORT i, s.fget Fld.hubMccol_FIBRE i, q))

/-- A copy of a multicast packet to an attach port (R162). -/
def State.toAttach (s : State) (q : Packet) (port : Nat) : Nat × Nat × Packet := (port, 0, { q with addr := s.localGfa port (gfaOff q.addr) })

/-- Consume the hop at HOPIDX, and the further hops of copies that stay (R21, R160, R161): egress port, fibre and packet of each copy. A
packet with no hop left, or a reserved line code, makes none. -/
def State.consume (s : State) (ingress : Nat) : Nat → Packet → List (Nat × Nat × Packet)
  | 0, _ => []
  | fuel + 1, p0 =>
    let p := skipNull 6 p0
    if p.hopcnt ≤ p.hopidx then []
    else
      let h := hopAt p.route p.hopidx
      let q := { consumeHop p ingress with posted := p.posted || hasMulticast p }
      let c := hopPort h
      if !hopMc h then [(c, if 64 ≤ c ∧ c < 96 then hopFibre h else 0, q)]
      else if c < 8 then (List.range 8).map (fun i => s.toAttach q (8 * c + i))
      else if c < 16 then (List.range 8).map (fun i => s.toAttach q (c - 8 + 8 * i))
      else if c = 16 then s.fanout true q
      else if c = 17 then s.fanout true q ++ s.consume nullHop fuel q
      else if c = 18 then s.fanout false q
      else if c = 19 then s.fanout false q ++ s.consume nullHop fuel q
      else []

/-- Link channel of a packet at an egress (R157, R196): `ingroup` is the optical group it entered through, if any, and `chan` the channel. -/
def outChan (ingroup : Option Nat) (chan egress : Nat) (p : Packet) : Nat :=
  if egress < 64 ∨ 96 ≤ egress then p.vc
  else
    match ingroup with
    | none => p.vc
    | some g =>
      if chan = 7 then 7
      else if isRspTy p.typ then (if g < 80 ∧ 80 ≤ egress then 7 else p.vc)
      else if 80 ≤ g ∧ egress < 80 then 7 else p.vc

/-! ### Ingress (R48, R175, R525, R526) -/

/-- The fence epochs that this GX3200 accepts (R48). -/
def State.fenceOk (s : State) (f : Nat) : Bool :=
  let st := s.fget Fld.hubFence_STAMP
  f == st || (s.fget Fld.hubFence_NEXT_OK == 1 && f == (st + 1) % 65536) || (s.fget Fld.hubFence_PREV_OK == 1 && f == (st + 65535) % 65536)

/-- The cells of a packet are written: they are counted, its hop is consumed, and its copies wait to be enqueued; a packet without a copy
is freed at once. The ingress record of a multicast packet names the egress of its first copy, and 0 where it has none (DESIGN CHOICE: R190 does not
say which; log entry 53). -/
def State.writePacket (s : State) (a chan fib : Nat) (optical : Bool) (p : Packet) : State :=
  let n := cellsOf p.payload.length
  let id := s.sw.nextId
  let ways := s.consume (mkHop a fib 0) 3 p
  let group := if optical then some a else none
  let mc := hasMulticast p
  let copies := ways.map (fun w => ({ id := id, port := w.1, fib := w.2.1, chan := outChan group chan w.1 w.2.2, pkt := w.2.2, mc := mc,
                                      hop := w.2.2.hopidx } : Copy))
  let link := s.fget Fld.hubCoppiceCtrl_LINK
  let shadowed := fun (c : Copy) => s.fget Fld.hubCoppiceCtrl_MODE == 1 && !isRspTy p.typ && decide (96 ≤ c.port) && decide (c.port < 112)
    && (s.fget Fld.hubCoppiceCtrl_CMASK).testBit (c.port - 96) && !(optical && a == 64 + link / 4 && fib == link % 4)
  let want := copies.filter shadowed
  let room := decide (s.fget Fld.hubEglim_OCC (64 + link / 4) p.tc < s.fget Fld.hubCoppiceLim_COP_LIM)
  let extra := if room then want.map (fun c => { c with
      port := 64 + link / 4, fib := link % 4, chan := outChan group chan (64 + link / 4) p, mc := true,
      pkt := { p with route := mkHop c.port 0 0, hopcnt := 1, hopidx := 0 } }) else []
  let all := copies ++ extra
  let s1 := (s.cellsIn a chan n).fwrap Fld.telPortW0_IN_CELLS a 0 n
  let s2 := if room then s1.fsat Fld.hubCoppiceCnt_COPIES 0 0 want.length else s1.fsat Fld.hubCoppiceLoss_DROPPED 0 0 want.length
  let s3 := { s2 with sw := { s2.sw with
    nextId := id + 1
    pkts := tblPut s2.sw.pkts id { pkt := p, port := a, fib := if optical then fib else 0, chan := chan, cells := n, refs := max 1 all.length,
                                   mc := mc || !extra.isEmpty, at_ := s.now }
    waiting := s2.sw.waiting ++ all } }
  let e := match copies with | c :: _ => (c.port, c.fib, c.pkt.tc) | [] => (0, 0, 0)
  let s4 := s3.mirror a 0 (dieOf a) (fun seq => mirrorRecord s.time a 0 chan (dieOf a) 0 seq (if mc || !extra.isEmpty then all.length else 0) n
    (s.fget Fld.hubEglim_OCC e.1 e.2.2) (headerWords p) e.1 e.2.1 0)
  if all.isEmpty then s4.unref id else s4

/-- A posted STORE of this GX3200 retires its tag, of the packet's own generation, when its last cell is accepted (R32, R140). -/
def State.retirePosted (s : State) (u : Nat) (p : Packet) : State :=
  let key := tagKey u (p.tag % 4096)
  match tblFind s.tags key with
  | some t =>
    if t.posted && p.posted && p.typ == t.hdr.typ && tblGet 0 s.gens key == p.tag / 4096 then s.finishTag key { status := TStat.ok } else s
  | none => s

/-- A request enters through the Coppice link of a shadow (R526). -/
def State.shadowIngress (s : State) (a chan fib : Nat) (p : Packet) : State :=
  let e := hopPort (hopAt p.route p.hopidx)
  if 96 ≤ e ∧ e < 112 ∧ (s.fget Fld.hubCoppiceCtrl_CMASK).testBit (e - 96) = true then
    (s.fsat Fld.hubCoppiceCnt_COPIES 0 0 1).writePacket a chan fib true { p with addr := s.localGfa e (gfaOff p.addr), mute := true }
  else s.fsat Fld.hubCoppiceLoss_STRAY 0 0 1

/-- A packet of an optical link is written, after the fence check (R42 step 1, R48, R533). -/
def State.ingressOptical (s : State) (a chan fib : Nat) (p : Packet) : State :=
  let link := s.fget Fld.hubCoppiceCtrl_LINK
  let shadow := s.fget Fld.hubCoppiceCtrl_MODE == 2 && a == 64 + link / 4 && fib == link % 4 && !isRspTy p.typ
  if !isRspTy p.typ && !s.fenceOk p.fence then
    (if shadow then s else s.inject a (s.switchNack (consumeHop p (mkHop a fib 0)) a TStat.fenced))
  else if shadow then s.shadowIngress a chan fib p
  else s.writePacket a chan fib true p

/-- A register write of this cycle that still waits covers limit registers: it comes before the arrival of a cell (R188). -/
def writesLimits : Instr → Bool
  | .regWrite c =>
    let a := ofBytes ((c.params.drop 4).take 4)
    decide (a < 0x206000) && decide (0x204000 < a + c.plen)
  | .registerWrite _ a _ _ => decide (0x204000 ≤ a) && decide (a < 0x206000)
  | _ => false

/-- COPPICE_CTRL OFF at a source: it comes before a copy made in its cycle (R529). -/
def endsCopies : Instr → Bool
  | .coppiceCtrlOff _ => true
  | _ => false

/-- The oldest packet of a channel at an ingress is written (R175): list `k` is that of logical port `k`, or of a channel of an optical link.
A cell that an attach or internal ingress cannot admit stays at its source. -/
def State.ingress (s : State) (k v : Nat) : State :=
  let q := tblGet [] s.inq k
  if s.soon writesLimits || (s.fget Fld.hubCoppiceCtrl_MODE == 1 && s.soon endsCopies) then s
  else if k < 128 then
    match q.findIdx? (fun p => p.vc == v) with
    | none => s
    | some i =>
      match q[i]? with
      | none => s
      | some p =>
        if s.admits k v (cellsOf p.payload.length) then
          (({ s with inq := tblPut s.inq k (q.eraseIdx i) }).writePacket k v 0 false p).retirePosted k p
        else s
  else
    match q with
    | [] => s
    | p :: t => ({ s with inq := tblPut s.inq k t }).ingressOptical (64 + (k - 128) / 32) ((k - 128) % 8) ((k - 128) / 8 % 4) p

def execPacketIngress (k v : Nat) (s : State) : Res := .next (s.ingress k v)

/-! ### Queues and virtual time (R196 to R200) -/

/-- Queue number of a copy. -/
def Copy.queue (c : Copy) : Nat := 128 * c.port + 16 * c.pkt.tc + c.pkt.flow
/-- Subqueue key. -/
def subKey (q v : Nat) : Nat := 8 * q + v
/-- Cells of a copy. -/
def Copy.cells (c : Copy) : Nat := cellsOf c.pkt.payload.length
/-- The egress is in strict priority. -/
def State.strict (s : State) (p : Nat) : Bool := if p < 64 then bit (s.rd .hubSchedMode0) p else bit (s.rd .hubSchedMode1) (p - 64)
/-- Weight of a link channel at an egress. -/
def State.vcw (s : State) (p v : Nat) : Nat := bits (s.rd .hubVcw p) (8 * v + 7) (8 * v)
/-- TOTAL of an egress: the sum of φ over its 1,024 subqueues. -/
def State.totalWeight (s : State) (p : Nat) : Nat :=
  ((List.range 128).map (fun i => s.fget Fld.hubQW0_QW (128 * p + i))).sum * ((List.range 8).map (fun v => s.vcw p v)).sum
/-- Cost factor K of a subqueue, from its key. -/
def State.costK (s : State) (k : Nat) : Nat :=
  let p := k / 1024
  let phi := s.fget Fld.hubQW0_QW (k / 8) * s.vcw p (k % 8)
  (65536 * s.totalWeight p + phi - 1) / phi

/-- `a ≤ b` of 64-bit virtual times (R198). -/
def vtLe (a b : Nat) : Bool := decide ((b + 2 ^ 64 - a) % 2 ^ 64 < 2 ^ 63)

def State.subAt (s : State) (k : Nat) : SubQ := tblGet {} s.sw.subq k
/-- Store a subqueue; an empty one is forgotten. -/
def State.subSet (s : State) (k : Nat) (u : SubQ) : State :=
  { s with sw := { s.sw with subq := if u.copies.isEmpty then tblDel s.sw.subq k else tblPut s.sw.subq k u } }
def State.vtime (s : State) (p : Nat) : Nat := tblGet 0 s.sw.vt p

/-- Tags of a subqueue that wakes, or whose head changed: F from S and the head. -/
def State.tagF (s : State) (k : Nat) (u : SubQ) : SubQ :=
  match u.copies with
  | [] => u
  | c :: _ => { u with f := (u.s + c.cells * s.costK k) % 2 ^ 64 }

/-- Add to the counts of a copy's queue and egress. -/
def State.queueCells (s : State) (c : Copy) (add : Bool) : State :=
  let q := c.queue
  if add then s.fset Fld.hubQW1_CELLS q 0 (s.fget Fld.hubQW1_CELLS q + c.cells) else s.fdec Fld.hubQW1_CELLS q 0 c.cells
def State.egressCells (s : State) (c : Copy) (add : Bool) : State :=
  if add then s.fset Fld.hubEglim_OCC c.port c.pkt.tc (s.fget Fld.hubEglim_OCC c.port c.pkt.tc + c.cells)
  else s.fdec Fld.hubEglim_OCC c.port c.pkt.tc c.cells

/-- A copy joins its subqueue; an empty one wakes at V (R199); in strict priority the tags are frozen (R201). -/
def State.joinQueue (s : State) (c : Copy) : State :=
  let k := subKey c.queue c.chan
  let u := s.subAt k
  let u1 := { u with copies := u.copies ++ [c] }
  let u2 := if u.copies.isEmpty && !s.strict c.port then s.tagF k { u1 with s := s.vtime c.port } else u1
  ((s.subSet k u2).queueCells c true).egressCells c true

/-! ### Hold lists and freed packets (R183 to R187) -/

/-- STATE codes of an optical egress link. -/
def Hub.up : Nat := 0
def Hub.hold : Nat := 1
def Hub.down : Nat := 2

def State.holdList (s : State) (l : Nat) : List Copy := tblGet [] s.sw.hold l
/-- Cells of a list of copies. -/
def copiesCells (l : List Copy) : Nat := (l.map (·.cells)).sum
/-- Set a hold list, and HELD, which counts its cells. -/
def State.setHold (s : State) (l : Nat) (cs : List Copy) : State :=
  ({ s with sw := { s.sw with hold := if cs.isEmpty then tblDel s.sw.hold l else tblPut s.sw.hold l cs } }).fset Fld.hubLink_HELD l 0 (copiesCells cs)

/-- Optical link of a copy at an optical egress. -/
def Copy.link (c : Copy) : Nat := 4 * (c.port - 64) + c.fib

/-- Free a copy (R187): multicast copies answer nobody, responses are discarded, a request is answered by this GX3200. -/
def State.freeCopy (s : State) (c : Copy) (cause status : Nat) : State :=
  let s1 := (s.mirrorEgress c cause).unref c.id
  if c.mc then s1.fsat Fld.hubFreeMc_MC 0 0 1
  else if isRspTy c.pkt.typ then s1.fsat Fld.hubFreeRsp_RSP 0 0 1
  else (s1.fsat Fld.hubFreeReq_REQ 0 0 1).inject c.port (s1.switchNack c.pkt c.port status)

/-- Free every copy of a hold list with PORT_DOWN, and write HOLD_END (R183, R187); `admin` is 1 for ADMIN and 0 for the deadline. -/
def State.freeHold (s : State) (l admin : Nat) : State :=
  let cs := s.holdList l
  let mc := (cs.filter (·.mc)).length
  let rsp := (cs.filter (fun c => !c.mc && isRspTy c.pkt.typ)).length
  let s1 := State.each cs (fun s c => (s.egressCells c false).freeCopy c (if admin = 1 then 4 else 1) TStat.portDown) (s.setHold l [])
  s1.errRec 3 0x04 3 l [cs.length - mc - rsp, rsp, mc, admin]

/-- Packets queued for a link leave their subqueues, in queue order, for its hold list (R183, R199); of one queue those of the lower link channel
go first (DESIGN CHOICE: R196 leaves subqueues unordered; log entry 53). -/
def State.toHold (s : State) (l : Nat) : State :=
  let port := 64 + l / 4
  let fib := l % 4
  let mine := s.sw.subq.filter (fun e => e.1 / 1024 == port)
  let moved := mine.flatMap (fun e => e.2.copies.filter (fun c => c.fib == fib))
  let s1 := State.each mine (fun s e =>
    let left := e.2.copies.filter (fun c => c.fib != fib)
    let u := { e.2 with copies := left }
    let headLeft := (e.2.copies.head?.map (·.fib)) == some fib
    s.subSet e.1 (if headLeft && !s.strict port then s.tagF e.1 u else u)) s
  (State.each moved (fun s c => s.queueCells c false) s1).setHold l (s.holdList l ++ moved)

/-- HUB_DEST_DOWN of a destination (R168). -/
def State.destDown (s : State) (d : Nat) : Bool :=
  let own := 16 * s.fget Fld.hubCoord_Y + s.fget Fld.hubCoord_X
  let alts := (List.range (s.fget Fld.hubRtW0_NALT d + 1)).filter (fun a => bit (s.rtWord d a) 63)
  d != own && s.fget Fld.hubRtW0_ALLOW d == 1 && !alts.isEmpty
    && alts.all (fun a =>
      let h := hopAt (bits (s.rtWord d a) 39 0) 0
      decide (64 ≤ hopPort h) && decide (hopPort h < 96) && s.fget Fld.hubLink_STATE (4 * (hopPort h - 64) + hopFibre h) == Hub.down)

/-- Bring HUB_DEST_DOWN up to date; every bit that changes posts DEST_DOWN (R168, R414). -/
def State.destDownUpdate (s : State) : State :=
  State.each ((List.range 256).filter (fun d => s.destDown d != bit (s.rd .hubDestDown (d / 64)) (d % 64))) (fun s d =>
    let v := s.destDown d
    (s.setBit .hubDestDown (d / 64) 0 (d % 64) v).event 0x0F11 (toBytes 8 (d + 256 * b2n v))) s

/-- Set the state of an optical egress link. -/
def State.hubSet (s : State) (l st : Nat) : State := (s.fset Fld.hubLink_STATE l 0 st).destDownUpdate

/-- HOLD_EFF in cycles (R184). -/
def State.holdEff (s : State) : Nat := us (s.fget Fld.hubHold_HOLD_EFF)

/-- HOLD_EFF from HOLD_TIME and the lowest DEAD_BOUND (R184). -/
def State.holdEffUpdate (s : State) : State :=
  let d := (List.range 64).foldl (fun a n => min a (s.fget Fld.epbTxnCtrl_DEAD_BOUND n)) 1024
  s.fset Fld.hubHold_HOLD_EFF 0 0 (min (s.fget Fld.hubHold_HOLD_TIME) (d / 2))

/-- The optical egress link fails in UP (R183, R184): its packets are held, and its deadline is set; past it the link is DOWN at once. -/
def State.hubFail (s : State) (l : Nat) : State :=
  if s.fget Fld.hubLink_STATE l ≠ Hub.up then s
  else
    let t := tblGet ({} : HoldTime) s.sw.holdT l
    let full := match t.start with
      | some a => decide (s.now < a + s.holdEff)
      | none => false
    let start := if full then t.start.getD 0 else s.now
    let t1 : HoldTime := { start := some start, deadline := start + s.holdEff, since := s.now }
    let s1 := ({ s with sw := { s.sw with holdT := tblPut s.sw.holdT l t1 } }).toHold l
    if t1.deadline ≤ s.now then (s1.freeHold l 0).hubSet l Hub.down else s1.hubSet l Hub.hold

/-- The hold deadline of a link in HOLD has come (R183). -/
def State.holdOver (s : State) (l : Nat) : Bool :=
  s.fget Fld.hubLink_STATE l == Hub.hold && decide ((tblGet ({} : HoldTime) s.sw.holdT l).deadline ≤ s.now)

/-- Its packets are freed, and the link is DOWN. -/
def State.holdExpire (s : State) (l : Nat) : State :=
  if s.holdOver l then ((s.freeHold l 0).lkMod (64 + l) (Lnk.discard true)).hubSet l Hub.down else s

/-- The end of a link's INIT still waits in this cycle: it comes before the hold deadline (R188). -/
def retrains (l : Nat) : Instr → Bool
  | .linkUp n _ _ => n == 64 + l
  | _ => false

/-- The hold deadline is reached (R183). -/
def State.holdDeadline (s : State) (l : Nat) : State := if s.soon (retrains l) then s else s.holdExpire l

def execHoldDeadline (l : Nat) (s : State) : Res := .next (s.holdDeadline l)

/-! ### Enqueue (R164, R176, R186) -/

/-- The congestion level of a request at its egress (R164); MARK1 = 0 turns marking off. -/
def State.markOf (s : State) (c : Copy) : Nat :=
  let n := s.fget Fld.hubEglim_OCC c.port c.pkt.tc
  let m1 := s.fget Fld.hubCmark_MARK1
  if m1 = 0 then 0 else if s.fget Fld.hubCmark_MARK2 ≤ n then 2 else if m1 ≤ n then 1 else 0

/-- A copy reaches its egress: it is marked, and joins its queue, the hold list of its link, or is freed; a hold deadline of the same cycle comes
first (R188). -/
def State.enqueue (s0 : State) (c0 : Copy) : State :=
  let s := if 64 ≤ c0.port ∧ c0.port < 96 then s0.holdExpire c0.link else s0
  let c := if isRspTy c0.pkt.typ then c0 else { c0 with pkt := { c0.pkt with cmark := max c0.pkt.cmark (s.markOf c0) } }
  if 64 ≤ c.port ∧ c.port < 96 then
    let l := c.link
    let st := s.fget Fld.hubLink_STATE l
    if st = Hub.up then s.joinQueue c
    else if st = Hub.hold then
      if s.fget Fld.hubHold_HOLD_LIM * 256 ≤ s.fget Fld.hubLink_HELD l then s.freeCopy c 3 TStat.portDown
      else (s.egressCells c true).setHold l (s.holdList l ++ [c])
    else s.freeCopy c 2 TStat.unreachable
  else s.joinQueue c

/-- Two waiting copies came from one ingress pair, and are of different packets. -/
def State.samePair (s : State) (a b : Copy) : Bool :=
  a.id != b.id && (match tblFind s.sw.pkts a.id, tblFind s.sw.pkts b.id with
    | some x, some y => x.port == y.port && x.chan == y.chan
    | _, _ => false)

/-- Waiting copy `i` is enqueued in the order of its ingress pair, once the egress count lies below LIM_EG (R176) and the egress is out of reset. -/
def State.packetEnqueue (s : State) (i : Nat) : State :=
  match s.sw.waiting[i]? with
  | none => s
  | some c =>
    if s.coreOff (dieOf c.port) || (s.sw.waiting.take i).any (fun x => s.samePair x c) then s
    else if s.fget Fld.hubEglim_LIM_EG c.port c.pkt.tc ≤ s.fget Fld.hubEglim_OCC c.port c.pkt.tc then s
    else ({ s with sw := { s.sw with waiting := s.sw.waiting.eraseIdx i } }).enqueue c

def execPacketEnqueue (i : Nat) (s : State) : Res := .next (s.packetEnqueue i)

/-! ### Shapers and QUEUE_SET (R204 to R206) -/

/-- Tokens of a queue now, in units of 1/16 byte; a queue that is not shaped holds the cap. -/
def State.shTokens (s : State) (q : Nat) : Int :=
  let cap : Int := (256 * 16 * s.fget Fld.hubQW0_SH_BURST q : Nat)
  match tblFind s.sw.tokens q with
  | none => cap
  | some (t, at_) => if s.fget Fld.hubQW0_SH_EN q = 1 then min cap (t + (s.fget Fld.hubQW0_SH_RATE q * (s.now - at_) : Nat)) else cap

/-- Set the tokens of a queue, and TOKENS, which shows them in bytes. -/
def State.shSet (s : State) (q : Nat) (t : Int) : State :=
  ({ s with sw := { s.sw with tokens := tblPut s.sw.tokens q (t, s.now) } }).fset Fld.hubQW1_TOKENS q 0 ((t / 16) % 2 ^ 32).toNat

/-- Apply one QUEUE_SET; a change of its shaper sets the tokens to the cap or to zero (R205). -/
def State.queueApply (s : State) (x : Nat × Word) : State :=
  let old := s.rd .hubQW0 x.1
  let s1 := s.wr .hubQW0 x.1 0 x.2
  if bits old 47 47 ≠ bits x.2 47 47 ∨ bits old 43 32 ≠ bits x.2 43 32 ∨ bits old 13 0 ≠ bits x.2 13 0 then
    s1.shSet x.1 (if s.fget Fld.hubSchedCtrl_SHAPER_RESET_MODE = 1 then 0 else (256 * 16 * bits x.2 43 32 : Nat))
  else s1

/-- Apply the QUEUE_SETs of an egress, in the order they were taken (R206). -/
def State.queueSets (s : State) (p : Nat) : State :=
  State.each (s.sw.qsets.filter (fun x => x.1 / 128 == p)) State.queueApply
    { s with sw := { s.sw with qsets := s.sw.qsets.filter (fun x => x.1 / 128 != p) } }

/-! ### Dispatch (R197, R199, R201) -/

/-- A failure of an optical link that still waits in this cycle: it comes before the egress's decision (R217, R371). -/
def failsLink (n : Nat) : Instr → Bool
  | .linkFailureEvent m c => m == n && decide (c ≤ 9)
  | .linkRetrain m => m == n
  | .linkEnWrite m v => m == n && v % 2 == 0
  | .linkAdminSet l => 64 + l == n
  | _ => false

/-- The optical egress can send to link `l` on channel `v` now: UP, not waking, and a credit held (R197). -/
def State.linkReady (s : State) (l v typ : Nat) : Bool :=
  let n := 64 + l
  s.fget Fld.hubLink_STATE l == Hub.up && s.lkState n == LnkS.up && (s.lk n).tx != 2
    && decide (0 < (tblGet ({} : Credit) (s.lk n).credits (poolOf v typ)).held) && !s.soon (failsLink n)

/-- Cells that the EPB of an attach port has taken, or is taking, and not handed on. -/
def State.epbCells (s : State) (p : Nat) : Nat :=
  ((s.delivered.filter (fun x => x.1 == p)).map (fun x => cellsOf x.2.payload.length)).sum + ((s.sw.sending.filter (fun c => c.port == p)).map (·.cells)).sum

/-- The EPB of an attach port has room for a packet of `k` cells (R197). -/
def State.epbTakes (s : State) (p k : Nat) : Bool := s.epbCells p == 0 || decide (s.epbCells p + k ≤ Config.epbRoom p)

/-- The head of a subqueue is ready. -/
def State.headOk (s : State) (c : Copy) : Bool :=
  (if c.port < 64 then s.epbTakes c.port c.cells else decide (96 ≤ c.port) || s.linkReady c.link c.chan c.pkt.typ)
    && (s.fget Fld.hubQW0_SH_EN c.queue == 0 || decide (0 ≤ s.shTokens c.queue))

/-- No packet is in transmission on the egress: an optical group's four links share it (R359). -/
def State.egressFree (s : State) (p : Nat) : Bool :=
  if p < 64 ∨ 96 ≤ p then s.sw.sending.all (fun c => c.port != p)
  else (List.range 4).all (fun f => let n := 64 + 4 * (p - 64) + f; s.lkState n != LnkS.up || (s.lk n).txq.isEmpty)

/-- The order of link channels in strict priority (R201). -/
def strictRank (v : Nat) : Nat :=
  if v = 6 then 0 else if v = 1 then 1 else if v = 7 then 2 else if v = 0 then 3 else v + 2

/-- The better of two subqueues in strict priority, by key. -/
def strictLt (a b : Nat) : Bool :=
  let r := fun k => strictRank (k % 8) * 1024 + (7 - k / 128 % 8) * 16 + k / 8 % 16
  decide (r a < r b)

/-- The least of a list under an order, the first on a tie. -/
def leastBy {α : Type} (lt : α → α → Bool) : List α → Option α
  | [] => none
  | a :: t => match leastBy lt t with
    | none => some a
    | some b => if lt b a then some b else some a

/-- The subqueue that normal service chooses, and the virtual time after V has risen to it (R199). -/
def State.fairChoice (s : State) (p : Nat) (c : List (Nat × SubQ)) : Option (Nat × SubQ) × Nat :=
  let v := s.vtime p
  match leastBy (fun a b => vtLe a.2.s b.2.s && a.2.s != b.2.s) c with
  | none => (none, v)
  | some m =>
    let v1 := if vtLe m.2.s v then v else m.2.s
    (leastBy (fun a b => vtLe a.2.f b.2.f && a.2.f != b.2.f) (c.filter (fun e => vtLe e.2.s v1)), v1)

/-- Egress allowance of the k-th switch, in cycles (R212, R213). -/
def egressAllowance (dclass k : Nat) : Nat := if dclass = 0 then 1760 + (k - 1) * 800 else 3520 + (k - 1) * 1600

/-- Count a bounded packet that waited beyond its egress allowance (R213). -/
def State.boundCount (s : State) (c : Copy) : State :=
  match tblFind s.sw.pkts c.id with
  | none => s
  | some x =>
    if c.pkt.dclass < 2 ∧ egressAllowance c.pkt.dclass c.hop < s.now - x.at_ then
      s.fsat (if c.pkt.dclass = 0 then Fld.hubBoundstat_LATE0 else Fld.hubBoundstat_LATE1) 0 0 1
    else s

/-- Cell 0 of a copy is read out: it leaves the egress count, its fibre is the egress's LASTFIB (R199), and its flits go to its link. -/
def State.readOut (s : State) (c : Copy) : State :=
  let s1 := ((s.egressCells c false).boundCount c).mirrorEgress c 0
  let s2 : State := { s1 with sw := { s1.sw with
    sending := s1.sw.sending ++ [c]
    lastFib := if 64 ≤ c.port ∧ c.port < 96 then tblPut s1.sw.lastFib c.port c.fib else s1.sw.lastFib } }
  if 64 ≤ c.port ∧ c.port < 96 then s2.linkQueue (64 + c.link) (packetFlits c.id c.chan c.pkt) else s2

/-- Drop a packet whose cell 0 is lost, in every copy and without an answer (R429). -/
def State.dropPacket (s : State) (id : Nat) : State :=
  match tblFind s.sw.pkts id with
  | none => s
  | some x =>
    let gone := fun (c : Copy) => c.id == id
    let s1 := State.each (s.sw.subq) (fun s e =>
      let out := e.2.copies.filter gone
      if out.isEmpty then s
      else State.each out (fun s c => (s.queueCells c false).egressCells c false) (s.subSet e.1 { e.2 with copies := e.2.copies.filter (fun c => !gone c) })) s
    let s2 := State.each s.sw.hold (fun s e =>
      let out := e.2.filter gone
      if out.isEmpty then s else State.each out (fun s c => s.egressCells c false) (s.setHold e.1 (e.2.filter (fun c => !gone c)))) s1
    ({ s2 with sw := { s2.sw with waiting := s2.sw.waiting.filter (fun c => !gone c), pkts := tblDel s2.sw.pkts id } }).cellsFree x

/-- What the ECC of the buffer finds as a copy is read (R429): 0 clean, 1 corrected, 2 payload lost, 3 cell 0 lost; 4 and above: structure
`ecc − 4` of the die's shared state. The copy to send, none when it is dropped, and the state. -/
def State.bufferEcc (s : State) (c : Copy) (ecc : Nat) : Option Copy × State :=
  let die := match tblFind s.sw.pkts c.id with
    | some x => dieOf x.port
    | none => 0
  if ecc = 1 then (some c, s.errRec 0 0x40 13 die [c.id])
  else if ecc = 2 then
    (some { c with pkt := { c.pkt with poison := true, payload := onesBytes c.pkt.payload.length } }, s.errRec 1 0x41 13 die [c.id, c.port])
  else if ecc = 3 then (none, (s.dropPacket c.id).errLater 2 0x42 13 die [c.id])
  else if 4 ≤ ecc then (some c, s.errLater 4 0x43 13 die [ecc - 4])
  else (some c, s)

/-- Dispatch from subqueue `k` of egress `p` (R199, R201, R206, R217). -/
def State.dispatchFrom (s : State) (p k v : Nat) (u : SubQ) (ecc : Nat) : State :=
  match u.copies with
  | [] => s
  | c :: t =>
    let strict := s.strict p
    let n := c.cells
    let optical := decide (64 ≤ p) && decide (p < 96)
    let steer := optical && c.fib != tblGet 0 s.sw.lastFib p
    let x := if steer then n + 6 else n
    let f1 := if strict then u.f else (u.f + (x - n) * s.costK k) % 2 ^ 64
    let s1 := if steer then { s with sw := { s.sw with lastFib := tblPut s.sw.lastFib p c.fib } } else s
    let s2 := if strict then s1 else { s1 with sw := { s1.sw with vt := tblPut s1.sw.vt p ((v + 65536 * x) % 2 ^ 64) } }
    let s3 := if s.fget Fld.hubQW0_SH_EN c.queue = 1 then s2.shSet c.queue (s.shTokens c.queue - (256 * 16 * n : Nat)) else s2
    let s4 := ((s3.subSet k { u with copies := t, f := f1 }).queueCells c false).queueSets p
    let s5 := if strict then s4 else s4.subSet k (s4.tagF k { s := f1, f := f1, copies := t })
    match s5.bufferEcc c ecc with
    | (some c', s6) => s6.readOut c'
    | (none, s6) => s6.egressCells c false

/-- The head of the hold list of an UP link of an optical egress (R185). -/
def State.heldHead (s : State) (p : Nat) : Option (Nat × Copy) :=
  if 64 ≤ p ∧ p < 96 then
    (List.range 4).findSome? (fun f =>
      let l := 4 * (p - 64) + f
      match s.holdList l with
      | c :: _ => if s.linkReady l c.chan c.pkt.typ then some (l, c) else none
      | [] => none)
  else none

/-- The subqueues of egress `p` whose head may go now; at an optical egress none whose link still holds packets. -/
def State.readySubs (s : State) (p : Nat) : List (Nat × SubQ) :=
  s.sw.subq.filter (fun e => e.1 / 1024 == p && (match e.2.copies with
    | c :: _ => s.headOk c && (decide (p < 64) || decide (96 ≤ p) || (s.holdList c.link).isEmpty)
    | [] => false))

/-! ### Mode of an egress (R202, R203) -/

/-- Egress `p` returns to normal service: every subqueue that holds a packet wakes; or it enters strict priority. -/
def State.setMode (s : State) (p : Nat) (strict : Bool) : State :=
  if s.strict p = strict then s
  else
    let s1 := if p < 64 then s.setBit .hubSchedMode0 0 0 p strict else s.setBit .hubSchedMode1 0 0 (p - 64) strict
    if strict then s1
    else State.each (s1.sw.subq.filter (fun e => e.1 / 1024 == p)) (fun s e => s.subSet e.1 (s.tagF e.1 { e.2 with s := s.vtime p })) s1

/-- At a dispatch opportunity egress `p` takes the modes that SCHED_MODEs have named for it, and those of them that no egress delays any more are
answered OK (R202). -/
def State.modesTake (s : State) (p : Nat) : State :=
  let mine := s.sw.modes.filter (fun m => m.egresses.contains p)
  let s1 := State.each mine (fun s m => s.setMode p m.strict) s
  let left := s1.sw.modes.map (fun m => { m with egresses := m.egresses.filter (· != p) })
  State.each (left.filter (fun m => m.egresses.isEmpty)) (fun s m => s.placeHeld m.reply)
    { s1 with sw := { s1.sw with modes := left.filter (fun m => !m.egresses.isEmpty) } }

/-- A dispatch opportunity of egress `p` (R185, R199, R201, R202): its mode is taken, then a held packet goes first, then the scheduler's choice;
QUEUE_SETs are applied. -/
def State.egressDispatch (s0 : State) (p ecc : Nat) : State :=
  let s := s0.modesTake p
  if !s0.egressFree p || s0.coreOff (dieOf p) then s0
  else
    match s.heldHead p with
    | some (l, c) => ((s.setHold l ((s.holdList l).drop 1)).readOut c).queueSets p
    | none =>
      let ready := s.readySubs p
      if s.strict p then
        match leastBy (fun a b => strictLt a.1 b.1) ready with
        | some (k, u) => s.dispatchFrom p k 0 u ecc
        | none => s.queueSets p
      else
        match s.fairChoice p ready with
        | (some (k, u), v) => s.dispatchFrom p k v u ecc
        | (none, _) => s.queueSets p

/-- The last cell of a copy is read out (R181): its cells are counted out, REF decreases, and a local unit receives the packet. -/
def State.transmitDone (s : State) (i : Nat) : State :=
  match s.sw.sending[i]? with
  | none => s
  | some c =>
    let optical := decide (64 ≤ c.port) && decide (c.port < 96)
    if optical && (s.lk (64 + c.link)).txq.any (fun f => f.copy == c.id) then s
    else
      let s1 := (({ s with sw := { s.sw with sending := s.sw.sending.eraseIdx i } }).fwrap Fld.telPortW1_OUT_CELLS c.port 0 c.cells).unref c.id
      let s2 : State := if optical then s1 else { s1 with delivered := s1.delivered ++ [(c.port, c.pkt)] }
      if s2.egressFree c.port then s2.modesTake c.port else s2

def execPacketTransmitDone (i : Nat) (s : State) : Res := .next (s.transmitDone i)

/-! ### The mirror ring (R191, R195) -/

def State.mirSize (s : State) : Nat := 2 ^ (s.fget Fld.hubMirringCtrl_SIZE + 10)

/-- Records that still find room in the ring: with WRAP = 0 one whose slot would reach HEAD + SIZE is lost. -/
def State.mirAccept (s : State) : List (List Word) → Nat → List (List Word)
  | [], _ => []
  | r :: t, i =>
    if s.fget Fld.hubMirringCtrl_WRAP = 1 ∨ (i + 2 ^ 32 - s.fget Fld.hubMirringHead_HEAD) % 2 ^ 32 < s.mirSize then r :: s.mirAccept t (i + 1)
    else s.mirAccept t i

/-- A burst of up to four records of a die's FIFO starts for the ring (R191); while no shared cell is free, or EN = 0, it stays. -/
def State.mirrorBurst (s : State) (die : Nat) : State :=
  let q := tblGet [] s.sw.fifos die
  let take := q.take 4
  if q.isEmpty ∨ s.fget Fld.hubMirringCtrl_EN = 0 ∨ s.sharedFree 1 = 0 then s
  else
    let ok := s.mirAccept take s.sw.mirNext
    let s1 : State := { s with sw := { s.sw with
      fifos := tblPut s.sw.fifos die (q.drop 4)
      mirNext := (s.sw.mirNext + ok.length) % 2 ^ 32
      bursts := s.sw.bursts ++ (if ok.isEmpty then [] else [{ first := s.sw.mirNext, recs := ok }]) } }
    (if ok.isEmpty then s1 else s1.mirrorCell).fsat Fld.hubMirringLost_LOST 0 0 (take.length - ok.length)

def execMirrorBurstWrite (die : Nat) (s : State) : Res := .next (s.mirrorBurst die)

/-- Write records at their slots. -/
def State.mirStore (s : State) : Nat → List (List Word) → State
  | _, [] => s
  | i, r :: t =>
    ((s.internalWrite (s.xyp * 2 ^ 52 + s.fget Fld.hubMirringBase_ADDR * 4096 + 64 * (i % s.mirSize)) (bytesOfWords r)).1).mirStore (i + 1) t

/-- The oldest burst is performed at its home, and TAIL advances. -/
def State.mirrorDone (s : State) : State :=
  match s.sw.bursts with
  | [] => s
  | b :: t =>
    ((({ s with sw := { s.sw with bursts := t } }).fdec Fld.hubBufstat_USED 1 0 1).mirStore b.first b.recs).fset Fld.hubMirringTail_TAIL 0 0
      ((b.first + b.recs.length) % 2 ^ 32)

def execMirrorBurstDone (s : State) : Res := .next s.mirrorDone

/-- The whole ring, of 2^(`size` + 10) records, lies in one Metadata range of end-points 112 to 119 (R195, R295). -/
def State.mirRingOk (s : State) (size : Nat) : Bool :=
  let a := s.fget Fld.hubMirringBase_ADDR * 4096
  decide (112 ≤ gfaE a) && decide (gfaE a ≤ 119) && decide (gfaOff a + 64 * 2 ^ (size + 10) ≤ 2 ^ 32)

/-- EN is set: the record indices, HEAD and TAIL with them, restart at 0. -/
def State.mirRestart (s : State) : State :=
  ((({ s with sw := { s.sw with mirNext := 0, bursts := [] } }).fdec Fld.hubBufstat_USED 1 0 s.sw.bursts.length).fset Fld.hubMirringTail_TAIL 0 0 0).fset
    Fld.hubMirringHead_HEAD 0 0 0

/-- Setting EN restarts the record indices at 0 (R191, R195), unless the ring lies outside a Metadata range of this GX3200; while a
tenant is bound the register is locked (R419). -/
def State.mirrorEnable (s : State) (ctrl : Nat) : State :=
  let w : Word := BitVec.ofNat 64 (ctrl % 2 ^ 32)
  if s.bound = true ∨ bit w 31 = false ∨ 14 < bits w 3 0 ∨ s.mirRingOk (bits w 3 0) = false then s
  else
    let s1 := ((s.fset Fld.hubMirringCtrl_SIZE 0 0 (bits w 3 0)).fset Fld.hubMirringCtrl_WRAP 0 0 (bits w 30 30)).fset Fld.hubMirringCtrl_EN 0 0 1
    if s.fget Fld.hubMirringCtrl_EN = 1 then s1
    else s1.mirRestart

def execMirrorRingEnable (ctrl : Nat) (s : State) : Res := .next (s.mirrorEnable ctrl)

end Sys2Proof.Machine
end

