-- ==== Sys2Proof/Machine/LinkFlow.lean ====
section
/-! DEFINITION. Credits granted to link partners, and lane sleep (R158, R175, R348, R349, R351, R362). -/

namespace Sys2Proof.Machine
open Sys2Proof

/-! ### Credits granted (R158, R175, R348, R362) -/

/-- Links that bring cells to an attachment: an attach link, or the four of an optical group. -/
def portLinks (a : Nat) : List Nat := if a < 64 then [a] else (List.range 4).map (fun f => 64 + 4 * (a - 64) + f)

/-- A packet belongs to a credit pool: VC7 has one for requests and one for responses (R158). -/
def inPool (pool typ : Nat) : Bool := decide (pool < 7) || isRspTy typ == (pool == 8)

/-- Flits that a message took on its link. -/
def zCells (m : ZMsg) : Nat := ((zBytes m).length + 255) / 256

/-- Cells of a pool that have been received at an attachment and are not written yet: of incomplete packets and messages, of messages not yet
handled, and of packets at the ingress. -/
def State.unwritten (s : State) (a pool : Nat) : Nat :=
  let v := poolVc pool
  ((portLinks a).map (fun n =>
    let part := tblGet [] (s.lk n).parts v
    (if a < 64 ∨ inPool pool (packetOfBytes part).typ = true then (part.length + 255) / 256 else 0)
      + if a < 64 then (if pool = 8 then 0 else ((s.lnk.zin.filter (fun x => x.1 == a && x.2.vc == v)).map (fun x => zCells x.2)).sum)
        else (((tblGet [] s.inq (optKey n v)).filter (fun p => inPool pool p.typ)).map (fun p => cellsOf p.payload.length)).sum)).sum
    + if a < 64 then (((tblGet [] s.inq a).filter (fun p => p.vc == v && inPool pool p.typ)).map (fun p => cellsOf p.payload.length)).sum else 0

/-- Cells of a pool counted against its pair: OCC, or for a pool of VC7 its part of it. -/
def State.poolCells (s : State) (a pool : Nat) : Nat :=
  if pool < 7 then s.fget Fld.hubInlim_OCC a pool
  else (((tblVals s.sw.pkts).filter (fun x => x.port == a && x.chan == 7 && inPool pool x.pkt.typ)).map (·.cells)).sum

/-- Credits that the link partners of an attachment hold for a pool. -/
def State.partnerHolds (s : State) (a pool : Nat) : Nat :=
  ((portLinks a).map (fun n => (tblGet ({} : Credit) (s.lk n).credits pool).partner)).sum

/-- Credits that R175 lets an attachment return for a pool: cells and credits held stay within LIM, and a reserved or shared cell is free for
each; each of VC7's pools has one half (R158). -/
def State.creditRoom (s : State) (a pool : Nat) : Nat :=
  let v := poolVc pool
  let d := if v = 7 then 2 else 1
  let used := s.poolCells a pool + s.unwritten a pool
  let held := s.partnerHolds a pool
  min (s.fget Fld.hubInlim_LIM a v / d - (used + held)) (s.fget Fld.hubInlim_RES a v / d - used + s.sharedFree (dieOf a) - held)

/-- Grant `k` credits of a pool to a link's partner, which never holds more than 2,047 (R348). -/
def State.give (s : State) (n pool k : Nat) : State :=
  let c := tblGet ({} : Credit) (s.lk n).credits pool
  let g := min k (2047 - c.partner)
  if g = 0 then s
  else s.lkMod n (fun l => { l with
    owed := true
    credits := tblPut l.credits pool { c with cumOut := (c.cumOut + g) % 4096, partner := c.partner + g } })

/-- A request that waits for a tag and belongs to the accelerator. -/
def Owner.isZar : Owner → Bool
  | .zar _ => true
  | .fill _ _ _ => true
  | _ => false

/-- The EPB's queue of requests that wait for tags is full (R64). -/
def State.requestsFull (s : State) (n : Nat) : Bool :=
  decide (max 1 (Config.requestQueue n) ≤ (s.epbAt n).zwait.length + ((tblGet [] s.waitq n).filter (fun w => w.req.own.isZar)).length
    + (s.lnk.zin.filter (fun x => x.1 == n && x.2.vc == 0)).length)

/-- The UP links of a group in round-robin order for a pool, the next one first. -/
def State.turnOrder (s : State) (a pool : Nat) : List Nat :=
  let t := tblGet 0 s.lnk.turn (16 * a + pool)
  (((List.range 4).map (fun i => 64 + 4 * (a - 64) + (t + i) % 4)).filter (fun n => s.lkState n == LnkS.up))

/-- Grant what R175 allows to one pool: to an attach link, VC0 only while its EPB's request queue is not full (R64); to the UP links of a group,
credit by credit in round-robin order (R362). -/
def State.grant (s : State) (n pool : Nat) : State :=
  let a := linkPort n
  let k := s.creditRoom a pool
  if n < 64 then (if pool = 0 ∧ s.requestsFull n = true then s else s.give n pool k)
  else
    let up := s.turnOrder a pool
    let u := up.length
    if u = 0 then s
    else
      let s1 := State.each (List.range u) (fun s i => s.give (up.getD i n) pool (k / u + (if i < k % u then 1 else 0))) s
      { s1 with lnk := { s1.lnk with turn := tblPut s1.lnk.turn (16 * a + pool) ((up.getD (k % u) n) % 4) } }

/-- A credit change of a link is unsent: a grant is due. -/
def State.creditDue (s : State) (n : Nat) : Bool :=
  (List.range 9).any (fun p =>
    (tblGet ({} : Credit) ((s.grant n p).lk n).credits p).cumOut != (tblGet ({} : Credit) (s.lk n).credits p).cumOut)

/-- A credit update for every channel and both VC7 pools, whether or not credit is due (R349). -/
def State.creditUpdate (s : State) (n : Nat) : State :=
  if s.lkActive n && s.fibreFree n then State.each (List.range 9) (fun s p => (s.grant n p).sendIdle n p) s else s

def execCreditUpdateSend (n : Nat) (s : State) : Res := .next (s.creditUpdate n)

/-! ### Lane sleep (R351, R352) -/

/-- A command of this cycle that still waits can make a link owe something: a codeword to acknowledge, or a packet or message to send. -/
def wakesLink (n : Nat) : Instr → Bool
  | .codewordReceive m _ _ => m == n
  | .burstReceive l _ _ => 64 + l == n
  | .egressDispatch p _ => decide (64 ≤ n) && p == linkPort n
  | .zTgtSend m => m == n
  | _ => false

/-- Nothing owed for QIDLE: a QUIET round, one control flit per lane of an attach link, and the transmit side enters TXQ; a wake cause of the same
cycle comes first (R352). -/
def State.txqEnter (s : State) (n : Nat) : State :=
  let l := s.lk n
  if s.lkActive n && s.fget Fld.lnkCtrl_SLEEP_EN n == 1 && l.nothingOwed && !s.creditDue n && !s.soon (wakesLink n) && s.fibreFree n
      && decide (l.idleAt + s.fget Fld.lnkCtrl_QIDLE n * 400 ≤ s.now) then
    let s1 := State.each (List.range (quietRound n)) (fun s _ => s.sendCodeword n { kind := 2 } (padTo 256 [1]) none 0) s
    (s1.fset Fld.lnkStat_TXQ n 0 1).lkMod n (fun l => { l with tx := 1, txAt := s.now })
  else s

def execTxqEnter (n : Nat) (s : State) : Res := .next (s.txqEnter n)

/-- A flit, an ACKSEQ or a credit change is owed in TXQ: the wake sequence starts. -/
def State.txqWake (s : State) (n : Nat) : State :=
  if (s.lk n).tx = 1 ∧ ((s.lk n).nothingOwed = false ∨ s.creditDue n = true) then
    (((s.emit (.wakeSeq n)).fset Fld.lnkStat_TXQ n 0 0).lkMod n (fun l => { l with tx := 2, txAt := s.now })).stir (linkDomain n)
  else s

def execTxqWake (n : Nat) (s : State) : Res := .next (s.txqWake n)

/-- The wake sequence ends 0.85 µs after it started, and flits resume on lane 0 (log entry 64). -/
def State.txWakeDone (s : State) (n : Nat) : State :=
  if (s.lk n).tx = 2 ∧ (s.lk n).txAt + 1360 ≤ s.now then (s.lkMod n (fun l => { l with tx := 0, txRound := 0, idleAt := s.now })).linkPump n else s

def execTxWakeDone (n : Nat) (s : State) : Res := .next (s.txWakeDone n)

/-- Energy in RXQ starts the relock. -/
def State.rxqEnergy (s : State) (n : Nat) : State :=
  if (s.lk n).rx = 1 then ((s.fset Fld.lnkStat_RXQ n 0 0).lkMod n (fun l => { l with rx := 2, rxAt := s.now })).stir (linkDomain n) else s

def execRxqEnergy (n : Nat) (s : State) : Res := .next (s.rxqEnergy n)

/-- Restart the credit timers of a link. -/
def State.creditTimers (s : State) (n : Nat) : State :=
  s.lkMod n (fun l => { l with credits := (List.range 9).foldl (fun t p => tblMod {} t p (fun c => { c with at_ := s.now })) l.credits })

/-- The relock ends: ACTIVE, the lanes are aligned and their rounds start again, and the credit timer restarts. -/
def State.relockDone (s : State) (n : Nat) : State :=
  if (s.lk n).rx = 2 then (s.lkMod n (fun l => { l with rx := 0, rxRound := 0, skew := [], missed := [] })).creditTimers n else s

def execRelockDone (n : Nat) (s : State) : Res := .next (s.relockDone n)

end Sys2Proof.Machine
end

