-- ==== Sys2Proof/Machine/LinkEvents.lean ====
section
/-! DEFINITION. Links: training, failure events, INIT, and what arrives (R342 to R354, R183, R361). -/

namespace Sys2Proof.Machine
open Sys2Proof

/-! ### Training (R344, R363) -/


/-- KIND and IDX of a link in error records (R424). -/
def linkKind (n : Nat) : Nat := if n < 64 then 2 else 3
def linkIdx (n : Nat) : Nat := if n < 64 then n else n - 64

/-- BUS_OK of bus `b` of a group. -/
def State.busOk (s : State) (g b : Nat) : Bool := s.fget Fld.optGStat_BUS_OK g / 2 ^ b % 2 == 1

/-- What an optical link's RESET requires beside EN and its domain (R363, R183): its two buses, and ADMIN = 0. -/
def State.opticalFree (s : State) (n : Nat) : Bool :=
  decide (n < 64) || (s.busOk ((n - 64) / 4) 0 && s.busOk ((n - 64) / 4) ((n - 64) % 4 + 1) && s.fget Fld.hubLink_ADMIN (n - 64) == 0)

/-- The unit of a link is in reset (R467): its Hub die, for an optical link also its chiplet or its die's buffer/crossbar core. -/
def State.linkHeld (s : State) (n : Nat) : Bool :=
  if n < 64 then s.hubDieHeld (n / 32)
  else s.hubDieHeld ((n - 64) / 64) || s.coreHeld ((n - 64) / 64) || s.opticHeld ((n - 64) / 16)

/-- A link may leave RESET: EN = 1, its domain Active, its unit out of reset and no quench begun (R344, R457, R469). -/
def State.mayTrain (s : State) (n : Nat) : Bool :=
  !s.linkHeld n && s.fget Fld.pwrTherm_QSTATE == 0 &&
  s.fget Fld.lnkCtrl_EN n == 1 && s.fget Fld.pwrDomW0_STATE (linkDomain n) == 0 && decide (2 ≤ s.fget Fld.cmdBootW0_PHASE) && s.opticalFree n

/-- A link leaves RESET for DETECT when it may. -/
def State.lkRelease (s : State) (n : Nat) : State :=
  if s.lkState n = LnkS.reset ∧ s.mayTrain n = true then s.lkEnter n LnkS.detect else s

/-- Move a link in state `a` to state `b`. -/
def State.lkMove (s : State) (n a b : Nat) : State := if s.lkState n = a then s.lkEnter n b else s

/-! ### Failure events (R350, R434, R88, R103) -/


/-- The Z_LOADs of a list that hold a tag: of those that wait on one fill, the first, whose request the fill is; `seen` are the fills met (R143). -/
def zloadsTagged : List LineSrc → List ZLoad → List ZLoad
  | _, [] => []
  | seen, z :: t =>
    let fills := (z.srcs.map (·.2)).filter (fun x => match x with | .tag _ => true | .serial _ => true | _ => false)
    let own := fills.filter (fun x => !seen.contains x)
    let rest := zloadsTagged (own ++ seen) t
    if own.any (fun x => match x with | .tag _ => true | _ => false) then z :: rest else rest

/-- The attach link goes down (R88, R103): the accelerator must identify itself again, and its requests without a tag are discarded; the
STATUS of their record is a free value (log entry 3). -/
def State.attachDown (s : State) (n : Nat) : State :=
  let e := s.epbAt n
  let q := tblGet [] s.waitq n
  let isZ := fun (w : Wait) => match w.req.own with | .zar _ => true | _ => false
  let keep := zloadsTagged [] e.zloads
  let count := e.zwait.length + (q.filter isZ).length + (e.zloads.length - keep.length)
  let s1 := ({ s with waitq := tblPut s.waitq n (q.filter (fun w => !w.req.own.isZar)) }).epbMod n (fun e =>
    { e with zwait := [], zloads := keep, identSeen := false, badVersion := false, lateTags := [] })
  let s2 := s1.fset Fld.epbZarState_IDENT_OK n 0 0
  if count = 0 then s2 else s2.draw.2.fault n { cause := 0x13, status := s2.draw.1 % 16, count := count }

/-- Count a failure event of a link, its entry to HOLD or RECOVER from UP (R434). -/
def State.flap (s : State) (n : Nat) : State :=
  let win := us (1000 * s.fget Fld.errCtrl_FLAP_WIN)
  let l := s.now :: (tblGet [] s.err.flaps n).filter (fun t => decide (s.now < t + win))
  if s.fget Fld.errCtrl_FLAP_N ≤ l.length then
    ({ s with err := { s.err with flaps := tblDel s.err.flaps n } }).errLater 3 0x05 (linkKind n) (linkIdx n) [l.length, s.fget Fld.errCtrl_FLAP_WIN]
  else { s with err := { s.err with flaps := tblPut s.err.flaps n l } }

/-- Both directions are awake. -/
def State.lkAwake (s : State) (n : Nat) : State :=
  ((s.fset Fld.lnkStat_TXQ n 0 0).fset Fld.lnkStat_RXQ n 0 0).lkMod n (fun l => { l with tx := 0, rx := 0 })

/-- A packet that is being received would already be leaving through egress `w` of this GX3200 (R179, log entry 6): an attach port or an optical
group whose link is UP with an empty hold list, with nothing else to send. -/
def State.goesThrough (s : State) (chan : Nat) (w : Nat × Nat × Packet) : Bool :=
  decide (w.1 < 96) && !s.coreOff (dieOf w.1) && s.egressFree w.1 && (s.readySubs w.1).isEmpty
    && (decide (w.1 < 64)
      || (s.linkReady (4 * (w.1 - 64) + w.2.1) chan w.2.2.typ && (s.holdList (4 * (w.1 - 64) + w.2.1)).isEmpty))

/-- The cells received of an interrupted packet leave through an optical egress, the last with the packet-abort marker (R180). The EPB of an attach
egress discards them. -/
def State.abortThrough (s : State) (chan : Nat) (bytes : List Byte) (w : Nat × Nat × Packet) : State :=
  let k := bytes.length / 256
  let cells := chunks 256 k (bytesOfWords (headerWords w.2.2) ++ bytes.drop 32)
  let s1 := s.fwrap Fld.telPortW1_OUT_CELLS w.1 0 k
  if 64 ≤ w.1 then
    ({ s1 with sw := { s1.sw with lastFib := tblPut s1.sw.lastFib w.1 w.2.1 } }).linkQueue (4 * w.1 - 192 + w.2.1)
      ((List.range k).map (fun i => { vc := chan, pool := poolOf chan w.2.2.typ, sop := i == 0, abort := i + 1 == k, ksel := w.2.2.ksel,
                                      data := cells.getD i [] }))
  else s1

/-- The ingress link of a packet fails before its last cell is written (R180): where a copy has begun to leave, every such copy is ended, the packet
is discarded, and its later cells are too. -/
def State.interrupt (s : State) (n : Nat) (part : Nat × List Byte) : State :=
  let p := packetOfBytes part.2
  let a := linkPort n
  let ways := s.consume (mkHop a (linkFib n) 0) 3 p
  let chan := fun (w : Nat × Nat × Packet) => outChan (some a) part.1 w.1 w.2.2
  let go := ways.filter (fun w => s.goesThrough (chan w) w)
  if part.2.length < 256 ∨ (isRspTy p.typ = false ∧ s.fenceOk p.fence = false) ∨ go.isEmpty = true then s
  else
    let s1 := (s.fwrap Fld.telPortW0_IN_CELLS a 0 (part.2.length / 256)).lkMod n (fun l => { l with parts := tblDel l.parts part.1, cut := tblPut l.cut part.1 p.ksel })
    State.each go (fun s w => s.abortThrough (chan w) part.2 w) s1

/-- A failure event of a link in UP (R350): the record with its cause, the flap count, RECOVER or for cause 9 RESET; what the EPB or the
optical egress then does, and what becomes of the packets that it was receiving (R180). -/
def State.linkFail (s : State) (n cause : Nat) : State :=
  if s.lkState n ≠ LnkS.up then s
  else
    let s1 := s.errLater 3 0x03 (linkKind n) (linkIdx n) [cause]
    let s2 := ((s1.lkEnter n (if cause = 9 then LnkS.reset else LnkS.recover)).lkAwake n).lkMod n (fun l => { l with keptAt := some s.now, quiet := 0 })
    if n < 64 then (if cause = 9 then s2 else s2.flap n).attachDown n
    else
      let s2 := s2.hubFail (n - 64)
      let s2 := if cause ≠ 9 ∨ s2.fget Fld.hubLink_STATE (n - 64) = Hub.hold then s2.flap n else s2
      let s3 := State.each (s.lk n).parts (fun s x => s.interrupt n x) s2
      if s3.fget Fld.hubLink_STATE (n - 64) = Hub.down then s3.lkMod n (Lnk.discard true) else s3

/-- Apply the failure cause that a reception may have found. -/
def State.orFail (n : Nat) : State × Option Nat → State
  | (s, none) => s
  | (s, some c) => s.linkFail n c

/-- A link is put into RESET by cause 9: EN written 0, its domain leaving Active, a reset (R344, R350). -/
def State.linkOff (s : State) (n : Nat) : State :=
  if s.lkState n = LnkS.up then s.linkFail n 9 else s.lkEnter n LnkS.reset

/-- A reset or power-off of a link's quadrant or chiplet (R353, R372): RESET, nothing kept, the boot count advances. -/
def State.linkReset (s : State) (n : Nat) : State :=
  ((s.linkOff n).lkAwake n).lkMod n (fun l => { boots := l.boots + 1, entered := s.now, toRec := l.toRec })

def State.failEvent (s : State) (n cause : Nat) : State := if cause ≤ 9 then s.linkFail n cause else s

/-! ### INIT to UP (R347, R345) -/

/-- The kept state of a link is used again: the partner kept its LINK_ID, within HOLD_EFF of the failure. -/
def State.keepsState (s : State) (n peer : Nat) : Bool :=
  match (s.lk n).keptAt with
  | some t => decide (s.now < t + s.holdEff) && peer == s.fget Fld.lnkPeer_LINK_ID n
  | none => false

/-- The EPB's Z_IDENT (R62). -/
def identMsg (n : Nat) : ZMsg := { ztype := 0x3E, vc := 6, len := 31, payload := toBytes 32 (0x0100 * 2 ^ 48 + 0xFFF * 2 ^ 36 + n) }

/-- A command of this cycle that still waits puts the link's EN to 0 or its ADMIN to 1 (R188, R352). -/
def stopsLink (n : Nat) : Instr → Bool
  | .linkEnWrite m v => m == n && v % 2 == 0
  | .linkAdminSet l => 64 + l == n
  | _ => false

/-- INIT can end: INIT, or RECOVER once its lanes are aligned anew; the link may train. -/
def State.initEnds (s : State) (n : Nat) : Bool :=
  (s.lkState n == LnkS.init || (s.lkState n == LnkS.recover && (s.lk n).flags % 2 == 1)) && s.opticalFree n && s.fget Fld.lnkCtrl_EN n == 1

/-- Three INIT frames with the partner's LINK_ID and RESUME are received (R344, R347, R348, R183); EN = 0 or ADMIN = 1 of the same cycle comes
first (R188, R352). -/
def State.linkUp (s : State) (n peer resume : Nat) : State :=
  if s.initEnds n = true ∧ s.soon (stopsLink n) = false then
    let own := s.ownLinkId n
    let keep := s.keepsState n peer
    let same := peer == s.fget Fld.lnkPeer_LINK_ID n && own == (s.lk n).sentId
    let s1 := s.lkMod n (fun l =>
      let l1 := if keep then { l with txq := ackDrop resume l.retry ++ l.txq, retry := [] } else Lnk.discard (decide (64 ≤ n)) l
      { l1 with keptAt := none, inits := if same then l.inits + 1 else 1, sentId := own, nak := false, gap := false, owed := true, resend := false,
                credits := (List.range 9).map (fun p => (p, { at_ := s.now })), misses := 0, burstAt := s.now, ackAt := s.now, sentAt := s.now,
                idleAt := s.now, quiet := 0, txRound := 0, rxRound := 0, skew := [], missed := [] })
    let s2 := if keep && !(ackDrop resume (s.lk n).retry).isEmpty then s1.fsat Fld.lnkLl_REPLAYS n 0 1 else s1
    let s3 := ((s2.fset Fld.lnkPeer_LINK_ID n 0 peer).fsat Fld.lnkLl_RETRAINS n 0 1).lkEnter n LnkS.up
    let l := n - 64
    let held := decide (64 ≤ n) && s.fget Fld.hubLink_STATE l == Hub.hold
    let us_ := if held then (s.now - (tblGet ({} : HoldTime) s.sw.holdT l).since) / Config.cyclesPerUs else 0
    let s4 := s3.errRec 0 0x01 (linkKind n) (linkIdx n) [us_, if held then copiesCells (s.holdList l) else 0]
    let s5 := if n < 64 then s4 else s4.hubSet l Hub.up
    let s6 := s5.creditUpdate n
    if n < 64 then s6.zsend n (identMsg n) else s6
  else s

/-! ### The commands -/

/-- EN written (R344). -/
def State.enWrite (s : State) (n v : Nat) : State :=
  let s1 := s.fset Fld.lnkCtrl_EN n 0 v
  if v % 2 = 0 then (if s.lkState n = LnkS.reset then s1 else s1.linkOff n) else s1.lkRelease n

/-- Signal energy on all lanes. -/
def State.energy (s : State) (n : Nat) : State := (s.lkRelease n).lkMove n LnkS.detect LnkS.cdr
/-- EYE of the lanes of an attach link. -/
def State.eyes (s : State) (n : Nat) (l : List Nat) : State :=
  if n < 64 then State.each (List.range 8) (fun s j => s.fset Fld.lnkLane_EYE n j (l.getD j 0)) s else s
/-- The receive equalisers adapt, in every state from EQ on but not while RECOVER or RXQ holds the taps (R338, R344, R351). -/
def State.adapt (s : State) (n : Nat) : State :=
  if LnkS.eq ≤ s.lkState n ∧ s.lkState n ≠ LnkS.recover ∧ (s.lk n).rx ≠ 1 then
    s.lkMod n (fun l => { l with rxTaps := (List.range (lanesOf n)).map (fun j => Config.adapted n j s.now) })
  else s

/-- One step of a transmit tap as its two bits of COEF_REQ ask: 1 increase, 2 decrease, else hold (R345). -/
def coefStep (b : Nat) : Int := if b = 1 then 1 else if b = 2 then -1 else 0

/-- The transmit taps of a lane after a COEF_REQ: pre2, pre1, main, post1 from its highest pair down. -/
def coefApply (taps : List Int) (req : Nat) : List Int :=
  (List.range 4).map (fun i => taps.getD i 0 + coefStep (req / 4 ^ (3 - i) % 4))

/-- The COEF_REQs that the partner sent in EQ set an attach link's transmit taps (R338); an optical link has none (R363). -/
def State.coefs (s : State) (n : Nat) (lanes : List LaneEq) : State :=
  if n < 64 then
    s.lkMod n (fun l => { l with txTaps := (lanes.take 8).zipIdx.foldl (fun t x =>
      x.1.reqs.foldl (fun t r => tblPut t x.2 (coefApply (tblGet [] t x.2) r)) t) l.txTaps })
  else s

/-- The clock recovery has locked on all lanes: EQ; on an optical link the result is the source phase (R363). -/
def State.cdrLocked (s : State) (n : Nat) : State :=
  if s.lkState n ≠ LnkS.cdr then s
  else
    let s1 := (s.lkEnter n LnkS.eq).adapt n
    if n < 64 then s1 else s1.lkMod n (fun l => { l with stored := l.rxTaps })

/-- Both sides report EQ_DONE; the eyes are those of the adaptation, the COEF_REQs those of the partner's EQ frames. -/
def State.eqDone (s : State) (n : Nat) (lanes : List LaneEq) : State :=
  if s.lkState n = LnkS.eq then
    ((((s.coefs n lanes).adapt n).eyes n (lanes.map (·.eye))).lkMod n (fun k => { k with flags := 4 })).lkEnter n LnkS.prbsChk
  else s

/-- A PRBS window ends with these errors per lane; `partner`: the other side passed. -/
def State.prbs (s : State) (n : Nat) (errs : List Nat) (partner : Bool) : State :=
  if s.lkState n ≠ LnkS.prbsChk then s
  else
    let s1 := if n < 64 then State.each (List.range 8) (fun s j => s.fset Fld.lnkLane_PRBS_ERR n j (errs.getD j 0)) s else s
    if partner && (List.range (lanesOf n)).all (fun j => decide (errs.getD j 0 ≤ s.fget Fld.lnkPrbs_PRBS_MAX)) then
      (s1.lkMod n (fun l => { l with flags := 6 })).lkEnter n LnkS.align
    else s1

/-- Four consecutive comma positions of a lane were hits, with this polarity (R342, R343). -/
def laneHits (x : LaneSeen) (inv : Bool) : Bool :=
  x.commas.length == 4 && x.commas.all (fun c => commaHit (if inv then c.map (3 - ·) else c))

/-- A lane's SLOT lies within two codeword slots of another's (R343). -/
def slotsNear (a b : Nat) : Bool := decide ((a + 65536 - b) % 65536 ≤ 2) || decide ((b + 65536 - a) % 65536 ≤ 2)

/-- Every lane of a link is aligned, and its skew can be removed; inverted polarity arises on attach lanes alone (R342, R343, R358). -/
def lanesAligned (n : Nat) (seen : List LaneSeen) : Bool :=
  seen.length == lanesOf n && seen.all (fun x => laneHits x false || (decide (n < 64) && laneHits x true)) && seen.all (fun x => seen.all (fun y => slotsNear x.slot y.slot))

/-- The lanes of a link and their polarities are taken over, and its frames report ALIGNED; where the partner's do too, ALIGN moves to INIT and RECOVER
goes on with INIT frames. -/
def State.alignedNext (s : State) (n : Nat) (partner : Bool) : State :=
  let s1 := s.lkMod n (fun l => { l with flags := 7 })
  if !partner then (if s1.trainsNow n then s1.trainSlot n LnkS.align else s1)
  else if s.lkState n = LnkS.align then s1.lkEnter n LnkS.init else if s1.trainsNow n then s1.trainSlot n LnkS.recover else s1

/-- Every physical lane is aligned and deskewed as it shows; `partner`: the partner reports ALIGNED (R342, R343, R344, R358). -/
def State.aligned (s : State) (n : Nat) (seen : List LaneSeen) (partner : Bool) : State :=
  let lanes := seen.map (·.lane)
  if (s.lkState n ≠ LnkS.align ∧ s.lkState n ≠ LnkS.recover) ∨ lanesAligned n seen = false then s
  else if n < 64 then
    let reversed := lanes == (List.range 8).reverse
    let pol := ((seen.filter (fun x => !(laneHits x false))).map (fun x => 2 ^ x.lane)).sum
    if lanes == List.range 8 || reversed then
      (((s.fset Fld.lnkStat_REV n 0 (b2n reversed)).fset Fld.lnkStat_POLINV n 0 pol).fset Fld.lnkStat_ALIGNED n 0 0xFF).alignedNext n partner
    else s
  else if (List.range 16).all (fun j => lanes.contains j) then
    (s.fset Fld.optGLanemap_LANEMAP ((n - 64) / 4) ((n - 64) % 4) ((List.range 16).foldl (fun a w => a + lanes.getD w 0 * 16 ^ w) 0)).alignedNext n partner
  else s

/-- Timeout of a training state, in cycles, and the state that follows (R344). -/
def trainLimit (st : Nat) : Option (Nat × Nat) :=
  if st = LnkS.cdr then some (us 10000, LnkS.detect)
  else if st = LnkS.eq then some (us 50000, LnkS.detect)
  else if st = LnkS.prbsChk then some (us 100000, LnkS.detect)
  else if st = LnkS.align then some (us 1000, LnkS.detect)
  else if st = LnkS.init then some (us 100, LnkS.detect)
  else if st = LnkS.recover then some (us 10, LnkS.cdr)
  else none

/-- A training state times out: a record, at most one per link per second. -/
def State.trainTimeout (s : State) (n : Nat) : State :=
  match trainLimit (s.lkState n) with
  | none => s
  | some (lim, next) =>
    if s.now < (s.lk n).entered + lim then s
    else
      let due := match (s.lk n).toRec with
        | some t => decide (t + us 1000000 ≤ s.now)
        | none => true
      let s1 := if due then (s.lkMod n (fun l => { l with toRec := some s.now })).errRec 0 0x02 (linkKind n) (linkIdx n) [s.lkState n] else s
      s1.lkEnter n next

/-- Logical lane of physical lane `p` of an attach link (R343). -/
def State.logicalLane (s : State) (n p : Nat) : Nat := if s.fget Fld.lnkStat_REV n = 1 then 7 - p else p

/-- The drop ring of an optical link that receives logical lane `j` (R358); the ring of that number where LANEMAP names none. -/
def State.ringOf (s : State) (n j : Nat) : Nat :=
  ((List.range 16).find? (fun w => s.fget Fld.optGLanemap_LANEMAP ((n - 64) / 4) ((n - 64) % 4) / 16 ^ w % 16 == j)).getD j

/-- The levels of a slot by logical lane: an inverted lane's polarity is undone, drop rings are put in the order of their lanes (R343, R358). -/
def State.undo (s : State) (n j : Nat) (levels : List Nat) : List Nat :=
  if n < 64 then (if s.fget Fld.lnkStat_POLINV n / 2 ^ j % 2 == 1 then levels.map (3 - ·) else levels)
  else (List.range 73).flatMap (fun m => (List.range 16).map (fun k => levels.getD (16 * m + s.ringOf n k) 0))

/-- Lane `j` has lost its alignment (R342): its ALIGNED bit, and in UP the failure event. -/
def State.alignLost (s : State) (n j : Nat) : State :=
  if (s.lk n).rx ≠ 0 then s
  else
    let s1 := if n < 64 then s.fset Fld.lnkStat_ALIGNED n 0 (s.fget Fld.lnkStat_ALIGNED n - s.fget Fld.lnkStat_ALIGNED n / 2 ^ j % 2 * 2 ^ j) else s
    s1.linkFail n 0

/-- The comma position of a slot on lane `j`: a hit, or a miss, of which three in a row lose the alignment (R342). -/
def State.commaSeen (s : State) (n j : Nat) (levels : List Nat) : State :=
  let k := if commaHit (levels.take 16) then 0 else tblGet 0 (s.lk n).missed j + 1
  let s1 := s.lkMod n (fun l => { l with missed := tblPut l.missed j k })
  if k < 3 then s1 else s1.alignLost n j

/-- Consume the codewords of an attach link in ascending order: in round r logical lane j carries codeword 8r + j (R343); `fuel` bounds them. -/
def State.consumeLanes (n : Nat) : Nat → State → State
  | 0, s => s
  | fuel + 1, s =>
    match (s.lk n).skew.findIdx? (fun x => x.1 == (s.lk n).rxRound % 8) with
    | none => s
    | some i =>
      let cw := laneBytes (((s.lk n).skew.getD i (0, [])).2)
      if s.lkState n ≠ LnkS.up then s
      else State.consumeLanes n fuel
        (State.orFail n ((s.lkMod n (fun l => { l with skew := l.skew.eraseIdx i, rxRound := l.rxRound + 1 })).rxCodeword n cw))

/-- A codeword that reaches a link in the cycle of its failure: its ACKSEQ comes first, and the flits that it acknowledges leave the retry buffer
before it is kept (R352). -/
def State.lateAck (s : State) (n : Nat) (levels : List Nat) : State :=
  if (s.lk n).keptAt ≠ some s.now then s
  else
    match rsDecode (if n < 64 then laneBytes (levels.drop 16) else groupBytes (levels.drop 16)) with
    | none => s
    | some (m, _) =>
      let h := flitHdrOf (m.take 16)
      if flitCrc (m.take 16) (m.drop 16) = h.crc then s.lkMod n (fun l => { l with retry := ackDrop h.ackseq l.retry }) else s

/-- The levels of a slot are received, comma first: on physical lane `p` of an attach link, or on the 16 drop rings of an optical link, symbol by
symbol (R342, R343, R346, R357). -/
def State.codewordIn (s : State) (n p : Nat) (levels : List Nat) : State :=
  let j := if n < 64 then s.logicalLane n p else 0
  let l := s.undo n j levels
  if s.lkState n ≠ LnkS.up then s.lateAck n l
  else if (s.lk n).rx ≠ 0 then s
  else
    let s1 := (s.adapt n).commaSeen n j l
    if s1.lkState n ≠ LnkS.up then s1
    else if n < 64 then
      let s2 := s1.lkMod n (fun k => { k with skew := k.skew ++ [(j, l.drop 16)] })
      State.consumeLanes n (s2.lk n).skew.length s2
    else State.orFail n (s1.rxCodeword n (groupBytes (l.drop 16)))

/-- A codeword of this cycle still waits for a link: its NAK or credit update comes before a timer of the link (R352). -/
def bringsCodeword (n : Nat) : Instr → Bool
  | .codewordReceive m _ _ => m == n
  | .burstReceive l _ _ => 64 + l == n
  | _ => false

/-- ACKSEQ has not advanced for 1 µs while flits are unacknowledged (R346). -/
def State.replayTimer (s : State) (n : Nat) : State :=
  if s.lkActive n && !(s.lk n).retry.isEmpty && decide ((s.lk n).ackAt + us 1 ≤ s.now) && !s.soon (bringsCodeword n) then State.orFail n (s.replay n)
  else s

/-- No credit update for a pool for 2 µs (R349). -/
def State.creditFailure (s : State) (n pool : Nat) : State :=
  if s.lkState n = LnkS.up ∧ (s.lk n).rx = 0 ∧ pool < 9 ∧ (tblGet ({} : Credit) (s.lk n).credits pool).at_ + us 2 ≤ s.now
      ∧ s.soon (bringsCodeword n) = false then
    (s.fsat Fld.lnkLl_CRED_FAIL n 0 1).linkFail n 1
  else s

/-- HOLD_EFF has passed since the failure (R347). -/
def State.stateDiscard (s : State) (n : Nat) : State :=
  match (s.lk n).keptAt with
  | none => s
  | some t => if t + s.holdEff ≤ s.now then s.lkMod n (Lnk.discard (decide (64 ≤ n))) else s

/-- 2 µs of energy without alignment (R351). -/
def State.relockTimeout (s : State) (n : Nat) : State :=
  if (s.lk n).rx = 2 ∧ (s.lk n).rxAt + us 2 ≤ s.now then s.linkFail n 3 else s

/-- ADMIN changes from 0 to 1 (R183): the packets of the link are freed, and the link layer is held untrained. -/
def State.adminSet (s : State) (l : Nat) : State :=
  if s.fget Fld.hubLink_ADMIN l = 1 then s
  else
    let s1 := s.fset Fld.hubLink_ADMIN l 0 1
    let s2 := if s.fget Fld.hubLink_STATE l = Hub.up then s1.toHold l else s1
    let s3 := ((s2.freeHold l 1).hubSet l Hub.down).lkMod (64 + l) (Lnk.discard true)
    (s3.lkEnter (64 + l) LnkS.reset).lkAwake (64 + l)

/-- ADMIN changes from 1 to 0: the link layer may train. -/
def State.adminClear (s : State) (l : Nat) : State :=
  if s.fget Fld.hubLink_ADMIN l = 0 then s else (s.fset Fld.hubLink_ADMIN l 0 0).lkRelease (64 + l)

end Sys2Proof.Machine
end

