-- ==== Sys2Proof/Machine/Optics.lean ====
section
/-! DEFINITION. Optical chiplets: ring search and lock, bursts, visits, laser power (R355 to R374). -/

namespace Sys2Proof.Machine
open Sys2Proof

/-! ### Rings and buses -/

/-- Register index of ring `r` of bus `b`. -/
def ringIx (b r : Nat) : Nat := 16 * b + r
def busKey (g b : Nat) : Nat := 5 * g + b
def ringKey (g b r : Nat) : Nat := 80 * g + 16 * b + r

/-- Ring states (Table — ring and fibre entries). -/
def Ring.unlocked : Nat := 0
def Ring.sweep : Nat := 1
def Ring.locking : Nat := 2
def Ring.locked : Nat := 3
def Ring.lost : Nat := 4

def State.optRing (s : State) (g b r : Nat) : Nat := s.fget Fld.optGRing_STATE g (ringIx b r)
def State.optRingSet (s : State) (g b r st : Nat) : State := s.fset Fld.optGRing_STATE g (ringIx b r) st
def State.optHeat (s : State) (g b r c : Nat) : State := s.fset Fld.optGRing_HEAT g (ringIx b r) c

/-- Links that use a bus (R355): the transmit bus serves all four fibre pairs. -/
def busLinks (g b : Nat) : List Nat := if b = 0 then (List.range 4).map (fun f => 64 + 4 * g + f) else [64 + 4 * g + (b - 1)]

/-- OPT_OK of a chiplet: every bus of its groups has BUS_OK (R475). -/
def State.optOk (s : State) (c : Nat) : State :=
  let ok := (List.range 4).all (fun i => s.fget Fld.optGStat_BUS_OK (4 * c + i) == 31)
  let v := s.fget Fld.cmdBootW0_OPT_OK
  s.fset Fld.cmdBootW0_OPT_OK 0 0 (v - v / 2 ^ c % 2 * 2 ^ c + b2n ok * 2 ^ c)

/-- Bring BUS_OK of a bus up to date: 1 while all 16 rings are LOCKED (R366); links whose buses are ready may leave RESET. -/
def State.busUpdate (s : State) (g b : Nat) : State :=
  let ok := (List.range 16).all (fun r => s.optRing g b r == Ring.locked)
  let v := s.fget Fld.optGStat_BUS_OK g
  let s1 := (s.fset Fld.optGStat_BUS_OK g 0 (v - v / 2 ^ b % 2 * 2 ^ b + b2n ok * 2 ^ b)).optOk (g / 4)
  if ok then State.each (busLinks g b) (fun s n => s.lkRelease n) s1 else s1

def State.searching (s : State) (g : Nat) : Bool := (List.range 5).any (fun b => (tblFind s.opt.search (busKey g b)).isSome)

/-- A bus may be searched: the links that use it are in RESET (R366). -/
def State.searchable (s : State) (g b : Nat) : Bool := (busLinks g b).all (fun n => s.lkState n == LnkS.reset)

/-! ### Search (R365, R366) -/

/-- The ring that a search sweeps at its place. -/
def BusSearch.ring (x : BusSearch) : Nat := match x.single with
  | some r => r
  | none => if x.rev then 15 - x.place else x.place

/-- Sweep the ring of a search. -/
def State.sweepRing (s : State) (g b : Nat) (x : BusSearch) : State :=
  ({ s with opt := { s.opt with search := tblPut s.opt.search (busKey g b) { x with at_ := s.now } } }).optRingSet g b x.ring Ring.sweep

/-- Start the search of a whole bus in one order: every heater 0, every ring UNLOCKED. -/
def State.searchBus (s : State) (g b : Nat) (rev : Bool) : State :=
  let s1 := State.each (List.range 16) (fun s r =>
    let s' := (s.optHeat g b r 0).optRingSet g b r Ring.unlocked
    { s' with opt := { s'.opt with locks := tblDel s'.opt.locks (ringKey g b r) } }) s
  (((s1.busUpdate g b).fset Fld.optGStat_SEARCH g 0 1).sweepRing g b { rev := rev })

/-- Start the searches that AUTO_SEARCH asks for on a chiplet whose domain is Active (R366). -/
def State.autoSearch (s : State) (c : Nat) : State :=
  State.each ((List.range 4).map (4 * c + ·)) (fun s g =>
    if s.fget Fld.optGCtrl_AUTO_SEARCH g = 1 then
      State.each (List.range 5) (fun s b => if s.searchable g b && (tblFind s.opt.search (busKey g b)).isNone then s.searchBus g b false else s) s
    else s) s

/-- A search command whose buses have all ended completes, and its links' EN is 1 again (R369). -/
def State.optCmdsDone (s : State) (g : Nat) : State :=
  let ended := s.opt.cmds.filter (fun c => c.group == g && (List.range 5).all (fun b => c.buses / 2 ^ b % 2 == 0 || (tblFind s.opt.search (busKey g b)).isNone))
  State.each ended (fun s c =>
    let bs := (List.range 5).filter (fun b => c.buses / 2 ^ b % 2 == 1)
    let s1 := State.each (bs.flatMap (busLinks g)) (fun s n => s.enWrite n 1) { s with opt := { s.opt with cmds := s.opt.cmds.filter (· != c) } }
    s1.completeTicket c.ticket (if bs.all (fun b => s.busOk g b) then Status.ok else Status.fault) []) s

/-- The search of a bus ends; SEARCH of the group changes when its last one has. -/
def State.searchEnd (s : State) (g b : Nat) (ok : Bool) : State :=
  let s1 : State := { s with opt := { s.opt with
    search := tblDel s.opt.search (busKey g b)
    failed := if ok then s.opt.failed else g :: s.opt.failed } }
  let s2 := if ok then s1 else s1.errRec 3 0x32 8 (busKey g b) [s1.fget Fld.optGStat_AMBIG g]
  let s3 := if s2.searching g then s2
    else ({ s2 with opt := { s2.opt with failed := s2.opt.failed.filter (· != g) } }).fset Fld.optGStat_SEARCH g 0 (if s2.opt.failed.contains g then 2 else 0)
  s3.optCmdsDone g

/-- The search of a bus returns FAIL: the other order is tried once; a single-ring sweep is not repeated. -/
def State.searchFail (s : State) (g b : Nat) : State :=
  match tblFind s.opt.search (busKey g b) with
  | none => s
  | some x => if x.rev || x.single.isSome then s.searchEnd g b false else s.searchBus g b true

/-- A ring locked: the search goes on to the next ring, or ends OK. -/
def State.searchNext (s : State) (g b r : Nat) : State :=
  match tblFind s.opt.search (busKey g b) with
  | none => s
  | some x =>
    if x.ring ≠ r then s
    else if x.single.isSome then s.searchEnd g b true
    else if 15 ≤ x.place then (s.fset Fld.optGStat_REVERSED g 0 (b2n x.rev)).searchEnd g b true
    else s.sweepRing g b { x with place := x.place + 1 }

/-- The sweep of ring `r` ends with these dips (code, depth in 1/256 of the deepest), in ascending code. -/
def State.sweepDone (s : State) (g b r : Nat) (dips : List (Nat × Nat)) : State :=
  match tblFind s.opt.search (busKey g b) with
  | none => s
  | some x =>
    if x.ring ≠ r ∨ s.optRing g b r ≠ Ring.sweep ∨ s.now < x.at_ + us 4096 then s
    else
      let hi := s.fget Fld.optGCtrl_TAKEN_HI g
      let before := dips.takeWhile (fun d => decide (d.2 < hi))
      let amb := (before.filter (fun d => decide (s.fget Fld.optGCtrl_TAKEN_LO g ≤ d.2))).length
      let s1 := (s.fset Fld.optGRing_DIPS g (ringIx b r) (min 31 dips.length)).fsat Fld.optGStat_AMBIG g 0 amb
      match dips.find? (fun d => decide (hi ≤ d.2)) with
      | none => (s1.optRingSet g b r Ring.unlocked).searchFail g b
      | some (code, _) =>
        let s2 := ((s1.fset Fld.optGRing_SWEPT g (ringIx b r) code).optHeat g b r code).optRingSet g b r Ring.locking
        { s2 with opt := { s2.opt with locks := tblPut s2.opt.locks (ringKey g b r) { start := s.now, last := s.now } } }

/-! ### Lock (R367, R368) -/

/-- LASER_LOW of the chiplet of group `g`. -/
def State.laserLow (s : State) (g : Nat) : Bool := s.fget Fld.optOcStat_LASER_LOW (g / 4) == 1

/-- The burst in progress to a fibre ends with the packet-abort marker (R371): its next flit carries it, or an idle flit where it has no credit, and
the rest of the packet is not sent. -/
def State.abortBurst (s : State) (n : Nat) : State :=
  if !(s.lkActive n && (s.lk n).midPacket) then s
  else
    match (s.lk n).txq.find? (fun f => !f.sop) with
    | none => s
    | some f =>
      let g : Flit := { f with abort := true, eop := false }
      let s1 := s.lkMod n (fun l => { l with txq := dropTails [] l.txq })
      if (s.lk n).flitWaits [] f then s1.sendCodeword n { kind := 1, vc := f.vc, abort := true } (List.replicate 256 0) none f.pool else s1.sendNext n g

/-- A LOCKED ring is lost; the burst that a transmit ring was sending ends first (R371). -/
def State.ringLost (s0 : State) (g b r : Nat) : State :=
  let s := if b = 0 then State.each (busLinks g 0) (fun s n => s.abortBurst n) s0 else s0
  let s1 := ((s.optRingSet g b r Ring.lost).fsat Fld.optGRing_LOSSES g (ringIx b r) 1).errRec 2 0x30 8 (busKey g b) [r, s.fget Fld.optGRing_HEAT g (ringIx b r)]
  let s2 : State := { s1 with opt := { s1.opt with locks := tblDel s1.opt.locks (ringKey g b r) } }
  State.each (busLinks g b) (fun s n => s.linkFail n 8) (s2.busUpdate g b)

/-- A drop ring holds its code between bursts: no burst of its UP fibre lies in this cycle (R367; log entry 64). -/
def State.betweenBursts (s : State) (g b : Nat) : Bool :=
  decide (0 < b) && s.lkState (63 + 4 * g + b) == LnkS.up && (s.lk (63 + 4 * g + b)).burstAt != s.now

/-- An update of a dithered ring, 4 µs or more after the last: |error| is `err`, and the set point moves by `mv` (0 not, 1 up, 2 down) (R367);
none comes later than 128 µs before lock. While line power is low the ring holds its code (R370). -/
def State.dither (s : State) (g b r err mv : Nat) : State :=
  let st := s.optRing g b r
  let k := ringKey g b r
  let x := tblGet ({} : RingLock) s.opt.locks k
  if (st ≠ Ring.locking ∧ st ≠ Ring.locked) ∨ s.laserLow g = true ∨ s.now < x.last + us 4 ∨ s.betweenBursts g b = true
      ∨ (st = Ring.locking ∧ x.start + us 128 < s.now) then s
  else
    let y : RingLock := { x with
      last := s.now
      good := if err ≤ Config.lockTol k then x.good + 1 else 0
      bad := if Config.lossTol k < err then x.bad + 1 else 0 }
    let h := s.fget Fld.optGRing_HEAT g (ringIx b r)
    let h1 := if mv = 1 then min 4095 (h + 1) else if mv = 2 then h - 1 else h
    let s1 := ({ s with opt := { s.opt with locks := tblPut s.opt.locks k y } }).optHeat g b r h1
    if st = Ring.locking then
      if 16 ≤ y.good ∧ x.start + us 64 ≤ s.now then ((s1.optRingSet g b r Ring.locked).busUpdate g b).searchNext g b r else s1
    else if 64 ≤ y.bad ∨ h1 = 0 ∨ h1 = 4095 then s1.ringLost g b r
    else s1

/-- An update of this ring still waits in this cycle: at the 128 µs mark it comes before the failure (R367). -/
def updatesRing (g b r : Nat) : Instr → Bool
  | .ditherUpdate g1 b1 r1 _ _ => g1 == g && b1 == b && r1 == r
  | _ => false

/-- 128 µs of dither without lock. -/
def State.lockTimeout (s : State) (g b r : Nat) : State :=
  let k := ringKey g b r
  let t := (tblGet ({} : RingLock) s.opt.locks k).start + us 128
  if s.optRing g b r = Ring.locking ∧ t ≤ s.now ∧ ¬ (t = s.now ∧ s.soon (updatesRing g b r) = true) then
    (({ s with opt := { s.opt with locks := tblDel s.opt.locks k } }).optRingSet g b r Ring.unlocked).searchFail g b
  else s

/-- A lost ring with AUTO_RELOCK whose links are in RESET is swept alone. -/
def State.ringRelock (s : State) (g b r : Nat) : State :=
  if s.optRing g b r = Ring.lost ∧ s.fget Fld.optGCtrl_AUTO_RELOCK g = 1 ∧ s.searchable g b = true ∧ (tblFind s.opt.search (busKey g b)).isNone = true then
    (s.fset Fld.optGStat_SEARCH g 0 1).sweepRing g b { single := some r }
  else s

/-! ### OPT_SEARCH (R369) -/

/-- A link that uses a named bus: EN = 0, and its egress acts as for ADMIN = 1 and then 0. -/
def State.searchLinkOff (s : State) (n : Nat) : State :=
  let s1 := s.enWrite n 0
  let l := n - 64
  if s1.fget Fld.hubLink_ADMIN l = 1 then s1 else (s1.adminSet l).fset Fld.hubLink_ADMIN l 0 0

/-- Run an accepted OPT_SEARCH. -/
def State.optSearch (s : State) (g buses ticket : Nat) : State :=
  let bs := (List.range 5).filter (fun b => buses / 2 ^ b % 2 == 1)
  let s1 := State.each ((busLinks g 0).filter (fun n => bs.any (fun b => (busLinks g b).contains n))) (fun s n => s.searchLinkOff n) s
  State.each bs (fun s b => s.searchBus g b false) { s1 with opt := { s1.opt with cmds := s1.opt.cmds ++ [{ ticket := ticket, group := g, buses := buses }] } }

/-! ### Laser (R370) -/

/-- Line power of a chiplet has been `pwr` (10 µW) or less for 10 µs. -/
def State.laserBelow (s : State) (c pwr : Nat) : State :=
  let s1 := s.fset Fld.optOcPwr_PWR c 0 pwr
  if s.fget Fld.optOcPwr_LASER_MIN c ≤ pwr ∨ s.fget Fld.optOcStat_LASER_LOW c = 1 then s1
  else (s1.fset Fld.optOcStat_LASER_LOW c 0 1).errRec 2 0x31 9 c [s1.fget Fld.optOcPwr_PWR c]

/-- Line power returns to `pwr`. -/
def State.laserReturn (s : State) (c pwr : Nat) : State :=
  let s1 := s.fset Fld.optOcPwr_PWR c 0 pwr
  if s.fget Fld.optOcPwr_LASER_MIN c ≤ pwr then s1.fset Fld.optOcStat_LASER_LOW c 0 0 else s1

/-! ### Bursts and visits (R360, R361, R364) -/

/-- Slots of a burst, in order, while the link is UP and awake. -/
def State.burstWords (s : State) (n : Nat) (cws : List (List Nat)) : State := State.each cws (fun s levels => s.codewordIn n 0 levels) s

/-- The first comma of a burst to optical link `l` is a hit. -/
def State.firstHit (s : State) (l : Nat) (cws : List (List Nat)) : Bool := commaHit ((s.undo (64 + l) 0 (cws.headD [])).take 16)

/-- A burst arrives on optical link `l`: its slots. It loads the stored phase and taps, and stores them at its end (R361); one that comes in the cycle
of a failure only brings its ACKSEQ (R352, R371). -/
def State.burst (s : State) (l : Nat) (cws : List (List Nat)) : State :=
  let n := 64 + l
  let g := l / 4
  let f := l % 4
  if s.lkState n ≠ LnkS.up then s.burstWords n cws
  else
    let s0 := ((if (s.lk n).rx = 1 then s.rxqEnergy n else s)).lkMod n (fun k => { k with burstAt := s.now, rxTaps := k.stored, missed := [] })
    if s.firstHit l cws then
      let s1 := (if (s0.lk n).rx = 2 then s0.relockDone n else s0).lkMod n (fun k => { k with misses := 0 })
      ((s1.fsat Fld.optGBurst_BURSTS g f 1).burstWords n cws).lkMod n (fun k => { k with stored := k.rxTaps })
    else
      let s1 := (s0.fsat Fld.optGBurst_BMISS g f 1).lkMod n (fun k => { k with misses := k.misses + 1 })
      let s2 := if (s1.lk n).gap then s1 else (s1.lkMod n (fun k => { k with gap := true })).owesNak n
      if s2.fget Fld.optGCtrl_BMISS_MAX g ≤ (s2.lk n).misses then (s2.fsat Fld.optGFail_BMISS_FAIL g f 1).linkFail n 6 else s2

/-- A burst to optical link `l` whose first comma hits still waits in this cycle: it comes before the expiry of DARK_MAX (R371). -/
def State.hitsSoon (s : State) (l : Nat) : Bool :=
  s.soon (fun c => match c with
    | .burstReceive m first cws => m == l && s.firstHit l (first :: cws)
    | _ => false)

/-- A fibre has been dark for DARK_MAX outside RXQ. -/
def State.dark (s : State) (l : Nat) : State :=
  let n := 64 + l
  if s.lkState n = LnkS.up ∧ (s.lk n).rx ≠ 1 ∧ (s.lk n).burstAt + s.fget Fld.optGCtrl_DARK_MAX (l / 4) * 800 ≤ s.now ∧ s.hitsSoon l = false then
    (s.fsat Fld.optGFail_DARK_FAIL (l / 4) (l % 4) 1).linkFail n 7
  else s

/-- CRED_PER of a link, in cycles. -/
def State.credPer (s : State) (n : Nat) : Nat := s.fget Fld.lnkCtrl_CRED_PER n * 200

/-- Visits that a fibre has had within CRED_PER. -/
def State.visitsOf (s : State) (n : Nat) : List Nat := (s.lk n).visits.filter (fun t => decide (s.now < t + s.credPer n))

/-- A visit is due: the link is neither in RESET nor DOWN nor asleep, it owes a NAK or has had no burst for CRED_PER, no packet of another fibre is
incomplete, and the group has had fewer than three in CRED_PER (R360). -/
def State.visitDue (s : State) (l : Nat) : Bool :=
  let n := 64 + l
  s.lkState n != LnkS.reset && s.fget Fld.hubLink_STATE l != Hub.down && (s.lk n).tx == 0 && s.fibreFree n
    && decide (((groupLinks n).map (fun m => (s.visitsOf m).length)).sum < 3) && ((s.lk n).nak || decide ((s.lk n).sentAt + s.credPer n ≤ s.now))

/-- A visit of a fibre: one idle flit, and the steering back to the fibre before (R360). -/
def State.visit (s : State) (l : Nat) : State :=
  let n := 64 + l
  if s.visitDue l then
    let pool := s.fget Fld.optGVisits_VISITS (l / 4) (l % 4) % 9
    let s1 := (((s.fsat Fld.optGVisits_VISITS (l / 4) (l % 4) 1).lkMod n (fun k => { k with visits := s.now :: s.visitsOf n })).grant n pool).sendIdle n pool
    match tblFind s.lnk.aim (linkPort n) with
    | some m => s1.aimAt m
    | none => s1
  else s

/-- A training burst of a fibre in training while another fibre of its group is UP: 8 frames per lane (R364). -/
def State.trainBurst (s : State) (l : Nat) : State :=
  let n := 64 + l
  let st := s.lkState n
  if !s.trainsNow n && st != LnkS.reset && st != LnkS.up && s.fibreFree n then
    (State.each (List.range 8) (fun s _ => s.trainSlot n st) (s.aimAt n)).lkMod n (fun k => { k with trainAt := s.now })
  else s

/-! ### Reset of a chiplet (R372) -/

/-- A reset of OCn or a power-off of its domain: rings, searches, links. -/
def State.chipletDown (s : State) (c : Nat) : State :=
  let gs := (List.range 4).map (4 * c + ·)
  let s1 := State.each (gs.flatMap (fun g => (List.range 4).map (fun f => 64 + 4 * g + f))) (fun s n => s.linkReset n) s
  let s2 : State := { s1 with opt := { s1.opt with
    search := tblDrop s1.opt.search (fun k => k / 20 == c)
    locks := tblDrop s1.opt.locks (fun k => k / 320 == c)
    failed := s1.opt.failed.filter (fun g => !gs.contains g) } }
  let s3 := State.each gs (fun s g =>
    (State.each (List.range 5) (fun s b =>
      (State.each (List.range 16) (fun s r => (s.optHeat g b r 0).optRingSet g b r Ring.unlocked) s).busUpdate g b) s).fset Fld.optGStat_SEARCH g 0 0) s2
  State.each gs (fun s g => s.optCmdsDone g) s3

end Sys2Proof.Machine
end

