-- ==== Sys2Proof/Machine/Ring.lean ====
section
/-! DEFINITION. Command rings (05): commit, push, completion records, ring states, flush, engines, parking and resumption. -/

namespace Sys2Proof.Machine
open Sys2Proof

/-- Ring states (Table — ring registers of the EPB). -/
def RingSt.off : Nat := 0
def RingSt.run : Nat := 1
def RingSt.held : Nat := 2
def RingSt.halted : Nat := 3
def RingSt.flushed : Nat := 4

def State.ringState (s : State) (n r : Nat) : Nat := s.fget Fld.epbRingStat_STATE n r
def State.ringSize (s : State) (n r : Nat) : Nat := 2 ^ s.fget Fld.epbRingCfg_ORDER n r
def State.ringTail (s : State) (n r : Nat) : Nat := s.fget Fld.epbRingTail_TAIL n r
def State.ringLow (s : State) (n r : Nat) : Nat := s.fget Fld.epbRingLow_LOW n r
def State.ringFetch (s : State) (n r : Nat) : Nat := s.fget Fld.epbRingFetch_FETCH n r
def State.ringFill (s : State) (n r : Nat) : Nat := s.fget Fld.epbRingFill_FILL n r

/-- Engines that a ring occupies; its park entries in use; its descriptors that wait to resume. -/
def State.ringUse (s : State) (n r : Nat) : Nat := ((s.epbAt n).engines.filter (fun x => x.2.ring == r)).length
def State.ringParks (s : State) (n r : Nat) : Nat := ((s.epbAt n).parks.filter (fun p => p.mover.ring == r)).length
def State.ringResumes (s : State) (n r : Nat) : Nat :=
  ((s.epbAt n).resumes.filter (fun p => p.mover.ring == r && !p.mover.ni)).length

/-- The status registers of a ring and of the park entries show the EPB's state (R108, R109, R129). -/
def State.ringShow (s : State) (n r : Nat) : State :=
  let s1 := (s.fset Fld.epbRingStat_ENG_USE n r (s.ringUse n r)).fset Fld.epbRingStat_PARKED n r (s.ringParks n r)
  let s2 := s1.fset Fld.epbParkStat_PARKED n 0 (s.epbAt n).parks.length
  s2.setBit .epbParkRings n 0 r (decide (0 < s.ringParks n r))

/-! ### Commit and push (R116, R118) -/

/-- A commit of TAIL = `new`: the state, when it is accepted (R116). -/
def State.ringCommit (s : State) (n r new : Nat) : Option State :=
  let tail := s.ringTail n r
  let d := (new + 2 ^ 32 - tail) % 2 ^ 32
  let u := (tail + 2 ^ 32 - s.ringLow n r) % 2 ^ 32
  let st := s.ringState n r
  if (st = RingSt.run ∨ st = RingSt.held ∨ st = RingSt.halted) ∧ d + u ≤ s.ringSize n r
      ∧ (s.fget Fld.epbRingCfg_PUSH n r = 0 ∨ (s.ringFill n r + 2 ^ 35 - 8 * new % 2 ^ 35) % 2 ^ 35 < 2 ^ 34) then
    some (s.fset Fld.epbRingTail_TAIL n r new)
  else none

/-- GFA of byte `b` of a ring's item array, and of its completion array. -/
def State.itemGfa (s : State) (n r b : Nat) : Nat := s.xyp * 2 ^ 52 + s.fget Fld.epbRingBase_ADDR n r * 4096 + b
def State.complGfa (s : State) (n r b : Nat) : Nat := s.xyp * 2 ^ 52 + s.fget Fld.epbRingCqbase_ADDR n r * 4096 + b

/-- Write pushed bytes at byte `b` of a ring's item array in one store; poisoned data is written as stored poison. The state, and whether the write
was performed. -/
def State.pushRun (s : State) (n r b : Nat) (poison : Bool) (data : List Byte) : State × Bool :=
  let gfa := s.itemGfa n r b
  if data.isEmpty then (s, true)
  else if poison then
    (if 120 ≤ gfaE gfa then (s, false)
     else match s.poolKey (gfaE gfa - 112) (gfaOff gfa) data.length with
      | some a => (s.storePoison a data.length, true)
      | none => (s, false))
  else s.internalWrite gfa data

/-- Write pushed bytes at word position `w`: a run up to the end of the item array, and the rest from its start. -/
def State.pushBytes (s : State) (n r w : Nat) (poison : Bool) (data : List Byte) : State × Bool :=
  let size := 64 * s.ringSize n r
  let x := s.pushRun n r (8 * w % size) poison (data.take (size - 8 * w % size))
  let y := x.1.pushRun n r 0 poison (data.drop (size - 8 * w % size))
  (y.1, x.2 && y.2)

/-- A push STORE of `data` (R118): its status, and the state. -/
def State.ringPush (s : State) (n r : Nat) (data : List Byte) (poison : Bool) : Nat × State :=
  let k := data.length / 8
  let fill' := (s.ringFill n r + k) % 2 ^ 35
  let lim := 8 * (s.ringLow n r + s.ringSize n r) % 2 ^ 35
  let st := s.ringState n r
  if s.fget Fld.epbRingCfg_PUSH n r = 0 ∨ st = RingSt.off ∨ st = RingSt.flushed ∨ 2 ^ 34 ≤ (lim + 2 ^ 35 - fill') % 2 ^ 35 then
    (TStat.badParam, s)
  else
    let (s1, ok) := s.pushBytes n r (s.ringFill n r) poison (data.take (8 * k))
    (if ok then TStat.ok else TStat.fault, s1.fset Fld.epbRingFill_FILL n r fill')

/-! ### Completion (R119 to R122) -/

/-- Write a completion or flush record (R120, R121); a failed write is recorded with CAUSE 0x18. -/
def State.ringRecord (s : State) (n r e idx cstat kind cookie resumeOff info : Nat) : State :=
  let q := idx / s.ringSize n r % 2
  let phase := if kind = 0 then 1 - q else q
  let w : List Word := [BitVec.ofNat 64 (idx * 2 ^ 32 + cstat * 2 ^ 28 + kind * 2 ^ 26 + phase * 2 ^ 25),
    BitVec.ofNat 64 (resumeOff * 2 ^ 32 + cookie), BitVec.ofNat 64 info, BitVec.ofNat 64 s.time]
  let x := s.internalWrite (s.complGfa n r (32 * (idx % s.ringSize n r))) (bytesOfWords w)
  if x.2 then x.1 else x.1.fault n { cause := 0x18, actor := 1, status := TStat.fault, context := r * 2 ^ 58 + e * 2 ^ 55 + idx % 2 ^ 32 }

/-- LOW advances past every leading index whose record has been written (R121); `k` bounds the steps. -/
def State.lowAdvance (n r : Nat) : Nat → State → State
  | 0, s => s
  | k + 1, s =>
    let low := s.ringLow n r
    let l := tblGet [] (s.epbAt n).ringDone r
    if l.contains low then
      State.lowAdvance n r k ((s.fwrap Fld.epbRingLow_LOW n r 1).epbMod n
        (fun e => { e with ringDone := tblPut e.ringDone r (l.filter (· != low)) }))
    else s

/-- An item counts as complete: its index is marked and LOW advances. -/
def State.itemDone (s : State) (n r idx : Nat) : State :=
  let s1 := s.epbMod n (fun e => { e with ringDone := tblMod [] e.ringDone r (idx % 2 ^ 32 :: ·) })
  State.lowAdvance n r (tblGet [] (s1.epbAt n).ringDone r).length s1

/-- A ring signals its vector: the item had IRQ = 1 (R121). -/
def State.ringIrq (s : State) (n r : Nat) : State := s.emit (.msix (n / 32) (s.fget Fld.epbRingCfg_VEC n r))

/-- An item's CRC claim ends, unless it was lost. -/
def State.itemCrc (s : State) (m : Mover) : State :=
  match m.crc with
  | some c => if m.crcLost then s else s.crcRelease c
  | none => s

/-- A final fault of an item halts a ring that has STOP_ON_ERR. -/
def State.itemHalt (s : State) (n r : Nat) (final : Bool) : State :=
  if final ∧ s.fget Fld.epbRingCfg_STOP_ON_ERR n r = 1 ∧ (s.ringState n r = RingSt.run ∨ s.ringState n r = RingSt.held) then
    s.fset Fld.epbRingStat_STATE n r RingSt.halted
  else s

/-- Complete an item: its record, LOW, its vector, its CRC claim, and HALTED after a final fault with STOP_ON_ERR (R121, R122). -/
def State.itemEnd (s : State) (n e : Nat) (m : Mover) (cstat info : Nat) (final : Bool) : State :=
  let w := wordAt m.words 0
  let s1 := (s.ringRecord n m.ring e m.index cstat 0 (bits w 31 0) m.abortOff info).itemDone n m.ring m.index
  let s2 := if bit w 59 then s1.ringIrq n m.ring else s1
  (s2.itemCrc m).itemHalt n m.ring final

/-- An engine's item ends (R97, R121, R122, R499). -/
def State.itemComplete (s : State) (n e : Nat) : State :=
  match tblFind (s.epbAt n).engines e with
  | none => s
  | some m =>
    let free := fun (s : State) => (s.epbMod n (fun x => { x with engines := tblDel x.engines e })).ringShow n m.ring
    if m.toFail then
      let (st, id, s1) := s.moverFault n e m
      (free (s1.itemEnd n e m st id true))
    else if m.allDone then
      if m.crcLost then
        let (id, s1) := s.faultRec n { cause := 0x0E, status := TStat.fault, actor := 1, context := m.context e }
        free (s1.itemEnd n e m TStat.fault id true)
      else free (s.itemEnd n e m TStat.ok 0 false)
    else s

/-- A descriptor parks (R97, R123). -/
def State.descriptorPark (s : State) (n e : Nat) : State :=
  match tblFind (s.epbAt n).engines e with
  | none => s
  | some m =>
    if m.toPark && decide (s.ringParks n m.ring < 8) then
      let (p, s1) := s.moverPark n e m
      let s2 := s1.epbMod n (fun x => { x with engines := tblDel x.engines e, parks := x.parks ++ [p] })
      let s3 := if s2.ringState n m.ring = RingSt.run then s2.fset Fld.epbRingStat_STATE n m.ring RingSt.held else s2
      s3.ringShow n m.ring
    else s

/-! ### Start of an item (R110, R115, R119) -/

/-- The words of the item at the head of a ring: from memory, or as PCI Express returned them. -/
def State.headItem (s : State) (n r : Nat) (ext : List (Nat × List Word)) : Option (Option (List Word)) :=
  let gfa := s.itemGfa n r (64 * (s.ringFetch n r % s.ringSize n r))
  if 120 ≤ gfaE gfa then
    match ext.find? (fun x => x.1 == r) with
    | none => none
    | some x => some (if x.2.length = 8 then some x.2 else none)
  else some ((s.internalRead gfa 64 none).map (wordsOf 8))

/-- The ring may start its head item: no start condition of R119 is unmet. -/
def State.headReady (s : State) (n r : Nat) (ext : List (Nat × List Word)) : Bool :=
  let ok := fun (w : List Word) =>
    let w0 := wordAt w 0
    (!bit w0 58 || (s.ringLow n r == s.ringFetch n r)) && (!bit w0 57 || s.crcFree (bits w0 56 53))
  (s.headItem n r ext).elim false (fun w => w.elim true ok)

/-- A ring may start a new item (R110, R99). -/
def State.ringReady (s : State) (n r : Nat) (ext : List (Nat × List Word)) : Bool :=
  s.ringState n r == RingSt.run && s.ringFetch n r != s.ringTail n r && decide (s.ringUse n r < s.fget Fld.epbRingCfg_ENG_MAX n r)
    && s.ringParks n r == 0 && s.ringResumes n r == 0 && !s.readWaits (s.itemGfa n r 0) && s.headReady n r ext

/-- A ring has a descriptor to resume (R98). -/
def State.ringResumable (s : State) (n r : Nat) : Bool :=
  s.ringState n r != RingSt.off && decide (0 < s.ringResumes n r) && decide (s.ringUse n r < s.fget Fld.epbRingCfg_ENG_MAX n r)

/-- The ring that a free engine serves (R110): first one below its ENG_MIN, then the next in round-robin order. -/
def State.nextRing (s : State) (n : Nat) (ext : List (Nat × List Word)) : Option Nat :=
  let last := (s.epbAt n).lastRing
  let order := (List.range 64).map (fun i => (last + 1 + i) % 64)
  let ok := order.filter (fun r => s.ringResumable n r || s.ringReady n r ext)
  match ok.find? (fun r => decide (s.ringUse n r < s.fget Fld.epbRingCfg_ENG_MIN n r)) with
  | some r => some r
  | none => ok.head?

/-- Checks of a descriptor's format (R112, R113, R115 items 1 and 4). -/
def descFormOk (w : List Word) : Bool :=
  let w0 := wordAt w 0
  let op := bits w0 63 60
  let vc := bits w0 42 40
  let fmt := bits w0 39 36
  decide (op ≤ 4) && !bit w0 32 && (vc == 2 || vc == 3 || vc == 5) && bits w0 44 43 != 3 && (op == 3 || (fmt == 0 && bits w0 35 34 == 0))
    && (op == 0 || ((op == 2 || bits (wordAt w 1) 63 57 == 0) && bits (wordAt w 2) 63 57 == 0 && (op != 4 || wordAt w 2 == 0)
      && bits (wordAt w 4) 63 48 == 0 && bits (wordAt w 5) 63 48 == 0 && bits (wordAt w 6) 63 48 == 0 && bits (wordAt w 7) 63 48 == 0
      && (op != 4 || bit w0 57)))

/-- Tile limits (R114, R115 item 2). -/
def tileOk (m : Mover) : Bool :=
  let yp := bits (wordAt m.words 6) 47 0
  let yp' := if m.ycnt = 1 then m.xlen else yp
  decide (m.xlen * m.ycnt * m.zcnt ≤ 2 ^ 32)
    && (m.op == 4 || ((m.ycnt == 1 || decide (m.xlen ≤ yp)) && (m.zcnt == 1 || decide (yp' * m.ycnt ≤ bits (wordAt m.words 7) 47 0))))

/-- Format and alignment of a REDUCE (R115 item 3). -/
def reduceOk (w : List Word) : Bool :=
  let w0 := wordAt w 0
  let fmt := bits w0 39 36
  let k := fmtSize fmt
  fmt != 0 && fmt != 7 && bits w0 35 34 != 3 && (bits (wordAt w 3) 63 32 + 1) % k == 0
    && (List.range 8).all (fun i => i == 0 || i == 3 || (wordAt w i).toNat % k == 0)

/-- A descriptor passes the checks of R115. -/
def descOk (m : Mover) : Bool :=
  descFormOk m.words && (m.op == 0 || tileOk m) && (m.op != 3 || reduceOk m.words)

/-- Claim the CRC channel of an item (R126). -/
def State.moverClaim (s : State) (n : Nat) (m : Mover) : Mover × State :=
  let w0 := wordAt m.words 0
  if bit w0 57 then
    let c := bits w0 56 53
    ({ m with crc := some c }, s.crcClaim c 1 n m.ring (bit w0 33))
  else (m, s)

/-- Start a new item of a ring on an engine: `item` is the item at its head, as `headItem` answers it. It claims its CRC channel before R115 is
checked (R126). An item whose array read fails completes with COOKIE 0 and no vector, its words being unknown (DESIGN CHOICE: R122 does not say; log
entry 53). -/
def State.itemStartWith (s : State) (n r e : Nat) (item : Option (Option (List Word))) : State :=
  let idx := s.ringFetch n r
  let s1 := (s.internalTouch (s.itemGfa n r (64 * (idx % s.ringSize n r))) 64).fwrap Fld.epbRingFetch_FETCH n r 1
  let m0 : Mover := { ring := r, index := idx, fas := s.fget Fld.epbRingCfg_FAS n r }
  let put := fun (s : State) (m : Mover) =>
    (s.epbMod n (fun x => { x with engines := tblPut x.engines e m, lastRing := r })).ringShow n r
  match item with
  | some (some w) =>
    let m1 := { m0 with words := w, posted := bit (s.rd .epbTileCompat n) r && (bits (wordAt w 0) 63 60 == 1 || bits (wordAt w 0) 63 60 == 2) }
    let (m2, s2) := s1.moverClaim n m1
    if descOk m2 then put s2 m2
    else
      let f := s2.faultRec n { cause := 0x08, status := TStat.badParam, actor := 1, fas := m2.fas, context := m2.context e }
      put f.2 { m2 with failed := some TStat.badParam, record := f.1 }
  | _ =>
    let f := s1.faultRec n { cause := 0x0E, status := TStat.fault, actor := 1, fas := m0.fas, context := m0.context e,
                             gfa := some (s.itemGfa n r (64 * (idx % s.ringSize n r))) }
    put f.2 { m0 with words := List.replicate 8 0, failed := some TStat.fault, record := f.1 }

/-- Start the item at a ring's head. -/
def State.itemStart (s : State) (n r e : Nat) (ext : List (Nat × List Word)) : State := s.itemStartWith n r e (s.headItem n r ext)

/-- A free engine takes the next item: a descriptor that resumes, or the next committed one (R98, R110). -/
def State.engineStart (s : State) (n : Nat) (ext : List (Nat × List Word)) : State :=
  match (List.range 8).find? (fun e => (tblFind (s.epbAt n).engines e).isNone), s.nextRing n ext with
  | some e, some r =>
    if s.ringResumable n r then
      match (s.epbAt n).resumes.find? (fun p => p.mover.ring == r && !p.mover.ni) with
      | some p =>
        (s.epbMod n (fun x => { x with engines := tblPut x.engines e p.restart, lastRing := r,
                                       resumes := delFirst (fun q => decide (q = p)) x.resumes })).ringShow n r
      | none => s
    else s.itemStart n r e ext
  | _, _ => s

/-! ### Flush (R124) -/

/-- Word 0 of an item that is cancelled before it starts, as its array holds it, and the state that the read leaves (R112, R120). Where the read
fails, COOKIE is all ones and IRQ 0 (DESIGN CHOICE: R124 does not say; log entry 53). -/
def State.itemWord0 (s : State) (n r idx : Nat) : Word × State :=
  let gfa := s.itemGfa n r (64 * (idx % s.ringSize n r))
  (((s.internalRead gfa 8 (s.hostRead gfa 8)).map (fun b => BitVec.ofNat 64 (ofBytes b))).getD 0xFFFFFFFF, s.internalTouch gfa 8)

/-- Complete the item at FETCH, which has not started, with a status; with IRQ = 1 its vector is signalled after its record (R112, R121). -/
def State.cancelItem (s : State) (n r cstat : Nat) : State :=
  let idx := s.ringFetch n r
  let c := s.itemWord0 n r idx
  let s1 := ((c.2.fwrap Fld.epbRingFetch_FETCH n r 1).ringRecord n r 0 idx cstat 0 (bits c.1 31 0) 0 0).itemDone n r idx
  if bit c.1 59 then s1.ringIrq n r else s1

/-- Complete the committed items of a ring that have not started, with a status (R124 step 2). -/
def State.cancelItems (s : State) (n r cstat : Nat) : Nat → State
  | 0 => s
  | k + 1 => (s.cancelItem n r cstat).cancelItems n r cstat k

/-- Release the parked and resuming descriptors of a ring with a status (R124 step 2, R99): how many, and the state. No engine has part in them: the
record of a failed completion write names engine 0 (DESIGN CHOICE: R121 does not say; log entry 53). -/
def State.cancelParks (s : State) (n r cstat : Nat) : Nat × State :=
  let l := (s.epbAt n).parks.filter (fun p => p.mover.ring == r && !p.mover.ni)
  let s1 := s.epbMod n (fun x => { x with parks := x.parks.filter (fun p => !(p.mover.ring == r && !p.mover.ni)) })
  (l.length, State.each l (fun s p => s.itemEnd n 0 { p.mover with abortOff := p.resumeOff } cstat 0 false) (s1.ringShow n r))

/-- Flush ring `r` (R124), with CANCEL and the status that cancelled items take: the words discarded, the items cancelled, and the
state. CSTAT of the flush record is a free value (log entry 3). The record of a failed write names engine 0, since no engine has part in a flush (DESIGN
CHOICE: R121 does not say; log entry 53). -/
def State.ringFlush (s : State) (n r : Nat) (cancel : Bool) (cstat : Nat) : Nat × Nat × State :=
  let tail := s.ringTail n r
  let was := s.ringState n r == RingSt.flushed
  let words := if was || s.fget Fld.epbRingCfg_PUSH n r == 0 then 0 else (s.ringFill n r + 2 ^ 35 - 8 * tail % 2 ^ 35) % 2 ^ 35
  let s1 := if was then s else s.fset Fld.epbRingFill_FILL n r (8 * tail)
  let todo := (tail + 2 ^ 32 - s.ringFetch n r) % 2 ^ 32
  let (parked, s2) := if cancel then (s1.cancelItems n r cstat todo).cancelParks n r cstat else (0, s1)
  let count := if cancel then todo + parked else 0
  let s3 := if was then s2 else s2.draw.2.ringRecord n r 0 tail (s2.draw.1 % 16) 1 0 0 (count * 2 ^ 32 + words % 2 ^ 32)
  (words, count, (s3.fset Fld.epbRingStat_STATE n r RingSt.flushed).ringShow n r)

/-- Release a park entry by FAULT_RESUME (R98, R123): the entry leaves its ring's park entries, and the ring's state follows. -/
def State.parkRelease (s : State) (n : Nat) (p : Park) : State :=
  let r := p.mover.ring
  let s1 := s.epbMod n (fun x => { x with parks := delFirst (fun q => decide (q = p)) x.parks })
  let s2 := if s1.ringState n r = RingSt.held ∧ s1.ringParks n r = 0 then s1.fset Fld.epbRingStat_STATE n r RingSt.run else s1
  s2.ringShow n r

/-- FAULT_RESUME of a parked descriptor (R98): it waits for an engine, or with ABORT it completes with FAULT. -/
def State.descResume (s : State) (n : Nat) (p : Park) (abort : Bool) : State :=
  let s1 := s.parkRelease n p
  if abort then s1.itemEnd n 0 { p.mover with abortOff := p.resumeOff } TStat.fault p.mover.record true
  else s1.epbMod n (fun x => { x with resumes := x.resumes ++ [p] })

/-! ### The ring commands' steps (R96, R97, R110, R116, R121) -/

/-- A commit by a register write: refused commits of a host BAR write are counted (R116). -/
def execRingCommit (n r tail : Nat) (bar : Bool) (s : State) : Res :=
  .next (match s.ringCommit n r tail with
    | some s1 => s1
    | none => if bar then s.fsat Fld.epbRingRej_REJ n 0 1 else s)


/-- The next segment of a DMA engine (`e < 8`) or of triggered operation `e − 8` (R96, R273). -/
def execSegmentIssue (n e : Nat) (xs xd : List Word) (s : State) : Res := .next ((s.segmentIssue n e xs xd).settle n e)

def execDescriptorPark (n e : Nat) (s : State) : Res := .next (s.descriptorPark n e)

def execItemComplete (n e : Nat) (s : State) : Res := .next (s.itemComplete n e)

end Sys2Proof.Machine
end

