-- ==== Sys2Proof/Machine/Zaralos.lean ====
section
/-! DEFINITION. Zaralos messages at an EPB (03, 04, 06): identification, accelerator requests, resumption, target messages. -/

namespace Sys2Proof.Machine
open Sys2Proof

/-! ### Accelerator requests (R64, R65) -/

/-- Accelerator request types. -/
def isZReq (t : Nat) : Bool := decide (1 ≤ t) && decide (t ≤ 0x0B)

/-- ZTYPEs that an accelerator may send (R61). -/
def isZSent (t : Nat) : Bool := t == 0 || isZReq t || t == 0x10 || t == 0x11 || t == 0x3E

/-- The first header word of a Zaralos message (R60). -/
def zWord0 (m : ZMsg) : Nat :=
  m.ztype * 2 ^ 58 + m.vc * 2 ^ 55 + m.tc * 2 ^ 52 + m.flow * 2 ^ 48 + m.dclass * 2 ^ 46 + b2n m.poison * 2 ^ 45
    + b2n m.order * 2 ^ 44 + m.status * 2 ^ 40 + m.fmt * 2 ^ 36 + m.rop * 2 ^ 34 + m.fas * 2 ^ 20 + m.ztag * 2 ^ 8

/-- A message with a reserved ZTYPE, or one the other side sends, is discarded with a contained-class record (R61). -/
def State.zarBadType (s : State) (n : Nat) (m : ZMsg) : State := s.errRec 2 0x11 1 n [zWord0 m]

/-- Step 1 of R65: reserved fields, VC and deadline class. -/
def zHeaderOk (m : ZMsg) : Bool :=
  m.resv == 0 && m.vc == 0 && m.dclass != 3 && m.status == 0 && m.wtoken == 0 && m.rqid == 0 && m.win == 0
    && (m.ztype == 7 || m.rop == 0)

/-- Bytes of payload that an accelerator request carries (R23). -/
def zPayloadOk (m : ZMsg) : Bool :=
  let n := m.len + 1
  m.payload.length == (if m.ztype = 6 then 2 * n else if isWriteTy m.ztype || m.ztype == 11 then n else 0)

/-- Step 2 of R65: the operand rules of R25, applied to the FVA. -/
def zOperandOk (m : ZMsg) : Bool :=
  operandOk m.ztype m.addr m.len m.fmt m.rop m.vc m.payload.length && zPayloadOk m

/-- A failed check of R65: its record and its Z_RSP. -/
def State.zrefuse (s : State) (n : Nat) (m : ZMsg) (cause status level detail : Nat) (gfa : Option Nat) : State :=
  (s.fault n { cause := cause, status := status, fva := some m.addr, gfa := gfa, typ := m.ztype, level := level, fas := m.fas,
               context := m.ctx * 2 ^ 48, detail := detail }).zfail n m status

/-- The leaf grants the right that the request needs (R74). -/
def leafRight (leaf : Word) (typ : Nat) : Bool :=
  if typ = 1 ∨ typ = 8 then bit leaf 60
  else if typ = 2 ∨ typ = 9 ∨ typ = 11 then bit leaf 59
  else if typ = 10 then true
  else bit leaf 58

/-- A Z_LOAD may use the remote-read cache (R142). -/
def State.cacheableLoad (s : State) (n : Nat) (m : ZMsg) (leaf : Word) (gfa : Nat) : Bool :=
  m.ztype == 1 && s.fget Fld.epbVisCtrl_RRC_EN n == 1 && !m.order && !bit leaf 2
    && (decide (gfaE gfa < 64) || (decide (112 ≤ gfaE gfa) && decide (gfaE gfa ≤ 121)))
    && !(gfaXyp gfa == s.xyp && gfaE gfa == n)

/-- The fabric request of an accelerator request at a GFA, `k` its serial number. -/
def zReq (m : ZMsg) (gfa : Nat) (cacheable : Bool) (k : Nat) : Req :=
  { own := .zar m, typ := m.ztype, vc := m.vc, tc := m.tc, flow := m.flow, dclass := m.dclass, poison := m.poison, order := m.order,
    fas := m.fas, fmt := m.fmt, rop := m.rop, gfa := gfa, len := m.len, payload := m.payload, stream := (0, m.ctx), fva := m.addr,
    cacheable := cacheable, serial := k }

/-- Steps 5 and 6 of R65 for a translated request, and what follows: heat counting, and submission. -/
def State.zTranslated (s : State) (n k : Nat) (m : ZMsg) (leaf : Word) (size : Nat) : State :=
  let gfa := leafAddr leaf size m.addr
  if !leafRight leaf m.ztype then s.zrefuse n m 0x05 TStat.fault 7 0 (some gfa)
  else if !isTarget (gfaE gfa) then s.zrefuse n m 0x07 TStat.fault 7 0 (some gfa)
  else if !endpointOk m.ztype gfa then s.zrefuse n m 0x08 TStat.badParam 7 0 (some gfa)
  else
    let s1 := if bit leaf 3 && decide (120 ≤ gfaE gfa) then s.heatCount n (gfa / 2 ^ 16) (gfaLines gfa (m.len + 1)).length m.fas else s
    s1.submit n (zReq m gfa (s.cacheableLoad n m leaf gfa) k)

/-- A translation that ended without a leaf (R65 step 4, R73, R89). -/
def State.zNoLeaf (s : State) (n k : Nat) (m : ZMsg) (e : WalkEnd) : State :=
  match e with
  | .leaf size w => s.zTranslated n k m w size
  | .waits => s
  | .notPresent true level w =>
    s.faultSwitch n m { cause := 0x01, fva := some m.addr, typ := m.ztype, level := level, fas := m.fas, detail := w.toNat }
  | .notPresent false level w => s.zrefuse n m 0x02 TStat.fault level w.toNat none
  | .malformed level w => s.zrefuse n m 0x03 TStat.fault level w.toNat none
  | .readFail level => s.zrefuse n m 0x04 TStat.fault level (2 ^ 64 - 1) none
  | .disabled => s.zrefuse n m 0x06 TStat.fault 7 0 none

/-- Steps 3 and 4 of R65: the FAS entry, and translation from the cache or by a walk. The request takes its serial number (R137). -/
def State.zTranslate (s : State) (n : Nat) (m : ZMsg) : State :=
  let root := s.walkRoot n (.fas m.fas)
  if fasRefuses root m.addr then s.zrefuse n m 0x06 TStat.fault 7 0 none
  else
    let s1 : State := { s with serial := s.serial + 1 }
    match cacheFind n (s.epbAt n) (.fas m.fas) m.addr with
    | some c => (s1.epbMod n (fun e => cacheUse n e c)).zTranslated n s.serial m c.leaf c.size
    | none => (s1.epbMod n (fun e => { e with zwait := e.zwait ++ [(s.serial, m)] })).walkStart n (.fas m.fas) m.addr root

/-- An accelerator request reaches the EPB (R63, R65). -/
def State.zRequest (s : State) (n : Nat) (m : ZMsg) : State :=
  if (s.epbAt n).badVersion then s.zfail n m TStat.badParam
  else if !zHeaderOk m then s.zrefuse n m 0x08 TStat.badParam 7 0 none
  else if !zOperandOk m then s.zrefuse n m 0x08 TStat.badParam 7 0 none
  else s.zTranslate n m

/-- A message of the kind `ty` arrives: a reserved ZTYPE is discarded; a message of another kind is another command's. -/
def State.zArrive (s : State) (n : Nat) (m : ZMsg) (ty : Nat) (f : State → State) : State :=
  if n ≥ 64 then s
  else if !isZSent m.ztype then s.zarBadType n m
  else if m.ztype = ty then f s
  else s

def execZStore (n : Nat) (m : ZMsg) (s : State) : Res := .next (s.zArrive n m 0x02 (fun s => s.zRequest n m))
def execZAtomicAdd (n : Nat) (m : ZMsg) (s : State) : Res := .next (s.zArrive n m 0x03 (fun s => s.zRequest n m))
def execZAtomicMin (n : Nat) (m : ZMsg) (s : State) : Res := .next (s.zArrive n m 0x04 (fun s => s.zRequest n m))
def execZAtomicMax (n : Nat) (m : ZMsg) (s : State) : Res := .next (s.zArrive n m 0x05 (fun s => s.zRequest n m))
def execZCas (n : Nat) (m : ZMsg) (s : State) : Res := .next (s.zArrive n m 0x06 (fun s => s.zRequest n m))
def execZReduce (n : Nat) (m : ZMsg) (s : State) : Res := .next (s.zArrive n m 0x07 (fun s => s.zRequest n m))
/-- Z_ACQUIRE (R65, R137, R144): the cache is invalidated when its tag completes. -/
def execZAcquire (n : Nat) (m : ZMsg) (s : State) : Res := .next (s.zArrive n m 0x08 (fun s => s.zRequest n m))
/-- Z_RELEASE (R65, R137): held until every earlier request of its context has completed. -/
def execZRelease (n : Nat) (m : ZMsg) (s : State) : Res := .next (s.zArrive n m 0x09 (fun s => s.zRequest n m))
def execZFence (n : Nat) (m : ZMsg) (s : State) : Res := .next (s.zArrive n m 0x0A (fun s => s.zRequest n m))
def execZDoorbell (n : Nat) (m : ZMsg) (s : State) : Res := .next (s.zArrive n m 0x0B (fun s => s.zRequest n m))

/-! ### Identification and resumption (R62, R63, R67, R94) -/

/-- The accelerator's first Z_IDENT is accepted or version-checked; later ones are discarded and counted. -/
def State.zIdent (s : State) (n : Nat) (m : ZMsg) : State :=
  let w0 := BitVec.ofNat 64 (ofBytes (m.payload.take 8))
  if (s.epbAt n).identSeen then s.fsat Fld.epbZarStat_STALE_TOKEN n 0 1
  else if bits w0 63 48 = 0x0100 then
    let held := (s.epbAt n).wakes
    let s1 := ((s.epbMod n (fun e => { e with identSeen := true, badVersion := false, wakes := [] })).fset
      Fld.epbZarState_IDENT_OK n 0 1).fset Fld.epbZarState_TGT_MAX n 0 (bits w0 47 36)
    State.each held (fun s w => s.zsend n w) s1
  else
    (s.epbMod n (fun e => { e with identSeen := true, badVersion := true })).errRec 3 0x06 2 n [bits w0 63 48]

def execZIdent (n : Nat) (m : ZMsg) (s : State) : Res := .next (s.zArrive n m 0x3E (fun s => s.zIdent n m))

/-- Z_RESUME: the slot its WTOKEN names becomes FREE; a free slot or a wrong generation is discarded and counted (R67). -/
def State.zResume (s : State) (n : Nat) (m : ZMsg) : State :=
  let k := m.wtoken % 256
  let x := tblGet ({} : Slot) (s.epbAt n).slots k
  if x.st ≠ .free ∧ m.wtoken = wtoken x.ctx x.gen k then
    (s.epbMod n (fun e => { e with slots := tblPut e.slots k { x with st := .free } })).slotsUsed n
  else s.fsat Fld.epbZarStat_STALE_TOKEN n 0 1

def execZResume (n : Nat) (m : ZMsg) (s : State) : Res := .next (s.zArrive n m 0x10 (fun s => s.zResume n m))

/-- Z_WAKE for a slot (R94): held while the accelerator is not identified. -/
def State.zWake (s : State) (n : Nat) (ctx wtok status : Nat) : State :=
  let m : ZMsg := { ztype := 0x28, vc := 6, status := status, ctx := ctx, wtoken := wtok }
  if s.fget Fld.epbZarState_IDENT_OK n = 1 then s.zsend n m
  else s.epbMod n (fun e => { e with wakes := e.wakes ++ [m] })

/-! ### Target messages (R68, R69) -/

/-- Context word of a target record (R90). -/
def targetContext (p : Packet) (win : Nat) : Nat := p.sx * 2 ^ 60 + p.sy * 2 ^ 56 + p.sp * 2 ^ 52 + p.se * 2 ^ 45 + win * 2 ^ 37

/-- A target answers NACK with FAULT and writes its record (R101). -/
def State.targetFault (s : State) (e : Nat) (p : Packet) (cause level win : Nat) (rel : Option Nat) (detail : Nat) : State :=
  (s.fault e { cause := cause, actor := 5, fva := rel, gfa := some p.addr, typ := p.typ, level := level, fas := win,
               context := targetContext p win, detail := detail }).respond p e Ty.nack TStat.fault false []

/-- NACK without a record at the target (R101: refusals of R26 and R50). -/
def State.targetNack (s : State) (e : Nat) (p : Packet) (status : Nat) : State := s.respond p e Ty.nack status false []

/-- The response type of a request that succeeded (R23). -/
def rspType (t : Nat) : Nat := if t = 1 ∨ t = 8 then Ty.loadRsp else if 3 ≤ t ∧ t ≤ 6 then Ty.atomicRsp else Ty.ack

/-- Remove target request `i`. -/
def State.tgtDrop (s : State) (n i : Nat) : State := s.epbMod n (fun e => { e with tgts := e.tgts.eraseIdx i })

/-- The accelerator's answer to a target message completes the fabric request (R41, R69, R270); one that comes too late is discarded and counted. -/
def State.zTgtRsp (s : State) (n : Nat) (m : ZMsg) : State :=
  match (s.epbAt n).tgts.findIdx? (fun t => t.ztag == some m.ztag) with
  | none =>
    (s.epbMod n (fun e => { e with lateTags := e.lateTags.filter (fun x => x.1 != m.ztag) })).fsat Fld.epbZarStat_LATE_TGT n 0 1
  | some i =>
    match (s.epbAt n).tgts[i]? with
    | none => s
    | some t =>
      let s1 := s.tgtDrop n i
      if m.status = TStat.ok then
        let data := if returnsData t.pkt.typ then (if m.poison then onesBytes (t.pkt.len + 1) else m.payload.take (t.pkt.len + 1)) else []
        let s2 := s1.respond t.pkt n (rspType t.pkt.typ) TStat.ok m.poison data
        if isWriteTy t.pkt.typ then s2.windowWrite n t.win else s2
      else s1.targetFault n t.pkt 0x17 7 t.win (some t.rel) 0

def execZTgtRsp (n : Nat) (m : ZMsg) (s : State) : Res := .next (s.zArrive n m 0x11 (fun s => s.zTgtRsp n m))

/-- The ZTAG of a new target message: the lowest that no target message of the EPB holds and whose late answer is not awaited, else the lowest that
no target message holds (DESIGN CHOICE: R68 does not say which; log entry 53). -/
def freeZtag (l : List TgtReq) (late : List (Nat × Bool)) : Nat :=
  let free := fun k => !l.any (fun t => t.ztag == some k)
  (((List.range 4096).find? (fun k => free k && !late.any (fun x => x.1 == k))).orElse (fun _ => (List.range 4096).find? free)).getD 0

/-- The Z_TGT message of a target request (R68). -/
def tgtMsg (t : TgtReq) (laddr ztag : Nat) : ZMsg :=
  { ztype := 0x30 + t.pkt.typ, vc := 0, tc := t.pkt.tc, flow := t.pkt.flow, dclass := t.pkt.dclass, poison := t.pkt.poison, order := t.pkt.order,
    fmt := t.pkt.fmt, rop := t.pkt.rop, fas := t.pkt.fas, ztag := ztag, len := t.pkt.len, addr := laddr,
    rqid := t.pkt.sx * 2 ^ 15 + t.pkt.sy * 2 ^ 11 + t.pkt.sp * 2 ^ 7 + t.pkt.se, win := t.win, payload := t.pkt.payload }

/-- Send the oldest accepted request that waits (DESIGN CHOICE: R68 gives no order; log entry 53), while fewer than TGT_MAX + 1 are outstanding and
the accelerator is identified (R62, R68). -/
def State.zTgtSend (s : State) (n : Nat) : State :=
  let l := (s.epbAt n).tgts
  let out := (l.filter (fun t => t.ztag.isSome)).length
  if s.fget Fld.epbZarState_IDENT_OK n = 1 ∧ out < s.fget Fld.epbZarState_TGT_MAX n + 1 then
    match l.findIdx? (fun t => t.laddr.isSome && t.ztag.isNone) with
    | none => s
    | some i =>
      match l[i]? with
      | some t =>
        let z := freeZtag l (s.epbAt n).lateTags
        (s.epbMod n (fun e => { e with
          tgts := e.tgts.set i { t with ztag := some z }
          lateTags := e.lateTags.filter (fun x => x.1 != z) })).zsend n (tgtMsg t (t.laddr.getD 0) z)
      | none => s
  else s

def execZTgtSend (n : Nat) (s : State) : Res := .next (s.zTgtSend n)

/-- The late answer of a target request that has been sent is awaited under its ZTAG. -/
def Epb.awaitLate (t : TgtReq) (e : Epb) : Epb :=
  match t.ztag with
  | some z => { e with lateTags := (z, returnsData t.pkt.typ) :: e.lateTags }
  | none => e

/-- 1.5 µs after its arrival a target request without an answer is answered NACK with FAULT (R69). -/
def State.tgtTimeout (s : State) (n i : Nat) : State :=
  match (s.epbAt n).tgts[i]? with
  | none => s
  | some t =>
    if t.arrived + 2400 ≤ s.now then ((s.tgtDrop n i).epbMod n (Epb.awaitLate t)).targetFault n t.pkt 0x0D 7 t.win (some t.rel) 0 else s

def execTgtTimeout (n i : Nat) (s : State) : Res := .next (s.tgtTimeout n i)

/-! ### Heat table (R105) -/

/-- The end of a heat period, once it has come: every count is halved, and the next period has the PERIOD that now stands. -/
def State.heatPeriod (s : State) (n : Nat) : State :=
  let e := s.epbAt n
  if e.heatAt + us (10 * e.heatLen) ≤ s.now then
    s.epbMod n (fun e => { e with
      heat := e.heat.map (fun x => (x.1, heatHalve (s.fget Fld.epbHeatCtrl_THRESH n) x.2))
      heatAt := e.heatAt + us (10 * e.heatLen)
      heatLen := s.fget Fld.epbHeatCtrl_PERIOD n })
  else s

def execHeatPeriod (n : Nat) (s : State) : Res := .next (s.heatPeriod n)

/-- A write of EN = 0 clears the heat table. -/
def State.heatOff (s : State) (n : Nat) : State := (s.fset Fld.epbHeatCtrl_EN n 0 0).epbMod n (fun e => { e with heat := [] })

def execHeatCtrlDisable (n : Nat) (s : State) : Res := .next (s.heatOff n)

/-! ### Waiting requests (R35, R211) -/

/-- A request that waited for a tag index, or for the order rules, is issued when nothing holds it any longer. -/
def execTagFreeIssue (u i : Nat) (s : State) : Res := .next (s.reissue u i)

/-- A request that waited for destination credit or admission tokens is admitted and issued. -/
def execAdmission (u i : Nat) (s : State) : Res := .next (s.reissue u i)

/-! ### Walks (R76, R78, R82) -/

/-- The right of a window leaf for a target request (R82 step 5). -/
def State.tgtTranslated (s : State) (n : Nat) (t : TgtReq) (leaf : Word) (size : Nat) : State :=
  if !leafRight leaf t.pkt.typ then s.targetFault n t.pkt 0x0C 7 t.win (some t.rel) 0
  else
    let t' := { t with laddr := some (bits leaf 44 4 * 2 ^ 16 / size * size + t.rel % size) }
    s.epbMod n (fun e => { e with tgts := e.tgts ++ [t'] })

/-- What a walk's end does to a target request (R82 step 4, R101). -/
def State.tgtWalked (s : State) (n : Nat) (t : TgtReq) (e : WalkEnd) : State :=
  match e with
  | .leaf size w => s.tgtTranslated n t w size
  | .notPresent true level w =>
    let f : FaultRec := { cause := 0x01, actor := 5, fva := some t.rel, gfa := some t.pkt.addr, typ := t.pkt.typ, level := level,
                          fas := t.win, context := targetContext t.pkt t.win, detail := w.toNat }
    let (ident, s1) := s.faultRec n f
    s1.respond t.pkt n Ty.fswRsp TStat.fault false (toBytes 8 (t.pkt.addr / 2 ^ 16 * 2 ^ 16) ++ toBytes 8 ident)
  | .notPresent false level w => s.targetFault n t.pkt 0x02 level t.win (some t.rel) w.toNat
  | .malformed level w => s.targetFault n t.pkt 0x03 level t.win (some t.rel) w.toNat
  | .readFail level => s.targetFault n t.pkt 0x04 level t.win (some t.rel) (2 ^ 64 - 1)
  | .disabled => s.targetFault n t.pkt 0x04 7 t.win (some t.rel) 0
  | .waits => s

/-- The accelerator requests and target requests that wait on a walk of a page of a space. -/
def zWaits (sp : Space) (page : Nat) (x : Nat × ZMsg) : Bool := sp == .fas x.2.fas && page64 x.2.addr == page
def tWaits (sp : Space) (page : Nat) (t : TgtReq) : Bool := t.laddr.isNone && sp == .win t.win && page64 t.rel == page

/-- The page of a walk's leaf is covered by another waiting miss: it is a hit (R76). -/
def State.walkDone (s : State) (n : Nat) (w : Walk) (e : WalkEnd) : State :=
  let x := s.epbAt n
  let zs := x.zwait.filter (zWaits w.space w.page)
  let ts := x.tgts.filter (tWaits w.space w.page)
  let s1 := s.epbMod n (fun x => { x with
    zwait := x.zwait.filter (fun m => !zWaits w.space w.page m)
    tgts := x.tgts.filter (fun t => !tWaits w.space w.page t) })
  let s2 := match e with
    | .leaf size l =>
      s1.cacheInstall n { space := w.space, page := w.page * 2 ^ 16 / size * size, size := size, leaf := l, prefetched := w.prefetch.isSome && zs.isEmpty && ts.isEmpty }
    | _ => s1
  State.each ts (fun s t => s.tgtWalked n t e) (State.each zs (fun s x => s.zNoLeaf n x.1 x.2 e) s2)

/-- A waiting accelerator request, when no walk serves it: it hits a leaf that has been cached since, or its walk starts (R76, R78). -/
def State.zAgain (s : State) (n : Nat) (x : Nat × ZMsg) : State :=
  if s.walking n (.fas x.2.fas) x.2.addr then s
  else
    match cacheFind n (s.epbAt n) (.fas x.2.fas) x.2.addr with
    | some c =>
      (s.epbMod n (fun e => cacheUse n { e with zwait := e.zwait.filter (fun y => y.1 != x.1) } c)).zTranslated n x.1 x.2 c.leaf c.size
    | none => s.walkStart n (.fas x.2.fas) x.2.addr (s.walkRoot n (.fas x.2.fas))

/-- A waiting target request, likewise; its walk starts from the window's root as it read it (R84). -/
def State.tAgain (s : State) (n : Nat) (t : TgtReq) : State :=
  if s.walking n (.win t.win) t.rel then s
  else
    match cacheFind n (s.epbAt n) (.win t.win) t.rel with
    | some c => (s.epbMod n (fun e => cacheUse n { e with tgts := delFirst (fun y => y == t) e.tgts } c)).tgtTranslated n t c.leaf c.size
    | none => s.walkStart n (.win t.win) t.rel (BitVec.ofNat 64 t.troot)

/-- The waiting misses that no walk serves, in their order. -/
def State.walksAgain (s : State) (n : Nat) : State :=
  let x := s.epbAt n
  State.each (x.tgts.filter (fun t => t.laddr.isNone)) (fun s t => s.tAgain n t) (State.each x.zwait (fun s y => s.zAgain n y) s)

/-- A prefetch for a page visit found no leaf (R81). -/
def Epb.pfStop (v : Visit) (e : Epb) : Epb :=
  let f := fun (x : Nat × Mover) => if x.1 = v.mover % 8 then (x.1, { x.2 with pfStop := some (v.off, v.dst) }) else x
  let g := fun (x : Nat × Mover) => if x.1 + 8 = v.mover then (x.1, { x.2 with pfStop := some (v.off, v.dst) }) else x
  if v.mover < 8 then { e with engines := e.engines.map f } else { e with niRun := e.niRun.map g }

/-- A walk ends: a stale result is discarded and its waiting requests walk again; a prefetch that finds no leaf installs nothing
and faults nothing (R76, R78, R81). -/
def State.walkComplete (s : State) (n i : Nat) (ext : List Word) : State :=
  match (s.epbAt n).walks[i]? with
  | none => s
  | some w =>
    let s1 := s.epbMod n (fun e => { e with walks := e.walks.eraseIdx i })
    if w.stale then s1.walksAgain n
    else
      let r := s.walk w.space (w.page * 2 ^ 16) w.root ext
      let s2 := ((s1.walked w.space (w.page * 2 ^ 16) w.root ext).walkDone n w r).walksAgain n
      match r, w.prefetch with
      | .waits, _ => s
      | .leaf _ _, _ => s2
      | _, some v => s2.epbMod n (Epb.pfStop v)
      | _, none => s2

def execWalkComplete (n w : Nat) (ext : List Word) (s : State) : Res := .next (s.walkComplete n w ext)

end Sys2Proof.Machine
end

