-- ==== Sys2Proof/Machine/CmdBase.lean ====
section
/-! DEFINITION. What the commands' own meanings share (18): their words, answers and tickets; and the commands
of translation, rings and queues (R77, R78, R81, R124, R128, R202, R206). -/

namespace Sys2Proof

/-- Parameter word `i` of a command. -/
def Cmd.word (c : Cmd) (i : Nat) : Word := BitVec.ofNat 64 (ofBytes ((c.params.drop (8 * i)).take 8))

end Sys2Proof

namespace Sys2Proof.Machine
open Sys2Proof

/-! ### Answers and tickets -/

/-- What a command answers at once, and the state it leaves (R405). -/
structure Ans where
  st : State
  status : Nat
  results : List Byte := []
  ticket : Nat := 0
  /-- what follows once the reply is placed -/
  after : State → State := id
  /-- the reply is not placed yet: what keeps it -/
  later : Option (Reply → State → State) := none

/-- OK with result words. -/
def State.okAns (s : State) (ws : List Word) : Ans := { st := s, status := Status.ok, results := bytesOfWords ws }
/-- A status, with nothing done. -/
def State.noAns (s : State) (status : Nat) : Ans := { st := s, status := status }

/-- Accept a deferred command: its ticket, and the work it begins; BUSY where no slot is free (R406). -/
def State.defer (s : State) (c : Cmd) (work : Nat → State → State) : Ans :=
  match s.ticketSlot with
  | none => s.noAns Status.busy
  | some k =>
    let (t, s1) := s.ticketNew k c
    { st := work t s1, status := Status.accepted, ticket := t }

/-- Every bit of a word outside these bit ranges is 0. -/
def zeroOutside (w : Word) (l : List (Nat × Nat)) : Bool :=
  (List.range 64).all (fun i => !bit w i || l.any (fun r => decide (r.2 ≤ i) && decide (i ≤ r.1)))

/-- Indices of the bits set among the first `n`. -/
def setBitsOf (w : Word) (n : Nat) : List Nat := (List.range n).filter (fun i => bit w i)

/-! ### XLATE_INVAL (R77 to R79, R229) -/

/-- The movers of an EPB. -/
def Epb.movers (e : Epb) : List Mover := tblVals e.engines ++ tblVals e.niRun

/-- Requests of EPB `n` that were translated in a space and are still under way, by serial number: its own, issued or waiting to be or waiting for
lines, and the segments of its movers; and its target requests (R78 step 3; log entry 50 for those that wait). -/
def State.xlatUsers (s : State) (n : Nat) (sp : Space) : List Nat × List (Nat × Packet) :=
  match sp with
  | .fas f =>
    (((tblVals (s.unitTags n)).filter (fun t => t.hdr.fas == f)).map (·.serial)
      ++ ((tblGet [] s.waitq n).filter (fun w => w.req.fas == f)).map (·.req.serial)
      ++ ((s.epbAt n).zloads.filter (fun z => z.msg.fas == f)).map (·.serial)
      ++ ((s.epbAt n).movers.filter (fun m => m.fas == f)).flatMap (fun m => (m.segs.filter (·.busy)).map (·.serial)), [])
  | .win w => ([], ((s.epbAt n).tgts.filter (fun t => t.win == w && t.laddr.isSome)).map (fun t => (n, t.pkt)))

/-- What step 1 takes with it from the remote-read cache: the lines filled under the FAS tag (R144). -/
def rrcClearSpace (sp : Space) (e : Epb) : Epb :=
  match sp with
  | .fas f => rrcInvalidate e (fun x => x.fas == f)
  | .win _ => e

/-- Steps 1 and 2 in one EPB. -/
def xlatClear (sp : Space) (e : Epb) : Epb :=
  { rrcClearSpace sp e with
    cache := (e.cache.map (fun x => (x.1, x.2.filter (fun c => c.space != sp)))).filter (fun x => !x.2.isEmpty)
    walks := e.walks.map (fun w => if w.space = sp then { w with stale := true } else w) }

/-- EPB `e` holds a Z_LOAD or a mover's segment under way with this serial number. -/
def Epb.holds (k : Nat) (e : Epb) : Bool :=
  e.zloads.any (·.serial == k) || e.movers.any (fun m => m.segs.any (fun x => x.busy && x.serial == k))

/-- A request named by step 3 has not completed. -/
def State.stillUsed (s : State) (d : Drained) : Bool :=
  d.reqs.any (fun k => (tblVals s.tags).any (·.serial == k) || (tblVals s.waitq).any (fun l => l.any (·.req.serial == k))
      || (tblVals s.epb).any (Epb.holds k))
    || d.tgts.any (fun k => (s.epbAt k.1).tgts.any (fun t => t.pkt == k.2))

def State.cmdXlateInval (s : State) (c : Cmd) : Ans :=
  let w := c.word 0
  let id := bits w 11 0
  if !zeroOutside w [(16, 16), (12, 12), (11, 0)] || (bit w 12 && decide (255 < id)) then s.noAns Status.badParam
  else
    let sp : Space := if bit w 12 then .win id else .fas id
    let es := setBitsOf (c.word 1) 64
    let ns := es.filter (fun n => !s.epbHeld n) ++ ((es.filter (fun n => n % 4 == 0)).map (fun n => 96 + n / 4)).filter (fun u => !s.clusterHeld (u - 96))
    let users := ns.map (fun n => s.xlatUsers n sp)
    let act := fun (s : State) => State.each ns (fun s n => s.epbMod n (xlatClear sp)) s
    if bit w 16 then
      s.defer c (fun t s =>
        let s1 := act s
        { s1 with xlat := { s1.xlat with drains := s1.xlat.drains ++ [{ ticket := t, reqs := users.flatMap (·.1), tgts := users.flatMap (·.2) }] } })
    else (act s).okAns []

/-- The drain of a ticket ends once every request it names has completed. -/
def State.xlateDrainDone (s : State) (ticket : Nat) : State :=
  match s.xlat.drains.find? (fun d => d.ticket == ticket) with
  | none => s
  | some d =>
    if s.stillUsed d then s
    else ({ s with xlat := { s.xlat with drains := s.xlat.drains.filter (fun x => x.ticket != ticket) } }).completeTicket ticket Status.ok []

def execXlateInvalDrainDone (ticket : Nat) (s : State) : Res := .next (s.xlateDrainDone ticket)

/-! ### Prefetch (R80, R81) -/

/-- The FVA that a mover visits at a tile offset, of its source or destination. -/
def Mover.vaAt (m : Mover) (off : Nat) (dst : Bool) : Nat := if dst then m.dstAt off else m.srcAt off

/-- It translates its source; its destination. -/
def Mover.visitsSide (m : Mover) (dst : Bool) : Bool := if dst then m.hasDst && m.mcr.isNone else m.hasSrc

/-- The 64 KiB pages of the visits at a tile offset, source first. -/
def Mover.pagesAt (m : Mover) (off : Nat) : List Nat :=
  ([false, true].filter m.visitsSide).map (fun d => page64 (m.vaAt off d))

/-- Bytes from a tile offset to the next visit of a page: the end of the row, of the source page, or of the destination page. -/
def Mover.visitLen (m : Mover) (off : Nat) : Nat :=
  ([false, true].filter m.visitsSide).foldl (fun k d => min k (2 ^ 16 - m.vaAt off d % 2 ^ 16)) (m.xlen - off % m.xlen)

/-- The pages that a mover visits in tile order from `off` on before tile offset `stop` (R80); `fuel` bounds the visits. -/
def Mover.pagesTo (m : Mover) (stop : Nat) : Nat → Nat → List Nat
  | 0, _ => []
  | fuel + 1, off => if stop ≤ off then [] else m.pagesAt off ++ m.pagesTo stop fuel (off + m.visitLen off)

/-- The pages that a mover visits before the visit of one side at a tile offset, from the place it has reached. -/
def Mover.pagesBefore (m : Mover) (off : Nat) (dst : Bool) : List Nat :=
  m.pagesTo off (off - m.nextOff) m.nextOff ++ (if dst && m.hasSrc then [page64 (m.srcAt off)] else [])

/-- The pages of the last segment it has issued: its current pages. -/
def Mover.pagesNow (m : Mover) : List Nat := if m.nextOff = 0 then [] else m.pagesAt (m.nextOff - 1)

/-- Distinct pages ahead of the current ones, up to and with the visit of one side at a tile offset. -/
def Mover.pagesAhead (m : Mover) (off : Nat) (dst : Bool) : Nat :=
  (((m.pagesBefore off dst ++ [page64 (m.vaAt off dst)]).filter (fun p => !m.pagesNow.contains p)).eraseDups).length

/-- Prefetching has stopped at a page that the mover has not passed (R81). -/
def Mover.pfStopped (m : Mover) : Bool :=
  match m.pfStop with
  | some (k, d) => decide (m.nextOff ≤ k) || (decide (m.nextOff < m.total) && page64 (m.vaAt m.nextOff d) == page64 (m.vaAt k d))
  | none => false

/-- PF_DEPTH (R87): 65 to 127 act as 64. -/
def State.pfDepth (s : State) (n : Nat) : Nat := min 64 (s.fget Fld.epbXlateCtrl_PF_DEPTH n)

/-- The leaf of a 64 KiB page is cached, or its walk runs. -/
def State.pageKnown (s : State) (n fas page : Nat) : Bool :=
  (cacheFind n (s.epbAt n) (.fas fas) (page * 2 ^ 16)).isSome || s.walking n (.fas fas) (page * 2 ^ 16)

/-- The prefetch of the visit of one side at tile offset `off` is the next in order and within PF_DEPTH and PF_WALKS (R80, R81). -/
def State.prefetchOk (s : State) (n off : Nat) (dst : Bool) (m : Mover) : Bool :=
  m.visitsSide dst && decide (m.nextOff ≤ off) && decide (off < m.total) && m.lenAt.isNone && !m.pfStopped
    && (m.pagesBefore off dst).all (s.pageKnown n m.fas) && !s.pageKnown n m.fas (page64 (m.vaAt off dst))
    && decide (m.pagesAhead off dst ≤ s.pfDepth n) && decide ((s.epbAt n).walks.length < 32)
    && decide (((s.epbAt n).walks.filter (fun w => w.prefetch.isSome)).length < s.fget Fld.epbXlateCtrl_PF_WALKS n)

/-- The walker starts a prefetch for mover `e`: of the page of its source or destination at tile offset `off`. -/
def State.prefetchStart (s : State) (n e off : Nat) (dst : Bool) : State :=
  match s.mover n e with
  | none => s
  | some m =>
    if s.prefetchOk n off dst m then
      let w : Walk := { space := .fas m.fas, page := page64 (m.vaAt off dst), root := s.walkRoot n (.fas m.fas),
                        prefetch := some { mover := e, off := off, dst := dst } }
      (s.epbMod n (fun x => { x with walks := x.walks ++ [w] })).fsat Fld.epbXlatePf_PF n 0 1
    else s

def execPrefetchStart (n e off : Nat) (dst : Bool) (s : State) : Res := .next (s.prefetchStart n e off dst)

/-! ### RING_FLUSH and RING_CTRL (R124, R127, R128) -/

def State.cmdRingFlush (s : State) (c : Cmd) : Ans :=
  let w := c.word 0
  let n := bits w 13 8
  let r := bits w 5 0
  if !zeroOutside w [(14, 14), (13, 8), (5, 0)] || s.epbHeld n || s.ringState n r == RingSt.off then s.noAns Status.badParam
  else
    let (words, count, s1) := s.ringFlush n r (bit w 14) 8
    { st := s1, status := Status.flushed
      results := bytesOfWords [BitVec.ofNat 64 (s.ringTail n r * 2 ^ 32 + words % 2 ^ 32), BitVec.ofNat 64 count] }

/-- Sum of ENG_MIN over the EPB's rings that are not OFF, ring `r` left out. -/
def State.engMinSum (s : State) (n r : Nat) : Nat :=
  (((List.range 64).filter (fun k => k != r && s.ringState n k != RingSt.off)).map (fun k => s.fget Fld.epbRingCfg_ENG_MIN n k)).sum

/-- BASE and CQBASE at end-points 112 to 121, ORDER 4 to 16 (R128). -/
def State.ringConfigOk (s : State) (n r : Nat) : Bool :=
  let e := fun (a : Nat) => gfaE (a * 4096)
  let ok := fun (k : Nat) => decide (112 ≤ k) && decide (k ≤ 121)
  let o := s.fget Fld.epbRingCfg_ORDER n r
  ok (e (s.fget Fld.epbRingBase_ADDR n r)) && ok (e (s.fget Fld.epbRingCqbase_ADDR n r)) && decide (4 ≤ o) && decide (o ≤ 16)

/-- Format of a RING_CTRL, and its EPB not held. -/
def State.ringCtrlOk (s : State) (c : Cmd) : Bool := zeroOutside (c.word 0) [(17, 16), (13, 8), (5, 0)] && !s.epbHeld (bits (c.word 0) 13 8)

/-- A triggered-operation entry that is not IDLE names the ring: it is a carrier ring (R276). -/
def State.ringCarries (s : State) (n r : Nat) : Bool :=
  (List.range 1024).any (fun i => s.toState n i != ToSt.idle && s.fget Fld.epbToW0_RING n i == r)

/-- OPEN (R123, R276), of a ring that carries no triggered operation: one that is OFF, its configuration checked, starts empty in RUN; a FLUSHED one goes on, in HELD
while it has park entries. -/
def State.ringOpen (s : State) (n r : Nat) : Ans :=
  let st := s.ringState n r
  if s.ringCarries n r then s.noAns Status.busy
  else if st ≠ RingSt.off ∧ st ≠ RingSt.flushed then s.noAns Status.badParam
  else if st = RingSt.off ∧ s.ringConfigOk n r = false then s.noAns Status.badParam
  else if 8 < s.engMinSum n r + s.fget Fld.epbRingCfg_ENG_MIN n r then s.noAns Status.quota
  else if st = RingSt.off then
    let s1 := ((((s.fset Fld.epbRingTail_TAIL n r 0).fset Fld.epbRingLow_LOW n r 0).fset Fld.epbRingFetch_FETCH n r 0).fset Fld.epbRingFill_FILL n r 0)
    (((s1.epbMod n (fun e => { e with ringDone := tblDel e.ringDone r })).fset Fld.epbRingStat_STATE n r RingSt.run).ringShow n r).okAns []
  else
    let s1 := s.fset Fld.epbRingFill_FILL n r (8 * s.ringTail n r)
    ((s1.fset Fld.epbRingStat_STATE n r (if 0 < s.ringParks n r then RingSt.held else RingSt.run)).ringShow n r).okAns []

def State.ringRun (s : State) (n r : Nat) : Ans :=
  if s.ringState n r ≠ RingSt.halted then s.noAns Status.badParam
  else (s.fset Fld.epbRingStat_STATE n r (if 0 < s.ringParks n r then RingSt.held else RingSt.run)).okAns []

def State.ringClose (s : State) (n r : Nat) : Ans :=
  if s.ringState n r = RingSt.off then s.noAns Status.badParam
  else if 0 < s.ringUse n r + s.ringParks n r + s.ringResumes n r then s.noAns Status.busy
  else ((s.fset Fld.epbRingStat_STATE n r RingSt.off).ringShow n r).okAns []

def State.cmdRingCtrl (s : State) (c : Cmd) : Ans :=
  let w := c.word 0
  let n := bits w 13 8
  let r := bits w 5 0
  if !s.ringCtrlOk c then s.noAns Status.badParam
  else if bits w 17 16 = 0 then s.ringOpen n r
  else if bits w 17 16 = 1 then s.ringRun n r
  else if bits w 17 16 = 2 then s.ringClose n r
  else s.noAns Status.badParam

/-! ### SCHED_MODE and QUEUE_SET (R202, R206) -/

/-- SCHED_MODE: an egress that can begin a packet changes at once, one with a packet in transmission when it can; the reply waits for the last. -/
def State.cmdSchedMode (s : State) (c : Cmd) : Ans :=
  let w := c.word 0
  if 1 < w.toNat ∨ bits (c.word 2) 63 60 ≠ 0 then s.noAns Status.badParam
  else
    let ps := setBitsOf (c.word 1) 64 ++ (setBitsOf (c.word 2) 60).map (· + 64)
    let busy := ps.filter (fun p => !s.egressFree p)
    let s1 := State.each (ps.filter s.egressFree) (fun s p => s.setMode p (bit w 0)) s
    if busy.isEmpty then s1.okAns []
    else
      { st := s1, status := Status.ok
        later := some (fun r s => { s with sw := { s.sw with modes := s.sw.modes ++ [{ egresses := busy, strict := bit w 0, reply := r }] } }) }

/-- The role epoch of a queue as Cloentim holds it. -/
def State.queueRole (s : State) (q : Nat) : Nat :=
  match (s.sw.qsets.filter (fun x => x.1 == q)).getLast? with
  | some (_, w) => bits w 63 56
  | none => s.fget Fld.hubQW0_ROLE q

def State.cmdQueueSet (s : State) (c : Cmd) : Ans :=
  let w := c.word 0
  let v := c.word 1
  let q := bits w 13 0
  let rate := bits v 13 0
  let burst := bits v 43 32
  if !zeroOutside w [(63, 39), (13, 0)] || !zeroOutside v [(43, 32), (13, 0)] || decide (15871 < q) || bits w 47 40 == 0
      || (bit w 39 && (rate == 0 || decide (16000 < rate) || burst == 0)) then s.noAns Status.badParam
  else if bits w 63 56 ≠ s.queueRole q then s.noAns Status.staleRole
  else
    let x : Word := BitVec.ofNat 64 (bits w 55 48 * 2 ^ 56 + bits w 47 40 * 2 ^ 48 + bits w 39 39 * 2 ^ 47 + burst * 2 ^ 32 + rate)
    ({ s with sw := { s.sw with qsets := s.sw.qsets ++ [(q, x)] } }).okAns []

end Sys2Proof.Machine
end

