-- ==== Sys2Proof/Machine/Arith.lean ====
section
/-! DEFINITION. Number formats, rounding, conversion, reduce-store arithmetic, exact accumulator lanes and billet decoding (11). -/

namespace Sys2Proof.Machine
open Sys2Proof

/-! ### Numbers and formats (R246) -/

/-- An exact value: `± m × 2^e`, an infinity, or a NaN. A finite value with `m = 0` is a zero of its sign. -/
inductive Num where
  | fin (neg : Bool) (m : Nat) (e : Int)
  | inf (neg : Bool)
  | nan
  deriving DecidableEq, Repr

/-- How a format uses its largest exponent (Table — number formats). -/
inductive FpKind where
  /-- infinities and NaNs -/
  | ieee
  /-- E4M3: only S.1111.111 is a NaN -/
  | e4m3
  /-- every exponent value encodes numbers -/
  | plain
  deriving DecidableEq, Repr

/-- A binary floating-point format: exponent width, bias, fraction bits, kind. -/
structure FpFmt where
  w : Nat
  bias : Nat
  t : Nat
  kind : FpKind
  deriving DecidableEq, Repr

def fp64 : FpFmt := ⟨11, 1023, 52, .ieee⟩
def fp32 : FpFmt := ⟨8, 127, 23, .ieee⟩
def fp16 : FpFmt := ⟨5, 15, 10, .ieee⟩
def bf16 : FpFmt := ⟨8, 127, 7, .ieee⟩
def e4m3 : FpFmt := ⟨4, 7, 3, .e4m3⟩
def e5m2 : FpFmt := ⟨5, 15, 2, .ieee⟩
def e2m3 : FpFmt := ⟨2, 1, 3, .plain⟩
def e3m2 : FpFmt := ⟨3, 3, 2, .plain⟩
def e2m1 : FpFmt := ⟨2, 1, 1, .plain⟩

/-- The floating-point format of an FMT code, if it names one. -/
def fpOf (fmt : Nat) : Option FpFmt :=
  if fmt = 5 then some fp32 else if fmt = 6 then some fp64 else if fmt = 8 then some fp16 else if fmt = 9 then some bf16
  else if fmt = 10 then some e4m3 else if fmt = 11 then some e5m2 else none

/-- Integer FMT codes that are signed. -/
def intSigned (fmt : Nat) : Bool := fmt == 1 || fmt == 3 || fmt == 0xC || fmt == 0xE

/-- Bits below the sign. -/
def FpFmt.signBit (f : FpFmt) : Nat := f.w + f.t

/-- EMIN (R246). -/
def FpFmt.emin (f : FpFmt) : Int := 1 - (f.bias : Int)

/-- The canonical NaN (R246, R247). -/
def FpFmt.nanBits (f : FpFmt) : Nat :=
  match f.kind with
  | .ieee => (2 ^ f.w - 1) * 2 ^ f.t + 2 ^ (f.t - 1)
  | _ => 2 ^ (f.w + f.t) - 1

/-- Infinity, where the format has one. -/
def FpFmt.infBits (f : FpFmt) (neg : Bool) : Nat := b2n neg * 2 ^ f.signBit + (2 ^ f.w - 1) * 2 ^ f.t

/-- The value that the bits of a format encode. -/
def FpFmt.decode (f : FpFmt) (x : Nat) : Num :=
  let neg := x / 2 ^ f.signBit % 2 == 1
  let ex := x / 2 ^ f.t % 2 ^ f.w
  let fr := x % 2 ^ f.t
  let number : Num :=
    if ex = 0 then .fin neg fr (f.emin - f.t) else .fin neg (2 ^ f.t + fr) ((ex : Int) - f.bias - f.t)
  match f.kind with
  | .ieee => if ex = 2 ^ f.w - 1 then (if fr = 0 then .inf neg else .nan) else number
  | .e4m3 => if ex = 2 ^ f.w - 1 ∧ fr = 2 ^ f.t - 1 then .nan else number
  | .plain => number

/-- The largest finite magnitude's bits. -/
def FpFmt.maxBits (f : FpFmt) : Nat :=
  match f.kind with
  | .ieee => (2 ^ f.w - 1) * 2 ^ f.t - 1
  | .e4m3 => 2 ^ (f.w + f.t) - 2
  | .plain => 2 ^ (f.w + f.t) - 1

/-- What a finite overflow becomes (R248). -/
def FpFmt.overflow (f : FpFmt) (neg : Bool) : Nat :=
  match f.kind with
  | .ieee => f.infBits neg
  | _ => b2n neg * 2 ^ f.signBit + f.maxBits

/-- What an infinity becomes (R248). -/
def FpFmt.ofInf (f : FpFmt) (neg : Bool) : Nat :=
  match f.kind with
  | .ieee => f.infBits neg
  | _ => f.nanBits

/-- Round to nearest, ties to even: `m / 2^k`. -/
def rne (m k : Nat) : Nat :=
  if k = 0 then m
  else
    let t := m / 2 ^ k
    let r := m % 2 ^ k
    if 2 ^ (k - 1) < r ∨ (r = 2 ^ (k - 1) ∧ t % 2 = 1) then t + 1 else t

/-- Exponent and fraction bits of a rounded magnitude `t × 2^q`, where `t < 2^(T+1)` or `t = 2^(T+1)` after a carry, with no bound on the exponent
(R246). -/
def FpFmt.mag (f : FpFmt) (t : Nat) (q : Int) : Nat :=
  let (t, q) : Nat × Int := if t = 2 ^ (f.t + 1) then (2 ^ f.t, q + 1) else (t, q)
  if t < 2 ^ f.t then t else (q + f.t + f.bias).toNat * 2 ^ f.t + (t - 2 ^ f.t)

/-- Bits of a rounded magnitude (R246, R248). -/
def FpFmt.pack (f : FpFmt) (neg : Bool) (t : Nat) (q : Int) : Nat :=
  if f.maxBits < f.mag t q then f.overflow neg else b2n neg * 2 ^ f.signBit + f.mag t q

/-- A finite magnitude `m × 2^e` rounded to the format's precision, with no bound on the exponent: the significand and its unit's exponent. -/
def FpFmt.round (f : FpFmt) (m : Nat) (e : Int) : Nat × Int :=
  let q : Int := max ((Nat.log2 m : Int) + e) f.emin - f.t
  (if q ≤ e then m * 2 ^ (e - q).toNat else rne m (q - e).toNat, q)

/-- A finite value overflows the format (R248). -/
def FpFmt.exceeds (f : FpFmt) (m : Nat) (e : Int) : Bool :=
  let (t, q) := f.round m e
  m != 0 && decide (f.maxBits < f.mag t q)

/-- The exact value rounded once to the format (R247, R248). -/
def FpFmt.encode (f : FpFmt) (x : Num) : Nat :=
  match x with
  | .nan => f.nanBits
  | .inf neg => f.ofInf neg
  | .fin neg m e =>
    if m = 0 then b2n neg * 2 ^ f.signBit else f.pack neg (f.round m e).1 (f.round m e).2

/-! ### Exact operations -/

/-- A finite value as an integer multiple of `2^e0`, for `e0` no higher than its exponent. -/
def scaledInt (neg : Bool) (m : Nat) (e e0 : Int) : Int :=
  let v : Int := ((m * 2 ^ (e - e0).toNat : Nat) : Int)
  if neg then -v else v

/-- Sum (R247 item 5: an exact zero sum of unlike signs is +0). -/
def Num.add (a b : Num) : Num :=
  match a, b with
  | .nan, _ => .nan
  | _, .nan => .nan
  | .inf x, .inf y => if x = y then .inf x else .nan
  | .inf x, _ => .inf x
  | _, .inf y => .inf y
  | .fin x m e, .fin y m' e' =>
    let e0 := min e e'
    let v := scaledInt x m e e0 + scaledInt y m' e' e0
    if v = 0 then .fin (x && y) 0 e0 else .fin (decide (v < 0)) v.natAbs e0

/-- Negation. -/
def Num.neg : Num → Num
  | .nan => .nan
  | .inf x => .inf (!x)
  | .fin x m e => .fin (!x) m e

/-- Product. -/
def Num.mul (a b : Num) : Num :=
  match a, b with
  | .nan, _ => .nan
  | _, .nan => .nan
  | .inf x, .inf y => .inf (x != y)
  | .inf x, .fin y m _ => if m = 0 then .nan else .inf (x != y)
  | .fin y m _, .inf x => if m = 0 then .nan else .inf (x != y)
  | .fin x m e, .fin y m' e' => .fin (x != y) (m * m') (e + e')

/-- `a < b` on numbers, with −0 below +0. -/
def Num.lt (a b : Num) : Bool :=
  match a, b with
  | .nan, _ => false
  | _, .nan => false
  | .inf x, .inf y => x && !y
  | .inf x, _ => x
  | _, .inf y => !y
  | .fin x m e, .fin y m' e' =>
    let e0 := min e e'
    let v := scaledInt x m e e0
    let w := scaledInt y m' e' e0
    if v = w then x && !y else decide (v < w)

/-- The numbers are equal in value (zeros of either sign are equal); a NaN equals nothing. -/
def Num.eqv (a b : Num) : Bool :=
  match a, b with
  | .fin x m e, .fin y m' e' => let e0 := min e e'; scaledInt x m e e0 == scaledInt y m' e' e0
  | .inf x, .inf y => x == y
  | _, _ => false

/-- minimumNumber (R27, R247). -/
def Num.minimum (a b : Num) : Num :=
  match a, b with
  | .nan, b => b
  | a, .nan => a
  | a, b => if b.lt a then b else a

/-- maximumNumber (R27, R247). -/
def Num.maximum (a b : Num) : Num :=
  match a, b with
  | .nan, b => b
  | a, .nan => a
  | a, b => if a.lt b then b else a

/-! ### Elements (R250) -/

/-- Bits of an FMT's element. -/
def fmtBits (fmt : Nat) : Nat :=
  if fmt = 1 ∨ fmt = 2 ∨ fmt = 5 then 32 else if fmt = 3 ∨ fmt = 4 ∨ fmt = 6 then 64 else if fmt = 7 then 128
  else if fmt = 8 ∨ fmt = 9 ∨ fmt = 0xE ∨ fmt = 0xF then 16 else 8

/-- The value of an integer element. -/
def intVal (fmt x : Nat) : Int := if intSigned fmt then signed (fmtBits fmt) x else (x : Int)

/-- Bits of an integer, modulo the width. -/
def wrapInt (w : Nat) (v : Int) : Nat := (v % (2 ^ w : Nat)).toNat

/-- Element arithmetic of ATOMIC_ADD, MIN, MAX and REDUCE_STORE: `op` 0 add, 1 min, 2 max (R27, R250). -/
def combine (fmt op x y : Nat) : Nat :=
  match fpOf fmt with
  | some f =>
    let a := f.decode x
    let b := f.decode y
    f.encode (if op = 0 then a.add b else if op = 1 then a.minimum b else a.maximum b)
  | none =>
    if op = 0 then (x + y) % 2 ^ fmtBits fmt
    else
      let a := intVal fmt x
      let b := intVal fmt y
      if op = 1 then (if b < a then y else x) else (if a < b then y else x)

/-- Bytes of an element. -/
def fmtBytes (fmt : Nat) : Nat := fmtBits fmt / 8

/-- Split a byte string into `n` elements of `k` bytes. -/
def elems (k : Nat) : Nat → List Byte → List Nat
  | 0, _ => []
  | n + 1, l => ofBytes (l.take k) :: elems k n (l.drop k)

/-- Combine two byte strings element by element (R250). -/
def combineBytes (fmt op : Nat) (old new : List Byte) : List Byte :=
  let k := fmtBytes fmt
  let n := new.length / k
  (List.zipWith (fun x y => toBytes k (combine fmt op x y)) (elems k n old) (elems k n new)).flatten

/-! ### Conversion (R249) -/

/-- Round a finite value to the nearest integer, ties to even. -/
def rneInt (neg : Bool) (m : Nat) (e : Int) : Int :=
  let v : Nat := if 0 ≤ e then m * 2 ^ e.toNat else rne m (-e).toNat
  if neg then -(v : Int) else v

/-- Saturate to an integer format (R248). -/
def satInt (fmt : Nat) (v : Int) : Nat :=
  let w := fmtBits fmt
  let lo : Int := if intSigned fmt then -(2 ^ (w - 1) : Nat) else 0
  let hi : Int := if intSigned fmt then (2 ^ (w - 1) : Nat) - 1 else (2 ^ w : Nat) - 1
  wrapInt w (if v < lo then lo else if hi < v then hi else v)

/-- One element converted from format `a` to format `b` (R249). -/
def convert (a b x : Nat) : Nat :=
  match fpOf a, fpOf b with
  | some f, some g => g.encode (f.decode x)
  | some f, none =>
    match f.decode x with
    | .nan => 0
    | .inf neg => satInt b (if neg then -(2 ^ 70 : Nat) else (2 ^ 70 : Nat))
    | .fin neg m e => satInt b (rneInt neg m e)
  | none, some g =>
    let v := intVal a x
    g.encode (.fin (decide (v < 0)) v.natAbs 0)
  | none, none => wrapInt (fmtBits b) (intVal a x)

/-! ### Exact accumulator lanes (R255 to R259) -/

/-- A lane's 320 bits. -/
def Lane.bits (l : Lane) : Nat :=
  b2n l.ovf * 2 ^ 319 + b2n l.ninf * 2 ^ 318 + b2n l.pinf * 2 ^ 317 + b2n l.nan * 2 ^ 316 + wrapInt 316 l.value

/-- The lane that 320 bits spell. -/
def Lane.ofBits (x : Nat) : Lane :=
  { ovf := x.testBit 319, ninf := x.testBit 318, pinf := x.testBit 317, nan := x.testBit 316, value := signed 316 (x % 2 ^ 316) }

/-- Add one element (R256). -/
def Lane.addNum (l : Lane) (x : Num) : Lane :=
  match x with
  | .nan => { l with nan := true }
  | .inf true => { l with ninf := true }
  | .inf false => { l with pinf := true }
  | .fin neg m e =>
    let v := l.value + scaledInt neg m e (-149)
    let out := decide (v < -(2 ^ 315 : Nat)) || decide ((2 ^ 315 : Nat) ≤ v)
    { l with value := signed 316 (wrapInt 316 v), ovf := l.ovf || out }

/-- One draw of the stochastic rounding generator: the value, and the new state (R259). -/
def sround (g : Nat) : Nat × Nat :=
  let g := if g = 0 then 0x9E3779B97F4A7C15 else g
  let g := g ^^^ (g * 2 ^ 13 % 2 ^ 64)
  let g := g ^^^ (g / 2 ^ 7)
  let g := g ^^^ (g * 2 ^ 17 % 2 ^ 64)
  (g / 2 ^ 32, g)

/-- Narrow one lane (R258); `r` is the lane's draw when the mode is stochastic. -/
def Lane.narrow (l : Lane) (f : FpFmt) (r : Option Nat) : Nat :=
  if l.nan || l.ovf || (l.pinf && l.ninf) then f.nanBits
  else if l.pinf then f.ofInf false
  else if l.ninf then f.ofInf true
  else if l.value = 0 then 0
  else
    let m := l.value.natAbs
    let neg := decide (l.value < 0)
    let e : Int := (Nat.log2 m : Int) - 149
    let q : Int := max e f.emin - f.t
    let k := (q + 149).toNat
    match r with
    | none => f.pack neg (rne m k) q
    | some r =>
      let t := m / 2 ^ k
      f.pack neg (if r < m % 2 ^ k * 2 ^ 32 / 2 ^ k then t + 1 else t) q

/-! ### Billet decoding (R262 to R264) -/

/-- Element of an input format: bits per element. -/
def inBits (i : Nat) : Nat := if i = 0 ∨ i = 1 ∨ i = 5 then 8 else if i = 2 ∨ i = 3 then 6 else 4

/-- Elements of a block (R262). -/
def inBlock (i : Nat) : Nat := if i = 6 then 256 else 32

/-- Element `k` of packed bytes. -/
def packed (i k : Nat) (l : List Byte) : Nat :=
  let w := inBits i
  let o := w * k
  ofBytes ((l.drop (o / 8)).take 2) / 2 ^ (o % 8) % 2 ^ w

/-- Value of an element (R264 step 1). -/
def inVal (i x : Nat) : Num :=
  if i = 0 then e4m3.decode x else if i = 1 then e5m2.decode x else if i = 2 then e2m3.decode x
  else if i = 3 then e3m2.decode x
  else if i = 5 then let v := signed 8 x; .fin (decide (v < 0)) v.natAbs (-6)
  else e2m1.decode x

/-- The output format of a decode control word. -/
def outFmt (o : Nat) : FpFmt := (fpOf o).getD fp32

/-- One decoded element (R264): `x` times the scale, rounded once to OUT. -/
def decodeElem (i : Nat) (out : FpFmt) (scale : Num) (x : Nat) : Nat :=
  let v := inVal i x
  match scale, v with
  | .nan, _ => out.nanBits
  | _, .nan => out.nanBits
  | s, .fin neg 0 e => match s with
    | .inf _ => out.nanBits
    | _ => out.encode (.fin neg 0 e)
  | .fin sneg sm se, v => match out.encode (v.mul (.fin sneg sm se)), v with
    | r, .fin neg _ _ => if r % 2 ^ out.signBit = 0 then b2n neg * 2 ^ out.signBit else r
    | r, _ => r
  | s, v => out.encode (v.mul s)

/-- The scale that a block's scale bytes give. -/
def scaleVal (i : Nat) (l : List Byte) : Num :=
  if i = 6 then fp32.decode (ofBytes (l.take 4))
  else
    let e := ofBytes (l.take 1)
    if e = 255 then .nan else .fin false 1 ((e : Int) - 127)

end Sys2Proof.Machine
end

