-- ==== Sys2Proof/Machine/Spindle.lean ====
section
/-! DEFINITION. Spindle threads (10): their state, the instruction word and its checks, program errors and issue. -/

namespace Sys2Proof.Machine
open Sys2Proof

/-! ### Threads (R222, R223, R236) -/

/-- Thread states (R245). -/
def ThrSt.idle : Nat := 0
def ThrSt.ready : Nat := 1
def ThrSt.wait : Nat := 2
def ThrSt.parked : Nat := 3
def ThrSt.drain : Nat := 4

/-- Key of thread `t` of core `k`. -/
def thrKey (k t : Nat) : Nat := 16 * k + t

/-- What thread `q` holds beside its status registers. -/
def State.thr (s : State) (q : Nat) : Thread := tblGet {} s.spn.threads q
/-- Change what thread `q` holds. -/
def State.thrMod (s : State) (q : Nat) (f : Thread → Thread) : State :=
  { s with spn := { s.spn with threads := tblMod {} s.spn.threads q f } }
/-- A field of a thread's status entry. -/
def State.thrGet (s : State) (f : Fld) (q : Nat) : Nat := s.fget f (q / 256) (q % 256)
/-- Replace a field of a thread's status entry. -/
def State.thrSet (s : State) (f : Fld) (q v : Nat) : State := s.fset f (q / 256) (q % 256) v
/-- STATE of a thread. -/
def State.thrState (s : State) (q : Nat) : Nat := s.thrGet Fld.spnThrW0_STATE q

/-- Keys of the threads of cluster `c`. -/
def clusterThreads (c : Nat) : List Nat := List.range' (256 * c) 256

/-- Threads of cluster `c` not in IDLE. -/
def State.thrUsed (s : State) (c : Nat) : Nat := ((clusterThreads c).filter (fun q => s.thrState q != ThrSt.idle)).length

/-- Pages counted under R240: enabled target contexts, and the windows of threads not in IDLE. -/
def State.scrUsed (s : State) (c : Nat) : Nat :=
  (((List.range 64).filter (fun m => s.fget Fld.spnCtxW0_EN c m == 1)).map
      (fun m => s.fget Fld.spnCtxW0_LIMIT c m + 1 - s.fget Fld.spnCtxW0_BASE c m)).sum
    + (((clusterThreads c).filter (fun q => s.thrState q != ThrSt.idle)).map (fun q => (s.thr q).scrPages)).sum

/-- SPN_QSTAT shows the use of cluster `c`. -/
def State.spnShow (s : State) (c : Nat) : State :=
  (s.fset Fld.spnQstat_THR_USED c 0 (s.thrUsed c)).fset Fld.spnQstat_SCR_USED c 0 (s.scrUsed c)

/-- A thread takes a state; the use of its cluster follows. -/
def State.thrGo (s : State) (q st : Nat) : State := (s.thrSet Fld.spnThrW0_STATE q st).spnShow (q / 256)

/-- A thread's PC (log entry 16: it is kept whole, and shown in 18 bits). -/
def State.thrPc (s : State) (q pc : Nat) : State :=
  (s.thrMod q (fun t => { t with pc := pc % 2 ^ 64 })).thrSet Fld.spnThrW0_PC q (pc % 2 ^ 18)

/-- PC advances by one instruction. -/
def State.thrNext (s : State) (q : Nat) : State := s.thrPc q ((s.thr q).pc + 8)

/-- The thread is IDLE, and nothing of its last access is left. -/
def State.thrEnd (s : State) (q : Nat) : State :=
  ({ s with spn := { s.spn with ends := tblDel s.spn.ends q, waits := tblDel s.spn.waits q } }).thrGo q ThrSt.idle

/-- A program error (R237): the thread ends with ERRCODE and a contained-class record. -/
def State.progError (s : State) (q code : Nat) : State :=
  ((s.thrEnd q).thrSet Fld.spnThrW0_ERRCODE q code).errRec 2 0x13 4 q [(s.thr q).pc, code]

/-! ### Registers -/

/-- Scalar register `i`. -/
def State.sreg (s : State) (q i : Nat) : Word := tblGet 0 (s.thr q).sr i
def State.setS (s : State) (q i : Nat) (w : Word) : State := s.thrMod q (fun t => { t with sr := tblPut t.sr i w })
/-- Vector register `i`: 256 bytes. -/
def State.vreg (s : State) (q i : Nat) : List Byte := tblGet (List.replicate 256 0) (s.thr q).vr i
def State.setV (s : State) (q i : Nat) (l : List Byte) : State := s.thrMod q (fun t => { t with vr := tblPut t.vr i l })
/-- Predicate `i`, as a 256-bit number. -/
def State.preg (s : State) (q i : Nat) : Nat := tblGet 0 (s.thr q).pr i
def State.setP (s : State) (q i v : Nat) : State := s.thrMod q (fun t => { t with pr := tblPut t.pr i (v % 2 ^ 256) })

/-! ### The instruction word (R230, R231) -/

/-- The fields of an instruction word. -/
structure SInstr where
  cls : Nat
  op : Nat
  pm : Nat
  p : Nat
  d : Nat
  a : Nat
  b : Nat
  imm : Nat
  deriving DecidableEq, Repr

/-- The fields that a word spells. -/
def SInstr.of (w : Word) : SInstr :=
  { cls := bits w 63 60, op := bits w 59 52, pm := bits w 51 50, p := bits w 49 47, d := bits w 46 42, a := bits w 41 37, b := bits w 36 32,
    imm := bits w 31 0 }

/-- C and FMT of a register class. -/
def SInstr.c (i : SInstr) : Nat := i.imm / 2 ^ 27
def SInstr.fmt (i : SInstr) : Nat := i.imm / 2 ^ 23 % 16
/-- IMM, sign-extended. -/
def SInstr.simm (i : SInstr) : Int := signed 32 i.imm
/-- Fields of IMM in class 0x6. -/
def SInstr.space (i : SInstr) : Nat := i.imm / 2 ^ 30
def SInstr.aop (i : SInstr) : Nat := i.imm / 2 ^ 26 % 16
def SInstr.rfmt (i : SInstr) : Nat := i.imm / 2 ^ 22 % 16
def SInstr.rop (i : SInstr) : Nat := i.imm / 2 ^ 20 % 4
def SInstr.mcr (i : SInstr) : Nat := i.imm % 256

/-- FMT names an element format. -/
def fmtOk (f : Nat) : Bool := f != 0 && f != 7
/-- FMT of exact instructions, and the limit of B for its width. -/
def exactOk (f b : Nat) : Bool := (f == 5 && decide (b < 1)) || ((f == 8 || f == 9) && decide (b < 2)) || ((f == 10 || f == 11) && decide (b < 4))

/-- Operations of the register classes. -/
def SInstr.regOk (i : SInstr) : Bool :=
  if i.cls = 0 then decide (i.op ≤ 0x0C)
  else if i.cls = 2 then
    if i.op ≤ 5 then fmtOk i.fmt
    else if i.op = 6 ∨ i.op = 7 ∨ i.op = 8 ∨ i.op = 0x0A then i.fmt == 0
    else i.op == 0x0B && fmtOk i.fmt && decide (i.c < 16) && fmtOk i.c
  else if i.cls = 3 then
    (i.op == 0 || (decide (2 ≤ i.op) && decide (i.op ≤ 5)) || i.op == 0x10 || i.op == 0x11 || i.op == 0x12) && fmtOk i.fmt
  else if i.cls = 4 then
    if 7 < i.d then false
    else if i.op ≤ 3 then fmtOk i.fmt
    else if 8 ≤ i.op ∧ i.op ≤ 0x0A then true
    else decide (0x10 ≤ i.op) && decide (i.op ≤ 0x13) && decide (i.a < 8) && decide (i.b < 8)
  else
    if i.op = 0 then decide (i.d < 4)
    else if i.op = 1 then decide (i.d < 4) && exactOk i.fmt i.b
    else if i.op = 2 then decide (i.a < 4) && exactOk i.fmt i.b && decide (i.c < 2)
    else if i.op = 3 then true
    else (i.op == 4 || i.op == 5) && decide (i.d < 4)

/-- Fields of class 0x6 that its operation does not use are zero, and SPACE suits it. -/
def SInstr.remoteOk (i : SInstr) : Bool :=
  let rest := i.imm / 2 ^ 8 % 2 ^ 12 == 0
  if i.op ≤ 3 then i.imm % 2 ^ 30 == 0 && i.space != 3
  else if i.op = 4 then i.space == 2 && decide (i.aop ≤ 3) && i.rop == 0 && rest && i.mcr == 0
  else if i.op = 5 then i.space == 2 && i.aop == 0 && rest && i.mcr == 0
  else if i.op = 6 ∨ i.op = 7 then i.imm % 2 ^ 30 == 0 && (i.space == 1 || i.space == 2)
  else i.op == 8 && i.space == 2 && i.aop == 0 && i.rfmt == 0 && i.rop == 0 && rest

/-- The word is no reserved encoding (R230, R231). -/
def SInstr.ok (i : SInstr) : Bool :=
  i.pm != 3 &&
    (if i.cls = 0 ∨ i.cls = 2 ∨ i.cls = 3 ∨ i.cls = 4 ∨ i.cls = 7 then i.imm % 2 ^ 23 == 0 && i.regOk
     else if i.cls = 1 then
       i.op == 0 || (decide (3 ≤ i.op) && decide (i.op ≤ 8)) || (i.op == 0x20 && i.a == 0) || i.op == 0x21 || (i.op == 0x22 && decide (i.imm ≤ 5))
     else if i.cls = 5 then decide (i.op ≤ 3) || ((i.op == 4 || i.op == 5) && decide (i.d < 8))
     else if i.cls = 6 then i.remoteOk
     else if i.cls = 8 then i.op == 0 || i.op == 1 || i.op == 2 || (i.op == 8 && decide (i.imm < 64)) || i.op == 0x0A || i.op == 0x0F || i.op == 0x10
     else false)

/-- Bit `j` is enabled under PM (R224). -/
def State.enabled (s : State) (q : Nat) (i : SInstr) (j : Nat) : Bool :=
  i.pm == 0 || ((s.preg q i.p).testBit j == (i.pm == 1))

/-! ### Issue (R227, R230) -/

/-- The instruction word at a thread's PC. -/
def State.fetch (s : State) (q : Nat) : SInstr := SInstr.of (BitVec.ofNat 64 (ofBytes (s.load (imemKey (q / 256) (s.thr q).pc) 8)))

/-- Latency in SPN_CLK cycles (Table — instruction classes); an instruction of class 0x6 ends when its access does (R228). -/
def SInstr.latency (i : SInstr) : Nat := if i.cls = 2 ∨ i.cls = 3 ∨ i.cls = 7 then 8 else if i.cls = 5 then 12 else if i.cls = 6 then 1 else 4

/-- Pipe cycles (Table — instruction classes, Table — Spindle operations); 0 where the vector pipe is not used. -/
def SInstr.pipe (i : SInstr) : Nat :=
  if i.cls = 2 ∨ i.cls = 3 then 1
  else if i.cls = 7 then (if i.op = 1 then fmtBytes i.fmt else if i.op = 2 then 4 else if 4 ≤ i.op then 10 else 1)
  else 0

/-- What core `k` holds beside its threads. -/
def State.core (s : State) (k : Nat) : SpnCore := tblGet {} s.spn.cores k

/-- The SPN_CLK cycles of the current CORE_CLK cycle, three in every two, whose issue slot core `k` has not used and that the throttle level does
not gate (R227, R456). DESIGN CHOICE (log entry 59): throttle level L gates the first L of every 8 cycles. -/
def State.spnCycles (s : State) (k : Nat) : List Nat :=
  let lo := 3 * s.now / 2
  (List.range' lo (3 * (s.now + 1) / 2 - lo)).filter (fun c => decide ((s.core k).slot ≤ c) && decide (s.fget Fld.pwrTherm_LEVEL ≤ c % 8))

/-- Thread `t` of core `k` can issue in SPN_CLK cycle `c` (R227). -/
def State.spnFit (s : State) (k c t : Nat) : Bool :=
  let q := thrKey k t
  s.thrState q == ThrSt.ready && decide ((s.thr q).freeAt ≤ c) && ((s.fetch q).pipe == 0 || decide ((s.core k).pipe ≤ c))

/-- The thread of core `k` whose turn it is, and the SPN_CLK cycle (R227): the first that can issue, after the one that issued last. -/
def State.spnTurn (s : State) (k : Nat) : Option (Nat × Nat) :=
  (s.spnCycles k).findSome? (fun c =>
    (((List.range 16).map (fun j => ((s.core k).last + 1 + j) % 16)).find? (s.spnFit k c)).map (fun t => (t, c)))

/-- Thread `t` of core `k` takes the issue slot of cycle `c` for instruction `i`; ISSUED counts it. -/
def State.spnTake (s : State) (k t c : Nat) (i : SInstr) : State :=
  let q := thrKey k t
  let core : SpnCore := { last := t, slot := c + 1, pipe := if i.pipe = 0 then (s.core k).pipe else c + i.pipe }
  (({ s with spn := { s.spn with cores := tblPut s.spn.cores k core } }).thrMod q (fun x => { x with freeAt := c + i.latency })).fwrap
    Fld.spnThrW1_ISSUED (q / 256) (q % 256) 1

/-- Thread `t` of core `k`, whose turn it is and whose cluster's domain is Active (R443), issues the instruction at its PC, which is operation `op` of class `cls`; a fetch beyond LEN and a
reserved encoding are program errors; another operation is another command's. -/
def State.spnIssue (s : State) (k t cls op : Nat) (ue : Bool) (eff : Nat → SInstr → State → State) : State :=
  let q := thrKey k t
  if 256 ≤ k ∨ s.fget Fld.pwrDomW0_STATE (10 + k / 16) ≠ 0 then s else
  match s.spnTurn k with
  | none => s
  | some (t', c) =>
  if t ≠ t' then s
  else if ue then (s.thrEnd q).errLater 2 0x15 5 (q / 256) [k, t]
  else if s.fget Fld.spnProg_LEN (q / 256) ≤ (s.thr q).pc then s.progError q 2
  else
    let i := s.fetch q
    let s1 := s.spnTake k t c i
    if !i.ok then s1.progError q 1
    else if i.cls ≠ cls ∨ i.op ≠ op then s
    else eff q i s1

/-- WAITC's condition (R231): COUNT of its target context has come far enough. -/
def State.waitcMet (s : State) (q : Nat) (i : SInstr) : Bool :=
  decide ((s.fget Fld.spnCtxW1_COUNT (q / 256) (i.imm % 64) + 2 ^ 32 - (s.sreg q i.b).toNat % 2 ^ 32) % 2 ^ 32 < 2 ^ 31)

/-- The condition of a waiting WAITC is met (R236). -/
def State.waitcGo (s : State) (q : Nat) : State :=
  let i := s.fetch q
  if s.thrState q = ThrSt.wait ∧ i.cls = 8 ∧ i.op = 8 ∧ s.waitcMet q i = true then (s.thrNext q).thrGo q ThrSt.ready else s

def execWaitcMet (k t : Nat) (s : State) : Res := .next (if k < 256 ∧ t < 16 then s.waitcGo (thrKey k t) else s)

end Sys2Proof.Machine
end

