-- ==== Sys2Proof/Machine/CoppiceCmd.lean ====
section
/-! DEFINITION. COPPICE_CTRL and the end of Coppice copying (R523 to R530). -/

namespace Sys2Proof.Machine
open Sys2Proof

/-- Set the Coppice mode: 0 NONE, 1 SOURCE, 2 SHADOW. -/
def State.copMode (s : State) (m : Nat) : State := s.fset Fld.hubCoppiceCtrl_MODE 0 0 m

/-- SUM, ACCESSES, COPIES, DROPPED and STRAY become 0. -/
def State.copClear (s : State) : State := ((s.wr .hubCoppiceSum 0 0 0).wr .hubCoppiceCnt 0 0 0).wr .hubCoppiceLoss 0 0 0

/-- Enter SOURCE or SHADOW: CMASK, CH and LINK are set and CH is claimed. -/
def State.copEnter (s : State) (m cmask ch link : Nat) : State :=
  ((((s.fset Fld.hubCoppiceCtrl_CMASK 0 0 cmask).fset Fld.hubCoppiceCtrl_CH 0 0 ch).fset Fld.hubCoppiceCtrl_LINK 0 0 link).copMode m).crcClaim ch 3 0 0 true

/-- Leave SOURCE or SHADOW: CH is released. -/
def State.copLeave (s : State) : State := (s.copMode 0).crcRelease (s.fget Fld.hubCoppiceCtrl_CH)

/-- A copy made for link `l` has neither left nor been freed. -/
def State.copLeft (s : State) (l : Nat) : Bool :=
  let mine := fun (c : Copy) => c.port == 64 + l / 4 && c.fib == l % 4
  s.sw.waiting.any mine || s.sw.subq.any (fun e => e.2.copies.any mine) || !(s.holdList l).isEmpty || s.sw.sending.any mine

/-- Complete the OFF commands whose copies have all left or been freed. -/
def State.copDrained (s : State) : State :=
  State.each (s.sw.copOff.filter (fun x => !s.copLeft x.2)) (fun s x =>
    ({ s with sw := { s.sw with copOff := s.sw.copOff.filter (· != x) } } : State).completeTicket x.1 Status.ok []) s

def execCoppiceOffDrained (s : State) : Res := .next s.copDrained

/-- A thread of a covered cluster is not IDLE. -/
def State.copThreads (s : State) (cmask : Nat) : Bool :=
  (List.range 4096).any (fun q => cmask.testBit (q / 256) && s.thrState q != ThrSt.idle)

/-- LINK is DOWN with ADMIN = 1 (R183). -/
def State.copLinkDown (s : State) : Bool :=
  let l := s.fget Fld.hubCoppiceCtrl_LINK
  s.fget Fld.hubLink_STATE l == Hub.down && s.fget Fld.hubLink_ADMIN l == 1

/-- The transition from mode `m` under ACTION `a` is listed, or changes nothing. -/
def copListed (m a : Nat) : Bool := a == m || (m == 0 && (a == 1 || a == 2)) || (m == 1 && a == 0) || (m == 2 && (a == 0 || a == 3))

/-- What an accepted command does in mode `m`, and the completion of its ticket. -/
def State.copAct (s : State) (m a cmask ch link ticket : Nat) : State :=
  if m = 1 ∧ a = 0 then
    let l := s.fget Fld.hubCoppiceCtrl_LINK
    let s1 := s.copLeave
    { s1 with sw := { s1.sw with copOff := s1.sw.copOff ++ [(ticket, l)] } }
  else if m = a then s
  else if m = 0 then s.copEnter a cmask ch link
  else s.copLeave

def State.cmdCoppice (s : State) (c : Cmd) : Ans :=
  let w := c.word 0
  let v := c.word 1
  let a := bits (c.word 2) 1 0
  let cmask := bits w 15 0
  let ch := bits v 11 8
  let link := bits v 6 0
  let m := s.fget Fld.hubCoppiceCtrl_MODE
  if !s.bound then s.noAns Status.notBound
  else if !zeroOutside w [(17, 17), (15, 0)] || !zeroOutside v [(11, 8), (6, 0)] || !zeroOutside (c.word 2) [(1, 0)]
      || (cmask == 0 && (a == 1 || a == 2)) || !copListed m a
      || (m == 2 && a == 0 && s.copThreads (s.fget Fld.hubCoppiceCtrl_CMASK)) then s.noAns Status.badParam
  else if (m == 0 && (a == 1 || a == 2) && !s.crcFree ch) || (m == 2 && (a == 0 || a == 3) && !s.copLinkDown) then s.noAns Status.busy
  else
    match s.ticketSlot with
    | none => s.noAns Status.busy
    | some k =>
      let (t, s1) := s.ticketNew k c
      let s2 := (if bit w 17 then s1.copClear else s1).copAct m a cmask ch link t
      { st := s2, status := Status.accepted, ticket := t
        after := fun s => if m = 1 ∧ a = 0 then s else s.completeTicket t Status.ok [] }

end Sys2Proof.Machine
end

