-- ==== Sys2Proof/Machine/Billet.lean ====
section
/-! DEFINITION. Billets: their layout and checks (R313, R320), and the billet decode arrays (R262 to R265). -/

namespace Sys2Proof.Machine
open Sys2Proof

/-- Bytes of a billet, units of a billet. -/
def billetBytes (bsize : Nat) : Nat := 2 ^ (16 + bsize)
def billetUnits (bsize : Nat) : Nat := 4 * 2 ^ bsize

/-- Bytes of the element area (R262, R313). -/
def elemBytes (inf nelem : Nat) : Nat := if inf = 7 then nelem else (nelem * inBits inf + 7) / 8

/-- Byte at which a billet's scale area begins: the first multiple of 256 at or beyond the end of the elements. An MXINT8 billet has one scale to a
block like every MX billet (R262), though its SCALE_OFF field reads 0 (DEDUCED, log entry 19). -/
def scaleAt (inf nelem : Nat) : Nat := (256 + elemBytes inf nelem + 255) / 256 * 256

/-- The SCALE_OFF field of a geometry: 0 for IN 5 and 7 (R313). -/
def scaleOff (inf nelem : Nat) : Nat := if inf = 5 ∨ inf = 7 then 0 else scaleAt inf nelem

/-- Bytes of one block's scale. -/
def scaleSize (inf : Nat) : Nat := if inf = 6 then 4 else 1

/-- Blocks of a billet. -/
def blocksOf (inf nelem : Nat) : Nat := (nelem + inBlock inf - 1) / inBlock inf

/-- End of the scale area. -/
def scaleEnd (inf nelem : Nat) : Nat := scaleAt inf nelem + blocksOf inf nelem * scaleSize inf

/-- Every byte of a list is 0. -/
def allZero (l : List Byte) : Bool := l.all (· == 0)

/-- CHECK of a billet (R313): CRC-64 over bytes 256 to the end. -/
def billetCheck (l : List Byte) : Nat := crc64 (l.drop 256)

/-- Geometry of R313: the areas lie in the billet, and bytes beyond them are zero. -/
def geometryOk (l : List Byte) (inf nelem soff : Nat) : Bool :=
  let e := 256 + elemBytes inf nelem
  if inf = 7 then soff == 0 && decide (e ≤ l.length) && allZero (l.drop e)
  else soff == scaleOff inf nelem && decide (scaleEnd inf nelem ≤ l.length) && allZero ((l.drop e).take (scaleAt inf nelem - e))
    && allZero (l.drop (scaleEnd inf nelem))

/-- The billet's bytes pass the checks of R320 for its object, index, size code and version. -/
def billetOk (l : List Byte) (obj idx bsize version : Nat) : Bool :=
  let w := wordsOf 32 (l.take 256)
  let w0 := wordAt w 0
  let w1 := wordAt w 1
  let w2 := wordAt w 2
  let w3 := wordAt w 3
  bits w0 55 0 == 0 && bits w1 51 32 == 0 && bits w3 31 0 == 0 && (w.drop 5).all (· == 0)
    && bits w1 63 52 == obj && bits w1 31 0 == idx && bits w0 59 56 == bsize && bits w2 63 32 == version
    && decide (bits w0 63 60 ≤ 7) && geometryOk l (bits w0 63 60) (bits w2 31 0) (bits w3 63 32)
    && (wordAt w 4).toNat == billetCheck l

/-- Bytes that a billet's output occupies (R326). -/
def outBytes (out nelem : Nat) : Nat := if out = 0 then nelem else nelem * fmtBytes out

/-- The scale of block `j` of a billet of `nelem` elements. -/
def blockScale (l : List Byte) (inf nelem j : Nat) : Num :=
  scaleVal inf ((l.drop (scaleAt inf nelem + j * scaleSize inf)).take (scaleSize inf))

/-- The output of a billet whose bytes are good (R264): each element decoded, or the element bytes unchanged for OUT 0. -/
def billetOut (l : List Byte) (out : Nat) : List Byte :=
  let w := wordsOf 4 (l.take 32)
  let inf := bits (wordAt w 0) 63 60
  let nelem := bits (wordAt w 2) 31 0
  let area := l.drop 256
  if out = 0 then area.take nelem
  else ((List.range nelem).map (fun i =>
    toBytes (fmtBytes out) (decodeElem inf (outFmt out) (blockScale l inf nelem (i / inBlock inf)) (packed inf i area)))).flatten

/-- Blocks of a billet whose scale is a NaN. -/
def nanBlocks (l : List Byte) (out : Nat) : Nat :=
  let w := wordsOf 4 (l.take 32)
  let inf := bits (wordAt w 0) 63 60
  let nelem := bits (wordAt w 2) 31 0
  if out = 0 then 0
  else ((List.range (blocksOf inf nelem)).filter (fun j => blockScale l inf nelem j == .nan)).length

/-- The finite product of an element and its scale overflows OUT (R248). -/
def overflowed (inf : Nat) (f : FpFmt) (scale : Num) (x : Nat) : Bool :=
  match (inVal inf x).mul scale with
  | .fin _ m e => f.exceeds m e
  | _ => false

/-- Elements of a billet that overflow. -/
def overflows (l : List Byte) (out : Nat) : Nat :=
  let w := wordsOf 4 (l.take 32)
  let inf := bits (wordAt w 0) 63 60
  let nelem := bits (wordAt w 2) 31 0
  if out = 0 then 0
  else ((List.range nelem).filter (fun i =>
    overflowed inf (outFmt out) (blockScale l inf nelem (i / inBlock inf)) (packed inf i (l.drop 256)))).length

end Sys2Proof.Machine
end

