-- ==== Sys2Proof/Machine/Coppice.lean ====
section
/-! DEFINITION. Coppice mode at the clusters: which threads it covers, the access values and their sum (R524, R526, R527). -/

namespace Sys2Proof.Machine
open Sys2Proof

/-- The Coppice mode is `m` and covers cluster `c`: 1 SOURCE, 2 SHADOW (R524). -/
def State.copCovers (s : State) (m c : Nat) : Bool :=
  s.fget Fld.hubCoppiceCtrl_MODE == m && (s.fget Fld.hubCoppiceCtrl_CMASK).testBit c

/-- A COPPICE_CTRL of this cycle (CLEAR, PROMOTE) that still waits comes before a write-kind access of a covered cluster (R529). -/
def coppiceCtrl : Instr → Bool
  | .coppiceCtrlOff _ | .coppiceCtrlSource _ | .coppiceCtrlShadow _ | .coppiceCtrlPromote _ => true
  | _ => false

/-- The access of cluster `c` waits for a COPPICE_CTRL of its cycle. -/
def State.copHolds (s : State) (c : Nat) : Bool := (s.copCovers 1 c || s.copCovers 2 c) && s.soon coppiceCtrl

/-- Count a fabric write-kind access of a thread of cluster `c`, to address `addr`, and add its access value to SUM (R527): channel CH is
restarted and fed the address and the data. -/
def State.copAccess (s : State) (c addr : Nat) (data : List Byte) : State :=
  if s.copCovers 1 c || s.copCovers 2 c then
    let ch := s.fget Fld.hubCoppiceCtrl_CH
    let s1 := (s.crcRestart ch).crcFeed ch (toBytes 8 addr ++ data)
    (s1.fsat Fld.hubCoppiceCnt_ACCESSES 0 0 1).wr .hubCoppiceSum 0 0 (s1.rd .hubCoppiceSum + s1.rd .crcValue ch)
  else s

end Sys2Proof.Machine
end

