-- ==== Sys2Proof/Machine/SpindleRemote.lean ====
section
/-! DEFINITION. Remote accesses of a Spindle thread (10): their address spaces, issue, completion, parking and resumption. -/

namespace Sys2Proof.Machine
open Sys2Proof

/-! ### Scratchpad and Spindle scratch (R226) -/

/-- The two stacks of a Spindle die, and the granule of each that a SPACE 1 granule number names. -/
def State.scrGranule (s : State) (die g : Nat) : Nat × Nat :=
  let n := s.fget Fld.spnHregSizes_SCR (2 * die)
  if g < n then (2 * die, g) else (2 * die + 1, g - n)

/-- Key of a SPACE 1 byte; none beyond the two regions. -/
def State.scrRegionKey (s : State) (die b : Nat) : Option Nat :=
  let (k, g) := s.scrGranule die (b / granuleBytes)
  s.regionKey k 3 (g * granuleBytes + b % granuleBytes)

/-- The parts of a SPACE 1 run: it may cross one granule's end. -/
def State.scrRegionParts (s : State) (die b n : Nat) : Option (List (Nat × Nat)) :=
  let m := min n (granuleBytes - b % granuleBytes)
  (s.scrRegionKey die b).bind (fun a => (s.scrRegionKey die (b + n - 1)).bind (fun _ =>
    if m = n then some [(a, n)] else (s.scrRegionKey die (b + m)).map (fun c => [(a, m), (c, n - m)])))

/-- The parts of `n` bytes at an address of SPACE 0 or 1, when they lie within the thread's window or the region. -/
def State.spaceParts (s : State) (q space addr n : Nat) : Option (List (Nat × Nat)) :=
  let t := s.thr q
  if n = 0 ∨ 4096 < n then none
  else if space = 0 then
    if t.scrBase * 4096 ≤ addr ∧ addr + n ≤ (t.scrBase + t.scrPages) * 4096 then some [(scrKey (q / 1024) addr, n)] else none
  else s.scrRegionParts (q / 1024) addr n

/-- Stacks whose controllers serve `n` bytes from offset `addr` of a space: those of the granules of SPACE 1. -/
def State.spaceStacks (s : State) (q space addr n : Nat) : List Nat :=
  if space = 1 then [(s.scrGranule (q / 1024) (addr / granuleBytes)).1, (s.scrGranule (q / 1024) ((addr + n - 1) / granuleBytes)).1] else []

/-- A controller of the access is held (R305). -/
def State.spaceWaits (s : State) (q space addr n : Nat) : Bool := (s.spaceStacks q space addr n).any (fun k => s.poolHeld k && !s.poolDead k)
/-- A stack of the access failed training (R469). -/
def State.spaceDead (s : State) (q space addr n : Nat) : Bool := (s.spaceStacks q space addr n).any s.poolDead

/-- A read of the parts delivers the error value (R301). -/
def State.partsBad (s : State) (l : List (Nat × Nat)) : Bool := l.any (fun x => s.view x.1 x.2 != .good)

/-- Read parts: the error value where a line is bad or poisoned (R301). -/
def State.partsRead (s : State) (l : List (Nat × Nat)) : List Byte × State :=
  let n := (l.map (·.2)).sum
  let d := if s.partsBad l then onesBytes n else (l.map (fun x => s.load x.1 x.2)).flatten
  (d, State.each l (fun s x => s.touch x.1 x.2 2) s)

/-- Store a byte string over parts. -/
def State.partsWrite (s : State) : List (Nat × Nat) → List Byte → State
  | [], _ => s
  | (a, n) :: t, d => ((s.storeLines a (d.take n)).1).partsWrite t (d.drop n)

/-- Store the error value over parts: all ones, and poison in every line it touches (R40, R41). -/
def State.partsPoison (s : State) (l : List (Nat × Nat)) : State := State.each l (fun s x => s.storePoison x.1 x.2) s

/-- The access has ended: its outcome waits for REMOTE_ACCESS_COMPLETE. -/
def State.remoteEnd (s : State) (q : Nat) (e : RemoteEnd) : State :=
  { s with spn := { s.spn with ends := tblMod [] s.spn.ends q (· ++ [e]) } }

/-- The access waits for a walk of its page or for an HBM controller; REMOTE_ACCESS_COMPLETE tries it again. -/
def State.remoteHold (s : State) (q : Nat) (ext : List Word) : State :=
  { s with spn := { s.spn with waits := tblPut s.spn.waits q ext } }

/-! ### Fabric accesses (R228, R229, R232) -/

/-- What the fabric request of a remote instruction is. -/
structure RemoteReq where
  typ : Nat
  len : Nat
  fmt : Nat := 0
  rop : Nat := 0
  payload : List Byte := []
  mcr : Option Nat := none
  poison : Bool := false

/-- The request of thread `q`. -/
def State.remoteReq (s : State) (q va gfa ksel : Nat) (r : RemoteReq) : Req :=
  let t := s.thr q
  { own := .spn q 0, typ := r.typ, vc := t.vc, tc := t.tc, flow := t.flow, dclass := 2, ksel := ksel, fas := s.thrGet Fld.spnThrW0_FAS q,
    fmt := r.fmt, rop := r.rop, gfa := gfa, len := r.len - 1, role := s.thrGet Fld.spnThrW0_ROLE q, payload := r.payload,
    stream := (3, q), mcr := r.mcr, fva := va, poison := r.poison }

/-- The context word of a thread's record (R90). -/
def State.thrContext (s : State) (q : Nat) : Nat :=
  q / 16 * 2 ^ 56 + q % 16 * 2 ^ 52 + s.thrGet Fld.spnThrW0_ROLE q * 2 ^ 44 + (s.thr q).pc % 2 ^ 32

/-- A final fault found before the request is issued (R13, R25, R89). -/
def State.remoteFail (s : State) (q va : Nat) (gfa : Option Nat) (typ cause status level detail : Nat) : State :=
  (s.fault (96 + q / 256) { cause := cause, status := status, actor := 3, fva := some va, gfa := gfa, typ := typ, level := level,
                            fas := s.thrGet Fld.spnThrW0_FAS q, context := s.thrContext q, detail := detail }).remoteEnd q
    { part := 0, status := status }

/-- A restartable fault: the thread parks, and its cluster writes the record (R100). -/
def State.thrPark (s : State) (q va : Nat) (gfa : Option Nat) (typ cause level detail : Nat) : State :=
  (s.fault (96 + q / 256) { cause := cause, status := TStat.fault, actor := 3, parked := true, fva := some va, gfa := gfa, typ := typ, level := level,
                            fas := s.thrGet Fld.spnThrW0_FAS q, context := s.thrContext q, detail := detail }).thrGo q ThrSt.parked

/-- Translate and issue the fabric request of thread `q`, which is in WAIT; `wk`: it is write-kind, which Coppice counts as it is issued. -/
def State.remoteFabric (s : State) (q va : Nat) (wk : Bool) (r : RemoteReq) (ext : List Word) : State :=
  let c := q / 256
  let u := 96 + c
  let go := fun (s : State) (gfa ksel : Nat) =>
    let x := s.remoteReq q va gfa ksel r
    if r.mcr.isNone && !isTarget (gfaE gfa) then s.remoteFail q va (some gfa) r.typ 0x07 TStat.fault 7 0
    else if !operandOk x.typ (gfaOff gfa) x.len x.fmt x.rop x.vc x.payload.length || (r.mcr.isSome && x.vc != 2 && x.vc != 3) then
      s.remoteFail q va (some gfa) r.typ 0x08 TStat.badParam 7 0
    else (if wk then s.copAccess c va r.payload else s).submit u x
  if r.mcr.isSome then go s (s.localGfa 0 (va % 2 ^ 45)) 0
  else
    match s.bulk u (4 * c) (s.thrGet Fld.spnThrW0_FAS q) va ext with
    | (.ok gfa ksel, s1) => go s1 gfa ksel
    | (.restart level detail, s1) => s1.thrPark q va none r.typ 0x01 level detail
    | (.final cause status level detail, s1) => s1.remoteFail q va none r.typ cause status level detail
    | (.waits, _) => s.remoteHold q ext

/-! ### The remote instructions (R231, R232) -/

/-- Bytes of the access: those of RLDS to RSTV, RRED and RATOM, or s[B]. -/
def State.remoteLen (s : State) (q : Nat) (i : SInstr) : Nat :=
  if i.op ≤ 1 then 8 else if i.op ≤ 3 ∨ i.op = 5 then 256 else if i.op = 4 then fmtSize i.rfmt else (s.sreg q i.b).toNat

/-- The operation reads at s[A]: RLDS, RLDV, RFETCH. -/
def SInstr.isLoad (i : SInstr) : Bool := i.op == 0 || i.op == 2 || i.op == 7

/-- The operation has a scratchpad side at s[D]: RMOVE, RFETCH, RMCAST. -/
def SInstr.hasScr (i : SInstr) : Bool := decide (6 ≤ i.op)

/-- Data that a store-like operation sends, with RMOVE's and RMCAST's read from scratchpad. -/
def State.remoteData (s : State) (q : Nat) (i : SInstr) (scr : List (Nat × Nat)) : List Byte × State :=
  let n := s.remoteLen q i
  if i.op = 1 then (wordBytes (s.sreg q i.d), s)
  else if i.op = 3 ∨ i.op = 5 then (s.vreg q i.d, s)
  else if i.op = 4 then
    let b := toBytes n (s.sreg q i.b).toNat
    (if i.aop = 3 then b ++ toBytes n (s.sreg q i.d).toNat else b, s)
  else if i.op = 6 ∨ i.op = 8 then s.partsRead scr
  else ([], s)

/-- Fabric TYPE of the operation (R232). -/
def SInstr.ty (i : SInstr) : Nat :=
  if i.isLoad then Ty.load else if i.op = 4 then (if i.aop = 3 then Ty.cas else Ty.atomicAdd + i.aop) else if i.op = 5 then Ty.reduceStore else Ty.store

/-- The alignment of RLDS to RSTV in SPACE 0 and 1. -/
def SInstr.align (i : SInstr) : Nat := if i.op ≤ 1 then 8 else if i.op ≤ 3 then 256 else 1

/-- The fabric write-kind operations of R526: RSTS, RSTV, RRED, RMOVE, RMCAST. -/
def SInstr.isWriteKind (i : SInstr) : Bool := i.op == 1 || i.op == 3 || i.op == 5 || i.op == 6 || i.op == 8

/-- A fabric access that Coppice SHADOW suppresses: a write-kind one is counted and completes with OK, RATOM with FAULT (R526, R527). -/
def State.remoteSuppressed (s : State) (q addr : Nat) (i : SInstr) (d : List Byte) : State :=
  if i.op = 4 then s.remoteEnd q { part := 0, status := TStat.fault }
  else (s.copAccess (q / 256) addr d).remoteEnd q { part := 0, status := TStat.ok }

/-- Perform the access of thread `q`, in WAIT: SPACE 0 and 1 at once, SPACE 2 through the fabric; a run outside its window or region is
a program error. -/
def State.remoteGo (s : State) (q : Nat) (i : SInstr) (ext : List Word) : State :=
  let n := s.remoteLen q i
  let addr := (s.sreg q i.a).toNat
  let scr := if i.hasScr then s.spaceParts q 0 (s.sreg q i.d).toNat n else some []
  match scr with
  | none => s.progError q 5
  | some sp =>
    if i.space = 2 then
      let (d, s1) := s.remoteData q i sp
      if s.copHolds (q / 256) && i.isWriteKind then s.remoteHold q ext
      else if s.copCovers 2 (q / 256) && (i.isWriteKind || i.op == 4) then s1.remoteSuppressed q addr i d
      else
        let r : RemoteReq :=
          { typ := i.ty, len := n, fmt := if i.op = 4 ∨ i.op = 5 then i.rfmt else 0, rop := if i.op = 5 then i.rop else 0, payload := d,
            mcr := if i.op = 8 then some i.mcr else none, poison := s.partsBad sp }
        s1.remoteFabric q addr i.isWriteKind r ext
    else if addr % i.align ≠ 0 then s.progError q 5
    else
      match s.spaceParts q i.space addr n with
      | none => s.progError q 5
      | some l =>
        let dead := s.spaceDead q i.space addr n
        if s.spaceWaits q i.space addr n then s.remoteHold q ext
        else if i.isLoad then
          let (d, s1) := if dead then (onesBytes n, s) else s.partsRead l
          s1.remoteEnd q { part := 0, status := TStat.ok, data := d, poison := dead || s.partsBad l }
        else
          let (d, s1) := s.remoteData q i sp
          (if dead then s1 else if s.partsBad sp then s1.partsPoison l else s1.partsWrite l d).remoteEnd q { part := 0, status := TStat.ok }

/-- Issue of a class 0x6 instruction: the thread waits for its access (R228, R236). -/
def remote (ext : List Word) (q : Nat) (i : SInstr) (s : State) : State :=
  if s.enabled q i 0 then (s.thrGo q ThrSt.wait).remoteGo q i ext else s.thrNext q

/-! ### Completion (R228, R236) -/

/-- Write the destination of a load-like operation; poisoned data stays poisoned in scratchpad. -/
def State.remoteDest (s : State) (q : Nat) (i : SInstr) (d : List Byte) (poison : Bool) : State :=
  if i.op = 0 ∨ i.op = 4 then s.setS q i.d (BitVec.ofNat 64 (ofBytes d))
  else if i.op = 2 then s.setV q i.d (d.take 256)
  else if i.op = 7 then
    match s.spaceParts q 0 (s.sreg q i.d).toNat (s.remoteLen q i) with
    | some l => if poison then s.partsPoison l else s.partsWrite l d
    | none => s
  else s

/-- Bytes of the error value in the destination. -/
def State.remoteOnes (s : State) (q : Nat) (i : SInstr) : List Byte := onesBytes (if i.op = 0 ∨ i.op = 4 then 8 else s.remoteLen q i)

/-- The access ends with a status: LAST_STATUS, the destination, PC, READY. -/
def State.remoteDone (s : State) (q status : Nat) (d : List Byte) (poison : Bool) : State :=
  let i := s.fetch q
  let d := if status = TStat.ok then d else s.remoteOnes q i
  (((s.remoteDest q i d (poison || status != TStat.ok)).thrSet Fld.spnThrW0_LAST_STATUS q status).thrNext q).thrGo q ThrSt.ready

/-- A thread's ended access reaches it: WAIT goes on or parks, DRAIN becomes IDLE. An access that was held up is tried again. -/
def State.remoteComplete (s : State) (q : Nat) : State :=
  match tblGet [] s.spn.ends q with
  | [] =>
    match tblFind s.spn.waits q with
    | some ext =>
      if s.thrState q = ThrSt.wait then
        ({ s with spn := { s.spn with waits := tblDel s.spn.waits q } } : State).remoteGo q (s.fetch q) ext
      else s
    | none => s
  | e :: _ =>
    let s1 : State := { s with spn := { s.spn with ends := tblDel s.spn.ends q } }
    if s.thrState q = ThrSt.drain then s1.thrEnd q
    else if s.thrState q ≠ ThrSt.wait then s1
    else
      match e.restart with
      | some id =>
        let i := s.fetch q
        s1.thrPark q (s.sreg q i.a).toNat e.gfa i.ty 0x0F 7 id
      | none => s1.remoteDone q e.status e.data e.poison

def execRemoteAccessComplete (k t : Nat) (s : State) : Res := .next (if k < 256 ∧ t < 16 then s.remoteComplete (thrKey k t) else s)

/-! ### Stop and resumption (R236, R241) -/

/-- The owner is thread `q`. -/
def Owner.isThread (q : Nat) : Owner → Bool
  | .spn t _ => t == q
  | _ => false

/-- Stop a thread: a tag outstanding is kept until it completes; a request that waits for a tag is dropped. -/
def State.thrStop (s : State) (q : Nat) : State :=
  let u := 96 + q / 256
  let s1 : State := { s with waitq := tblMod [] s.waitq u (List.filter (fun w => !w.req.own.isThread q)) }
  let out := (tblVals (s.unitTags u)).any (fun t => t.own.isThread q)
  if s.thrState q = ThrSt.idle ∨ s.thrState q = ThrSt.drain then s1
  else if out then s1.thrGo q ThrSt.drain
  else s1.thrEnd q

/-- FAULT_RESUME of a parked thread (R107, R236): it executes its instruction again, or retires it with the error value. -/
def State.thrResume (s : State) (q : Nat) (abort : Bool) (ext : List Word) : State :=
  if abort then s.remoteDone q TStat.fault [] true
  else (s.thrGo q ThrSt.wait).remoteGo q (s.fetch q) ext

end Sys2Proof.Machine
end

