-- ==== Sys2Proof/Machine/SpindleCmd.lean ====
section
/-! DEFINITION. The measurement log (17); program loads, thread commands and target contexts of the Spindle clusters (10). -/

namespace Sys2Proof.Machine
open Sys2Proof

/-! ### The measurement log (R389) -/

/-- KIND and UNIT of a log entry. -/
def logKind (e : List Word) : Nat := bits (wordAt e 0) 63 56
def logUnit (e : List Word) : Nat := bits (wordAt e 0) 47 32

/-- The entry equals KIND, UNIT and DIGEST. -/
def logSame (kind unit : Nat) (digest : List Word) (e : List Word) : Bool := logKind e == kind && logUnit e == unit && e.drop 2 == digest

/-- Entries the log holds at most. -/
def logMax : Nat := 4096

/-- The log has no room for an entry that it needs. -/
def State.logFull (s : State) (kind unit : Nat) (digest : List Word) : Bool :=
  decide (logMax ≤ s.kln.log.length) && !s.kln.log.any (logSame kind unit digest)

/-- Add an entry: an equal one has its COUNT increased instead. -/
def State.measure (s : State) (kind unit ver : Nat) (digest : List Word) : State :=
  if s.kln.log.any (logSame kind unit digest) then
    let more := fun (e : List Word) => e.set 1 (setBits (wordAt e 1) 31 0 (satAdd 32 (bits (wordAt e 1) 31 0) 1))
    { s with kln := { s.kln with log := modFirst (logSame kind unit digest) more s.kln.log } }
  else
    let n := s.kln.logSeq + 1
    let e := [BitVec.ofNat 64 (kind * 2 ^ 56 + unit * 2 ^ 32 + n), BitVec.ofNat 64 (ver * 2 ^ 32 + 1)] ++ digest
    { s with kln := { s.kln with logSeq := n, log := s.kln.log ++ [e] } }

/-- SHA-384 of bytes, as six words. -/
def digestWords (l : List Byte) : List Word := wordsOf 6 (sha384 l)

/-! ### Program loads (R233, R234) -/

/-- The parts of `n` bytes from an offset that lie in one 4 KiB block each. -/
def blocks (off n : Nat) : List (Nat × Nat) :=
  if n = 0 then []
  else (List.range ((off + n - 1) / 4096 - off / 4096 + 1)).map (fun j =>
    let lo := max off ((off / 4096 + j) * 4096)
    let hi := min (off + n) ((off / 4096 + j + 1) * 4096)
    (lo, hi - lo))

/-- An internal read of any length of pool memory: the bytes, when every part is good. -/
def State.poolBytes (s : State) (gfa n : Nat) : Option (List Byte) :=
  (((blocks gfa n).map (fun x => s.internalRead x.1 x.2 none)).foldr (fun x acc => match x, acc with
    | some l, some r => some (l :: r)
    | _, _ => none) (some [])).map List.flatten

/-- What that read does to the lines it meets (R301). -/
def State.poolTouch (s : State) (gfa n : Nat) : State := State.each (blocks gfa n) (fun s x => s.internalTouch x.1 x.2) s

/-- Threads of a cluster that are not IDLE. -/
def State.clusterBusy (s : State) (c : Nat) : Bool := (clusterThreads c).any (fun q => s.thrState q != ThrSt.idle)
/-- A program load to the cluster runs. -/
def State.clusterLoading (s : State) (c : Nat) : Bool := s.spn.loads.any (fun l => l.cmask.testBit c)

/-- A load whose image, as memory holds it, needs an entry that a full measurement log cannot take (R389). -/
def State.loadFull (s : State) (c : Cmd) : Bool :=
  match s.poolBytes (c.word 1).toNat (c.word 2).toNat with
  | some l => (setBitsOf (c.word 0) 16).any (fun k => s.logFull 3 k (digestWords l))
  | none => false

def State.cmdProgLoad (s : State) (c : Cmd) : Ans :=
  let cs := setBitsOf (c.word 0) 16
  let src := (c.word 1).toNat
  let len := (c.word 2).toNat
  let inPool := fun (a : Nat) => gfaXyp a == s.xyp && decide (112 ≤ gfaE a) && decide (gfaE a ≤ 119)
  if !zeroOutside (c.word 0) [(15, 0)] || cs.isEmpty || len == 0 || decide (262144 < len) || len % 8 != 0 || !inPool src
      || !inPool (src + len - 1) then s.noAns Status.badParam
  else if cs.any s.clusterBusy then s.noAns Status.busy
  else s.defer c (fun t s => { s with spn := { s.spn with loads := s.spn.loads ++ [{ ticket := t, cmask := (c.word 0).toNat, src := src, len := len }] } })

/-- One cluster holds the image (R234). -/
def State.progPut (s : State) (l : List Byte) (d : List Word) (k : Nat) : State :=
  let s1 : State := { s with mem := memClear s.mem (imemKey k 0) (2 ^ 18) }
  let s2 := (((s1.store (imemKey k 0) l).fset Fld.spnProg_LOADED k 0 1).fset Fld.spnProg_LEN k 0 l.length)
  (State.each (List.range 6) (fun s j => s.wr .spnProgd k j (wordAt d j)) s2).measure 3 k l.length d

/-- One cluster is left with LOADED = 0. -/
def State.progNone (s : State) (k : Nat) : State := (s.fset Fld.spnProg_LOADED k 0 0).fset Fld.spnProg_LEN k 0 0

/-- A load cannot end yet: a stack it reads is held, or a cluster that takes the image is (R305; log entry 40). -/
def State.loadWaits (s : State) (l : ProgLoad) : Bool :=
  (blocks l.src l.len).any (fun x => s.readWaits x.1) || (List.range 16).any (fun k => l.cmask.testBit k && s.clusterHeld k)

/-- The load of a ticket ends (R233, R234). -/
def State.progLoadDone (s : State) (ticket : Nat) : State :=
  match s.spn.loads.find? (fun l => l.ticket == ticket) with
  | none => s
  | some l =>
    if s.loadWaits l then s else
    let cs := (List.range 16).filter (fun k => l.cmask.testBit k)
    let s1 : State := { s with spn := { s.spn with loads := s.spn.loads.filter (fun x => x.ticket != ticket) } }
    let s2 := s1.poolTouch l.src l.len
    match s.poolBytes l.src l.len with
    | none => (State.each cs State.progNone s2).completeTicket ticket Status.fault []
    | some b =>
      let d := digestWords b
      if cs.any (fun k => s.logFull 3 k d) then (State.each cs State.progNone s2).completeTicket ticket Status.refused []
      else (State.each cs (fun s k => s.progPut b d k) s2).completeTicket ticket Status.ok []

def execProgLoadDone (ticket : Nat) (s : State) : Res := .next (s.progLoadDone ticket)

/-! ### SPN_THREAD (R235, R240) -/

/-- Keys of the named threads. -/
def threadsOf (c : Cmd) : List Nat := ((List.range 16).filter (fun t => bit (c.word 0) (16 + t))).map (thrKey (bits (c.word 0) 39 32))

/-- Steps 1 and 2: format, and EXP_ROLE. -/
def State.threadCheck (s : State) (c : Cmd) : Nat :=
  let w := c.word 0
  let start := bits w 47 46 == 0
  let formOk := zeroOutside w [(63, 46), (39, 0)] && bits w 31 16 != 0 && bits w 47 46 != 3 && zeroOutside (c.word 1) [(45, 0)]
    && zeroOutside (c.word 2) [(59, 30)]
    && (start || (bits w 15 0 == 0 && c.word 1 == 0 && c.word 2 == 0 && c.word 3 == 0))
  if !formOk then Status.badParam
  else if (threadsOf c).any (fun q => s.thrGet Fld.spnThrW0_ROLE q != bits w 63 56) then Status.staleRole
  else Status.ok

/-- Steps 3 to 5 of a START. -/
def State.startCheck (s : State) (c : Cmd) : Nat :=
  let w := c.word 0
  let v := c.word 1
  let k := bits w 39 32
  let cl := k / 16
  let vc := bits v 27 25
  let pages := bits (c.word 2) 44 30
  let named := (threadsOf c)
  let others := ((List.range 16).map (thrKey k)).filter (fun q => !named.contains q && s.thrState q != ThrSt.idle)
  if s.fget Fld.spnProg_LOADED cl = 0 ∨ s.fget Fld.spnProg_LEN cl ≤ bits v 45 28 ∨ bits v 45 28 % 8 ≠ 0 ∨ (vc ≠ 2 ∧ vc ≠ 3 ∧ vc ≠ 5)
      ∨ 256 < bits v 8 0 + bits v 17 9 ∨ 16384 < bits (c.word 2) 59 45 + pages then Status.badParam
  else if named.any (fun q => s.thrState q != ThrSt.idle) || s.clusterLoading cl
      || others.any (fun q => s.thrGet Fld.spnThrW0_XMASK q &&& bits w 3 0 != 0) then Status.busy
  else if s.fget Fld.spnQuota_THR_MAX cl < s.thrUsed cl + named.length
      ∨ 16 * s.fget Fld.spnQuota_SCR_MAX cl < s.scrUsed cl + named.length * pages then Status.quota
  else Status.ok

/-- A thread starts (R223, R236). -/
def State.thrStart (s : State) (c : Cmd) (q : Nat) : State :=
  let w := c.word 0
  let v := c.word 1
  let t : Thread := { pc := bits v 45 28, sr := [(1, c.word 3)], lsBase := bits v 8 0, lsSize := bits v 17 9, scrBase := bits (c.word 2) 59 45,
                      scrPages := bits (c.word 2) 44 30, vc := bits v 27 25, tc := bits v 24 22, flow := bits v 21 18 }
  let w0 : Word := BitVec.ofNat 64 (s.thrGet Fld.spnThrW0_LAST_STATUS q * 2 ^ 53 + bits w 55 48 * 2 ^ 45 + bits w 15 4 * 2 ^ 33 + bits w 3 0 * 2 ^ 28 + bits v 45 28)
  ((((s.thrMod q (fun _ => t)).wr .spnThrW0 (q / 256) (q % 256) w0).wr .spnThrW1 (q / 256) (q % 256) 0)).thrGo q ThrSt.ready

def State.cmdThreadStart (s : State) (c : Cmd) : Ans :=
  let a := s.threadCheck c
  let b := s.startCheck c
  if a ≠ Status.ok then s.noAns a
  else if b ≠ Status.ok then s.noAns b
  else (State.each (threadsOf c) (fun s q => s.thrStart c q) s).okAns []

def State.cmdThreadStop (s : State) (c : Cmd) : Ans :=
  let a := s.threadCheck c
  if a ≠ Status.ok then s.noAns a else (State.each (threadsOf c) State.thrStop s).okAns []

def State.cmdThreadSetrole (s : State) (c : Cmd) : Ans :=
  let a := s.threadCheck c
  if a ≠ Status.ok then s.noAns a
  else (State.each (threadsOf c) (fun s q => (s.thrStop q).thrSet Fld.spnThrW0_ROLE q (bits (c.word 0) 55 48)) s).okAns []

/-! ### Target contexts (R239, R240, R244) -/

/-- Word 0 of a target context is written: a new ROLE clears COUNT; the use of the cluster follows. -/
def State.ctxWrite (s : State) (n m : Nat) (w : Word) : State :=
  let s1 := if s.fget Fld.spnCtxW0_ROLE n m ≠ bits w 59 52 then s.fset Fld.spnCtxW1_COUNT n m 0 else s
  (s1.wr .spnCtxW0 n m w).spnShow n

/-- A write of ROLE = `v` to target context `m` of cluster `n`. -/
def State.ctxRole (s : State) (n m v : Nat) : State := s.ctxWrite n m (setBits (s.rd .spnCtxW0 n m) 59 52 v)

def execSpnCtxRoleWrite (n m v : Nat) (s : State) : Res := .next (if n < 16 ∧ m < 64 then s.ctxRole n m v else s)

end Sys2Proof.Machine
end

