-- ==== Sys2Proof/Machine/Rick.lean ====
section
/-! DEFINITION. The Rick (14): objects, its commands, the journal, recovery and quench. -/

namespace Sys2Proof.Machine
open Sys2Proof

/-! ### Keys and addresses -/

/-- KEYID of a key (R383): bytes 0 to 7 of SHA-384 over "GX3200 KEYID" and the key bytes. -/
def keyId (key : List Byte) : List Byte :=
  (sha384 ([0x47, 0x58, 0x33, 0x32, 0x30, 0x30, 0x20, 0x4B, 0x45, 0x59, 0x49, 0x44] ++ key)).take 8

/-- `n` bytes at a GFA lie wholly within the Pool or the Metadata range of an end-point 112 to 119 of this GX3200. -/
def State.inPool (s : State) (gfa n : Nat) : Bool :=
  gfaXyp gfa == s.xyp && decide (112 ≤ gfaE gfa) && decide (gfaE gfa ≤ 119) && decide (0 < n) && (match poolRange (gfaOff gfa), poolRange (gfaOff gfa + n - 1) with
    | some (r, _), some (r2, _) => r == r2 && decide (r < 2)
    | _, _ => false)

/-- Bytes of a unit (R310). -/
def unitBytes : Nat := 16384

/-! ### Objects (R310, R334) -/

/-- STATE of RICK_STAT (R334). -/
def Rick.off : Nat := 0
def Rick.recovering : Nat := 1
def Rick.run : Nat := 2
def Rick.quenchProg : Nat := 3
def Rick.quenchJournal : Nat := 4

def State.rickState (s : State) : Nat := s.fget Fld.rickStat_STATE

/-- Object `o`, when it exists. -/
def State.object (s : State) (o : Nat) : Option RickObj := tblFind s.rick.objs o

/-- RICK_OBJo of an object; an absent one shows zeros. -/
def objW0 (x : RickObj) : Word := BitVec.ofNat 64 (x.st * 2 ^ 61 + x.kind * 2 ^ 60 + x.startCh * 2 ^ 55 + x.bsize * 2 ^ 52 + x.version)
def objW1 (x : RickObj) : Word := BitVec.ofNat 64 (x.bad.length * 2 ^ 32 + x.length)

/-- RICK_OBJo shows the object. -/
def State.objShow (s : State) (o : Nat) : State :=
  match s.object o with
  | some x => (s.wr .rickObjW0 o 0 (objW0 x)).wr .rickObjW1 o 0 (objW1 x)
  | none => (s.wr .rickObjW0 o 0 0).wr .rickObjW1 o 0 0

/-- Set object `o`. -/
def State.objPut (s : State) (o : Nat) (x : RickObj) : State := ({ s with rick := { s.rick with objs := tblPut s.rick.objs o x } }).objShow o

/-- Channel of unit `n` (R310). -/
def RickObj.chan (x : RickObj) (n : Nat) : Nat := (x.startCh + n) % 32

/-- Unit `n` reads as uncorrectable: found so before, or on a channel that is down (R307, R309). -/
def State.unitBad (s : State) (x : RickObj) (n : Nat) : Bool := x.bad.contains n || s.fget Fld.rickCh_UP (x.chan n) == 0

/-- A read finds unit `n` of object `o` uncorrectable (R309). -/
def State.unitUe (s : State) (o n : Nat) : State :=
  match s.object o with
  | none => s
  | some x =>
    let s1 := s.objPut o { x with bad := if x.bad.contains n then x.bad else x.bad ++ [n] }
    (s1.fsat Fld.rickCh_UNCORR (x.chan n) 0 1).errRec 1 0x28 10 (x.chan n) [o, n]

/-! ### Pages (R309 to R312) -/

/-- Key of the page of unit `n` of object `o`; the tweak of the unit is the same number (R311). -/
def pageKey (o n : Nat) : Nat := o * 2 ^ 44 + n

/-- Unit `n` of object `o` as it is stored. -/
def State.unitStored (s : State) (o n : Nat) : List Byte :=
  match tblFind s.rick.pages (pageKey o n) with
  | some p => p.data
  | none => []

/-- That unit decrypted under a key (R311). -/
def State.unitPlain (s : State) (key : List Byte) (o n : Nat) : List Byte :=
  (xtsDecrypt key (pageKey o n) (s.unitStored o n) ++ List.replicate unitBytes 0).take unitBytes

/-- The CRC of a page tag (R312). DESIGN CHOICE (log entry 62): the tag follows the stored bytes as object, unit and sequence number in 2, 6 and 4 bytes. -/
def RickPage.tagCrc (p : RickPage) : Nat := crc32c (p.data ++ toBytes 2 p.obj ++ toBytes 6 p.unit ++ toBytes 4 p.seq)

/-- A channel. -/
def State.rickChan (s : State) (ch : Nat) : RickChan := tblGet {} s.rick.chans ch

/-- Blocks that a journal area takes on each of its channels: 512 KiB (R328). -/
def jrnlBlocks : Nat := (32 + Config.blockPages - 1) / Config.blockPages

/-- The block that takes the next unit of object `o`: the last one it has while that is not full, else the lowest block that is neither in use nor
retired (DESIGN CHOICE, log entry 62). -/
def RickChan.blockFor (c : RickChan) (o : Nat) : Nat :=
  match (c.blocks.filter (fun b => b.obj == o && decide (b.used < Config.blockPages) && !c.retired.contains b.num)).getLast? with
  | some b => b.num
  | none => ((List.range' jrnlBlocks (c.blocks.length + c.retired.length + 1)).find? (fun n =>
      !c.blocks.any (fun b => b.num == n) && !c.retired.contains n)).getD jrnlBlocks

/-- Block `n` takes a page of object `o`. -/
def RickChan.take (c : RickChan) (o n : Nat) : RickChan :=
  { c with
    blocks := if c.blocks.any (fun b => b.num == n) then modFirst (fun b => b.num == n) (fun b => { b with used := b.used + 1 }) c.blocks
      else c.blocks ++ [{ num := n, obj := o, used := 1 }]
    seq := (c.seq + 1) % 2 ^ 32 }

/-- Program unit `n` of object `o` with the bytes `d`, as they are stored. -/
def State.pageProgram (s : State) (o n : Nat) (x : RickObj) (d : List Byte) : State :=
  let ch := x.chan n
  let c := s.rickChan ch
  let b := c.blockFor o
  let p : RickPage := { data := (d ++ List.replicate unitBytes 0).take unitBytes, block := b, obj := o, unit := n, seq := c.seq, crc := 0 }
  { s with rick := { s.rick with pages := tblPut s.rick.pages (pageKey o n) { p with crc := p.tagCrc }, chans := tblPut s.rick.chans ch (c.take o b) } }

/-- The Rick data key that Kiln holds. -/
def State.rickKeyNow (s : State) : List Byte := s.kln.rickKey.getD []

/-! ### The journal (R328) -/

/-- Bytes that a journal's CRC-64 covers. DESIGN CHOICE (log entry 62): their order. -/
def RickJrnl.bytes (j : RickJrnl) : List Byte :=
  j.objs.flatMap (fun e => toBytes 2 e.1 ++ wordBytes (objW0 e.2) ++ wordBytes (objW1 e.2) ++ e.2.keyid ++ toBytes 4 e.2.nbil ++ e.2.bad.flatMap (toBytes 6))
    ++ j.chans.flatMap (fun e => toBytes 1 e.1 ++ e.2.blocks.flatMap (fun b => toBytes 4 b.num ++ toBytes 2 b.obj ++ toBytes 4 b.used)
      ++ e.2.retired.flatMap (toBytes 4))
    ++ toBytes 4 j.jseq

/-- A copy whose CRC-64 holds. -/
def RickJrnl.ok (j : RickJrnl) : Bool := j.crc == crc64 j.bytes

/-- JSEQ of a copy; an area never written counts as 0. -/
def jrnlSeq (j : Option RickJrnl) : Nat := (j.map (·.jseq)).getD 0

/-- The copy written last. -/
def RickSt.newest (r : RickSt) : Option RickJrnl := if jrnlSeq r.j0 < jrnlSeq r.j1 then r.j1 else if r.j0.isSome then r.j0 else r.j1

/-- LENGTH of object `o` in the copy written last. -/
def State.journalLength (s : State) (o : Nat) : Nat :=
  match s.rick.newest.bind (fun j => tblFind j.objs o) with
  | some x => x.length
  | none => 0

/-- The journal is written with the next JSEQ, to the area that was not written last: J0 first. -/
def State.journalPut (s : State) : State :=
  let n := (jrnlSeq s.rick.newest + 1) % 2 ^ 32
  let j : RickJrnl := { objs := s.rick.objs.map (fun e => (e.1, { e.2 with manifest := [] })), chans := s.rick.chans, jseq := n }
  let k := { j with crc := crc64 j.bytes }
  let r := if s.rick.j0.isSome && (s.rick.newest == s.rick.j0) then { s.rick with j1 := some k } else { s.rick with j0 := some k }
  ({ s with rick := r }).fset Fld.rickJrnl_JSEQ 0 0 n

/-! ### The commands (R315 to R318) -/

def rickKind (c : Cmd) : Nat := bits (c.word 0) 31 30
def rickStartCh (c : Cmd) : Nat := bits (c.word 0) 29 25
def rickBsize (c : Cmd) : Nat := bits (c.word 0) 24 22
def rickObj (c : Cmd) : Nat := bits (c.word 0) 11 0
def rickUnit (c : Cmd) : Nat := bits (c.word 2) 63 32
def rickCount (c : Cmd) : Nat := bits (c.word 2) 31 0

/-- Another Rick command acts on the object. -/
def State.objBusy (s : State) (o : Nat) : Bool := s.rick.cmds.any (fun x => x.obj == o)

/-- The command's reserved bits are zero, and the fields of a creation where the command creates nothing. -/
def rickFormOk (c : Cmd) (create : Bool) : Bool :=
  zeroOutside (c.word 0) (if create then [(31, 22), (11, 0)] else [(11, 0)])

/-- ADDR is aligned, and `n` bytes from it lie in pool memory. -/
def State.rickAddrOk (s : State) (c : Cmd) (n : Nat) : Bool := bits (c.word 1) 11 0 == 0 && s.inPool (c.word 1).toNat n

/-- The parameters of a RICK_WRITE (R316). -/
def State.rickWriteOk (s : State) (c : Cmd) : Bool :=
  rickFormOk c true && decide (rickKind c ≤ 1) && decide (rickBsize c ≤ if rickKind c = 1 then 4 else 0) && decide (1 ≤ rickCount c)
    && decide (rickCount c ≤ 65536) && s.rickAddrOk c (unitBytes * rickCount c) && (match s.object (rickObj c) with
      | none => rickUnit c == 0
      | some x => x.st == 1 && rickUnit c == x.length && rickKind c == x.kind && rickStartCh c == x.startCh && rickBsize c == x.bsize)

/-- The parameters of a RICK_SEAL (R317). -/
def State.rickSealOk (s : State) (c : Cmd) : Bool :=
  rickFormOk c false && rickUnit c == 0 && decide (0 < rickCount c) && rickCount c % 64 == 0 && s.rickAddrOk c (rickCount c) && (match s.object (rickObj c) with
    | some x => x.st == 1 && x.kind == 1 && x.length % billetUnits x.bsize == 0
    | none => false)

/-- The parameters of a RICK_READ (R318). -/
def State.rickReadOk (s : State) (c : Cmd) : Bool :=
  rickFormOk c false && decide (1 ≤ rickCount c) && decide (rickCount c ≤ 65536) && s.rickAddrOk c (unitBytes * rickCount c)
    && (match s.object (rickObj c) with
      | some x => x.kind == 0 && decide (rickUnit c + rickCount c ≤ x.length)
      | none => false)

/-- The parameters of a RICK_DELETE (R318). -/
def State.rickDeleteOk (s : State) (c : Cmd) : Bool :=
  rickFormOk c false && c.word 1 == 0 && c.word 2 == 0 && (s.object (rickObj c)).isSome

/-- A stream that is not OFF names the object. -/
def State.streamNames (s : State) (o : Nat) : Bool :=
  (List.range 8).any (fun i => s.fget Fld.rsvStrStat_STATE i != 0 && s.fget Fld.rsvStrCfg_OBJ i == o)

/-- The answer of a Rick command whose parameters are `ok`; `busy` and `quota` are its own conditions (R315). While
the controller is RECOVERING every Rick command is BUSY (R329), and in another state than RUN whatever its parameters (R330). -/
def State.rickAnswer (s : State) (c : Cmd) (ok busy quota : Bool) (begin_ : State → State) : Ans :=
  if s.rickState == Rick.recovering then s.noAns Status.busy
  else if !s.bound then s.noAns Status.notBound
  else if s.rickState != Rick.run then s.noAns Status.busy
  else if !ok then s.noAns Status.badParam
  else if s.objBusy (rickObj c) || busy then s.noAns Status.busy
  else if quota then s.noAns Status.quota
  else s.defer c (fun t s =>
    let x : RickCmd := { ticket := t, op := c.opcode, obj := rickObj c, addr := (c.word 1).toNat, unit := rickUnit c, count := rickCount c, jAt := s.now }
    begin_ { s with rick := { s.rick with cmds := s.rick.cmds ++ [x] } })

/-- The object that a RICK_WRITE creates. -/
def State.rickCreate (s : State) (c : Cmd) : State :=
  match s.object (rickObj c) with
  | some _ => s
  | none => s.objPut (rickObj c) { kind := rickKind c, startCh := rickStartCh c, bsize := rickBsize c, keyid := (s.kln.rickKey.map keyId).getD [] }

def State.cmdRickWrite (s : State) (c : Cmd) : Ans :=
  s.rickAnswer c (s.rickWriteOk c) false (decide (s.fget Fld.rickFree_FREE < rickCount c)) (fun s => s.rickCreate c)

def State.cmdRickSeal (s : State) (c : Cmd) : Ans := s.rickAnswer c (s.rickSealOk c) false false id

def State.cmdRickRead (s : State) (c : Cmd) : Ans := s.rickAnswer c (s.rickReadOk c) false false id

/-- The object becomes DELETING. -/
def State.objDeleting (s : State) (o : Nat) : State :=
  match s.object o with
  | some x => s.objPut o { x with st := 4 }
  | none => s

def State.cmdRickDelete (s : State) (c : Cmd) : Ans :=
  s.rickAnswer c (s.rickDeleteOk c) (s.streamNames (rickObj c)) false (fun s => s.objDeleting (rickObj c))

/-! ### The work of a command -/

/-- The command with a ticket. -/
def State.rickCmd (s : State) (ticket : Nat) : Option RickCmd := s.rick.cmds.find? (fun x => x.ticket == ticket)

/-- Replace the command with its ticket. -/
def State.rickCmdPut (s : State) (x : RickCmd) : State :=
  { s with rick := { s.rick with cmds := modFirst (fun y => y.ticket == x.ticket) (fun _ => x) s.rick.cmds } }

/-- Append a unit that was read; a failed read ends the command. A unit of KIND 0 is encrypted under the Rick data key, one of KIND 1 is stored as
delivered (R311). -/
def State.unitPut (s : State) (x : RickCmd) : Option (List Byte) → Option RickObj → State × RickCmd
  | some d, some o =>
    let e := if o.kind = 0 then xtsEncrypt s.rickKeyNow (pageKey x.obj o.length) d else d
    (((s.pageProgram x.obj o.length o e).objPut x.obj { o with length := o.length + 1 }).fdec Fld.rickFree_FREE 0 0 1, { x with done := x.done + 1 })
  | _, _ => (s, { x with failed := true })

/-- Append the next unit of a RICK_WRITE (R316), read from the pool. -/
def State.unitAppend (s : State) (x : RickCmd) : State × RickCmd :=
  let a := x.addr + unitBytes * x.done
  (s.poolTouch a unitBytes).unitPut x (s.poolBytes a unitBytes) (s.object x.obj)

/-- Append up to `n` units. -/
def State.unitsAppend (s : State) (x : RickCmd) : Nat → State × RickCmd
  | 0 => (s, x)
  | n + 1 =>
    if x.failed || decide (x.count ≤ x.done) then (s, x)
    else
      let p := s.unitAppend x
      p.1.unitsAppend p.2 n

/-- The command ends (R315): the journal, then the event with LENGTH and further result words. -/
def State.rickEnd (s : State) (x : RickCmd) (status : Nat) (more : List Word) : State :=
  let len := match s.object x.obj with
    | some o => o.length
    | none => 0
  let s1 : State := { s with rick := { s.rick with cmds := s.rick.cmds.filter (fun y => y.ticket != x.ticket) } }
  s1.journalPut.completeTicket x.ticket status (bytesOfWords (BitVec.ofNat 64 len :: more))

/-- The end of a RICK_WRITE. -/
def State.rickWriteEnd (s : State) (x : RickCmd) : State :=
  let (s1, y) := s.unitsAppend x (x.count - x.done)
  s1.rickEnd y (if y.failed then Status.fault else Status.ok) []

/-- Manifest entry `b` (R314), as 8 words. -/
def manifestEntry (m : List Byte) (b : Nat) : List Word := wordsOf 8 ((m.drop (64 * (b + 1))).take 64)

/-- The checks of R317 of a manifest against its object. -/
def manifestOk (m : List Byte) (o : Nat) (x : RickObj) : Bool :=
  let h := wordsOf 8 (m.take 64)
  let h0 := wordAt h 0
  let n := bits (wordAt h 1) 31 0
  let entry := fun (b : Nat) =>
    let e := manifestEntry m b
    let e1 := wordAt e 1
    bits e1 31 0 == b && bits (wordAt e 2) 63 32 == bits h0 31 0 && bits e1 63 52 == o && bits (wordAt e 0) 59 56 == x.bsize
      && bits (wordAt e 0) 55 0 == 0 && bits e1 51 32 == 0 && bits (wordAt e 3) 31 0 == 0 && (e.drop 5).all (· == 0)
  bits h0 63 48 == 0x0100 && bits h0 47 36 == o && bits h0 35 32 == x.bsize && bits (wordAt h 1) 63 32 == 0 && (h.drop 4).all (· == 0)
    && decide (1 ≤ n) && decide (n ≤ 16777216) && m.length == 64 * (n + 1) && n * billetUnits x.bsize == x.length && (List.range n).all entry

/-- Units that `n` bytes take. -/
def unitsFor (n : Nat) : Nat := (n + unitBytes - 1) / unitBytes

/-- The manifest's units follow the billets, encrypted under the Rick data key (R317). -/
def State.manifestProgram (s : State) (o : Nat) (x : RickObj) (m : List Byte) : State :=
  State.each (List.range (unitsFor m.length)) (fun s j =>
    let d := (m.drop (unitBytes * j) ++ List.replicate unitBytes 0).take unitBytes
    s.pageProgram o (x.length + j) x (xtsEncrypt s.rickKeyNow (pageKey o (x.length + j)) d)) s

/-- The object is sealed with its manifest, whose digest is logged (R317, R389). -/
def State.objSeal (s : State) (o : Nat) (x : RickObj) (m : List Byte) : State :=
  let v := bits (wordAt (wordsOf 1 m) 0) 31 0
  let y := { x with st := 2, version := v, manifest := m, nbil := m.length / 64 - 1, length := x.length + unitsFor m.length }
  let s1 := ((s.manifestProgram o x m).objPut o y).fdec Fld.rickFree_FREE 0 0 (unitsFor m.length)
  s1.measure 4 o v (digestWords m)

/-- The page of unit `n` of object `o` stands with a good tag. -/
def State.pageOk (s : State) (o n : Nat) : Bool :=
  match tblFind s.rick.pages (pageKey o n) with
  | some p => p.obj == o && p.unit == n && p.crc == p.tagCrc
  | none => false

/-- The engine reads the manifest of a sealed set again; a unit that cannot be read leaves it without one. -/
def State.manifestRead (s : State) (o : Nat) (x : RickObj) : State × List Byte :=
  let first := x.nbil * billetUnits x.bsize
  let ns := List.range' first (x.length - first)
  let lost := ns.filter (fun n => s.unitBad x n)
  if lost.isEmpty then (s, (ns.flatMap (s.unitPlain s.rickKeyNow o)).take (64 * (x.nbil + 1)))
  else (State.each lost (fun s n => s.unitUe o n) s, [])

/-- At a boot, the manifest of object `o` is read, and its digest logged again (R317, R389). -/
def State.relog (s : State) (o : Nat) (x : RickObj) : State :=
  let (s1, m) := s.manifestRead o x
  let y := (s1.object o).getD x
  let s2 := s1.objPut o { y with manifest := m }
  if m.isEmpty then s2 else s2.measure 4 o x.version (digestWords m)

/-- Every SEALED or DAMAGED set made under the Rick key that Kiln holds, in object order (R389). -/
def State.relogAll (s : State) : State :=
  let key := (s.kln.rickKey.map keyId).getD []
  let mine := s.rick.objs.filter (fun e => e.2.kind == 1 && (e.2.st == 2 || e.2.st == 3) && decide (0 < e.2.nbil) && e.2.keyid == key)
  State.each mine (fun s e => s.relog e.1 e.2) s

/-- The end of a RICK_SEAL. -/
def State.rickSealEnd (s : State) (x : RickCmd) : State :=
  let s1 := s.poolTouch x.addr x.count
  match s.poolBytes x.addr x.count, s.object x.obj with
  | some m, some o =>
    if manifestOk m x.obj o = false then s1.rickEnd x Status.badParam []
    else if s.logFull 4 x.obj (digestWords m) then s1.rickEnd x Status.refused []
    else (s1.objSeal x.obj o m).rickEnd x Status.ok []
  | _, _ => s1.rickEnd x Status.fault []

/-- Copy unit `j` of a RICK_READ; an uncorrectable unit is written as stored poison. The state, and whether the copy was written. -/
def State.unitCopy (s : State) (x : RickCmd) (o : RickObj) (ue : List Nat) (j : Nat) : State × Bool :=
  let n := x.unit + j
  let a := x.addr + unitBytes * j
  let k := gfaE a - 112
  if s.unitBad o n || ue.contains n then
    let s1 := s.unitUe x.obj n
    match s1.poolKey k (gfaOff a) unitBytes with
    | some key => (s1.storePoison key unitBytes, true)
    | none => (s1, false)
  else s.internalWrite a (s.unitPlain s.rickKeyNow x.obj n)

/-- The end of a RICK_READ: FAULT with the count of uncorrectable units, or where pool memory could not be written. -/
def State.rickReadEnd (s : State) (x : RickCmd) (ue : List Nat) : State :=
  match s.object x.obj with
  | none => s.rickEnd x Status.fault [0]
  | some o =>
    let bad := ((List.range x.count).filter (fun j => s.unitBad o (x.unit + j) || ue.contains (x.unit + j))).length
    let (s1, ok) := (List.range x.count).foldl (fun (a : State × Bool) j =>
      let (s2, b) := a.1.unitCopy x o ue j
      (s2, a.2 && b)) (s, true)
    s1.rickEnd x (if bad = 0 ∧ ok = true then Status.ok else Status.fault) [BitVec.ofNat 64 bad]

/-- Pages of object `o` on channel `ch`. -/
def State.objPages (s : State) (o : Nat) (x : RickObj) (ch : Nat) : List RickPage :=
  (tblVals s.rick.pages).filter (fun p => p.obj == o && x.chan p.unit == ch)

/-- Channel `ch` erases its blocks of object `o`; a block that holds a unit of `fail` fails, and is retired (R309). The pages of the other blocks are
free, but for those of blocks retired before. -/
def State.chanErase (s : State) (o : Nat) (x : RickObj) (fail : List Nat) (ch : Nat) : State :=
  let c := s.rickChan ch
  let ps := s.objPages o x ch
  let mine := (c.blocks.filter (fun b => b.obj == o)).map (·.num)
  let lost := mine.filter (fun b => !c.retired.contains b && ps.any (fun p => p.block == b && fail.contains p.unit))
  let gone := c.retired ++ lost
  let free := (ps.filter (fun p => !gone.contains p.block)).length
  let c1 : RickChan := { c with blocks := c.blocks.filter (fun b => b.obj != o), retired := gone }
  (({ s with rick := { s.rick with chans := tblPut s.rick.chans ch c1 } }).fsat Fld.rickFree_FREE 0 0 free).fsat Fld.rickRetire_RETIRED 0 0 lost.length

/-- The end of a RICK_DELETE (R318): every block of the object has been erased, channel by channel. DESIGN CHOICE (log entry 62): the erases end with the
command, and `fail` names a unit of each block whose erase fails. -/
def State.rickDeleteEnd (s : State) (x : RickCmd) (fail : List Nat) : State :=
  match s.object x.obj with
  | none => s.rickEnd x Status.ok []
  | some o =>
    let s1 := State.each (List.range 32) (fun s ch => s.chanErase x.obj o fail ch) s
    let s2 : State := { s1 with rick := { s1.rick with
      objs := tblDel s1.rick.objs x.obj, pages := s1.rick.pages.filter (fun e => e.2.obj != x.obj) } }
    (s2.objShow x.obj).rickEnd x Status.ok []

/-- The command's pool memory lies in a stack whose controller is held (R305). -/
def State.rickWaits (s : State) (x : RickCmd) : Bool := x.op != 0x263 && s.readWaits x.addr

/-- A Rick command's work ends (R315); `ue` names units of its object that its reads find uncorrectable, or whose blocks' erase fails. -/
def State.rickComplete (s : State) (ticket : Nat) (ue : List Nat) : State :=
  match s.rickCmd ticket with
  | none => s
  | some x =>
    if s.rickState ≠ Rick.run ∨ s.rickWaits x = true then s
    else if x.op = 0x260 then s.rickWriteEnd x
    else if x.op = 0x261 then s.rickSealEnd x
    else if x.op = 0x262 then s.rickReadEnd x ue
    else s.rickDeleteEnd x ue

def execRickCmdComplete (ticket : Nat) (ue : List Nat) (s : State) : Res := .next (s.rickComplete ticket ue)

/-- A failed program on channel `ch` (R309): the block is retired with the free units it takes along, and the unit is written again. -/
def State.programFail (s : State) (ch block lost : Nat) : State :=
  if s.rickState ≠ Rick.run ∨ 32 ≤ ch ∨ (s.rickChan ch).retired.contains block = true then s
  else
    let s1 : State := { s with rick := { s.rick with chans := tblMod {} s.rick.chans ch (fun c => { c with retired := c.retired ++ [block] }) } }
    ((s1.fsat Fld.rickRetire_RETIRED 0 0 1).fdec Fld.rickFree_FREE 0 0 lost).errRec 0 0x29 10 ch [block]

def execNandProgramFail (ch block lost : Nat) (s : State) : Res := .next (s.programFail ch block lost)

/-- Every JPERIOD seconds while a RICK_WRITE runs (R328): up to `n` units were programmed since. -/
def State.journalWrite (s : State) (ticket n : Nat) : State :=
  match s.rickCmd ticket with
  | none => s
  | some x =>
    if x.op ≠ 0x260 ∨ s.rickState ≠ Rick.run ∨ s.rickWaits x = true ∨ s.now < x.jAt + s.fget Fld.rickJrnl_JPERIOD * us 1000000 then s
    else
      let (s1, y) := s.unitsAppend x n
      ((s1.rickCmdPut { y with jAt := s.now }).journalPut).stir 45

def execJournalWrite (ticket units : Nat) (s : State) : Res := .next (s.journalWrite ticket units)

/-! ### Recovery (R307, R329) -/

/-- A unit is torn: its object becomes DAMAGED. -/
def State.unitTorn (s : State) (t : Nat × Nat) : State :=
  match s.object t.1 with
  | none => s
  | some x =>
    if x.length ≤ t.2 ∨ x.bad.contains t.2 = true then s
    else s.objPut t.1 { x with st := 3, bad := x.bad ++ [t.2] }

/-- A channel is found trained, or is marked down. -/
def State.chanInit (s : State) (up targets luns n : Nat) : State :=
  let s1 := ((s.fset Fld.rickCh_UP n 0 (b2n (up.testBit n))).fset Fld.rickCh_TARGETS n 0 targets).fset Fld.rickCh_LUNS n 0 luns
  if up.testBit n then s1 else s1.errRec 3 0x2A 10 n []

/-- A journal copy that recovery can take: written, with a valid CRC, and with every channel of its area up (DEDUCED, log entry 62). -/
def jrnlGood (up area : Nat) (j : Option RickJrnl) : Option RickJrnl := if up / 2 ^ area % 2 ^ 16 = 2 ^ 16 - 1 then j.filter RickJrnl.ok else none

/-- The copy that recovery takes: the valid one of the higher JSEQ. -/
def State.journalChoice (s : State) (up : Nat) : RickJrnl :=
  ((({ j0 := jrnlGood up 0 s.rick.j0, j1 := jrnlGood up 16 s.rick.j1 } : RickSt).newest).getD {})

/-- The journal is taken: its objects, its blocks, and the pages within each object's LENGTH (R329). -/
def State.journalTake (s : State) (j : RickJrnl) : State :=
  let seqs := s.rick.chans
  { s with rick := { s.rick with
      objs := j.objs
      chans := j.chans.map (fun e => (e.1, { e.2 with seq := (tblGet ({} : RickChan) seqs e.1).seq }))
      pages := s.rick.pages.filter (fun e => match tblFind j.objs e.2.obj with
        | some x => decide (e.2.unit < x.length)
        | none => false)
      cmds := [] } }

/-- The journaled units whose page tag fails. -/
def State.tagFails (s : State) : List (Nat × Nat) :=
  s.rick.objs.flatMap (fun e => ((List.range e.2.length).filter (fun n => !s.pageOk e.1 n)).map (fun n => (e.1, n)))

/-- The controller's recovery at boot; `torn` names the units whose page code fails, and `free` the pages the scan finds free (log entry 62). -/
def State.rickRecover (s : State) (up : Nat) (torn : List (Nat × Nat)) (free targets luns : Nat) : State :=
  if s.rickState ≠ Rick.recovering then s
  else
    let s1 := s.journalTake (s.journalChoice up)
    let s2 := State.each (List.range 32) (fun s n => s.chanInit up targets luns n) s1
    let s3 := State.each (s2.rick.objs.map (·.1)) State.objShow s2
    let all := torn ++ s3.tagFails
    let s4 := State.each all State.unitTorn s3
    let hit := (s4.rick.objs.filter (fun e => all.any (fun t => t.1 == e.1) && e.2.st == 3))
    let s5 := State.each hit (fun s e => s.errRec 1 0x2C 11 0 [e.1, e.2.bad.length]) s4
    let retired := ((tblVals s5.rick.chans).map (fun c => c.retired.length)).sum
    let s6 := (((s5.fset Fld.rickFree_FREE 0 0 free).fset Fld.rickRetire_RETIRED 0 0 retired).journalPut).fset Fld.rickStat_STATE 0 0 Rick.run
    if s6.bound then s6.relogAll else s6

def execRickRecovery (up : Nat) (torn : List (Nat × Nat)) (free targets luns : Nat) (s : State) : Res :=
  .next (s.rickRecover up torn free targets luns)

/-! ### Quench (R330) -/

/-- A stream in RUN takes no new part. -/
def State.streamStop (s : State) (i : Nat) : State := if s.fget Fld.rsvStrStat_STATE i = 1 then s.fset Fld.rsvStrStat_STATE i 0 2 else s

/-- Every stream enters STOPPING, and every fill is abandoned (R327, R330). -/
def State.streamsStop (s : State) : State := (State.each (List.range 8) State.streamStop s).fillsAbandon

/-- A command in progress posts FLUSHED with the LENGTH reached. -/
def State.rickFlush (s : State) (x : RickCmd) : State :=
  let len := match s.object x.obj with
    | some o => o.length
    | none => 0
  s.completeTicket x.ticket Status.flushed (bytesOfWords [BitVec.ofNat 64 len])

def State.rickQuench (s : State) : State :=
  if s.rickState ≠ Rick.run ∨ s.fget Fld.pwrTherm_QSTATE = 0 then s
  else
    let s1 := State.each s.rick.cmds State.rickFlush s.streamsStop
    ({ s1 with rick := { s1.rick with cmds := [], quenchAt := s1.now } }).fset Fld.rickStat_STATE 0 0 Rick.quenchProg

def execRickQuenchSignal (s : State) : Res := .next s.rickQuench

def State.rickProgramsEnded (s : State) : State :=
  if s.rickState = Rick.quenchProg then s.fset Fld.rickStat_STATE 0 0 Rick.quenchJournal else s

def execRickProgramsEnded (s : State) : Res := .next s.rickProgramsEnded

/-- 3 ms after the signal the targets still programming are reset; their units are not counted. -/
def State.rickProgTimeout (s : State) : State :=
  if s.rickState = Rick.quenchProg ∧ s.rick.quenchAt + us 3000 ≤ s.now then s.fset Fld.rickStat_STATE 0 0 Rick.quenchJournal else s

def execRickQuenchProgTimeout (s : State) : Res := .next s.rickProgTimeout

def State.rickJournalWritten (s : State) : State :=
  if s.rickState = Rick.quenchJournal then s.journalPut.fset Fld.rickStat_STATE 0 0 Rick.off else s

def execRickJournalWritten (s : State) : Res := .next s.rickJournalWritten

end Sys2Proof.Machine
end

