-- ==== Sys2Proof/Machine/Stream.lean ====
section
/-! DEFINITION. The reservoir engine (14): fills, heat, promotion, and the weight streams. -/

namespace Sys2Proof.Machine
open Sys2Proof

/-! ### Fills (R319, R320) -/

/-- Bytes of a reservoir page. -/
def pageBytes : Nat := 2 ^ 21

/-- Page of billet `b` of a set of size code `bsize`. -/
def billetPage (bsize b : Nat) : Nat := b * billetBytes bsize / pageBytes

/-- Billets of a set. -/
def RickObj.billets (x : RickObj) : Nat := x.nbil

/-- NELEM that the manifest gives billet `b`. -/
def RickObj.nelem (x : RickObj) (b : Nat) : Nat := bits (wordAt (manifestEntry x.manifest b) 2) 31 0

/-- Bytes that billet `b` becomes under a decode control word's OUT. -/
def RickObj.outLen (x : RickObj) (out b : Nat) : Nat := if b < x.billets then outBytes out (x.nelem b) else 0

/-- The billets of page `p` of a set. -/
def RickObj.pageBillets (x : RickObj) (p : Nat) : List Nat :=
  let n := pageBytes / billetBytes x.bsize
  ((List.range n).map (· + p * n)).filter (fun b => decide (b < x.billets))

/-- Units of billet `b`. -/
def RickObj.billetUnitsOf (x : RickObj) (b : Nat) : List Nat := (List.range (billetUnits x.bsize)).map (· + b * billetUnits x.bsize)

/-- A billet after decryption under the weight key (R311). -/
def State.billetPlain (s : State) (x : RickObj) (key : List Byte) (o b : Nat) : List Byte := (x.billetUnitsOf b).flatMap (s.unitPlain key o)

/-- Physical key of the slot with key `k`, where it lies within the Reservoir window. -/
def State.slotBase (s : State) (k : Nat) : Option Nat := s.regionKey (k / 65536) 2 (k % 65536 * pageBytes)

/-- A fill checks one billet, and writes it through the Reservoir window of its slot's pool port, which the reservoir attachments alone reach (R294, R319; log
entry 38): it is bad where a unit cannot be read or a check fails. -/
def State.fillBillet (s : State) (k : Nat) (x : RickObj) (o : Nat) (ue : List Nat) (b : Nat) : State × Bool :=
  let lost := (x.billetUnitsOf b).filter (fun n => s.unitBad x n || ue.contains n)
  if lost.isEmpty then
    let d := s.billetPlain x (s.kln.weightKey.getD []) o b
    let off := b * billetBytes x.bsize % pageBytes
    let s1 := match s.slotBase k with
      | some a => (s.storeLines (a + off) d).1
      | none => s
    (s1, !billetOk d o b x.bsize x.version)
  else (State.each lost (fun s n => s.unitUe o n) s, true)

/-- A bad billet is counted and recorded (R320). -/
def State.billetBad (s : State) (o b : Nat) : State := (s.fsat Fld.rsvBad_BAD 0 0 1).errRec 1 0x2B 11 0 [o, b]

/-- A fill ends with its page resident; `ue` names units that its reads find uncorrectable. -/
def State.fillComplete (s : State) (k : Nat) (ue : List Nat) : State :=
  match tblFind s.rsv.slots k, s.kln.weightKey with
  | some sl, some _ =>
    match s.object sl.obj with
    | none => s
    | some x =>
      if sl.filling = false ∨ s.poolHeld (k / 65536) = true then s
      else
        let (s1, bad) := (x.pageBillets sl.page).foldl (fun (a : State × List Nat) b =>
          let (s2, e) := a.1.fillBillet k x sl.obj ue b
          if e then (s2.billetBad sl.obj b, a.2 ++ [b]) else (s2, a.2)) (s, [])
        let s2 : State := { s1 with rsv := { s1.rsv with slots := tblPut s1.rsv.slots k { sl with filling := false, bad := bad } } }
        ((s2.fsat Fld.rsvCnt_FILLS 0 0 1).rsvShow).rsvRetry
  | _, _ => s

def execFillComplete (key : Nat) (ue : List Nat) (s : State) : Res := .next (s.fillComplete key ue)

/-! ### Heat and promotion (R321) -/

/-- Every PERIOD, in units of 100 µs, every HEAT is halved. -/
def State.heatHalve (s : State) : State :=
  if s.now < s.rsv.heatAt + s.fget Fld.rsvHeat_PERIOD * us 100 then s
  else { s with rsv := { s.rsv with heat := s.rsv.heat.map (fun x => (x.1, { x.2 with heat := x.2.heat / 2 })), heatAt := s.now } }

def execRsvHeatPeriod (s : State) : Res := .next s.heatHalve

/-- Insert a way behind those of the same or a higher heat. -/
def heatInsert (x : Nat × RsvWay) : List (Nat × RsvWay) → List (Nat × RsvWay)
  | [] => [x]
  | y :: t => if y.2.heat < x.2.heat then x :: y :: t else y :: heatInsert x t

/-- Ways by descending heat, ties by lowest set then way. -/
def State.hotWays (s : State) : List RsvWay := (s.rsv.heat.foldl (fun l x => heatInsert x l) []).map (·.2)

/-- A stream in RUN names the object. -/
def State.runNames (s : State) (o : Nat) : Bool :=
  (List.range 8).any (fun i => s.fget Fld.rsvStrStat_STATE i == 1 && s.fget Fld.rsvStrCfg_OBJ i == o)

/-- The scan considers one way; `n` fills have been started. -/
def State.promote (a : State × Nat) (e : RsvWay) : State × Nat :=
  let (s, n) := a
  if 8 ≤ n ∨ e.heat < s.fget Fld.rsvHeat_PROMOTE ∨ (s.pageSlot e.obj e.page).isSome = true ∨ s.runNames e.obj = false ∨ 64 ≤ s.fills then a
  else
    let h := e.heat - s.fget Fld.rsvHeat_HYST
    match s.rsvTake (some h) with
    | some (k, ev) => (s.fillStart e.obj e.page k ev, n + 1)
    | none => a

/-- The scan that runs every 10 µs. -/
def State.promotionScan (s : State) : State :=
  if s.fget Fld.rsvHeat_PROMO_EN = 0 ∨ s.rsvHeld = true ∨ 4 ≤ s.fget Fld.pwrTherm_LEVEL ∨ s.now < s.rsv.promoAt + us 10 then s
  else (s.hotWays.foldl State.promote ({ s with rsv := { s.rsv with promoAt := s.now } }, 0)).1

def execPromotionScan (s : State) : Res := .next s.promotionScan

/-! ### RSV_STREAM (R322) -/

def strmOf (c : Cmd) : Nat := bits (c.word 0) 57 55

/-- R263 holds of a decode control word. -/
def decodeOk (w : Nat) : Bool :=
  let i := w / 2 ^ 28 % 16
  let o := w / 2 ^ 24 % 16
  decide (i ≤ 7) && (o == 0 || o == 5 || (decide (8 ≤ o) && decide (o ≤ 11))) && (i != 7 || o == 0) && w % 2 ^ 24 == 0

/-- A GFA aligned to 8 bytes in the pool memory of this GX3200. -/
def State.tableOk (s : State) (gfa : Nat) : Bool := gfa % 8 == 0 && s.inPool gfa 8

/-- The parameters of a START. -/
def State.streamOk (s : State) (c : Cmd) : Bool :=
  let w := c.word 0
  let v := c.word 1
  zeroOutside w [(59, 40), (31, 0)] && zeroOutside v [(63, 32), (15, 12), (5, 0)] && decodeOk (bits w 31 0) && decide (bits w 51 48 ≤ 8)
    && (match s.object (bits v 63 52) with
      | some x => (x.st == 2 || x.st == 3) && x.kind == 1
      | none => false)
    && s.tableOk (c.word 3).toNat && (c.word 4 == 0 || s.tableOk (c.word 4).toNat)
    && (bits (c.word 2) 31 0 == 0 || (s.fget Fld.spnCtxW0_EN (bits v 15 12) (bits v 5 0) == 1 && !s.clusterHeld (bits v 15 12)))

/-- A stream. -/
def State.strm (s : State) (i : Nat) : Strm := tblGet {} s.rsv.streams i
/-- Set a stream. -/
def State.strmPut (s : State) (i : Nat) (x : Strm) : State := { s with rsv := { s.rsv with streams := tblPut s.rsv.streams i x } }
/-- STATE of a stream: 0 OFF, 1 RUN, 2 STOPPING, 3 FAILED. -/
def State.strmState (s : State) (i : Nat) : Nat := s.fget Fld.rsvStrStat_STATE i

def State.cmdStreamStart (s : State) (c : Cmd) : Ans :=
  let i := strmOf c
  let v := c.word 1
  if s.rickState = Rick.recovering then s.noAns Status.busy
  else if s.fget Fld.klnState_BSTATE ≠ 2 then s.noAns Status.notBound
  else if s.strmState i ≠ 0 ∨ s.rickState ≠ Rick.run then s.noAns Status.busy
  else if s.streamOk c = false then s.noAns Status.badParam
  else
    let x : Strm := { words := (List.range 5).map c.word, run := (s.strm i).run + 1 }
    let cfg : Word := BitVec.ofNat 64 (bits v 63 52 * 2 ^ 52 + bits v 51 32 * 2 ^ 32 + bits (c.word 0) 31 0)
    ((((s.strmPut i x).wr .rsvStrStat i 0 (BitVec.ofNat 64 (2 ^ 61))).wr .rsvStrCfg i 0 cfg)).okAns []

/-- STOP uses only STREAM: RUN goes to STOPPING, FAILED to OFF. -/
def State.cmdStreamStop (s : State) (c : Cmd) : Ans :=
  let i := strmOf c
  (if s.strmState i = 3 then ((s.unpin (fun p => p.strm == i)).fset Fld.rsvStrStat_STATE i 0 0).rsvRetry else s.streamStop i).okAns []

/-! ### Fields of a stream -/

def Strm.cl (x : Strm) : Nat := bits (wordAt x.words 0) 54 53
def Strm.loop (x : Strm) : Bool := bit (wordAt x.words 0) 52
def Strm.ahead (x : Strm) : Nat := bits (wordAt x.words 0) 51 48
def Strm.tc (x : Strm) : Nat := bits (wordAt x.words 0) 47 45
def Strm.flow (x : Strm) : Nat := bits (wordAt x.words 0) 44 41
def Strm.mode (x : Strm) : Nat := bits (wordAt x.words 0) 40 40
def Strm.decode (x : Strm) : Nat := bits (wordAt x.words 0) 31 0
def Strm.obj (x : Strm) : Nat := bits (wordAt x.words 1) 63 52
def Strm.layers (x : Strm) : Nat := bits (wordAt x.words 1) 51 32 + 1
def Strm.ltab (x : Strm) : Nat := (wordAt x.words 3).toNat
def Strm.selbase (x : Strm) : Nat := (wordAt x.words 4).toNat
/-- GFA of the select word of sequence `n`. -/
def Strm.selAt (x : Strm) (n : Nat) : Nat := x.selbase + 8 * (n % 256)

/-! ### Layers (R323, R324) -/

/-- A read of the layer table or a select word failed (R327). -/
inductive Read (α : Type) where
  | ok (a : α)
  | fail

/-- One word of pool memory, and what reading it does to its line. -/
def State.poolWord (s : State) (gfa : Nat) : Read Word × State :=
  match s.internalRead gfa 8 none with
  | some l => (.ok (BitVec.ofNat 64 (ofBytes l)), s.internalTouch gfa 8)
  | none => (.fail, s.internalTouch gfa 8)

/-- The parts of a layer from table index `k`, at most `n` of them, and the index after its last one. A set reserved field or a missing
LAST fails. -/
def State.layer (s : State) (ltab k : Nat) (acc : List (Word × Word)) : Nat → Read (List (Word × Word) × Nat) × State
  | 0 => (.fail, s)
  | n + 1 =>
    match s.poolWord (ltab + 16 * k) with
    | (.fail, s1) => (.fail, s1)
    | (.ok a, s1) =>
      match s1.poolWord (ltab + 16 * k + 8) with
      | (.fail, s2) => (.fail, s2)
      | (.ok b, s2) =>
        if bits b 55 45 ≠ 0 then (.fail, s2)
        else if bit b 63 then (.ok (acc ++ [(a, b)], k + 1), s2)
        else s2.layer ltab (k + 1) (acc ++ [(a, b)]) n

/-- The select word of sequence `n`; 0 without selection. -/
def State.selWord (s : State) (x : Strm) (n : Nat) : Read Word × State := if x.selbase = 0 then (.ok 0, s) else s.poolWord (x.selAt n)

/-- A part is streamed under a select word. -/
def partOn (sel : Word) (p : Word × Word) : Bool := !bit p.2 62 || bit sel (bits p.2 61 56)

/-- Pages of a part. -/
def partPages (bsize : Nat) (p : Word × Word) : List Nat :=
  let lo := billetPage bsize (bits p.1 63 32)
  let hi := billetPage bsize (bits p.1 63 32 + bits p.1 31 8)
  (List.range (hi + 1 - lo)).map (· + lo)

/-- Pin the pages of a part that a select word lets stream. -/
def State.pinPart (s : State) (i seq : Nat) (x : Strm) (sel : Word) (p : (Word × Word) × Nat) : State :=
  let bsize := match s.object x.obj with
    | some o => o.bsize
    | none => 0
  if partOn sel p.1 then State.each (partPages bsize p.1) (fun s g => s.pinPage { strm := i, seq := seq, part := p.2, obj := x.obj, page := g }) s
  else s

/-- Pin the pages of a sequence's selected parts, in table order (R325). -/
def State.pinParts (s : State) (i seq : Nat) (x : Strm) (sel : Word) (parts : List ((Word × Word) × Nat)) : State :=
  State.each parts (fun s p => s.pinPart i seq x sel p) s

/-- A stream fails (R327): a record, and no new part starts. DESIGN CHOICE (log entry 53): R327 gives the record's CAUSE; it is written on the port of the
stream's cluster, 96 + CL, with ACTOR 3 and a context word of 0. -/
def State.strmFail (s : State) (i : Nat) (x : Strm) (cause : Nat) : State :=
  (s.fault (96 + x.cl) { cause := cause, status := TStat.fault, actor := 3 }).fset Fld.rsvStrStat_STATE i 0 3

/-- Read ahead: `m` sequences from `seq`, whose layers begin at table index `k`. -/
def State.readAhead (s : State) (i : Nat) (x : Strm) (seq k : Nat) : Nat → State
  | 0 => s
  | m + 1 =>
    if seq % x.layers = 0 ∧ x.loop = false then s
    else
      match s.layer x.ltab (if seq % x.layers = 0 then 0 else k) [] 64 with
      | (.fail, s1) => s1.strmFail i x 0x0E
      | (.ok (parts, k'), s1) =>
        match s1.selWord x seq with
        | (.fail, s2) => s2.strmFail i x 0x0E
        | (.ok sel, s2) =>
          -- a sequence whose pages are pinned already keeps its pins
          (if s2.rsv.pins.any (fun p => p.strm == i && p.seq == seq) then s2 else s2.pinParts i seq x sel parts.zipIdx).readAhead i x (seq + 1) k' m

/-- The pace condition of R324. -/
def State.paceOk (s : State) (x : Strm) : Bool :=
  let step := bits (wordAt x.words 2) 31 0
  let base := bits (wordAt x.words 2) 63 32
  let count := s.fget Fld.spnCtxW1_COUNT (bits (wordAt x.words 1) 15 12) (bits (wordAt x.words 1) 5 0)
  step == 0 || decide ((count + 2 ^ 32 - (base + x.n * step) % 2 ^ 32) % 2 ^ 32 < 2 ^ 31)

/-- The layer table or a select word lies in a stack whose controller is held (R305). -/
def State.tablesWait (s : State) (x : Strm) : Bool := s.readWaits x.ltab || (x.selbase != 0 && s.readWaits x.selbase)

/-- A sequence becomes current: its select word, its parts, its pins and those read ahead. -/
def State.seqCurrent (s : State) (i : Nat) : State :=
  let x := s.strm i
  if s.strmState i ≠ 1 ∨ x.current = true ∨ s.paceOk x = false ∨ s.tablesWait x = true then s
  else
    match s.selWord x x.n with
    | (.fail, s1) => s1.strmFail i x 0x0E
    | (.ok sel, s1) =>
      match s1.layer x.ltab (if x.n % x.layers = 0 then 0 else x.after) [] 64 with
      | (.fail, s2) => s2.strmFail i x 0x0E
      | (.ok (parts, k), s2) =>
        let y := { x with current := true, sel := sel, parts := parts, after := k, emitted := 0 }
        let s3 := ((s2.strmPut i y).fset Fld.rsvStrStat_LAYER i 0 (x.n % x.layers)).fset Fld.rsvStrStat_SEQ i 0 x.n
        -- parts pinned ahead keep their pins, until the sequence is done where they are deselected now (R325)
        let fresh := parts.zipIdx.filter (fun q => !s3.rsv.pins.any (fun p => p.strm == i && p.seq == x.n && p.part == q.2))
        let s4 := s3.pinParts i x.n x sel fresh
        (s4.rsvRetry).readAhead i y (x.n + 1) k x.ahead

def execSequenceCurrent (i : Nat) (s : State) : Res := .next (if i < 8 then s.seqCurrent i else s)

/-! ### Parts (R326) -/

/-- A STORE of the stream waits at its port. -/
def State.storesWait (s : State) (i : Nat) : Bool :=
  (List.range 16).any (fun c => (tblGet [] s.waitq (96 + c)).any (fun w => match w.req.own with
    | .rsv j _ => j == i
    | _ => false))

/-- The next selected part that is not emitted: its number and its entry. -/
def Strm.next (x : Strm) : Option (Nat × (Word × Word)) :=
  (x.parts.zipIdx.find? (fun q => decide (x.emitted ≤ q.2) && partOn x.sel q.1)).map (fun q => (q.2, q.1))

/-- Output of one billet: its bytes, and whether it is emitted as the error value; the stack of its slot; what reading it does. -/
structure Emitted where
  st : State
  stack : Nat
  data : List Byte
  poison : Bool

/-- Output that no billet backs: the error value, from the arrays of stack `j`. -/
def State.billetNone (s : State) (j n : Nat) : Emitted := { st := s, stack := j, data := onesBytes n, poison := true }

/-- The decode array of stack `j` decodes the billet bytes `l` into format `out` (R264, R326). -/
def State.billetDecode (s : State) (x : Strm) (out n j : Nat) (l : List Byte) : Emitted :=
  if bits (wordAt (wordsOf 1 l) 0) 63 60 ≠ x.decode / 2 ^ 28 % 16 then s.billetNone j n
  else
    let d := billetOut l out
    { st := ((s.fsat Fld.spnBdaOut_BYTES j 0 d.length).fsat Fld.spnBdaSpec_NAN_BLOCKS j 0 (nanBlocks l out)).fsat Fld.spnBdaSpec_OVERFLOWS j 0 (overflows l out)
      stack := j, data := d, poison := false }

/-- Read the `len` billet bytes at key `at_` of a slot of stack `j`, and decode them; a line that cannot be read yields the error value (R301). -/
def State.billetRead (s : State) (x : Strm) (out n j at_ len : Nat) : Emitted :=
  if s.view at_ len ≠ .good then (s.touch at_ len 2).billetNone j n
  else (s.touch at_ len 2).billetDecode x out n j (s.load at_ len)

/-- The decode array of the billet's slot produces its output (R264, R301, R326). -/
def State.billetEmit (s : State) (x : Strm) (o : RickObj) (b : Nat) : Emitted :=
  let out := x.decode / 2 ^ 24 % 16
  let n := o.outLen out b
  (s.pageSlot x.obj (billetPage o.bsize b)).elim (s.billetNone 0 n) (fun y =>
    (s.slotBase y.1).elim (s.billetNone (y.1 / 65536) n) (fun a =>
      if y.2.bad.contains b then s.billetNone (y.1 / 65536) n
      else s.billetRead x out n (y.1 / 65536) (a + b * billetBytes o.bsize % pageBytes) (billetBytes o.bsize)))

/-- One STORE of a stream, of the page with key `key`. -/
def State.streamReq (s : State) (i key : Nat) (x : Strm) (p : Word × Word) (u off : Nat) (d : List Byte) (poison : Bool) : Req :=
  { own := .rsv i key, typ := Ty.store, vc := 4, tc := x.tc, flow := x.flow, dclass := 2, poison := poison, gfa := s.localGfa u off,
    len := d.length - 1, payload := d, stream := (5, 8 * i), mcr := if x.mode = 0 then some (bits p.1 7 0) else none }

/-- The STOREs of a billet's output at `pos`: at most 4 KiB each, never across a 4 KiB boundary of offset. Each with its port. -/
def State.billetStores (s : State) (i key : Nat) (x : Strm) (p : Word × Word) (pos : Nat) (e : Emitted) : List (Nat × Req) :=
  let u := 96 + 4 * (e.stack / 2) + x.cl
  (blocks pos e.data.length).map (fun b => (u, s.streamReq i key x p u (b.1 % 2 ^ 45) ((e.data.drop (b.1 - pos)).take b.2) e.poison))

/-- The billets of part `j`, one after the other: the state, the output position, and the STOREs. -/
def State.partStores (s : State) (i j : Nat) (x : Strm) (o : RickObj) (p : Word × Word) : State × List (Nat × Req) :=
  let bs := (List.range (bits p.1 31 8 + 1)).map (· + bits p.1 63 32)
  let (s1, _, l) := bs.foldl (fun (a : State × Nat × List (Nat × Req)) b =>
    let e := a.1.billetEmit x o b
    (e.st, a.2.1 + e.data.length, a.2.2 ++ a.1.billetStores i (storeKey x.run j (billetPage o.bsize b)) x p a.2.1 e)) (s, bits p.2 44 0, [])
  (s1, l)

/-- Every page of the part is resident, and the controllers of their slots answer. -/
def State.partReady (s : State) (x : Strm) (o : RickObj) (p : Word × Word) : Bool :=
  (partPages o.bsize p).all (fun g => match s.pageSlot x.obj g with
    | some (k, sl) => !sl.filling && !s.poolHeld (k / 65536)
    | none => false)

/-- The key of a STORE of a stream. -/
def Req.rsvKey (r : Req) : Nat :=
  match r.own with
  | .rsv _ k => k
  | _ => 0

/-- A part is emitted; a page without output is unpinned at once. -/
def State.partGo (s : State) (i : Nat) (x : Strm) (o : RickObj) (j : Nat) (p : Word × Word) : State :=
  let (s1, l) := s.partStores i j x o p
  let y := { x with emitted := j + 1, out := l.foldl (fun t r => tblMod 0 t r.2.rsvKey (· + 1)) x.out }
  let s2 := (s1.strmPut i y).fsat Fld.rsvStrOut_BYTES i 0 ((l.map (fun r => r.2.payload.length)).sum)
  let s3 := State.each l (fun s r => s.submit r.1 r.2) s2
  (s3.unpin (fun q => q.strm == i && q.seq == x.n && q.part == j && !l.any (fun r => keyPage r.2.rsvKey == q.page))).rsvRetry

/-- The next part of a stream begins once its pages are resident and the last part's STOREs are issued. -/
def State.partEmit (s : State) (i : Nat) : State :=
  let x := s.strm i
  match x.next, s.object x.obj with
  | some (j, p), some o =>
    if s.strmState i ≠ 1 ∨ x.current = false ∨ s.storesWait i = true ∨ s.partReady x o p = false then s
    else if x.mode = 0 ∧ (s.mcRoute (bits p.1 7 0)).isNone = true then s.strmFail i x 0x07
    else s.partGo i x o j p
  | _, _ => s

def execPartEmit (i : Nat) (s : State) : Res := .next (if i < 8 then s.partEmit i else s)

/-! ### Ends (R324, R325, R327) -/

/-- The engine stores 0 to a select word whose sequence is done. -/
def State.selClear (s : State) (x : Strm) : State := if x.selbase = 0 then s else (s.internalWrite (x.selAt x.n) (List.replicate 8 0)).1

/-- Every STORE of the layer has retired: the sequence is done. -/
def State.seqDone (s : State) (i : Nat) : State :=
  let x := s.strm i
  if s.strmState i ≠ 1 ∨ x.current = false ∨ x.next.isSome = true ∨ x.out.isEmpty = false then s
  else
    let last := decide (x.n % x.layers = x.layers - 1) && !x.loop
    let s1 := ((s.selClear x).strmPut i { x with n := x.n + 1, current := false, parts := [], emitted := 0 }).unpin
      (fun p => p.strm == i && (last || p.seq == x.n))
    let s2 := if last then (s1.fset Fld.rsvStrStat_DONE i 0 1).fset Fld.rsvStrStat_STATE i 0 0 else s1
    s2.rsvRetry

def execSequenceDone (i : Nat) (s : State) : Res := .next (if i < 8 then s.seqDone i else s)

/-- A page that the stream pins is being filled. -/
def State.strmFills (s : State) (i : Nat) : Bool :=
  s.rsv.pins.any (fun p => p.strm == i && (match s.pageSlot p.obj p.page with
    | some (_, sl) => sl.filling
    | none => false))

/-- A stopping stream, whose fills and STOREs have ended, releases its pins and becomes OFF; a failed one stays FAILED. -/
def State.strmDrained (s : State) (i : Nat) : State :=
  let st := s.strmState i
  if (st ≠ 2 ∧ st ≠ 3) ∨ (s.strm i).out.isEmpty = false ∨ s.strmFills i = true then s
  else
    let s1 := (s.unpin (fun p => p.strm == i)).rsvRetry
    if st = 2 then s1.fset Fld.rsvStrStat_STATE i 0 0 else s1

def execStreamDrained (i : Nat) (s : State) : Res := .next (if i < 8 then s.strmDrained i else s)

end Sys2Proof.Machine
end

