-- ==== Sys2Proof/Machine/Hbm.lean ====
section
/-! DEFINITION. HBM (13): the change of the regions, the patrol scrub, and the zero-fill of a controller. -/

namespace Sys2Proof.Machine
open Sys2Proof

/-! ### Encryption (R299) -/

/-- The 128 bytes that stack `k` stores for physical line `l`: the line under the HBM key that Kiln installed, with the line and the stack as tweak. `State.mem`
holds the lines as their controller decrypts them (log entry 63). -/
def State.hbmStored (s : State) (k l : Nat) : List Byte := xtsEncrypt (s.kln.memKey.getD []) (l + k * 2 ^ 29) (s.load (hbmKey k (128 * l)) 128)

/-! ### HBM_REGION_SET (R296) -/

/-- The sizes a command sets: META, POOL, RSVW, SCR. -/
def regionSizes (c : Cmd) : List Nat := [bits (c.word 1) 35 27, bits (c.word 1) 26 18, bits (c.word 1) 17 9, bits (c.word 1) 8 0]

/-- Stacks it names. -/
def regionStacks (c : Cmd) : List Nat := setBitsOf (c.word 0) 8

def regionOk (c : Cmd) : Bool :=
  let m := bits (c.word 1) 35 27
  zeroOutside (c.word 0) [(7, 0)] && zeroOutside (c.word 1) [(35, 0)] && !(regionStacks c).isEmpty && decide (2 ≤ m) && decide (m ≤ 33)
    && decide ((regionSizes c).sum ≤ 384)

/-- Current SIZE of region `r` of stack `k`. -/
def State.regionSize (s : State) (k r : Nat) : Nat := s.fget (sizeFld r) k

/-- `len` bytes from a GFA hold a byte of a granule that region `r` of stack `k` releases when it shrinks to `new`. -/
def State.released (s : State) (k r new gfa len : Nat) : Bool :=
  gfaE gfa == 112 + k && (match poolRange (gfaOff gfa) with
    | some (r', b) => r' == r && decide (new < s.regionSize k r) && decide (new * granuleBytes < b + len) && decide (b < s.regionSize k r * granuleBytes)
    | none => false)

/-- The arrays of the rings that are not OFF (R111): GFA and length. -/
def State.ringArrays (s : State) : List (Nat × Nat) :=
  (List.range 64).flatMap (fun n => ((List.range 64).filter (fun r => s.ringState n r != RingSt.off)).flatMap (fun r =>
    [(s.itemGfa n r 0, 64 * s.ringSize n r), (s.complGfa n r 0, 32 * s.ringSize n r)]))

/-- The mirror ring while EN = 1. -/
def State.mirArray (s : State) : List (Nat × Nat) :=
  if s.fget Fld.hubMirringCtrl_EN = 1 then [(s.fget Fld.hubMirringBase_ADDR * 4096, 64 * 2 ^ (s.fget Fld.hubMirringCtrl_SIZE + 10))] else []

/-- A shrink of stack `k`'s Reservoir window would release a slot that is being filled or is pinned (R296, R331). -/
def State.slotReleased (s : State) (k new : Nat) : Bool :=
  decide (new < s.regionSize k 2)
    && s.rsv.slots.any (fun x => x.1 / 65536 == k && decide (64 * new ≤ x.1 % 65536) && (x.2.filling || s.pinned x.2.obj x.2.page))

def State.regionBusy (s : State) (c : Cmd) : Bool :=
  let arrays := s.ringArrays ++ s.mirArray
  let z := regionSizes c
  (regionStacks c).any (fun k => (tblFind s.hbm.change k).isSome || s.slotReleased k (z.getD 2 0)
    || (List.range 2).any (fun r => arrays.any (fun a => s.released k r (z.getD r 0) a.1 a.2)))

/-! ### The change (R297) -/

/-- Lower one region of stack `k` to `new`: its top granules drain. -/
def State.regionLower (s : State) (k r new : Nat) : State :=
  if s.regionSize k r ≤ new then s
  else
    let g := s.grans k r
    let h : HbmSt := { s.hbm with
      grans := tblPut s.hbm.grans (4 * k + r) (g.take new)
      draining := tblMod [] s.hbm.draining k (· ++ (g.drop new).map (fun x => ({ granule := x } : Drain))) }
    ({ s with hbm := h }).fset (sizeFld r) k 0 new

/-- STATE of controller `k` shows its change. -/
def State.regionShow (s : State) (k : Nat) : State :=
  (s.fset Fld.spnHregState_BUSY k 0 (b2n (tblFind s.hbm.change k).isSome)).fset Fld.spnHregState_DRAINING k 0 (tblGet [] s.hbm.draining k).length

/-- Step 1 on one stack; the reservoir engine drops the pages it held there. -/
def State.regionBegin (s : State) (sizes : List Nat) (ticket k : Nat) : State :=
  let s1 := State.each (List.range 4) (fun s r => s.regionLower k r (sizes.getD r 0)) s
  let s2 : State := { s1 with
    hbm := { s1.hbm with change := tblPut s1.hbm.change k { sizes := sizes, ticket := ticket } }
    rsv := { s1.rsv with slots := s1.rsv.slots.filter (fun x => !(x.1 / 65536 == k && decide (64 * sizes.getD 2 0 ≤ x.1 % 65536))) } }
  (s2.regionShow k).rsvShow


/-- Step 2: a draining granule that no request is in begins its zero-fill. -/
def State.granuleDrained (s : State) (k g : Nat) : State :=
  let q := modFirst (fun d => d.granule == g) (fun d => ({ d with zeroing := true } : Drain)) (tblGet [] s.hbm.draining k)
  { s with hbm := { s.hbm with draining := tblPut s.hbm.draining k q } }

def execGranuleDrained (k g : Nat) (s : State) : Res := .next (if k < 8 then s.granuleDrained k g else s)

/-- `n` bytes of HBM from a key are written with zeros: their lines are good. -/
def State.hbmZero (s : State) (a n : Nat) : State :=
  { s with mem := memClear s.mem a n, lines := tblDrop s.lines (fun l => decide (a / 128 ≤ l) && decide (l < (a + n) / 128)) }

/-- Physical granules of stack `k` that are free, in ascending order. -/
def State.freeGranules (s : State) (k : Nat) : List Nat :=
  (List.range 384).filter (fun g => !(List.range 4).any (fun r => (s.grans k r).contains g) && !(tblGet [] s.hbm.draining k).any (fun d => d.granule == g))

/-- Raise one region of stack `k` to `new`. -/
def State.regionRaise (s : State) (k r new : Nat) : State :=
  let old := s.regionSize k r
  if new ≤ old then s
  else
    let take := (s.freeGranules k).take (new - old)
    ({ s with hbm := { s.hbm with grans := tblPut s.hbm.grans (4 * k + r) (s.grans k r ++ take) } }).fset (sizeFld r) k 0 new

/-- Step 4 on stack `k`; the event follows once no stack has the change left. -/
def State.regionEnd (s : State) (k : Nat) : State :=
  match tblFind s.hbm.change k with
  | none => s
  | some x =>
    let s1 := State.each (List.range 4) (fun s r => s.regionRaise k r (x.sizes.getD r 0)) s
    let s2 := (({ s1 with hbm := { s1.hbm with change := tblDel s1.hbm.change k } }).regionShow k).rsvRetry
    if s2.hbm.change.any (fun e => e.2.ticket == x.ticket) then s2 else s2.completeTicket x.ticket Status.ok []

/-- Step 4 follows once no granule of stack `k` drains. -/
def State.regionTry (s : State) (k : Nat) : State := if (tblGet [] s.hbm.draining k).isEmpty then s.regionEnd k else s

/-- A stack on which nothing shrinks grows as soon as the reply is placed. -/
def State.cmdRegionSet (s : State) (c : Cmd) : Ans :=
  if !regionOk c then s.noAns Status.badParam
  else if s.regionBusy c then s.noAns Status.busy
  else
    let a := s.defer c (fun t s => State.each (regionStacks c) (fun s k => s.regionBegin (regionSizes c) t k) s)
    { a with after := fun s => if a.status = Status.accepted then State.each (regionStacks c) State.regionTry s else s }

/-- Steps 3 and 4: a granule's zero-fill ends, and with the last one the growth. -/
def State.granuleZeroed (s : State) (k g : Nat) : State :=
  let q := tblGet [] s.hbm.draining k
  let s1 := if q.any (fun d => d.granule == g && d.zeroing) then
      (({ s with hbm := { s.hbm with draining := tblPut s.hbm.draining k (q.filter (fun d => d.granule != g)) } }).hbmZero
        (hbmKey k (g * granuleBytes)) granuleBytes).regionShow k
    else s
  s1.regionTry k

def execGranuleZeroed (k g : Nat) (s : State) : Res := .next (if k < 8 then s.granuleZeroed k g else s)

/-! ### Scrub and zero-fill (R302, R305) -/

/-- Lines of a granule. -/
def granuleLines : Nat := granuleBytes / 128

/-- What a 32-byte part is found to be: its code corrects one symbol and detects two or three (R300). -/
def partSt (errors : Nat) : LineSt :=
  match errors % 4 with
  | 0 => .ok
  | 1 => .correctable
  | _ => .uncorrectable

/-- What a line is found to be: uncorrectable when any of its four parts is (R300). Errors of more than three symbols in a part are left out (log entry 57). -/
def lineClass (errors : Nat → Nat) : LineSt :=
  let l := (List.range 4).map (fun p => partSt (errors p))
  if l.contains .uncorrectable then .uncorrectable else if l.contains .correctable then .correctable else .ok

/-- Errors that have arisen in line `x` since it was written show when the scrub reads it (log entry 57). -/
def State.lineAge (s : State) (x : Nat) : State :=
  if tblGet LineSt.ok s.lines x = .ok then s.setLine x (lineClass (Config.lineErrors x s.now)) else s

/-- The scrub of stack `k` reads its next line; free and draining granules are skipped whole. -/
def State.scrubStep (s : State) (k : Nat) : State :=
  let pos := s.fget Fld.spnHregScrubpos_LINE k
  let n := 384 * granuleLines
  if s.fget Fld.spnHregScrub_SCRUB_EN k = 0 ∨ s.poolReady k = false then s
  else if (List.range 4).any (fun r => (s.grans k r).contains (pos / granuleLines)) then
    (((s.stir (26 + k)).lineAge (hbmKey k (128 * pos) / 128)).touch (hbmKey k (128 * pos)) 128 3).fset Fld.spnHregScrubpos_LINE k 0 ((pos + 1) % n)
  else s.fset Fld.spnHregScrubpos_LINE k 0 ((pos / granuleLines + 1) * granuleLines % n)

def execScrubStep (k : Nat) (s : State) : Res := .next (if k < 8 then s.scrubStep k else s)

/-- The zero-fill of a controller after its reset or a wake from Banked ends; its contents were lost as it began. -/
def State.zeroFillDone (s : State) (k : Nat) : State :=
  if s.hbm.filling.contains k && !s.hbmHeld k && s.fget Fld.pwrDomW0_STATE (26 + k) == 0 then
    { s with hbm := { s.hbm with filling := s.hbm.filling.filter (· != k) } }
  else s

def execControllerZeroFillDone (k : Nat) (s : State) : Res := .next (if k < 8 then s.zeroFillDone k else s)

end Sys2Proof.Machine
end

