-- ==== Sys2Proof/Machine/Reset.lean ====
section
/-! DEFINITION. What a reset does to each unit (R466 and the reset rules of the chapters), and the units that RESET_UNIT names. -/

namespace Sys2Proof.Machine
open Sys2Proof

/-! ### Registers (R419, R466) -/

/-- The RWL fields of a register keep the value they have in `w`; the others take their Reset values (R466). -/
def rwlKeep (r : RegName) (i j : Nat) (w : Word) : Word :=
  (regDef r).fields.foldl (fun a f => if f.acc = .rwl then setBits a f.hi f.lo (bits w f.hi f.lo) else a) (regReset r i j)

/-- Reset the registers that satisfy `p`. -/
def State.regsClear (s : State) (p : RegAt → Bool) : State :=
  { s with regs := s.regs.filterMap (fun e =>
      match regAt e.1 with
      | none => some e
      | some x =>
        if p x then
          let w := rwlKeep x.reg x.i x.j e.2
          if w = regReset x.reg x.i x.j then none else some (e.1, w)
        else some e) }

/-- Base address of a register's array. -/
def RegAt.base (x : RegAt) : Nat := (regDef x.reg).base
/-- The register lies in an address range. -/
def RegAt.within (x : RegAt) (lo hi : Nat) : Bool := decide (lo ≤ x.base) && decide (x.base < hi)

/-! ### Tags (R52) -/

/-- The units that satisfy `p` abandon their tags, whose generations advance, and their waiting requests. -/
def State.abandon (s : State) (p : Nat → Bool) : State :=
  let hit := s.tags.filter (fun e => p (e.1 / 4096))
  { s with tags := s.tags.filter (fun e => !p (e.1 / 4096))
           gens := hit.foldl (fun g e => tblPut g e.1 ((tblGet 0 g e.1 + 1) % 16)) s.gens
           waitq := tblDrop s.waitq p }

/-- The same for the requests of the weight streams (R332). -/
def Owner.isRsv : Owner → Bool
  | .rsv _ _ => true
  | _ => false

def State.abandonRsv (s : State) : State :=
  let hit := s.tags.filter (fun e => e.2.own.isRsv)
  { s with tags := s.tags.filter (fun e => !e.2.own.isRsv)
           gens := hit.foldl (fun g e => tblPut g e.1 ((tblGet 0 g e.1 + 1) % 16)) s.gens
           waitq := s.waitq.map (fun e => (e.1, e.2.filter (fun w => !w.req.own.isRsv))) }

/-! ### The units -/

/-- Registers of EPB `n` that its reset does not keep: all but EPB_TXN_CTRL, EPB_TAG_LEND and EPB_ROLE. -/
def epbReg (n : Nat) (x : RegAt) : Bool :=
  x.within 0x1000000 0x2000000 && x.i == n && x.reg != .epbTxnCtrl && x.reg != .epbTagLend && x.reg != .epbRole

/-- Every mover of an EPB: running, parked or waiting to resume. -/
def Epb.allMovers (e : Epb) : List Mover := e.movers ++ e.parks.map (·.mover) ++ e.resumes.map (·.mover)

/-- The check-value channel that a mover still claims (R499). -/
def Mover.claim (m : Mover) : Option Nat := if m.crcLost then none else m.crc

/-- Requests inside the unit at logical port `e` stay unanswered (R52). -/
def State.undeliver (s : State) (e : Nat) : State :=
  { s with delivered := s.delivered.filter (fun x => !(x.1 == e && isReqTy x.2.typ)) }

/-- Reset of an EPB (R52, R88, R130, R147, R221, R290). Its heat and rate-increase periods begin anew. DESIGN CHOICE (log entry 53): the end-point and epoch
pairs of R43 are forgotten with it. -/
def State.epbReset (s : State) (n : Nat) : State :=
  let s1 := State.each ((s.epbAt n).allMovers.filterMap Mover.claim) State.crcRelease s
  let s2 : State := { s1.undeliver n with
    epb := tblPut s1.epb n { heatAt := s.now, incAt := s.now }
    fseq := tblDel s1.fseq n
    lnk := { s1.lnk with zin := s1.lnk.zin.filter (fun z => z.1 != n) } }
  (s2.abandon (· == n)).regsClear (epbReg n)

/-- The weight-stream STOREs of cluster `c`, issued or waiting: stream and key of each. -/
def State.clusterStores (s : State) (c : Nat) : List (Nat × Nat) :=
  ((tblVals (s.unitTags (96 + c))).map (·.own) ++ (tblGet [] s.waitq (96 + c)).map (·.req.own)).filterMap (fun o => match o with
    | .rsv i k => some (i, k)
    | _ => none)

/-- Reset of a cluster (R242, R268). The weight-stream STOREs that it abandons have ended for their streams (DEDUCED, log entry 53). -/
def State.clusterReset (s : State) (c : Nat) : State :=
  let core := fun (k : Nat) => k / 16 == c
  let s1 : State := { s with
    epb := tblDel s.epb (96 + c)
    fseq := tblDel s.fseq (96 + c)
    spn := { s.spn with
      ends := tblDrop s.spn.ends (fun q => core (q / 16))
      waits := tblDrop s.spn.waits (fun q => core (q / 16))
      threads := tblDrop s.spn.threads (fun q => core (q / 16))
      cores := tblDrop s.spn.cores core
      accs := tblDrop s.spn.accs (fun q => core (q / 4))
      loads := s.spn.loads.map (fun l => if l.cmask.testBit c then { l with cmask := l.cmask - 2 ^ c } else l) } }
  let s2 := ((s1.hbmZero (lsKey (16 * c) 0) (16 * 2 ^ 18)).hbmZero (imemKey c 0) (2 ^ 18)).undeliver (96 + c)
  let s3 := (s2.abandon (· == 96 + c)).regsClear (fun x => x.within 0x100000 0x140000 && x.i == c && x.reg != .spnCtxW0)
  State.each (s.clusterStores c) (fun s x => s.rsvStored x.1 x.2) (s3.spnShow c)

/-- Reset of an HBM controller (R268, R305): its layout is kept, its contents are lost at once, and the zero-fill follows. A region change resumes at the
step it had reached. -/
def State.hbmReset (s : State) (k : Nat) : State :=
  let s0 : State := { (s.undeliver (112 + k)).hbmZero (hbmKey k 0) (384 * granuleBytes) with fseq := tblDel s.fseq (112 + k) }
  let s1 : State := if s0.hbm.filling.contains k then s0 else { s0 with hbm := { s0.hbm with filling := s0.hbm.filling ++ [k] } }
  s1.regsClear (fun x => x.i == k && ((x.within 0x140000 0x140400) || (x.within 0x140800 0x140C00 && x.reg != .spnHregSizes && x.reg != .spnHregState)))

/-- Stream `i` passes through the decode arrays of die `n`: STOREs of it leave by the die's ports, or a page it pins lies in the die's stacks. -/
def State.strmPasses (s : State) (n i : Nat) : Bool :=
  (List.range 4).any (fun j => (s.clusterStores (4 * n + j)).any (fun x => x.1 == i))
    || s.rsv.pins.any (fun p => p.strm == i && (match s.pageSlot p.obj p.page with
      | some (k, _) => k / 65536 / 2 == n
      | none => false))

/-- A stream ends without draining. -/
def State.strmEnd (s : State) (i : Nat) : State :=
  ((s.strmPut i { s.strm i with out := [], current := false, parts := [], emitted := 0 }).unpin (fun p => p.strm == i)).fset Fld.rsvStrStat_STATE i 0 0

/-- Reset of a Spindle die (R466): its clusters and controllers, its decode arrays, and its scratchpad. The streams that pass through its arrays end (R268).
DESIGN CHOICE (log entry 53): they go to OFF as under R332. -/
def State.spnDieReset (s : State) (n : Nat) : State :=
  let ends := (List.range 8).filter (fun i => s.strmState i != 0 && s.strmPasses n i)
  let s1 := State.each ((List.range 4).map (4 * n + ·)) State.clusterReset s
  let s2 := State.each [2 * n, 2 * n + 1] State.hbmReset s1
  let s3 := (s2.hbmZero (scrKey n 0) (2 ^ 26)).regsClear (fun x => x.within 0x140400 0x140800 && x.i / 2 == n)
  (State.each ends State.strmEnd s3).rsvRetry

/-- Reset of the reservoir engine (R332). -/
def State.rsvReset (s : State) : State :=
  ({ s.abandonRsv with rsv := { heatAt := s.now, promoAt := s.now } }).regsClear (fun x => x.within 0x80000 0xA0000) |>.rsvShow

/-- Reset of an optical chiplet (R372). -/
def State.chipletReset (s : State) (c : Nat) : State :=
  ((s.chipletDown c).regsClear (fun x => (x.within 0xC0000 0xC1000 && x.i == c) || (x.within 0xC1000 0xE0000 && x.i / 4 == c))).optOk c

/-- Reset of a host port (R466). -/
def State.hostReset (s : State) (h : Nat) : State :=
  let s1 : State := { (s.abandon (· == 120 + h)).undeliver (120 + h) with
    fseq := tblDel s.fseq (120 + h)
    host := { s.host with tgts := s.host.tgts.filter (fun t => t.hp != h) }
    boot := { s.boot with d3hot := s.boot.d3hot.filter (· != h), hostLinks := s.boot.hostLinks.filter (· != h) } }
  if s1.fget Fld.cmdMboxRspCtrl_HOST = h ∧ s1.fget Fld.cmdMboxRspCtrl_EN = 1 then
    ({ s1 with cmd := { s1.cmd with queues := tblDel s1.cmd.queues 2 } }).fset Fld.cmdMboxRspCtrl_EN 0 0 0
  else s1

/-- Registers of the HUB block that a reset of core `d` returns to their Reset values: those of the die's attachments, links and egresses, and
those that serve both dies; the route, fan-out and queue entries, HUB_FENCE, the modes and the mirror pointers are kept. -/
def coreReg (d : Nat) (x : RegAt) : Bool :=
  match x.reg with
  | .hubFence | .hubRtW0 | .hubRtW | .hubMcrtW0 | .hubMcrtW1 | .hubEprole | .hubMcrow | .hubMccol | .hubQW0 | .hubQW1
  | .hubSchedMode0 | .hubSchedMode1 | .hubMirringHead | .hubMirringTail | .hubDestDown => false
  | .hubBufstat => x.i == d
  | .hubLink => x.i / 64 == d
  | .hubInlim | .hubEglim | .hubMirsamp | .hubVcw => dieOf x.i == d
  | _ => x.within 0x200000 0x280000

/-- Copies of a list that lie on die `d`: their packet's cells or their egress. -/
def State.copyOn (s : State) (d : Nat) (c : Copy) : Bool := dieOf c.port == d || (tblFind s.sw.pkts c.id).isNone

/-- The queues of the egresses of die `d` are emptied. -/
def State.queuesEmpty (s : State) (d : Nat) : State :=
  State.each (s.sw.subq.filter (fun e => dieOf (e.1 / 1024) == d)) (fun s e =>
    State.each e.2.copies (fun s c => ((s.queueCells c false).egressCells c false).unref c.id)
      ({ s with sw := { s.sw with subq := tblDel s.sw.subq e.1 } })) s

/-- The hold lists of die `d` are emptied without NACKs. -/
def State.holdsEmpty (s : State) (d : Nat) : State :=
  State.each (s.sw.hold.filter (fun e => e.1 / 64 == d)) (fun s e =>
    State.each e.2 (fun s c => (s.egressCells c false).unref c.id) (s.setHold e.1 [])) s

/-- Copies of die `d` that wait or are being read out are discarded. -/
def State.copiesDrop (s : State) (d : Nat) : State :=
  let out := s.sw.sending.filter (fun c => dieOf c.port == d)
  let s1 : State := { s with sw := { s.sw with
    sending := s.sw.sending.filter (fun c => !s.copyOn d c)
    waiting := s.sw.waiting.filter (fun c => (tblFind s.sw.pkts c.id).isSome) } }
  State.each out (fun s c => s.unref c.id) s1

/-- Every egress of die `d` in strict priority, its V, tags and LASTFIB 0 (R221). -/
def State.schedReset (s : State) (d : Nat) : State :=
  let ps := (List.range 124).filter (fun p => dieOf p == d)
  let s1 : State := { s with sw := { s.sw with vt := tblDrop s.sw.vt (fun p => dieOf p == d), lastFib := tblDrop s.sw.lastFib (fun p => dieOf p == d) } }
  State.each ps (fun s p => if p < 64 then s.setBit .hubSchedMode0 0 0 p true else s.setBit .hubSchedMode1 0 0 (p - 64) true) s1

/-- Optical links of the quadrants of Hub die `d`. -/
def dieLinks (d : Nat) : List Nat := (List.range 64).map (64 + 64 * d + ·)

/-- Reset of a buffer/crossbar core (R192, R221, R530): its optical links fail and lose their state, its cells are discarded. -/
def State.coreReset (s : State) (d : Nat) : State :=
  let s1 := State.each (dieLinks d) State.linkReset s
  let mine := (s1.sw.pkts.filter (fun e => dieOf e.2.port == d)).map (·.1)
  let s2 := State.each mine State.dropPacket s1
  let s3 := (((s2.copiesDrop d).queuesEmpty d).holdsEmpty d).schedReset d
  let s4 : State := { s3 with
    inq := tblDrop s3.inq (fun k => decide (128 ≤ k) && dieOf (64 + (k - 128) / 32) == d)
    sw := { s3.sw with fifos := tblDel s3.sw.fifos d, mirCount := tblDrop s3.sw.mirCount (fun k => dieOf (k / 2) == d)
                       holdT := tblDrop s3.sw.holdT (fun l => l / 64 == d)
                       bursts := if d = 1 then [] else s3.sw.bursts } }
  let s5 := s4.regsClear (coreReg d)
  let s6 := State.each (dieLinks d) (fun s n => s.fset Fld.hubLink_STATE (n - 64) 0 Hub.down) s5
  let s7 := if s.fget Fld.hubCoppiceCtrl_MODE = 1 ∨ s.fget Fld.hubCoppiceCtrl_MODE = 2 then s6.crcRelease (s.fget Fld.hubCoppiceCtrl_CH) else s6
  s7.holdEffUpdate.destDownUpdate

/-- Reset of a Hub die (R466). -/
def State.hubDieReset (s : State) (d : Nat) : State :=
  let ns := (List.range 32).map (32 * d + ·)
  ((State.each ns State.epbReset (State.each ns State.linkReset s))).coreReset d

/-- A mover that loses its CRC claim (R499). -/
def Mover.loseCrc (m : Mover) : Mover := if m.crc.isSome then { m with crcLost := true } else m

/-- Reset of PD46 (R499): the check-value channels and the port counters. -/
def State.crcTelReset (s : State) : State :=
  let park := fun (p : Park) => ({ p with mover := p.mover.loseCrc } : Park)
  let s1 : State := { s with
    crc := { s.crc with feeds := [] }
    epb := s.epb.map (fun e => (e.1, { e.2 with
      engines := e.2.engines.map (fun m => (m.1, m.2.loseCrc)), niRun := e.2.niRun.map (fun m => (m.1, m.2.loseCrc))
      parks := e.2.parks.map park, resumes := e.2.resumes.map park })) }
  let s2 := State.each s.crc.feeds (fun s f => s.completeTicket f.2.ticket Status.flushed
    (bytesOfWords [s.rd .crcValue f.1, BitVec.ofNat 64 f.2.fed])) s1
  let s3 := State.each (List.range 16) (fun s c => (s.crcRelease c).crcRestart c) s2
  s3.regsClear (fun x => x.within 0x40018 0x40400 || x.within 0x41000 0x50000)

/-- The Rick loses power, or its controller is reset (R332): commands in progress end with FAULT and the journaled LENGTH, and the contents are
those of the last journal. -/
def State.rickDown (s : State) (st : Nat) : State :=
  let s1 := State.each s.rick.cmds (fun s x =>
    s.completeTicket x.ticket Status.fault (bytesOfWords [BitVec.ofNat 64 (s.journalLength x.obj)])) s
  let s2 : State := { s1 with rick := { s1.rick with objs := [], cmds := [] } }
  ((s2.regsClear (fun x => x.within 0xA0000 0xC0000)).fset Fld.rickStat_STATE 0 0 st).fillsAbandon

/-- Rick commands in progress end with FLUSHED, and the journal is written (R382, R330). -/
def State.rickFlushAll (s : State) : State :=
  let s1 := State.each s.rick.cmds State.rickFlush s
  ({ s1 with rick := { s1.rick with cmds := [] } }).journalPut

/-! ### RESET_UNIT: the units (R466, R467) -/

/-- The kinds of units that a reset names. -/
inductive RUnit where
  | hubDie (d : Nat) | spnDie (n : Nat) | device | core (d : Nat) | epb (n : Nat) | cluster (c : Nat) | hbm (k : Nat) | chiplet (c : Nat)
  | reservoir | host (h : Nat)
  deriving DecidableEq, Repr

/-- The unit of a KIND and IDX, if a row of Table — reset types names it. -/
def resetUnit (kind idx : Nat) : Option RUnit :=
  if kind = 0 then
    if idx < 2 then some (.hubDie idx) else if idx < 6 then some (.spnDie (idx - 2)) else if idx < 14 then some (.chiplet (idx - 6))
    else if idx = 14 then some .device else none
  else if kind = 13 ∧ idx < 2 then some (.core idx)
  else if kind = 1 ∧ idx < 64 then some (.epb idx)
  else if kind = 5 ∧ idx < 16 then some (.cluster idx)
  else if kind = 6 ∧ idx < 8 then some (.hbm idx)
  else if kind = 9 ∧ idx < 8 then some (.chiplet idx)
  else if kind = 11 ∧ idx = 0 then some .reservoir
  else if kind = 15 ∧ idx < 2 then some (.host idx)
  else none

/-- KIND and IDX under which a unit's reset is kept and recorded. -/
def RUnit.key : RUnit → Nat × Nat
  | .hubDie d => (0, d)
  | .spnDie n => (0, 2 + n)
  | .device => (0, 14)
  | .core d => (13, d)
  | .epb n => (1, n)
  | .cluster c => (5, c)
  | .hbm k => (6, k)
  | .chiplet c => (9, c)
  | .reservoir => (11, 0)
  | .host h => (15, h)

/-- Key of a unit in `boot.held`. -/
def RUnit.num (u : RUnit) : Nat := 65536 * u.key.1 + u.key.2

/-- The units that a reset of `u` includes, as the bits of CMD_HELD0 and CMD_HELD1 (R475). -/
def RUnit.mask : RUnit → Nat × Nat
  | .hubDie d => ((2 ^ 32 - 1) * 2 ^ (32 * d), 2 ^ (41 + d) + 2 ^ (32 + d))
  | .spnDie n => (0, 2 ^ (37 + n) + 15 * 2 ^ (4 * n) + 3 * 2 ^ (16 + 2 * n))
  | .device => (2 ^ 64 - 1, 2 ^ 43 - 1)
  | .core d => (0, 2 ^ (32 + d))
  | .epb n => (2 ^ n, 0)
  | .cluster c => (0, 2 ^ c)
  | .hbm k => (0, 2 ^ (16 + k))
  | .chiplet c => (0, 2 ^ (24 + c))
  | .reservoir => (0, 2 ^ 34)
  | .host h => (0, 2 ^ (35 + h))

/-- The unit of a key of `boot.held`. -/
def heldUnit (num : Nat) : Option RUnit := resetUnit (num / 65536) (num % 65536)

/-- The masks of every unit in reset or held, and of the stacks that failed training (R469). -/
def State.heldMask (s : State) : Nat × Nat :=
  let l := (s.boot.held.filterMap (fun e => heldUnit e.1)).map RUnit.mask ++ s.boot.untrained.map (fun k => (0, 2 ^ (16 + k)))
  l.foldl (fun a m => (a.1 ||| m.1, a.2 ||| m.2)) (0, 0)

/-- CMD_HELD shows the units in reset or held. -/
def State.heldShow (s : State) : State :=
  let m := s.heldMask
  (s.wr .cmdHeld0 0 0 (BitVec.ofNat 64 m.1)).wr .cmdHeld1 0 0 (BitVec.ofNat 64 m.2)

/-- A reset of `u`, of a unit that contains it or of one that it contains, is in progress or held. -/
def State.resetBusy (s : State) (u : RUnit) : Bool :=
  s.boot.held.any (fun e => match heldUnit e.1 with
    | some v => v.mask.1 &&& u.mask.1 != 0 || v.mask.2 &&& u.mask.2 != 0
    | none => false)

/-- Put a unit in reset. A reset of the whole device is `State.warmReset`. -/
def State.unitDown (s : State) : RUnit → State
  | .hubDie d => s.hubDieReset d
  | .spnDie n => s.spnDieReset n
  | .device => s
  | .core d => s.coreReset d
  | .epb n => s.epbReset n
  | .cluster c => s.clusterReset c
  | .hbm k => s.hbmReset k
  | .chiplet c => s.chipletReset c
  | .reservoir => s.rsvReset
  | .host h => s.hostReset h

/-- What a unit does on leaving reset: links leave RESET, a chiplet searches its rings, a host port's link trains. -/
def State.unitUp (s : State) : RUnit → State
  | .hubDie d => State.each ((List.range 32).map (32 * d + ·) ++ dieLinks d) State.lkRelease s
  | .core d => State.each (dieLinks d) State.lkRelease s
  | .chiplet c => s.autoSearch c
  | .host h => ({ s with boot := { s.boot with hostLinks := s.boot.hostLinks.filter (· != h) ++ [h] } } : State).mboxDrain 64
  | _ => s

/-- Reset a unit and note the reset (R467): `how` as `Hold` has it. -/
def State.unitReset (s : State) (u : RUnit) (how : Nat) (ticket : Option Nat) : State :=
  let s1 := s.unitDown u
  ({ s1 with boot := { s1.boot with held := tblPut s1.boot.held u.num { since := s1.now, how := how, ticket := ticket } } }).heldShow

/-- The cause that UNIT_RESET names (R473). -/
def resetCause (how : Nat) : Nat := if how = 2 then 1 else if how = 3 then 2 else 0

/-- A unit comes out of reset (R467, R473): the record, its recovery window after an armed reset (R432), and the completion event. -/
def State.unitOut (s : State) (u : RUnit) (h : Hold) : State :=
  let s1 := ({ s with boot := { s.boot with held := tblDel s.boot.held u.num } }).heldShow
  let s2 := s1.unitUp u
  let s3 := s2.errRec 0 0x72 u.key.1 u.key.2 [resetCause h.how, (s2.now - h.since) / Config.cyclesPerUs]
  let s4 := if h.how = 2 then
      (match s3.windowOf u.key.1 u.key.2 with
      | some i => if s3.fget Fld.errWinW0_FIR i = 1 then s3 else (s3.winClear u.key.1 u.key.2).winOpen u.key.1 u.key.2
      | none => s3.winOpen u.key.1 u.key.2)
    else s3
  match h.ticket with
  | some t => s4.completeTicket t Status.ok []
  | none => s4

end Sys2Proof.Machine
end

