-- ==== Sys2Proof/Machine/Settle.lean ====
section
/-! DEFINITION. Armed responses (R430, R433), and the error commands (19). -/

namespace Sys2Proof.Machine
open Sys2Proof

/-! ### Armed responses -/

/-- The response that a record of an armed code shows: 3 when its unit is, or now becomes, failed-in-recovery (R433). -/
def State.armedResponse (s : State) (x : Later) : Nat :=
  let a := s.armedAction x.code
  let fir := match s.windowOf x.kind x.idx with
    | some i => x.cls == 2 || s.fget Fld.errWinW0_FIR i == 1
    | none => false
  if a ≠ 0 ∧ fir = true then 3 else a

/-- Carry out a response: 1 holds the link down, 2 resets the unit. A unit that is already in reset is not reset again. -/
def State.respondTo (s : State) (x : Later) (action : Nat) : State :=
  if action = 1 then (if x.kind = 3 then s.adminSet x.idx else s.enWrite x.idx 0)
  else if action = 2 then
    match resetUnit x.kind x.idx with
    | some u => if s.resetBusy u then s else s.unitReset u 2 none
    | none => s
  else s

/-- Write one waiting record: the response first, then the record. -/
def State.errSettle1 (s : State) (x : Later) : State :=
  let a := s.armedResponse x
  (s.respondTo x a).errWrite x.cls x.code x.kind x.idx a x.d

/-- Write the waiting records without responses, and leave none waiting. -/
def State.errRest (s : State) : State :=
  let s1 := State.each s.err.later (fun s x => s.errWrite x.cls x.code x.kind x.idx 0 x.d) s
  { s1 with err := { s1.err with later := [] } }

/-- Write the waiting records of armable codes, oldest first, and those that their responses cause; `fuel` bounds the responses. -/
def State.errSettle : Nat → State → State
  | 0, s => s.errRest
  | fuel + 1, s =>
    match s.err.later with
    | [] => s
    | x :: t => ({ s with err := { s.err with later := t } }.errSettle1 x).errSettle fuel

/-- A step's last part: its records of armable codes are written. A link fails at most once and a unit is reset at most once in it, so that its
responses are fewer than the bound. -/
def State.settleErr (s : State) : State := s.errSettle 4096

/-! ### ERR_ARM (R430) -/

/-- The ACTION that a code's row lists, 0 where it lists none; `none` for a reserved code (R428, R459, R473, R486). -/
def codeAction (code : Nat) : Option Nat :=
  if code = 0x03 ∨ code = 0x05 then some 1
  else if code = 0x14 ∨ code = 0x15 ∨ code = 0x22 ∨ code = 0x42 ∨ code = 0x43 then some 2
  else if (0x01 ≤ code ∧ code ≤ 0x08) ∨ (0x10 ≤ code ∧ code ≤ 0x15) ∨ (0x20 ≤ code ∧ code ≤ 0x24) ∨ (0x28 ≤ code ∧ code ≤ 0x2C)
      ∨ (0x30 ≤ code ∧ code ≤ 0x32) ∨ (0x40 ≤ code ∧ code ≤ 0x43) ∨ (0x50 ≤ code ∧ code ≤ 0x58) ∨ (0x60 ≤ code ∧ code ≤ 0x64)
      ∨ (0x70 ≤ code ∧ code ≤ 0x73) then some 0
  else none

def State.cmdErrArm (s : State) (c : Cmd) : Ans :=
  let w := c.word 0
  let code := bits w 7 0
  let act := bits w 17 16
  if !zeroOutside w [(17, 16), (7, 0)] then s.noAns Status.badParam
  else
    match codeAction code with
    | none => s.noAns Status.badParam
    | some a =>
      if act ≠ 0 ∧ act ≠ a then s.noAns Status.badParam
      else
        let j := code / 8
        let b := 8 * (code % 8)
        (s.wr .errArm j 0 (setBits (s.rd .errArm j) (b + 1) b act)).okAns [BitVec.ofNat 64 (s.armedAction code)]

/-! ### ERR_FIFO_READ (R427) -/

def State.cmdErrFifoRead (s : State) (c : Cmd) : Ans :=
  let w := c.word 0
  let d := bits w 3 0
  let max := bits w 13 8
  if !zeroOutside w [(16, 16), (13, 8), (3, 0)] || d == 15 || max == 0 then s.noAns Status.badParam
  else
    let q := tblGet [] s.err.fifos d
    let out := q.take max
    let rest := q.drop max
    let s1 := if bit w 16 then
        ({ s with err := { s.err with fifos := tblPut s.err.fifos d rest } }).fset Fld.errDieCnt1_LEVEL d 0 rest.length
      else s
    let remain := if bit w 16 then rest.length else q.length
    s1.okAns (BitVec.ofNat 64 (remain * 256 + out.length) :: out.flatMap id)

/-! ### First-error capture and recovery windows (R425, R432, R433) -/

/-- VALID of die `d` is written with 1. -/
def State.captureArm (s : State) (d : Nat) : State := if d < 15 then s.fset Fld.errDieCap_VALID d 0 0 else s

/-- ERR_STAT shows the windows. -/
def State.winShow (s : State) : State :=
  (s.fset Fld.errStat_WINOPEN 0 0 s.winCount).fset Fld.errStat_FIR_ANY 0 0
    (b2n (s.err.windows.any (fun w => s.fget Fld.errWinW0_FIR w.slot == 1)))

/-- Close window-table entry `i`. -/
def State.winClose (s : State) (i : Nat) : State :=
  let s1 := (s.wr .errWinW0 i 0 0).wr .errWinW1 i 0 0
  ({ s1 with err := { s1.err with windows := s1.err.windows.filter (fun w => w.slot != i) } }).winShow

/-- FIR of entry `i` is written with 1. -/
def State.firClear (s : State) (i : Nat) : State :=
  if s.err.windows.any (fun w => w.slot == i) && s.fget Fld.errWinW0_FIR i == 1 then s.winClose i else s

/-- The window of entry `i` reaches its END. -/
def State.windowEnd (s : State) (i : Nat) : State :=
  if s.err.windows.any (fun w => w.slot == i && decide (w.closeAt ≤ s.now)) && s.fget Fld.errWinW0_FIR i == 0 then s.winClose i else s

def execErrCaptureArm (d : Nat) (s : State) : Res := .next (s.captureArm d)
def execErrWinFirClear (i : Nat) (s : State) : Res := .next (s.firClear i)
def execRecoveryWindowEnd (i : Nat) (s : State) : Res := .next (s.windowEnd i)

end Sys2Proof.Machine
end

