-- ==== Sys2Proof/Machine/LinkRows.lean ====
section
/-! DEFINITION. The link and optical events as steps: each ends with the records of armable codes (15, 16, R430). -/

namespace Sys2Proof.Machine
open Sys2Proof

/-- A step that may write records of armable codes. -/
def State.settled (s : State) : Res := .next s.settleErr

/-- A link event at link `n` of 0 to 191. -/
def State.atLink (s : State) (n : Nat) (f : State → Nat → State) : Res := if n < 192 then (f s n).settled else .next s
/-- An event at optical link `l` of 0 to 127. -/
def State.atOptic (s : State) (l : Nat) (f : State → Nat → State) : Res := if l < 128 then (f s l).settled else .next s
/-- An event at ring `r` of bus `b` of group `g`. -/
def State.atRing (s : State) (g b r : Nat) (f : State → State) : Res := if g < 32 ∧ b < 5 ∧ r < 16 then (f s).settled else .next s

def execLinkAdminSet (l : Nat) (s : State) : Res := s.atOptic l State.adminSet
def execLinkAdminClear (l : Nat) (s : State) : Res := s.atOptic l State.adminClear

def execLinkEnWrite (n v : Nat) (s : State) : Res := s.atLink n (fun s n => s.enWrite n v)
def execLinkEnergyDetect (n : Nat) (s : State) : Res := s.atLink n State.energy
def execCdrLock (n : Nat) (s : State) : Res := s.atLink n State.cdrLocked
def execEqDone (n : Nat) (lanes : List LaneEq) (s : State) : Res := s.atLink n (fun s n => s.eqDone n lanes)
def execPrbsPass (n : Nat) (errs : List Nat) (partner : Bool) (s : State) : Res := s.atLink n (fun s n => s.prbs n errs partner)
def execAligned (n : Nat) (seen : List LaneSeen) (partner : Bool) (s : State) : Res := s.atLink n (fun s n => s.aligned n seen partner)
def execLinkUp (n peer resume : Nat) (s : State) : Res := s.atLink n (fun s n => s.linkUp n peer resume)
def execTrainTimeout (n : Nat) (s : State) : Res := s.atLink n State.trainTimeout
def execCodewordReceive (n j : Nat) (levels : List Nat) (s : State) : Res := s.atLink n (fun s n => s.codewordIn n j levels)
def execAlignmentLoss (n j : Nat) (s : State) : Res := s.atLink n (fun s n => s.alignLost n j)
def execReplayTimer (n : Nat) (s : State) : Res := s.atLink n State.replayTimer
def execCreditReturnFailure (n pool : Nat) (s : State) : Res := s.atLink n (fun s n => s.creditFailure n pool)
def execLinkRetrain (n : Nat) (s : State) : Res := s.atLink n (fun s n => s.failEvent n 5)
def execLinkFailureEvent (n cause : Nat) (s : State) : Res := s.atLink n (fun s n => s.failEvent n cause)
def execLinkStateDiscard (n : Nat) (s : State) : Res := s.atLink n State.stateDiscard
def execRelockTimeout (n : Nat) (s : State) : Res := s.atLink n State.relockTimeout

def execBurstReceive (l : Nat) (first : List Nat) (cws : List (List Nat)) (s : State) : Res := s.atOptic l (fun s l => s.burst l (first :: cws))
def execDarkTimeout (l : Nat) (s : State) : Res := s.atOptic l State.dark
def execVisitSend (l : Nat) (s : State) : Res := s.atOptic l State.visit
def execTrainingBurst (l : Nat) (s : State) : Res := s.atOptic l State.trainBurst
def execSweepComplete (g b r : Nat) (dips : List (Nat × Nat)) (s : State) : Res := s.atRing g b r (fun s => s.sweepDone g b r dips)
def execDitherUpdate (g b r err mv : Nat) (s : State) : Res := s.atRing g b r (fun s => s.dither g b r err mv)
def execLockTimeout (g b r : Nat) (s : State) : Res := s.atRing g b r (fun s => s.lockTimeout g b r)
def execRingRelock (g b r : Nat) (s : State) : Res := s.atRing g b r (fun s => s.ringRelock g b r)
def execLaserLow (c pwr : Nat) (s : State) : Res := if c < 8 then (s.laserBelow c pwr).settled else .next s
def execLaserPowerReturn (c pwr : Nat) (s : State) : Res := if c < 8 then (s.laserReturn c pwr).settled else .next s

end Sys2Proof.Machine
end

