-- ==== Sys2Proof/Machine/Spdm.lean ====
section
/-! DEFINITION. Kiln as an SPDM responder (R377, R378). Message codes and layouts are those of DMTF DSP0274 1.3, which R377 names (log entry 20). -/

namespace Sys2Proof.Machine
open Sys2Proof

/-! ### KLN_SPDM and its completion (R378) -/

def State.cmdKlnSpdm (s : State) (c : Cmd) : Ans :=
  s.defer c (fun t s => { s with kln := { s.kln with spdm := s.kln.spdm ++ [{ ticket := t, at_ := s.now, data := c.params }] } })

/-- An SPDM ERROR response: its code and data. -/
def spdmError (code data : Nat) : List Byte := [0x13, 0x7F, BitVec.ofNat 8 code, BitVec.ofNat 8 data]

/-- The completion event, 2.0 ms after acceptance: a message that no row answers is one that Kiln does not support. -/
def State.spdmDone (s : State) (ticket : Nat) : State :=
  match s.kln.spdm.find? (fun m => m.ticket == ticket) with
  | none => s
  | some m =>
    if s.now < m.at_ + us 2000 then s
    else
      ({ s with kln := { s.kln with spdm := s.kln.spdm.filter (fun x => x.ticket != ticket) } }).completeTicket ticket Status.ok
        (m.resp.getD (spdmError 0x07 (m.data.getD 1 0).toNat))

def execKlnSpdmComplete (ticket : Nat) (s : State) : Res := .next (s.spdmDone ticket)

/-! ### Sessions -/

def State.session (s : State) (sid : Nat) : Option Session := s.kln.sessions.find? (fun x => x.id == sid)
/-- Change a session. -/
def State.sessionMod (s : State) (sid : Nat) (f : Session → Session) : State :=
  { s with kln := { s.kln with sessions := s.kln.sessions.map (fun x => if x.id = sid then f x else x) } }

/-- A session whose heartbeat period of 10 s passes without a message is lost; the binding is unchanged (R377, R395). -/
def State.sessionExpire (s : State) (id : Nat) : State :=
  { s with kln := { s.kln with sessions := s.kln.sessions.filter (fun x => !(x.id == id && decide (x.lastSeen + us 10000000 ≤ s.now))) } }

def execSessionHeartbeatExpiry (id : Nat) (s : State) : Res := .next (s.sessionExpire id)

/-! ### Requests and responses -/

/-- Bytes of a response that need no chunks. -/
def spdmLimit : Nat := 4000

/-- Bytes of a large response that one CHUNK_RESPONSE carries. -/
def chunkBytes : Nat := 3968

/-- Give the message of a ticket its response: in the clear, or sealed to 4,064 bytes in its session. A response beyond the limit is kept for CHUNK_GET. -/
def State.spdmRespond (s : State) (m : SpdmMsg) (sid : Nat) (plain : List Byte) : State :=
  let full := m.pre ++ plain
  let large := decide (spdmLimit < full.length)
  let r := if large then spdmError 0x0F 0 ++ [1] else full
  let s1 : State := if large then { s with kln := { s.kln with chunkOut := some { sid := sid, handle := 1, data := full } } } else s
  let n := ((s1.session sid).map (·.sent)).getD 0
  let bytes := if sid = 0 then r else (List.range 4064).map (Config.spdmSeal sid n r)
  let s2 : State := { s1 with kln := { s1.kln with spdm := s1.kln.spdm.map (fun x => if x.ticket = m.ticket then { x with resp := some bytes } else x) } }
  if sid = 0 then s2 else (s2.sessionMod sid (fun x => { x with sent := x.sent + 1 })).emit (.secured sid r)

/-- Handle the oldest message without a response, if it is the request `code`. `lo` is the negotiation it needs; `place`: 0 in the clear only, 1 in
an open session only, 2 either, 3 in a session whose handshake has not ended. `f` gives the response. -/
def State.spdmReq (s : State) (sid : Nat) (msg : List Byte) (ok : Bool) (code lo place : Nat)
    (f : State → SpdmMsg → Nat → List Byte → State) : State :=
  match s.kln.spdm.find? (fun m => m.resp.isNone) with
  | none => s
  | some m =>
    let sid := m.whole.getD sid
    let p := if sid = 0 ∨ m.whole.isSome = true then m.data else msg
    let ses := s.session sid
    let isOpen := (ses.map (·.isOpen)).getD false
    let placed := if sid = 0 then place == 0 || place == 2 else if place = 3 then ses.isSome && !isOpen else isOpen && (place == 1 || place == 2)
    if (p.getD 1 0).toNat ≠ code then s
    else if sid ≠ 0 ∧ ses.isNone = true then s.spdmRespond m 0 (spdmError 0x02 0)
    else
      let s1 := s.sessionMod sid (fun x => { x with lastSeen := s.now })
      if !placed || decide (s.kln.nego < lo) then s1.spdmRespond m sid (spdmError 0x04 0)
      else if (p.getD 0 0).toNat ≠ (if code = 0x84 then 0x10 else 0x13) then s1.spdmRespond m sid (spdmError 0x41 0)
      else if !ok then s1.spdmRespond m sid (spdmError 0x01 0)
      else f s1 m sid p

/-- A request whose response is a list of bytes. -/
def State.spdmPlain (s : State) (sid : Nat) (msg : List Byte) (ok : Bool) (code lo place : Nat) (f : State → List Byte → List Byte × State) : State :=
  s.spdmReq sid msg ok code lo place (fun s m sid p => (f s p).2.spdmRespond m sid (f s p).1)

/-- The negotiation has reached `n`. -/
def State.negoTo (s : State) (n : Nat) : State := { s with kln := { s.kln with nego := n } }

/-- VERSION: 1.3 only. -/
def State.spdmVersion (s : State) (_p : List Byte) : List Byte × State := ([0x10, 0x04, 0, 0, 0, 1, 0x00, 0x13], s.negoTo 1)

/-- CAPABILITIES: CERT, CHAL, MEAS with signature, ENCRYPT, MAC, MUT_AUTH, KEY_EX, HBEAT, KEY_UPD, CHUNK; the sizes; CTExponent is a free value. -/
def State.spdmCapabilities (s : State) (_p : List Byte) : List Byte × State :=
  let flags := 2 ^ 1 + 2 ^ 2 + 2 ^ 4 + 2 ^ 6 + 2 ^ 7 + 2 ^ 8 + 2 ^ 9 + 2 ^ 13 + 2 ^ 14 + 2 ^ 17
  ([0x13, 0x61, 0, 0, 0, BitVec.ofNat 8 s.draw.1, 0, 0] ++ toBytes 4 flags ++ toBytes 4 4064 ++ toBytes 4 (2 ^ 20), s.draw.2.negoTo 2)

/-- ALGORITHMS: DMTF measurements, SHA-384, ECDSA P-384, secp384r1, AES-256-GCM, the SPDM key schedule. -/
def State.spdmAlgorithms (s : State) (_p : List Byte) : List Byte × State :=
  let fixed := toBytes 2 52 ++ [1, 0] ++ toBytes 4 4 ++ toBytes 4 0x80 ++ toBytes 4 2 ++ List.replicate 12 0 ++ toBytes 4 0
  let algs := [2, 0x20, 0x10, 0, 3, 0x20, 0x02, 0, 4, 0x20, 0x80, 0, 5, 0x20, 0x01, 0].map (fun (x : Nat) => (BitVec.ofNat 8 x : Byte))
  ([0x13, 0x63, 4, 0] ++ fixed ++ algs, s.negoTo 3)

/-- DIGESTS: slot 0. -/
def State.spdmDigests (s : State) (_p : List Byte) : List Byte × State := ([0x13, 0x01, 1, 1] ++ sha384 Config.certChain, s)

/-- CERTIFICATE: the portion of slot 0's chain that OFFSET and LENGTH name. -/
def State.spdmCertificate (s : State) (p : List Byte) : List Byte × State :=
  let off := ofBytes ((p.drop 4).take 2)
  let part := (Config.certChain.drop off).take (min (ofBytes ((p.drop 6).take 2)) 3968)
  if (p.getD 2 0).toNat % 16 ≠ 0 ∨ Config.certChain.length ≤ off then (spdmError 0x01 0, s)
  else ([0x13, 0x02, 0, 0] ++ toBytes 2 part.length ++ toBytes 2 (Config.certChain.length - off - part.length) ++ part, s)


/-- Value of a measurement: 1 Kindling, 2 Cloentim, 3 the log entries in SEQ order. -/
def State.measurement (s : State) (i : Nat) : List Byte :=
  if i = 3 then sha384 (s.kln.log.flatMap bytesOfWords)
  else match s.kln.log.find? (fun e => logKind e == i) with
    | some e => bytesOfWords (e.drop 2)
    | none => List.replicate 48 0

/-- Its measurement block: index, specification, size, DMTF value type (a free value), value. -/
def State.measBlock (s : State) (ty i : Nat) : List Byte :=
  [BitVec.ofNat 8 i, 1] ++ toBytes 2 51 ++ [BitVec.ofNat 8 ty] ++ toBytes 2 48 ++ s.measurement i

/-- The measurement summary hash of a type: none for 0, the digest of every block for 0xFF, a free value for 1 (the spec names no trusted computing
base); no other type is served. -/
def State.summaryHash (s : State) (ty : Nat) : Option (List Byte) × State :=
  if ty = 0 then (some [], s)
  else if ty = 0xFF then
    let (v, s1) := s.draw
    (some (sha384 ([1, 2, 3].flatMap (s1.measBlock v))), s1)
  else if ty = 1 then ((some (s.drawBytes 48).1), (s.drawBytes 48).2)
  else (none, s)

/-- CHALLENGE_AUTH of slot 0: the digest of the chain, the summary hash asked for, no opaque data, the requester's context; nonce and signature
are free values. -/
def State.spdmChallenge (s : State) (p : List Byte) : List Byte × State :=
  let (nonce, s1) := s.drawBytes 32
  let (sum, s2) := s1.summaryHash (p.getD 3 0).toNat
  let (sig, s3) := s2.drawBytes 96
  match sum with
  | none => (spdmError 0x01 0, s)
  | some h =>
    if (p.getD 2 0).toNat ≠ 0 then (spdmError 0x01 0, s)
    else ([0x13, 0x03, 0, 1] ++ sha384 Config.certChain ++ nonce ++ h ++ toBytes 2 0 ++ (p.drop 36).take 8 ++ sig, s3)

/-- MEASUREMENTS: none but the count for operation 0, every block for 0xFF, one block otherwise; signed where asked. -/
def State.spdmMeasurements (s : State) (p : List Byte) : List Byte × State :=
  let op := (p.getD 3 0).toNat
  let is := if op = 0 then [] else if op = 0xFF then [1, 2, 3] else [op]
  if op ≠ 0xFF ∧ 3 < op then (spdmError 0x01 0, s)
  else
    let (ty, s1) := s.draw
    let recs := is.flatMap (s1.measBlock ty)
    let (nonce, s2) := s1.drawBytes 32
    let (sig, s3) := s2.drawBytes 96
    ([0x13, 0x60, if op = 0 then 3 else 0, 0] ++ toBytes 1 is.length ++ toBytes 3 recs.length ++ recs ++ nonce ++ toBytes 2 0
      ++ (p.drop 36).take 8 ++ (if (p.getD 2 0).getLsbD 0 then sig else []), s3)

/-- KEY_EXCHANGE_RSP of slot 0: a new session, of at most four at once, with a heartbeat period of 10 s and the summary hash asked for. The request for
mutual authentication, the random and exchange data, the opaque data, the signature and the verify data are free values. -/
def State.spdmKeyExchange (s : State) (p : List Byte) : List Byte × State :=
  let (asks, s1) := s.drawBytes 1
  let (data, s2) := s1.drawBytes 128
  let (sum, s3) := s2.summaryHash (p.getD 2 0).toNat
  let (sig, s4) := s3.drawBytes 144
  match sum, (List.range 4).find? (fun i => (s.session (i + 1)).isNone) with
  | none, _ => (spdmError 0x01 0, s)
  | some _, none => (spdmError 0x0A 0, s)
  | some h, some i =>
    if (p.getD 3 0).toNat ≠ 0 then (spdmError 0x01 0, s)
    else
      ([0x13, 0x64, 10, 0] ++ toBytes 2 (i + 1) ++ asks ++ [0] ++ data ++ h ++ toBytes 2 Config.keyExchangeOpaque.length ++ Config.keyExchangeOpaque ++ sig,
        { s4 with kln := { s4.kln with sessions := s4.kln.sessions ++ [{ id := i + 1, lastSeen := s4.now }] } })

/-- FINISH ends the handshake of a session; with mutual authentication it holds the requester's key (R379). -/
def State.spdmFinish (s : State) (key : Option (List Byte)) (m : SpdmMsg) (sid : Nat) (_p : List Byte) : State :=
  (s.sessionMod sid (fun x => { x with isOpen := true, authed := key.isSome, keyHash := (key.map sha384).getD [] })).spdmRespond m sid [0x13, 0x65, 0, 0]

/-- KEY_UPDATE_ACK and HEARTBEAT_ACK. -/
def State.spdmEcho (code : Nat) (s : State) (p : List Byte) : List Byte × State := ([0x13, BitVec.ofNat 8 code, p.getD 2 0, p.getD 3 0], s)

/-- END_SESSION ends the session once its answer is made. -/
def State.spdmEnd (s : State) (m : SpdmMsg) (sid : Nat) (_p : List Byte) : State :=
  let s1 := s.spdmRespond m sid [0x13, 0x6C, 0, 0]
  { s1 with kln := { s1.kln with sessions := s1.kln.sessions.filter (fun x => x.id != sid) } }

/-! ### Chunks -/

/-- CHUNK_SEND: the chunks follow one another; the last makes the large message the one to handle, its response inside the CHUNK_SEND_ACK. -/
def State.spdmChunkSend (s : State) (m : SpdmMsg) (sid : Nat) (p : List Byte) : State :=
  let last := (p.getD 2 0).getLsbD 0
  let handle := (p.getD 3 0).toNat
  let seq := ofBytes ((p.drop 4).take 2)
  let data := (p.drop (if seq = 0 then 16 else 12)).take (ofBytes ((p.drop 8).take 4))
  let have_ : Option (List Byte) :=
    if seq = 0 then some []
    else match s.kln.chunkIn with
      | some c => if c.sid = sid ∧ c.handle = handle ∧ c.seq = seq then some c.data else none
      | none => none
  let ack : List Byte := [0x13, 0x05, 0, p.getD 3 0] ++ toBytes 2 seq
  match have_ with
  | none => ({ s with kln := { s.kln with chunkIn := none } } : State).spdmRespond m sid (spdmError 0x01 0)
  | some l =>
    if last then
      { s with kln := { s.kln with
          chunkIn := none
          spdm := s.kln.spdm.map (fun x => if x.ticket = m.ticket then { x with data := l ++ data, whole := some sid, pre := ack } else x) } }
    else
      ({ s with kln := { s.kln with chunkIn := some { sid := sid, handle := handle, seq := seq + 1, data := l ++ data } } } : State).spdmRespond m sid ack

/-- CHUNK_GET: the next chunk of the large response kept for this session. -/
def State.spdmChunkGet (s : State) (sid : Nat) (p : List Byte) : List Byte × State :=
  let seq := ofBytes ((p.drop 4).take 2)
  match s.kln.chunkOut with
  | none => (spdmError 0x04 0, s)
  | some c =>
    if c.sid ≠ sid ∨ (p.getD 3 0).toNat ≠ c.handle ∨ seq ≠ c.seq then (spdmError 0x01 0, s)
    else
      let part := (c.data.drop (chunkBytes * seq)).take chunkBytes
      let last := decide (c.data.length ≤ chunkBytes * (seq + 1))
      ([0x13, 0x06, if last then 1 else 0, p.getD 3 0] ++ toBytes 2 seq ++ toBytes 2 0 ++ toBytes 4 part.length
          ++ (if seq = 0 then toBytes 4 c.data.length else []) ++ part,
        { s with kln := { s.kln with chunkOut := if last then none else some { c with seq := seq + 1 } } })

/-! ### The requests -/

def execGetVersion (sid : Nat) (msg : List Byte) (ok : Bool) (s : State) : Res := .next (s.spdmPlain sid msg ok 0x84 0 0 State.spdmVersion)
def execGetCapabilities (sid : Nat) (msg : List Byte) (ok : Bool) (s : State) : Res := .next (s.spdmPlain sid msg ok 0xE1 1 0 State.spdmCapabilities)
def execNegotiateAlgorithms (sid : Nat) (msg : List Byte) (ok : Bool) (s : State) : Res := .next (s.spdmPlain sid msg ok 0xE3 2 0 State.spdmAlgorithms)
def execGetDigests (sid : Nat) (msg : List Byte) (ok : Bool) (s : State) : Res := .next (s.spdmPlain sid msg ok 0x81 3 2 State.spdmDigests)
def execGetCertificate (sid : Nat) (msg : List Byte) (ok : Bool) (s : State) : Res := .next (s.spdmPlain sid msg ok 0x82 3 2 State.spdmCertificate)
def execChallenge (sid : Nat) (msg : List Byte) (ok : Bool) (s : State) : Res := .next (s.spdmPlain sid msg ok 0x83 3 0 State.spdmChallenge)
def execGetMeasurements (sid : Nat) (msg : List Byte) (ok : Bool) (s : State) : Res := .next (s.spdmPlain sid msg ok 0xE0 3 2 State.spdmMeasurements)
def execKeyExchange (sid : Nat) (msg : List Byte) (ok : Bool) (s : State) : Res := .next (s.spdmPlain sid msg ok 0xE4 3 0 State.spdmKeyExchange)
def execFinish (sid : Nat) (msg : List Byte) (ok : Bool) (key : Option (List Byte)) (s : State) : Res :=
  .next (s.spdmReq sid msg ok 0xE5 3 3 (fun s => s.spdmFinish key))
def execHeartbeat (sid : Nat) (msg : List Byte) (ok : Bool) (s : State) : Res := .next (s.spdmPlain sid msg ok 0xE8 3 1 (State.spdmEcho 0x68))
def execKeyUpdate (sid : Nat) (msg : List Byte) (ok : Bool) (s : State) : Res := .next (s.spdmPlain sid msg ok 0xE9 3 1 (State.spdmEcho 0x69))
def execEndSession (sid : Nat) (msg : List Byte) (ok : Bool) (s : State) : Res := .next (s.spdmReq sid msg ok 0xEC 3 1 State.spdmEnd)
def execChunkSend (sid : Nat) (msg : List Byte) (ok : Bool) (s : State) : Res := .next (s.spdmReq sid msg ok 0x85 3 2 State.spdmChunkSend)
def execChunkGet (sid : Nat) (msg : List Byte) (ok : Bool) (s : State) : Res :=
  .next (s.spdmReq sid msg ok 0x86 3 2 (fun s m sid p => (s.spdmChunkGet sid p).2.spdmRespond m sid (s.spdmChunkGet sid p).1))

end Sys2Proof.Machine
end

