-- ==== Sys2Proof/Machine/Kiln.lean ====
section
/-! DEFINITION. Kiln (17): binding and its resets, keys, the attestation report, Kiln messages, KLN_UNBIND and KLN_DEBUG. -/

namespace Sys2Proof.Machine
open Sys2Proof

/-! ### Binding (R381, R382) -/

/-- Binding states. -/
def Bind.unbound : Nat := 0
def Bind.binding : Nat := 1
def Bind.bound : Nat := 2
def Bind.unbinding : Nat := 3

def State.bstate (s : State) : Nat := s.fget Fld.klnState_BSTATE
def State.bstateSet (s : State) (b : Nat) : State := s.fset Fld.klnState_BSTATE 0 0 b

/-- KLN_TENANT holds a hash. -/
def State.tenantSet (s : State) (h : List Byte) : State := State.each (List.range 6) (fun s j => s.wr .klnTenant j 0 (wordAt (wordsOf 6 h) j)) s

/-- TENANT_ID as bytes. -/
def State.tenantId (s : State) : List Byte := (List.range 6).flatMap (fun j => wordBytes (s.rd .klnTenant j))

/-- Stacks whose training did not fail. -/
def State.trained (s : State) : List Nat := (List.range 8).filter (fun k => !s.boot.untrained.contains k)

/-- Steps 1 to 4 of a bind or unbind reset (R382), with the HBM key that it installs: EPBs, clusters, cores with every optical link, the reservoir
engine and Coppice are reset, Rick commands end, and the stacks are zero-filled. -/
def State.bindReset (s : State) (memKey : List Byte) : State :=
  let s1 := State.each (List.range 16) State.clusterReset (State.each (List.range 64) State.epbReset s)
  let s2 := ((s1.coreReset 0).coreReset 1).copClear
  let s3 := s2.rsvReset.rickFlushAll
  { s3 with mem := [], lines := [], kln := { s3.kln with memKey := some memKey, clearAt := s.now }, hbm := { s3.hbm with filling := s3.trained } }

/-- CORE cycles of the zero-fill of a stack at 614.4 GB/s, 83.9 ms (R382). -/
def zeroFillCycles : Nat := 2 ^ 27

/-- The zero-fill of a bind or unbind reset has had its time. -/
def State.cleared (s : State) : Bool := decide (s.kln.clearAt + zeroFillCycles ≤ s.now)

/-- Steps 4 and 5 end: every memory reads zero, and retry buffers and caches are empty. -/
def State.bindCleared (s : State) : State :=
  let clear := fun (n : Nat) (l : Lnk) => if n < 64 then { l with retry := [] } else l
  { s with mem := [], lines := [], hbm := { s.hbm with filling := [] }, lnk := { s.lnk with links := s.lnk.links.map (fun e => (e.1, clear e.1 e.2)) } }

/-- Every tenant key is destroyed, and the unbind reset begins, with a fresh HBM key. -/
def State.unbindBegin (s : State) : State :=
  let (k, s1) := s.drawBytes 64
  let s2 : State := { s1 with kln := { s1.kln with rickKey := none, weightKey := none, linkKeys := [] } }
  (s2.bindReset k).bstateSet Bind.unbinding


/-- The bind reset ends (R381, R389). -/
def State.bindDone (s : State) : State :=
  if s.bstate ≠ Bind.binding ∨ s.cleared = false then s
  else
    let s1 := (s.bindCleared.fsat Fld.klnErases_ERASES 0 0 1).bstateSet Bind.bound
    s1.relogAll

def execBindResetComplete (s : State) : Res := .next s.bindDone

/-- What follows the unbind reset of a boot (R469): phase UNITS, with Rick recovery, ring searches and attach training. -/
def State.bootUnits (s : State) : State :=
  let s1 := (s.fset Fld.cmdBootW0_PHASE 0 0 2).fset Fld.rickStat_STATE 0 0 Rick.recovering
  let s2 := State.each (List.range 8) State.autoSearch s1
  State.each (List.range 64) State.lkRelease s2

/-- The unbind reset ends. -/
def State.unbindDone (s : State) : State :=
  if s.bstate ≠ Bind.unbinding ∨ s.cleared = false then s
  else
    let s1 := ((s.bindCleared.fsat Fld.klnErases_ERASES 0 0 1).bstateSet Bind.unbound).tenantSet []
    let s2 := State.each s1.kln.unbinds (fun s t => s.completeTicket t Status.ok []) { s1 with kln := { s1.kln with refusals := [], unbinds := [] } }
    if s2.fget Fld.cmdBootW0_PHASE = 1 then s2.bootUnits else s2

def execUnbindResetComplete (s : State) : Res := .next s.unbindDone

def State.cmdKlnUnbind (s : State) (c : Cmd) : Ans :=
  s.defer c (fun t s =>
    let s1 : State := { s with kln := { s.kln with unbinds := s.kln.unbinds ++ [t] } }
    if s.bstate = Bind.unbinding then s1 else s1.unbindBegin.settleErr)

def State.cmdKlnDebug (s : State) (_c : Cmd) : Ans := (s.fset Fld.klnState_DEBUG_OPEN 0 0 1).okAns []

/-! ### The attestation report (R390, R391) -/

/-- A register with its fields that are not RWL set to zero. -/
def rwlOnly (r : RegName) (w : Word) : Word :=
  (regDef r).fields.foldl (fun a f => if f.acc = .rwl then setBits a f.hi f.lo (bits w f.hi f.lo) else a) 0

/-- The registers that hold an RWL field, in ascending block base and offset. -/
def rwlRegs : List (RegName × Nat × Nat) :=
  (List.range 16).flatMap (fun c => [(.crcPoly, c, 0), (.crcInit, c, 0), (.crcCfg, c, 0)])
    ++ [(.hubCoord, 0, 0), (.hubMirringBase, 0, 0), (.hubMirringCtrl, 0, 0)]
    ++ (List.range 123).map (fun p => (.hubMirsamp, p, 0))
    ++ (List.range 256).map (fun d => (.hubRtW0, d, 0))
    ++ (List.range 64).flatMap (fun n => (List.range 64).map (fun r => (.epbRingCfg, n, r)) ++ (List.range 256).map (fun w => (.epbTwtW2, n, w)))

/-- CONFIG. -/
def State.configDigest (s : State) : List Byte := sha384 (rwlRegs.flatMap (fun x => wordBytes (rwlOnly x.1 (s.rd x.1 x.2.1 x.2.2))))

/-- Bytes 0 to 127 of the report. -/
def State.reportHeader (s : State) (nonce : List Byte) : List Byte :=
  let n := s.kln.log.length
  bytesOfWords [BitVec.ofNat 64 (0x0100 * 2 ^ 48 + s.bstate * 2 ^ 45 + s.fget Fld.klnState_DEBUG_OPEN * 2 ^ 44 + s.fget Fld.cmdIdent_STEPPING * 2 ^ 32
      + (128 + 64 * n + 96)),
    BitVec.ofNat 64 (s.fget Fld.klnBoot_BOOTCNT * 2 ^ 32 + n * 2 ^ 16), BitVec.ofNat 64 (s.xyp * 2 ^ 52), s.rd .telTime,
    s.rd .klnDevid 0, s.rd .klnDevid 1] ++ nonce ++ s.configDigest

/-- The report; its signature, by the device attestation key, is a free value. -/
def State.attest (s : State) (nonce : List Byte) : List Byte × State :=
  let (sig, s1) := s.drawBytes 96
  (s.reportHeader nonce ++ s.kln.log.flatMap bytesOfWords ++ sig, s1)

/-! ### Kiln messages (R379, R380, R383, R394) -/

/-- What a Kiln message answers: KSTATUS, the response body, the state. -/
structure KAns where
  st : State
  kstatus : Nat := 0
  body : List Byte := []

/-- A refusal of a Kiln message: nothing changes. -/
def State.kno (s : State) (k : Nat) : KAns := { st := s, kstatus := k }

/-- The two halves of an AES-256-XTS key are equal. -/
def weakKey (k : List Byte) : Bool := k.take 32 == (k.drop 32).take 32

/-- The session's requester is the tenant (R379). -/
def State.tenantOf (s : State) (x : Session) : Bool := x.authed && x.keyHash == s.tenantId

/-- KLN_UNBIND's row. -/
def isUnbind : Instr → Bool
  | .klnUnbind _ => true
  | _ => false

/-- BIND: MEM key, RICK key, and LINK slot 0's key; a KLN_UNBIND of the same cycle comes first (R395). -/
def State.klnBind (s : State) (x : Session) (b : List Byte) : KAns :=
  let mem := b.take 64
  let rick := (b.drop 64).take 64
  let link := (b.drop 128).take 32
  if b.length ≠ 192 ∨ allZero (b.drop 160) = false then s.kno 1
  else if s.bstate ≠ Bind.unbound ∨ s.fget Fld.klnState_DEBUG_OPEN = 1 ∨ s.soon isUnbind = true then s.kno 2
  else if x.authed = false then s.kno 3
  else if weakKey mem || weakKey rick then s.kno 4
  else
    let fw := s.kln.log.filter (fun e => decide (logKind e ≤ 2))
    let s1 : State := { s with kln := { s.kln with rickKey := some rick, weightKey := none, linkKeys := [(0, link)], log := fw } }
    { st := ((s1.tenantSet x.keyHash).bindReset mem).bstateSet Bind.binding, body := keyId mem ++ keyId rick ++ keyId link }

/-- KEY_SET: the weight key, or a link key of slots 1 to 63. -/
def State.klnKeySet (s : State) (x : Session) (b : List Byte) : KAns :=
  let w := wordAt (wordsOf 1 b) 0
  let cls := bits w 63 56
  let slot := bits w 55 48
  let key := b.drop 8
  let bad := decide (b.length ≠ 72) || decide (bits w 47 0 ≠ 0) || decide (3 < cls) || (cls == 2 && slot != 0)
    || (cls == 3 && (slot == 0 || decide (63 < slot) || !allZero (key.drop 32)))
  if bad then s.kno 1
  else if s.bstate ≠ Bind.bound ∨ cls < 2 then s.kno 2
  else if !s.tenantOf x then s.kno 3
  else if cls = 2 then
    (if weakKey key then s.kno 4 else { st := { s with kln := { s.kln with weightKey := some key } }, body := keyId key })
  else { st := { s with kln := { s.kln with linkKeys := tblPut s.kln.linkKeys slot (key.take 32) } }, body := keyId (key.take 32) }

/-- The weight key is destroyed: streams enter STOPPING, and fills in flight are abandoned with their slots freed. -/
def State.weightDestroy (s : State) : State := ({ s with kln := { s.kln with weightKey := none } } : State).streamsStop.fillsAbandon

/-- KEY_DESTROY. -/
def State.klnKeyDestroy (s : State) (x : Session) (b : List Byte) : KAns :=
  let w := wordAt (wordsOf 1 b) 0
  let cls := bits w 63 56
  let slot := bits w 55 48
  if b.length ≠ 8 ∨ bits w 47 0 ≠ 0 ∨ 3 < cls ∨ (cls ≠ 3 ∧ slot ≠ 0) ∨ 63 < slot then s.kno 1
  else if s.bstate ≠ Bind.bound ∨ cls = 0 then s.kno 2
  else if !s.tenantOf x then s.kno 3
  else if cls = 1 then { st := { s with kln := { s.kln with rickKey := none } } }
  else if cls = 2 then { st := s.weightDestroy }
  else { st := { s with kln := { s.kln with linkKeys := tblDel s.kln.linkKeys slot } } }

/-- REPORT. -/
def State.klnReport (s : State) (_x : Session) (b : List Byte) : KAns :=
  if b.length ≠ 32 then s.kno 1 else { st := (s.attest b).2, body := (s.attest b).1 }

/-- STATUS. -/
def State.klnStatus (s : State) (_x : Session) (b : List Byte) : KAns :=
  if b.length ≠ 0 then s.kno 1
  else { st := s, body := bytesOfWords [BitVec.ofNat 64 (s.bstate * 2 ^ 61 + s.fget Fld.klnState_DEBUG_OPEN * 2 ^ 60)] }

/-- UNBIND; while UNBINDING it changes nothing (R381). -/
def State.klnUnbind (s : State) (x : Session) (b : List Byte) : KAns :=
  if b.length ≠ 0 then s.kno 1
  else if !s.bound then s.kno 2
  else if !s.tenantOf x then s.kno 3
  else if s.bstate = Bind.unbinding then { st := s }
  else { st := s.unbindBegin }

/-- LOG_READ: up to 64 entries of the refusal log, from a place in it, oldest first. -/
def State.klnLogRead (s : State) (x : Session) (b : List Byte) : KAns :=
  let w := wordAt (wordsOf 1 b) 0
  if b.length ≠ 8 ∨ bits w 63 32 ≠ 0 then s.kno 1
  else if !s.bound then s.kno 2
  else if !s.tenantOf x then s.kno 3
  else { st := s, body := ((s.kln.refusals.drop (bits w 31 0)).take 64).flatMap bytesOfWords }

/-- The first bytes of a VENDOR_DEFINED message of Pahorn Microsystems, and its payload's length (R380). -/
def vendorHeader (code n : Nat) : List Byte :=
  [0x13, BitVec.ofNat 8 code, 0, 0] ++ toBytes 2 3 ++ [2] ++ toBytes 2 Config.fusedPciVid ++ toBytes 2 n

/-- Answer a Kiln message of `kop` in a session: its header is checked here, its body by `f`. -/
def State.kilnMsg (s : State) (kop : Nat) (f : State → Session → List Byte → KAns) (m : SpdmMsg) (sid : Nat) (p : List Byte) : State :=
  let k := p.drop 11
  let w := wordAt (wordsOf 1 k) 0
  match s.session sid with
  | none => s
  | some x =>
    if bits w 63 56 ≠ kop then s
    else if p.take 9 ≠ (vendorHeader 0xFE 0).take 9 then s.spdmRespond m sid (spdmError 0x07 0xFE)
    else
      let formOk := decide (bits w 55 32 = 0) && wordAt (wordsOf 2 k) 1 == 0 && decide (k.length = 16 + bits w 31 0)
      let a := if formOk then f s x (k.drop 16) else s.kno 1
      let r := bytesOfWords [BitVec.ofNat 64 (kop * 2 ^ 56 + a.kstatus * 2 ^ 48 + a.body.length), 0] ++ a.body
      a.st.spdmRespond m sid (vendorHeader 0x7E r.length ++ r)

/-- A row of a Kiln message; its records of armable codes are written with it. -/
def State.kilnRow (s : State) (sid : Nat) (msg : List Byte) (ok : Bool) (kop : Nat) (f : State → Session → List Byte → KAns) : Res :=
  (s.spdmReq sid msg ok 0xFE 3 1 (fun s => s.kilnMsg kop f)).settled

def execBind (sid : Nat) (msg : List Byte) (ok : Bool) (s : State) : Res := s.kilnRow sid msg ok 0x01 State.klnBind
def execKeySet (sid : Nat) (msg : List Byte) (ok : Bool) (s : State) : Res := s.kilnRow sid msg ok 0x02 State.klnKeySet
def execKeyDestroy (sid : Nat) (msg : List Byte) (ok : Bool) (s : State) : Res := s.kilnRow sid msg ok 0x03 State.klnKeyDestroy
def execReport (sid : Nat) (msg : List Byte) (ok : Bool) (s : State) : Res := s.kilnRow sid msg ok 0x04 State.klnReport
def execStatus (sid : Nat) (msg : List Byte) (ok : Bool) (s : State) : Res := s.kilnRow sid msg ok 0x05 State.klnStatus
def execUnbind (sid : Nat) (msg : List Byte) (ok : Bool) (s : State) : Res := s.kilnRow sid msg ok 0x06 State.klnUnbind
def execLogRead (sid : Nat) (msg : List Byte) (ok : Bool) (s : State) : Res := s.kilnRow sid msg ok 0x07 State.klnLogRead

end Sys2Proof.Machine
end

