-- ==== Sys2Proof/Machine/Power.lean ====
section
/-! DEFINITION. Power domains, the Damper, Smoulder, the load cap and thermal control (R441 to R464). -/

namespace Sys2Proof.Machine
open Sys2Proof

/-! ### Domains and functions (R443, R444) -/

/-- The function of a domain; none for PD42, PD43 and PD48. -/
def domFunc (d : Nat) : Option Nat :=
  if d < 8 then some 0 else if d < 10 then some 1 else if d < 26 then some 2 else if d < 34 then some 3 else if d < 42 then some 4
  else if d = 44 then some 5 else if d = 45 then some 6 else if d = 46 then some 7 else if d = 47 then some 8 else if d = 49 then some 9 else none

/-- The domains of a function. -/
def funcDoms (f : Nat) : List Nat := (List.range 50).filter (fun d => domFunc d == some f)

/-- Deepest permitted state of a domain's function (R444). -/
def domLimit (d : Nat) : Nat := maxdeepReset d

/-- Die identifier of a domain (R10, R11). -/
def domDie (d : Nat) : Nat :=
  if d < 8 then d / 4 else if d < 10 then d - 8 else if d < 26 then 2 + (d - 10) / 4 else if d < 34 then 2 + (d - 26) / 2
  else if d < 42 then 6 + (d - 34) else 14

/-- State codes (Table — power states). -/
def Pwr.active : Nat := 0
def Pwr.idle : Nat := 1
def Pwr.drowse : Nat := 2
def Pwr.banked : Nat := 3

def State.domState (s : State) (d : Nat) : Nat := s.fget Fld.pwrDomW0_STATE d
def State.quenched (s : State) : Bool := s.fget Fld.pwrTherm_QSTATE != 0
/-- TOL of a function, in cycles. -/
def State.tol (s : State) (f : Nat) : Nat := s.fget Fld.pwrFunc_LAT f * 160

/-- Restart after Banked, in µs (Table — domain functions). -/
def restartUs (f : Nat) : Nat :=
  if f = 3 then 83900 else if f = 4 then 135200 else if f = 0 ∨ f = 2 ∨ f = 6 then Config.restartTime f else 0

/-- Wake latency of a state of function `f`, in cycles, Banked with its restart (R445). -/
def wakeLatency (f st : Nat) : Nat := if st = 0 then 0 else if st = 1 then 160 else if st = 2 then us 5 else us (200 + restartUs f)

/-- Dwell of a state, in cycles. -/
def State.dwell (s : State) (st : Nat) : Nat :=
  if st = 1 then s.fget Fld.pwrDwell_DW_IDLE * 160 else if st = 2 then us (s.fget Fld.pwrDwell_DW_DROWSE) else us (1000 * s.fget Fld.pwrDwell_DW_BANK)

/-- A domain has been quiet for the dwell of a state. -/
def State.domQuiet (s : State) (d st : Nat) : Bool := decide (tblGet 0 s.pwr.cause d + s.dwell st ≤ s.now)

/-- Both directions of a link sleep, or it is in RESET. -/
def State.linkAsleep (s : State) (n : Nat) : Bool := s.lkState n == LnkS.reset || ((s.lk n).tx == 1 && (s.lk n).rx == 1)

/-- The further condition for Drowse (Table — domain functions). -/
def State.drowseOk (s : State) (d f : Nat) : Bool :=
  if f = 0 then (List.range 8).all (fun i => s.linkAsleep (8 * d + i))
  else if f = 2 then (clusterThreads (d - 10)).all (fun q => s.thrState q != ThrSt.ready && s.thrState q != ThrSt.wait)
  else if f = 3 then !s.delivered.any (fun x => x.1 == 112 + (d - 26))
  else if f = 4 then (List.range 16).all (fun i => s.linkAsleep (64 + 16 * (d - 34) + i) || s.fget Fld.hubLink_STATE (16 * (d - 34) + i) == Hub.down)
  else if f = 5 then s.boot.d3hot.contains 0 && s.boot.d3hot.contains 1
  else if f = 6 then s.rick.cmds.isEmpty && s.fills == 0
  else if f = 7 then (List.range 16).all (fun c => s.crcFree c) && s.fget Fld.hubMirringCtrl_EN == 0
  else if f = 9 then (List.range 8).all (fun i => s.strmState i == 0) && s.fills == 0
  else true

/-! ### Entering and leaving a state (R443, R446) -/

/-- The links of a domain. -/
def domLinks (d : Nat) : List Nat :=
  if d < 8 then (List.range 8).map (8 * d + ·) else if 34 ≤ d ∧ d < 42 then (List.range 16).map (64 + 16 * (d - 34) + ·) else []

/-- What a domain's units lose in Banked: each acts as under its reset rule (R445). -/
def State.bank (s : State) (d : Nat) : State :=
  if d < 8 then State.each ((List.range 8).map (8 * d + ·)) State.epbReset (State.each (domLinks d) State.linkReset s)
  else if d < 10 then s.coreReset (d - 8)
  else if d < 26 then s.clusterReset (d - 10)
  else if d < 34 then s.hbmReset (d - 26)
  else if d < 42 then s.chipletReset (d - 34)
  else if d = 44 then (s.hostReset 0).hostReset 1
  else if d = 45 then s.rickDown Rick.off
  else if d = 46 then s.crcTelReset
  else if d = 49 then s.rsvReset
  else s

/-- A domain enters a deeper state: leaving Active takes its links to RESET (R344, R350). -/
def State.deepen (s : State) (d st : Nat) : State :=
  let s1 := s.fset Fld.pwrDomW0_STATE d 0 st
  let s2 := if s.domState d = Pwr.active then State.each (domLinks d) State.linkOff s1 else s1
  if st = Pwr.banked then s2.bank d else s2

/-- A domain reaches Active from state `st`: its units restart (Table — domain functions), and the check-value channels take up the copies of their
configuration (R419). -/
def State.domUp (s : State) (d st : Nat) : State :=
  let s1 := s.fset Fld.pwrDomW0_STATE d 0 Pwr.active
  if st = Pwr.banked ∧ d = 45 then s1.fset Fld.rickStat_STATE 0 0 Rick.recovering
  else if st = Pwr.banked ∧ 34 ≤ d ∧ d < 42 then s1.autoSearch (d - 34)
  else if st = Pwr.banked ∧ d = 46 then State.each (List.range 16) State.crcRestart s1
  else State.each (domLinks d) State.lkRelease s1

/-- PWR_DAMPSTAT shows the pending requests. -/
def State.damperShow (s : State) : State := s.fset Fld.pwrDampstat_QUEUED 0 0 s.pwr.reqs.length

/-- Amperes of a wake (R450). -/
def State.wakeStep (s : State) (d st : Nat) : Nat :=
  if st = Pwr.drowse then s.fget Fld.pwrDomW0_STEP_DROWSE d else s.fget Fld.pwrDomW0_STEP_BANKED d

/-- A wake cause of domain `d` (R446): an Idle domain wakes at once, a deeper one queues for the Damper; quench discards it (R461). -/
def State.wake (s : State) (d : Nat) : State :=
  let s1 : State := { s with pwr := { s.pwr with cause := tblPut s.pwr.cause d s.now } }
  let st := s.domState d
  if s.quenched || st == Pwr.active then s1
  else if st = Pwr.idle then s1.domUp d st
  else if s.pwr.reqs.any (fun r => r.dom == d) || (tblFind s.pwr.waking d).isSome then s1
  else
    let r : WakeReq := { dom := d, deep := st, at_ := s.now, rem := s.wakeStep d st }
    ({ s1 with pwr := { s1.pwr with reqs := s1.pwr.reqs ++ [r] } } : State).damperShow

/-- Commands whose domains are all at or above their MAXDEEP complete (R448). -/
def State.pwrSettle (s : State) : State :=
  let ok := fun (c : PwrCmd) => (setBitsOf (BitVec.ofNat 64 c.domains) 50).all (fun d => decide (s.domState d ≤ c.deep))
  let s1 : State := { s with pwr := { s.pwr with cmds := s.pwr.cmds.filter (fun c => !ok c) } }
  State.each (s.pwr.cmds.filter ok) (fun s c => s.completeTicket c.ticket Status.ok []) s1

/-! ### The choice of states (R445) -/

/-- Smoulder runs filler work in the clusters that are Active or Idle (R452). -/
def State.fillerOn (s : State) : Bool := s.fget Fld.pwrSmoulder_EN == 1 && s.fget Fld.pwrEst_FILLER != 0

/-- State `st` is permitted to domain `d` of function `f`. -/
def State.permits (s : State) (d f st : Nat) : Bool :=
  decide (st ≤ domLimit d) && decide (st ≤ s.fget Fld.pwrDomW0_MAXDEEP d) && decide (wakeLatency f st ≤ s.tol f) && s.domQuiet d st
    && (decide (st < 2) || s.drowseOk d f) && !(f == 2 && s.fillerOn && decide (s.domState d ≤ Pwr.idle))

/-- The choice for one domain. -/
def State.choose (s : State) (d : Nat) : State :=
  match domFunc d with
  | none => s
  | some f =>
    match [3, 2, 1].find? (fun st => s.permits d f st) with
    | some st =>
      if s.domState d < st ∧ (s.pwr.reqs.any (fun r => r.dom == d) || (tblFind s.pwr.waking d).isSome) = false then s.deepen d st else s
    | none => s

/-- The row of a wake cause of domain `d`. -/
def wakesDomain (d : Nat) : Instr → Bool
  | .domainWake k => k == d
  | _ => false

/-- A domain that FORCE names enters MAXDEEP once it is quiet (R448); a wake cause of the same cycle comes first (R461). -/
def State.forceOne (s : State) (d : Nat) : State :=
  let st := s.fget Fld.pwrDomW0_MAXDEEP d
  if s.domQuiet d st && !s.soon (wakesDomain d) then
    let s1 : State := { s with pwr := { s.pwr with forced := s.pwr.forced.filter (· != d) } }
    if s.domState d < st then s1.deepen d st else s1
  else s

/-- The choice of each microsecond, from the start of normal service on (R471). -/
def State.powerChoice (s : State) : State :=
  if s.quenched || decide (s.now < s.pwr.choiceAt + us 1) then s
  else
    let s0 : State := { s with pwr := { s.pwr with choiceAt := s.now } }
    let s1 := State.each s0.pwr.forced State.forceOne s0
    if s.fget Fld.cmdBootW0_PHASE = 4 then (State.each (List.range 50) State.choose s1).pwrSettle else s1.pwrSettle

def execPowerChoice (s : State) : Res := s.powerChoice.settled
def execDomainWake (d : Nat) (s : State) : Res := if d < 50 then (s.wake d).pwrSettle.settled else .next s

/-! ### Records and events (R459, R460) -/

/-- PWR_NOTIFY: the code, the die, the domain (63: none) and D1. -/
def State.powerNotify (s : State) (code die dom d1 : Nat) : State :=
  s.event 0x0F20 (bytesOfWords [BitVec.ofNat 64 (dom * 2 ^ 12 + die * 2 ^ 8 + code), BitVec.ofNat 64 d1, BitVec.ofNat 64 s.time])

/-! ### The Damper (R450, R451) -/

/-- Deadline of a request, under the tolerance of now (R461). -/
def State.wakeDeadline (s : State) (r : WakeReq) : Nat := r.at_ + s.tol ((domFunc r.dom).getD 0)

/-- Order of grants: deadline, arrival, domain. -/
def State.wakeBefore (s : State) (a b : WakeReq) : Bool :=
  let x := s.wakeDeadline a
  let y := s.wakeDeadline b
  decide (x < y) || (x == y && (decide (a.at_ < b.at_) || (a.at_ == b.at_ && decide (a.dom < b.dom))))

def State.wakeInsert (s : State) (r : WakeReq) : List WakeReq → List WakeReq
  | [] => [r]
  | x :: t => if s.wakeBefore r x then r :: x :: t else x :: s.wakeInsert r t

/-- The last part of a request is granted: its wake completes after its latency. -/
def State.grantWake (s : State) (r : WakeReq) : State :=
  let done := s.now + (if r.deep = Pwr.drowse then us 5 else us 200)
  let wait := s.now - r.at_
  let s1 : State := { s with pwr := { s.pwr with reqs := s.pwr.reqs.filter (fun x => x.dom != r.dom), waking := tblPut s.pwr.waking r.dom done } }
  let s2 := ((s1.fsat Fld.pwrDomW1_WAKES r.dom 0 1).fset Fld.pwrDomW1_LASTWAIT r.dom 0 (wait * 5 / 8)).fset Fld.pwrDampstat_MAXWAIT 0 0
    (max (s.fget Fld.pwrDampstat_MAXWAIT) (min 65535 (wait / Config.cyclesPerUs)))
  if s.wakeDeadline r < done then
    let late := (done - s.wakeDeadline r) * 5 / 8
    ((s2.fsat Fld.pwrDampstat_MISSES 0 0 1).errRec 0 0x54 0 (domDie r.dom) [r.dom, late, r.deep]).powerNotify 0x54 (domDie r.dom) r.dom late
  else s2

/-- The loop of a slot: the requests in order, and the amperes used. -/
def State.damperLoop (s : State) (budget : Nat) : List WakeReq → Nat → State
  | [], _ => s
  | r :: t, used =>
    if r.rem ≤ budget - used then (s.grantWake r).damperLoop budget t (used + r.rem)
    else if used = 0 then
      { s with pwr := { s.pwr with reqs := s.pwr.reqs.map (fun x => if x.dom = r.dom then { x with rem := x.rem - budget } else x) } }
    else s

/-- Budget of a slot, in amperes. -/
def State.damperBudget (s : State) : Nat :=
  let imeas := if s.fget Fld.pwrEst_TRUSTED = 1 then s.fget Fld.pwrEst_I_TEL else s.fget Fld.pwrEst_I_EST
  min (s.fget Fld.pwrDamp_STEP_MAX) (min (s.fget Fld.pwrDamp_SLEW * s.fget Fld.pwrDamp_SLOT) (s.fget Fld.pwrDamp_I_MAX - imeas))

/-- A slot, SLOT microseconds after the last one. -/
def State.damperSlot (s : State) : State :=
  if s.quenched || decide (s.now < s.pwr.slotAt + us (s.fget Fld.pwrDamp_SLOT)) then s
  else
    let s1 : State := { s with pwr := { s.pwr with slotAt := s.now } }
    (s1.damperLoop s.damperBudget (s.pwr.reqs.foldl (fun l r => s.wakeInsert r l) []) 0).damperShow

def execDamperSlot (s : State) : Res := s.damperSlot.settled

/-- A granted wake reaches Active. -/
def State.wakeDone (s : State) (d : Nat) : State :=
  match tblFind s.pwr.waking d with
  | none => s
  | some t =>
    if s.now < t then s
    else (({ s with pwr := { s.pwr with waking := tblDel s.pwr.waking d } }).domUp d (s.domState d)).pwrSettle

def execDomainWakeComplete (d : Nat) (s : State) : Res := (s.wakeDone d).settled

/-! ### Tolerance and ceilings (R447, R448) -/

def State.cmdPwrTolerance (s : State) (c : Cmd) : Ans :=
  let w := c.word 0
  let f := bits w 3 0
  if !zeroOutside w [(31, 16), (3, 0)] || decide (9 < f) then s.noAns Status.badParam
  else
    let s1 := s.fset Fld.pwrFunc_LAT f 0 (bits w 31 16)
    (State.each ((funcDoms f).filter (fun d => decide (s1.tol f < wakeLatency f (s1.domState d)))) State.wake s1).okAns []

def State.cmdPwrSet (s : State) (c : Cmd) : Ans :=
  let w := c.word 0
  let v := c.word 1
  let doms := setBitsOf w 50
  let deep := bits v 1 0
  if !zeroOutside w [(49, 0)] || !zeroOutside v [(2, 0)] || doms.isEmpty || doms.any (fun d => decide (domLimit d < deep)) then s.noAns Status.badParam
  else
    let a := s.defer c (fun t s =>
      let s1 := State.each doms (fun s d => s.fset Fld.pwrDomW0_MAXDEEP d 0 deep) s
      let s2 : State := { s1 with pwr := { s1.pwr with
        cmds := s1.pwr.cmds ++ [{ ticket := t, domains := bits w 49 0, deep := deep, at_ := s1.now }]
        forced := s1.pwr.forced.filter (fun d => !doms.contains d) ++ (if bit v 2 then doms else []) } }
      let s3 := State.each (doms.filter (fun d => decide (deep < s2.domState d))) State.wake s2
      if bit v 2 then State.each doms State.forceOne s3 else s3)
    { a with after := State.pwrSettle }

/-- 200 ms after acceptance. -/
def State.pwrSetTimeout (s : State) (ticket : Nat) : State :=
  match s.pwr.cmds.find? (fun c => c.ticket == ticket) with
  | none => s
  | some c =>
    if s.now < c.at_ + us 200000 then s
    else ({ s with pwr := { s.pwr with cmds := s.pwr.cmds.filter (fun x => x.ticket != ticket) } }).completeTicket ticket Status.timeout []

def execPwrSetTimeout (ticket : Nat) (s : State) : Res := (s.pwrSetTimeout ticket).settled

/-! ### D3hot (R449) -/

def execHostD3hot (h : Nat) (s : State) : Res :=
  .next (if h < 2 ∧ s.boot.d3hot.contains h = false then { s with boot := { s.boot with d3hot := s.boot.d3hot ++ [h] } } else s)

/-- A return to D0 wakes PD44, and the mailbox's held packets go on. -/
def execHostD0 (h : Nat) (s : State) : Res :=
  if s.boot.d3hot.contains h then ((({ s with boot := { s.boot with d3hot := s.boot.d3hot.filter (· != h) } } : State).mboxDrain 64).wake 44).pwrSettle.settled else .next s

/-! ### The load cap (R454) -/

/-- An armed trigger event applies the cap: 0 phase fault, 1 disagreement, 2 thermal warning. -/
def State.capTrigger (s : State) (b : Nat) : State :=
  if s.fget Fld.pwrCap_ARMED = 1 ∧ s.fget Fld.pwrCap_APPLIED = 0 ∧ (s.fget Fld.pwrCap_TRIG).testBit b = true then
    (s.fset Fld.pwrCap_APPLIED 0 0 1).errRec 0 0x58 0 14 [b, s.fget Fld.pwrCap_CAP]
  else s

def State.cmdPwrCapArm (s : State) (c : Cmd) : Ans :=
  let w := c.word 0
  let cap := bits w 31 16
  if !zeroOutside w [(31, 16), (8, 8), (3, 0)] then s.noAns Status.badParam
  else if bit w 8 then (s.wr .pwrCap 0 0 0).okAns []
  else if bit w 3 || decide (cap < 300) || decide (1900 < cap) then s.noAns Status.badParam
  else (((s.fset Fld.pwrCap_CAP 0 0 cap).fset Fld.pwrCap_ARMED 0 0 1).fset Fld.pwrCap_TRIG 0 0 (bits w 3 0)).okAns []

/-! ### Estimate and Smoulder (R452, R453) -/

/-- The estimator's power in W, every microsecond, from its activity counters and fused coefficients; VDD_CORE is 0.75 V. -/
def State.estimate (s : State) (p : Nat) : State :=
  if s.boot.inReset || decide (s.now < s.pwr.estAt + us 1) then s
  else (({ s with pwr := { s.pwr with estAt := s.now } } : State).fset Fld.pwrEst_P 0 0 p).fset Fld.pwrEst_I_EST 0 0 (p * 4 / 3)

def execPowerEstimate (p : Nat) (s : State) : Res := .next (s.estimate p)

/-- RETRUST is written with 1: the next poll may restore trust, and the count of disagreeing polls starts again (R453, R461). -/
def State.retrustWrite (s : State) : State := { s with pwr := { s.pwr with retrust := true, disagree := 0 } }

def execRetrust (s : State) : Res := .next s.retrustWrite

/-- The target T in mW, for an envelope. -/
def State.smoulderTarget (s : State) (env : Nat) : Nat :=
  let t := max env (1000 * s.fget Fld.pwrSmoulder_FLOOR)
  if s.fget Fld.pwrCap_APPLIED = 1 then min t (1000 * s.fget Fld.pwrCap_CAP) else t

/-- The filler has been short of T by more than 5 % for 100 µs. -/
def State.floorCheck (s : State) (t p filler : Nat) : State :=
  if 100 * 1000 * (p + filler) < 95 * t then
    let since := s.pwr.short.getD s.now
    let s1 : State := { s with pwr := { s.pwr with short := some since } }
    let free := match s.pwr.missAt with
      | some x => decide (x + us 1000 ≤ s.now)
      | none => true
    if since + us 100 ≤ s.now ∧ free = true then
      ({ s1 with pwr := { s1.pwr with missAt := some s.now } }).errRec 0 0x55 0 14 [t / 1000, p]
    else s1
  else { s with pwr := { s.pwr with short := none } }

/-- A microsecond of Smoulder; `work` is the power that the filler work of the clusters draws where it runs: while T exceeds P, at throttle level 0.
When EN rises the envelope starts from P (log entry 68). -/
def State.smoulder (s : State) (work : Nat) : State :=
  if s.now < s.pwr.smAt + us 1 then s
  else if s.quenched || s.fget Fld.pwrSmoulder_EN == 0 then
    ({ s with pwr := { s.pwr with smAt := s.now, env := 0, short := none } } : State).fset Fld.pwrEst_FILLER 0 0 0
  else
    let p := s.fget Fld.pwrEst_P
    let env := max (1000 * p) (s.pwr.env - s.fget Fld.pwrSmoulder_FALL)
    let t := s.smoulderTarget env
    let filler := if s.fget Fld.pwrTherm_LEVEL = 0 ∧ 1000 * p < t then work else 0
    let s1 := ({ s with pwr := { s.pwr with smAt := s.now, env := env } } : State).fset Fld.pwrEst_FILLER 0 0 filler
    let s2 := if filler = 0 then s1 else State.each ((funcDoms 2).filter (fun d => s1.domState d == Pwr.idle)) State.wake s1
    s2.floorCheck t p filler

def execSmoulderTick (filler : Nat) (s : State) : Res := (s.smoulder filler).settled

/-! ### Thermal control (R455 to R458) -/

/-- Threshold `i`: warning, throttle, quench. -/
def thermLimit (i : Nat) : Nat := if i = 0 then 95 else if i = 1 then 105 else 115

/-- Place and value of the highest reading, the first of equal ones. -/
def hottest : List Nat → Nat → Nat × Nat → Nat × Nat
  | [], _, b => b
  | t :: r, i, b => hottest r (i + 1) (if b.2 < t then (i, t) else b)

/-- Die that a reading names: a stack's Spindle die (R455). -/
def readingDie (i : Nat) : Nat := if i < 15 then i else 2 + (i - 15) / 2

/-- The readings go to their registers. -/
def State.tempShow (s : State) (temps : List Nat) (i t : Nat) : State :=
  let s1 := State.each (List.range 23) (fun s j =>
    let x := min 255 (temps.getD j 0)
    (s.fset Fld.pwrTemp_TEMP j 0 x).fset Fld.pwrTemp_PEAK j 0 (max x (s.fget Fld.pwrTemp_PEAK j))) s
  (((s1.fset Fld.pwrTherm_HOT 0 0 (min 255 t)).fset Fld.pwrTherm_HOTDIE 0 0 (readingDie i)).fset Fld.pwrTherm_HOTSTK 0 0 (b2n (decide (15 ≤ i)))).fset
    Fld.pwrTherm_STACK 0 0 (if 15 ≤ i then i - 15 else 0)

/-- Quench (R457): every link in RESET, every domain but PD42, PD43, PD45, PD47 and PD48 in Banked. -/
def State.quench (s : State) (die t : Nat) : State :=
  let s1 := (s.errRec 4 0x53 0 die [t, 1]).powerNotify 0x53 die 63 1
  let s2 := State.each (List.range 192) State.linkOff s1
  let s3 := State.each ((List.range 50).filter (fun d => !([42, 43, 45, 47, 48].contains d))) (fun s d => s.deepen d Pwr.banked) s2
  let s4 : State := { s3 with pwr := { s3.pwr with reqs := [], waking := [], forced := [], quenchAt := s3.now } }
  ((s4.fset Fld.pwrTherm_QSTATE 0 0 1).fset Fld.cmdBootW0_PHASE 0 0 6).fset Fld.pwrEst_FILLER 0 0 0 |>.damperShow

/-- What reaching threshold `i` does. -/
def State.thermReach (s : State) (i die t sensor : Nat) : State :=
  if i = 0 then ((s.errRec 0 0x51 0 die [sensor, t, 0]).powerNotify 0x51 die 63 t).capTrigger 2
  else if i = 2 ∧ s.quenched = false then s.quench die t
  else s

/-- What leaving threshold `i` does. -/
def State.thermLeave (s : State) (i die t sensor : Nat) : State := if i = 0 then s.errRec 0 0x51 0 die [sensor, t, 1] else s

/-- One threshold and the hot temperature of a sample: reached by two in a row at or above it, left 3 °C below it. -/
def State.thermStep (s : State) (t die sensor i : Nat) : State :=
  let n := if thermLimit i ≤ t then tblGet 0 s.pwr.hits i + 1 else 0
  let s1 : State := { s with pwr := { s.pwr with hits := tblPut s.pwr.hits i n } }
  let on := s.pwr.reached.contains i
  if 2 ≤ n ∧ on = false then ({ s1 with pwr := { s1.pwr with reached := s1.pwr.reached ++ [i] } }).thermReach i die t sensor
  else if t + 3 ≤ thermLimit i ∧ on = true then ({ s1 with pwr := { s1.pwr with reached := s1.pwr.reached.filter (· != i) } }).thermLeave i die t sensor
  else s1

/-- A sample of every sensor, every 10 µs: the readings of the 15 dies and the 8 stacks, and the sensor of the hottest die. During a cold reset only the
hardware cut acts (R465, R514). -/
def State.thermSample (s : State) (temps : List Nat) (sensor : Nat) : State :=
  if s.pwr.cut || decide (s.now < s.pwr.sampleAt + us 10) then s
  else
    let (i, t) := hottest (temps.take 23) 0 (0, 0)
    let s0 : State := { s with pwr := { s.pwr with sampleAt := s.now } }
    let s1 := if s.boot.inReset then s0 else s0.tempShow temps i t
    if 125 ≤ t then ({ s1 with pwr := { s1.pwr with cut := true } }).emit .thermTrip
    else if s.boot.inReset then s1
    else State.each [0, 1, 2] (fun s k => s.thermStep t (readingDie i) (if i < 15 then sensor else 0x100 + (i - 15)) k) s1

def execThermalSample (temps : List Nat) (sensor : Nat) (s : State) : Res := (s.thermSample temps sensor).settled

/-- The row that releases an applied cap. -/
def releasesCap : Instr → Bool
  | .pwrCapClear _ => true
  | _ => false

/-- Why the throttle level rises: the threshold is reached (0), or an applied cap is exceeded (1), whose release in the same cycle comes first (R461). -/
def State.throttleWhy (s : State) : Option Nat :=
  if s.pwr.reached.contains 1 then some 0
  else if s.fget Fld.pwrCap_APPLIED = 1 ∧ s.fget Fld.pwrCap_CAP < s.fget Fld.pwrEst_P ∧ s.soon releasesCap = false then some 1 else none

/-- The throttle level takes a value. -/
def State.throttleTo (s : State) (l cap : Nat) : State :=
  let die := s.fget Fld.pwrTherm_HOTDIE
  let s1 : State := { s with pwr := { s.pwr with stepAt := s.now, stepCap := cap } }
  ((s1.fset Fld.pwrTherm_LEVEL 0 0 l).errRec 0 0x52 0 die [l, cap]).powerNotify 0x52 die 63 cap

def State.throttle (s : State) : State :=
  let l := s.fget Fld.pwrTherm_LEVEL
  match s.throttleWhy with
  | some why => if l < 7 ∧ s.pwr.stepAt + us 1000 ≤ s.now then s.throttleTo (l + 1) why else s
  | none => if 0 < l ∧ s.pwr.stepAt + us 10000 ≤ s.now then s.throttleTo (l - 1) s.pwr.stepCap else s

def execThrottleStep (s : State) : Res := s.throttle.settled

/-- PD45 enters Banked, and quench is complete. -/
def State.quenchEnd (s : State) : State := (s.deepen 45 Pwr.banked).fset Fld.pwrTherm_QSTATE 0 0 2

def execQuenchRickReady (s : State) : Res :=
  if s.fget Fld.pwrTherm_QSTATE = 1 ∧ s.rickState = Rick.off then s.quenchEnd.settled else .next s

def execQuenchRickTimeout (s : State) : Res :=
  if s.fget Fld.pwrTherm_QSTATE = 1 ∧ s.pwr.quenchAt + us 6000 ≤ s.now then s.quenchEnd.settled else .next s

end Sys2Proof.Machine
end

