-- ==== Sys2Proof/Machine/Sideband.lean ====
section
/-! DEFINITION. The partner queues' entry (R398), and the sideband: regulator bus, tray bus, image loader (R476 to R489). -/

namespace Sys2Proof.Machine
open Sys2Proof

/-! ### Entry to a partner queue (R398) -/

/-- The queue of a partner. -/
def State.queueOf (s : State) (p : Nat) : List Queued := tblGet [] s.cmd.queues p
/-- Depth of a partner's queue. -/
def queueDepth (p : Nat) : Nat := if p = 3 then 4 else 16

/-- The reply to a command (R403): its OPCODE and SEQ, on this partner. -/
def State.replyTo (s : State) (p : Nat) (c : Cmd) (a : Nat × Nat × List Byte) : Reply :=
  { partner := p, opcode := c.opcode, seq := c.seq, status := a.1, cepoch := s.cepoch, ticket := a.2.1, body := a.2.2
    dst := if p < 2 then some c.src else none, tag := if p < 2 then c.tag else none }

/-- Cloentim is not running: phase KINDLING or FAILED (R468, R470). -/
def State.noCloentim (s : State) : Bool := s.fget Fld.cmdBootW0_PHASE == 0 || s.fget Fld.cmdBootW0_PHASE == 5

/-- A command reaches the queue of partner `p` on port `port`; the port logic answers BUSY where Cloentim does not run (R468), and where the queue is full. -/
def State.arrive (s : State) (p port : Nat) (c : Cmd) : State :=
  let q := s.queueOf p
  if s.boot.inReset then s
  else if s.noCloentim then (s.placeAt (s.replyTo port c (Status.busy, 0, []))).1
  else if queueDepth p ≤ q.length then ((s.fsat Fld.cmdPstatErr_FULL p 0 1).placeAt (s.replyTo port c (Status.busy, 0, []))).1
  else { s with cmd := { s.cmd with queues := tblPut s.cmd.queues p (q ++ [{ cmd := c, port := port, time := s.now }]) } }

/-! ### Regulator bus (R478 to R483) -/

def State.busDown (s : State) : Bool := s.fget Fld.sbdStat_DOWN == 1

/-- A recovery begins. -/
def State.recover (s : State) : State := { s with sbd := { s.sbd with tries := some (0, s.now) } }

/-- The bus is stuck (R483): `scl` which line, `n` attempts. -/
def State.busStuck (s : State) (scl : Bool) (n : Nat) : State :=
  let s1 : State := { s with sbd := { s.sbd with tries := none } }
  (s1.fset Fld.sbdStat_DOWN 0 0 1).errRec 3 0x60 0 14 [b2n scl, n]

/-- A field of `n` bits as a two's complement number. -/
def signedField (n v : Nat) : Int := if 2 ^ (n - 1) ≤ v % 2 ^ n then (v % 2 ^ n : Nat) - (2 ^ n : Nat) else (v % 2 ^ n : Nat)

/-- A mantissa times a power of two, in units of one `scale`-th, as a field of 16 bits holds it: cut off below, 0 where negative, and at most 65,535
(log entry 23). -/
def linearVal (m e : Int) (scale : Nat) : Nat :=
  let v := m.toNat * scale
  min 65535 (if 0 ≤ e then v * 2 ^ e.toNat else v / 2 ^ (-e).toNat)

/-- READ_IOUT in LINEAR11, in units of 0.1 A. -/
def ioutOf (w : Nat) : Nat := linearVal (signedField 11 w) (signedField 5 (w / 2048)) 10

/-- READ_VOUT in LINEAR16 under VOUT_MODE, in units of 1 mV. -/
def voutOf (mode w : Nat) : Nat := linearVal (w % 65536 : Nat) (signedField 5 mode) 1000

/-- One regulator's part of a poll (R478, R480); SDA low before its START begins a recovery. -/
def State.pollOne (s : State) (i : Nat) (o : PollRead) : State :=
  if s.busDown || s.sbd.tries.isSome then s
  else if o.st = 0 then (s.fset Fld.sbdRegW1_IOUT i 0 (ioutOf o.iout)).fset Fld.sbdRegW1_VOUT i 0 (voutOf (tblGet 0 s.sbd.vmodes i) o.vout)
  else if 4 ≤ o.st then s.recover
  else
    let s1 := s.fsat Fld.sbdRegW1_FAILS i 0 1
    let due := match tblFind s.sbd.failAt i with
      | some t => decide (t + us 1000000 ≤ s.now)
      | none => true
    let s2 := if due then
        ({ s1 with sbd := { s1.sbd with failAt := tblPut s1.sbd.failAt i s.now } }).errRec 0 0x63 0 14 [i, o.st - 1]
      else s1
    if o.st = 3 then s2.busStuck true 0 else s2

/-- VOUT_MODE of every regulator is read once after each recovery and at start (R478). -/
def State.readModes (s : State) (es : List Nat) (outs : List PollRead) : State :=
  if s.sbd.vmode then s
  else { s with sbd := { s.sbd with vmode := true, vmodes := es.foldl (fun t i => tblPut t i (outs.getD i {}).vmode) [] } }

/-- The poll's current against the estimator's (R453). -/
def State.pollCompare (s : State) (failed : Bool) (sum : Nat) : State :=
  let i := s.fget Fld.pwrEst_I_EST
  let big := max sum i
  let off := failed || decide (s.fget Fld.pwrRegcmp_DIS_PCT * big < 100 * (big - min sum i))
  let s1 := s.fset Fld.pwrEst_I_TEL 0 0 sum
  if off then
    let n := s.pwr.disagree + 1
    let s2 : State := { s1 with pwr := { s1.pwr with disagree := n, retrust := false } }
    if s.fget Fld.pwrRegcmp_DIS_N ≤ n ∧ s.fget Fld.pwrEst_TRUSTED = 1 then
      ((s2.fset Fld.pwrEst_TRUSTED 0 0 0).errRec 0 0x56 0 14 [sum, i]).capTrigger 1
    else s2
  else
    let s2 : State := { s1 with pwr := { s1.pwr with disagree := 0, retrust := false } }
    if s.pwr.retrust then s2.fset Fld.pwrEst_TRUSTED 0 0 1 else s2

/-- POLL_MS has passed since the last poll. -/
def State.pollDue (s : State) : Bool := decide (s.sbd.pollAt + us (1000 * s.fget Fld.sbdCtrl_POLL_MS) ≤ s.now)

/-- An alert of this cycle comes before a due poll (R487). -/
def alerts : Instr → Bool
  | .regulatorAlert _ _ => true
  | _ => false

/-- A poll of every enabled regulator, in entry order, every POLL_MS. -/
def State.poll (s : State) (outs : List PollRead) : State :=
  if s.boot.inReset = true ∨ s.pollDue = false ∨ s.soon alerts = true then s
  else
    let es := (List.range 16).filter (fun i => s.fget Fld.sbdRegW0_EN i == 1)
    let stop := s.busDown || s.sbd.tries.isSome
    let s0 : State := { s with sbd := { s.sbd with pollAt := s.now } }
    let s1 := State.each es (fun s i => s.pollOne i (outs.getD i {})) (if stop then s0 else s0.readModes es outs)
    let failed := stop || es.any (fun i => (outs.getD i {}).st != 0)
    let sum := ((es.filter (fun i => s.fget Fld.sbdRegW0_RAIL i == 0)).map (fun i => s1.fget Fld.sbdRegW1_IOUT i)).sum / 10
    s1.pollCompare failed sum

def execRegulatorPoll (outs : List PollRead) (s : State) : Res := (s.poll outs).settled

/-- SBR_ALERT_N is low: the regulator that answers, and its STATUS_WORD (R481). -/
def State.alert (s : State) (addr status : Nat) : State :=
  if s.boot.inReset || s.busDown || s.sbd.tries.isSome then s
  else
    let e := (List.range 16).find? (fun i => s.fget Fld.sbdRegW0_EN i == 1 && s.fget Fld.sbdRegW0_ADDR i == addr)
    let i := e.getD 16
    let due := match tblFind s.sbd.alertAt i with
      | some t => decide (t + us 1000 ≤ s.now)
      | none => true
    let s1 : State := if due then { s with sbd := { s.sbd with alertAt := tblPut s.sbd.alertAt i s.now } } else s
    match e with
    | none => if due then s1.errRec 0 0x62 0 14 [addr, 0xFF, status] else s1
    | some i =>
      let s2 := s1.fset Fld.sbdRegW1_STATUS i 0 status
      if status &&& s.fget Fld.sbdRegW0_PHASE_MASK i ≠ 0 then
        (if due then s2.errRec 0 0x57 0 14 [addr, status] else s2).capTrigger 0
      else if due then s2.errRec 0 0x62 0 14 [addr, i, status] else s2

def execRegulatorAlert (addr status : Nat) (s : State) : Res := (s.alert addr status).settled

/-- SBD_XFER (R482). -/
def State.cmdSbdXfer (s : State) (c : Cmd) : Ans :=
  let w := c.word 0
  let wlen := bits w 23 16
  let rlen := bits w 31 24
  if !zeroOutside w [(31, 24), (23, 16), (8, 8), (6, 0)] || wlen + rlen == 0 || c.plen != 8 + wlen then s.noAns Status.badParam
  else if s.busDown then s.noAns Status.portDown
  else s.defer c (fun t s => { s with sbd := { s.sbd with xfers := s.sbd.xfers ++
    [{ ticket := t, addr := bits w 6 0, pec := bit w 8, data := (c.params.drop 8).take wlen, rlen := rlen }] } })

/-- The oldest transfer has run: it ends with the bytes it read, or fails as a poll's transfer may; SCL held low makes the bus stuck, and with SDA low
before its START it waits for a recovery (R483). -/
def State.xferDone (s : State) (st : Nat) (data : List Byte) : State :=
  match s.sbd.xfers with
  | [] => s
  | x :: t =>
    if 4 ≤ st then (if s.busDown || s.sbd.tries.isSome then s else s.recover)
    else
      let s1 := ({ s with sbd := { s.sbd with xfers := t } } : State).emit (.regXfer x.addr x.pec x.data x.rlen)
      if st = 0 ∧ data.length = x.rlen then s1.completeTicket x.ticket Status.ok data
      else (if st = 3 ∧ s.busDown = false then s1.busStuck true 0 else s1).completeTicket x.ticket Status.fault []

def execSbdXferDone (st : Nat) (data : List Byte) (s : State) : Res := (s.xferDone st data).settled

/-- The end of a recovery: REVIVE written meanwhile starts another (R487). -/
def State.recoverEnd (s : State) : State :=
  if s.sbd.again then ({ s with sbd := { s.sbd with again := false } } : State).recover else s

/-- One attempt (R483): attempts are 1 ms apart. -/
def State.attempt (s : State) (ok : Bool) (pulses : Nat) (scl : Bool) : State :=
  match s.sbd.tries with
  | none => s
  | some (k, t) =>
    if k ≠ 0 ∧ s.now < t + us 1000 then s
    else if ok then
      let s1 : State := { s with sbd := { s.sbd with tries := none, vmode := false } }
      ((s1.fset Fld.sbdStat_DOWN 0 0 0).errRec 0 0x61 0 14 [k + 1, pulses]).recoverEnd
    else if scl ∨ 2 ≤ k then (s.busStuck scl (k + 1)).recoverEnd
    else { s with sbd := { s.sbd with tries := some (k + 1, s.now) } }

def execBusRecoveryAttempt (ok : Bool) (pulses : Nat) (scl : Bool) (s : State) : Res := (s.attempt ok pulses scl).settled

/-- REVIVE is written with 1. -/
def State.reviveWrite (s : State) : State :=
  if s.sbd.tries.isSome then { s with sbd := { s.sbd with again := true } }
  else if s.busDown then s.recover else s

def execRevive (s : State) : Res := .next s.reviveWrite

/-! ### Tray bus (R477, R479, R484): in a cold reset the target and the loader answer nothing (R465) -/

/-- A write transaction of `len` bytes. -/
def State.trayWrite (s : State) (len : Nat) (c : Cmd) : State :=
  if s.boot.inReset = true ∨ 4 ≤ s.cmd.sbBuf.length then s
  else if len ≠ 16 + c.plen ∨ 4112 < len then s.fsat Fld.sbdStat_SHORT 0 0 1
  else s.arrive 3 3 c

def execSbWrite (len : Nat) (c : Cmd) (s : State) : Res := (s.trayWrite len c).settled

/-- SBT_INT_N is low: a packet waits, in I2C mode (R476, R479). -/
def State.sbtInt (s : State) : Bool := s.fget Fld.sbdStat_I3C == 0 && !s.cmd.sbBuf.isEmpty

/-- A read transaction returns the oldest packet and removes it. -/
def State.trayRead (s : State) : State :=
  if s.boot.inReset then s else
  match s.cmd.sbBuf with
  | [] => s.emit (.tray (List.replicate 16 0))
  | r :: t => ({ s with cmd := { s.cmd with sbBuf := t } }).emit (.tray (bytesOfWords (replyHeader r) ++ r.body))

def execSbRead (s : State) : Res := .next s.trayRead

/-- SCL held low for 35 ms: the transaction is abandoned, and has no effect. -/
def execTraySclTimeout (s : State) : Res := .next s

def State.i3c (s : State) : Bool := s.fget Fld.sbdStat_I3C == 1

/-- Target events: bit 0 names the in-band interrupt. -/
def execEnec (ev : Nat) (s : State) : Res :=
  .next (if s.i3c ∧ ev % 2 = 1 then { s with sbd := { s.sbd with ibi := true } } else s)
def execDisec (ev : Nat) (s : State) : Res :=
  .next (if s.i3c ∧ ev % 2 = 1 then { s with sbd := { s.sbd with ibi := false } } else s)

/-- The target takes a dynamic address, or returns to I2C. -/
def State.trayAddr (s : State) (addr : Option Nat) : State :=
  (s.fset Fld.sbdStat_I3C 0 0 (b2n addr.isSome)).fset Fld.sbdStat_DYNADDR 0 0 (addr.getD 0)

def execRstdaa (s : State) : Res := .next (s.trayAddr none)
def execEntdaa (addr : Nat) (s : State) : Res := .next (if s.boot.inReset || s.i3c then s else s.trayAddr (some addr))
def execSetdasa (addr : Nat) (s : State) : Res := .next (if s.boot.inReset || s.i3c then s else s.trayAddr (some addr))

def execSetmwl (len : Nat) (s : State) : Res := .next (if s.i3c then { s with sbd := { s.sbd with mwl := len % 65536 } } else s)
def execSetmrl (len : Nat) (s : State) : Res := .next (if s.i3c then { s with sbd := { s.sbd with mrl := len % 65536 } } else s)

/-- A directed CCC read: `n` bytes, the most significant first; nothing answers in I2C. -/
def State.ccc (s : State) (n v : Nat) : State := if s.i3c then s.emit (.tray (toBytes n v).reverse) else s

def execGetmwl (s : State) : Res := .next (s.ccc 2 s.sbd.mwl)
def execGetmrl (s : State) : Res := .next (s.ccc 2 s.sbd.mrl)
def execGetpid (s : State) : Res := .next (s.ccc 6 Config.i3cPid)
def execGetbcr (s : State) : Res := .next (s.ccc 1 Config.i3cBcr)
def execGetdcr (s : State) : Res := .next (s.ccc 1 Config.i3cDcr)
/-- The two status bytes are left to the I3C Basic standard: a free value. -/
def execGetstatus (s : State) : Res := .next (if s.i3c then s.draw.2.ccc 2 s.draw.1 else s)

/-- A reset of PD47 (R484, R488): the buses restart, SBD_XFER commands end with FAULT, and RW fields come back from Cloentim's copy. -/
def State.sbdReset (s : State) : State :=
  let s1 := State.each s.sbd.xfers (fun s x => s.completeTicket x.ticket Status.fault []) s
  let s2 : State := { s1 with
    sbd := { flash := s1.sbd.flash }
    cmd := { s1.cmd with queues := tblDel s1.cmd.queues 3, sbBuf := [] } }
  (s2.regsClear (fun x => x.reg == .sbdStat || x.reg == .sbdRegW1)).recover

/-! ### Image loader (R485) -/

/-- The loader accepts a write to an image slot. -/
def State.loaderTakes (s : State) (slot off : Nat) : Bool :=
  !s.boot.inReset && !s.bound && s.sbd.load.isNone && decide (slot < 2) && decide (off % 256 = 0)
    && (s.fget Fld.cmdBootW0_PHASE == 5 || slot != s.fget Fld.cmdBootW0_IMAGE)

def State.imageErase (s : State) (slot off : Nat) : State :=
  if s.loaderTakes slot off then
    { s with sbd := { s.sbd with flash := tblDrop s.sbd.flash (fun k => k / 2 ^ 24 == slot), load := some (true, slot), loadErr := false } }
  else s

def State.imageProgram (s : State) (slot off : Nat) (data : List Byte) : State :=
  if s.loaderTakes slot off ∧ data.length = 256 then
    { s with sbd := { s.sbd with flash := tblPut s.sbd.flash (2 ^ 24 * slot + off / 256) data, load := some (false, slot), loadErr := false } }
  else s

/-- The running operation ends. -/
def State.loaderDone (s : State) (err : Bool) : State :=
  match s.sbd.load with
  | none => s
  | some (erase, slot) =>
    let s1 : State := { s with sbd := { s.sbd with load := none, loadErr := err } }
    if erase ∧ err = false then s1.errRec 0 0x64 0 14 [slot] else s1

def execImageErase (slot off : Nat) (s : State) : Res := .next (s.imageErase slot off)
def execImageProgram (slot off : Nat) (data : List Byte) (s : State) : Res := .next (s.imageProgram slot off data)
def execImageReadStatus (s : State) : Res :=
  .next (if s.boot.inReset then s else s.emit (.tray [if s.sbd.load.isSome then 1 else if s.sbd.loadErr then 2 else 0]))
def execImageLoaderDone (err : Bool) (s : State) : Res := (s.loaderDone err).settled

end Sys2Proof.Machine
end

