-- ==== Sys2Proof/Machine/Boot.lean ====
section
/-! DEFINITION. Cold and warm reset, boot, host port resets, RESET_UNIT (R442, R465 to R473, R504, R506). -/

namespace Sys2Proof.Machine
open Sys2Proof

/-! ### Phases (R469) -/

def Phase.kindling : Nat := 0
def Phase.unbind : Nat := 1
def Phase.units : Nat := 2
def Phase.ready : Nat := 3
def Phase.normal : Nat := 4
def Phase.failed : Nat := 5
def Phase.quenched : Nat := 6

def State.phase (s : State) : Nat := s.fget Fld.cmdBootW0_PHASE
def State.phaseSet (s : State) (p : Nat) : State := s.fset Fld.cmdBootW0_PHASE 0 0 p

/-- Normal service starts when the phase is READY and CMD_SERVICE has been accepted with MODE 1 (R471). -/
def State.serviceStart (s : State) : State := if s.phase = Phase.ready ∧ s.boot.service = true then s.phaseSet Phase.normal else s

/-! ### Cold reset (R465, R466, R504, R506) -/

/-- A cold reset of this cause: every register takes its Reset value and every unit is empty. Kept are the Rick's contents as last journaled, the
flash images, the boot count, which advances, and the test access port. The free clock, the drawn free values and what has left the block are the model's own. -/
def State.cold (s : State) (cause : Nat) : State :=
  let s1 : State :=
    { now := s.now, freeN := s.freeN, out := s.out, pending := s.pending, jtag := s.jtag
      epb := (List.range 64).map (fun n => (n, { heatAt := s.now, incAt := s.now })), rsv := { heatAt := s.now, promoAt := s.now }
      lnk := { links := s.lnk.links.map (fun x => (x.1, { boots := x.2.boots })) }
      sbd := { flash := s.sbd.flash }
      rick := { pages := s.rick.pages, chans := s.rick.chans, j0 := s.rick.j0, j1 := s.rick.j1 } }
  (s1.wr .klnBoot 0 0 (BitVec.ofNat 64 (((s.rd .klnBoot).toNat + 1) % 2 ^ 32))).fset Fld.cmdBootW0_CAUSE 0 0 cause

/-- Applying the supplies; their removal has ended THERMTRIP_N (R458). -/
def State.supplyApply (s : State) : State := { s.cold 0 with jtag := {} }

/-- A brownout of VDD_AON or VDD_18; THERMTRIP_N and PKG_RESET_N keep their state. -/
def State.brownout (s : State) : State :=
  let s1 := s.cold 0
  { s1 with boot := { s1.boot with brown := true, rstLow := s.boot.rstLow }, pwr := { s1.pwr with cut := s.pwr.cut } }

/-- PKG_RESET_N is asserted. In a reset that is already in progress it only ends what a brownout requires. -/
def State.pkgReset (s : State) : State :=
  if s.boot.inReset then { s with boot := { s.boot with brown := false, rstLow := true } }
  else
    let s1 := s.cold 1
    { s1 with pwr := { s1.pwr with cut := s.pwr.cut } }

def execSupplyApply (s : State) : Res := .next s.supplyApply
def execSupplyBrownout (s : State) : Res := .next s.brownout
def execColdReset (s : State) : Res := .next s.pkgReset

/-! ### Kindling (R468) -/

/-- A measurement entry of firmware: its security version, and the digest of its image, which is a free value. -/
def State.firmware (s : State) (kind : Nat) (ver : Nat) : State :=
  let (d, s1) := s.drawBytes 48
  s1.measure kind 0 ver (wordsOf 6 d)

/-- Kindling takes an image: its entries of the measurement log (R389). -/
def State.kindled (s : State) (image : Nat) : State :=
  let v := s.rd .klnFwver
  ((s.fset Fld.cmdBootW0_IMAGE 0 0 image).firmware 1 (bits v 63 32)).firmware 2 (bits v 31 0)

/-- PKG_RESET_N goes high: the scanned lands return to their functional state (R518). -/
def State.rstHigh (s : State) : State := { s with boot := { s.boot with rstLow := false }, jtag := { s.jtag with lands := .functional } }

/-- PKG_RESET_N is deasserted. `a` and `b` are what Kindling finds of image slots A and B: 3 accepted, or the cause of the rejection. -/
def State.pkgDeassert (s : State) (a b : Nat) : State :=
  if !s.boot.inReset || s.boot.brown then s.rstHigh
  else
    let s1 := s.rstHigh
    let s2 := ({ s1 with boot := { s1.boot with inReset := false, started := s.now } } : State).recover
    if a = 3 then s2.kindled 0
    else if b = 3 then (s2.errRec 0 0x70 0 14 [a, 0]).kindled 1
    else s2.phaseSet Phase.failed

def execPkgResetDeassert (a b : Nat) (s : State) : Res := .next (s.pkgDeassert a b)

/-! ### Phases UNBIND to READY (R469) -/

/-- The bit mask of a list of numbers. -/
def maskOf (l : List Nat) : Nat := l.foldl (fun m k => m ||| 2 ^ k) 0

/-- CMD_BOOT shows the stacks that trained. -/
def State.trainShow (s : State) : State := s.fset Fld.cmdBootW0_HBM_OK 0 0 (maskOf s.trained)

/-- The unbind reset of a boot begins once the stacks have trained, under a fresh HBM key; a stack that failed stays in reset. The host ports
become ready (R470). -/
def State.bootUnbind (s : State) (failed : List (Nat × Nat)) : State :=
  let bad := failed.filter (fun f => decide (f.1 < 8))
  let s1 := s.phaseSet Phase.unbind
  let s2 : State := { s1 with boot := { s1.boot with untrained := bad.map (·.1), hostLinks := [0, 1] } }
  let s3 := State.each bad (fun s f => s.errRec 3 0x71 6 f.1 [f.2]) s2.heldShow.trainShow
  let (k, s4) := s3.drawBytes 64
  ({ s4 with kln := { s4.kln with memKey := some k, clearAt := s.now }, hbm := { s4.hbm with filling := s4.trained } }).bstateSet Bind.unbinding

/-- After a warm device reset the binding and the keys are kept and no unbind reset runs (R396): the device leaves reset, and its units restart. -/
def State.bootWarm (s : State) : State :=
  let h : Hold := tblGet {} s.boot.held RUnit.device.num
  ((s.unitOut .device h).bootUnits).trainShow

/-- Cloentim starts. -/
def State.cloentimStart (s : State) (failed : List (Nat × Nat)) : State :=
  if s.boot.inReset ∨ s.phase ≠ Phase.kindling then s
  else if s.fget Fld.cmdBootW0_CAUSE = 2 then s.bootWarm else s.bootUnbind failed

def execCloentimStart (failed : List (Nat × Nat)) (s : State) : Res := (s.cloentimStart failed).settled

/-- Rick recovery and every ring search have ended: phase READY, or NORMAL where normal service starts (R471). -/
def State.unitsDone (s : State) : State :=
  if s.phase = Phase.units ∧ s.rickState = Rick.run ∧ s.opt.search.isEmpty = true then
    ((s.phaseSet Phase.ready).wr .cmdBootW1 0 0 (s.rd .telTime)).serviceStart
  else s

def execBootUnitsDone (s : State) : Res := .next s.unitsDone

/-- Limit of a phase, in µs from the deassertion of PKG_RESET_N. -/
def phaseLimit (p : Nat) : Nat := if p = 0 then 80000 else if p = 1 then 250000 else 5000000

/-- A phase is unfinished at its limit: BOOT_SLOW, once for the phase. -/
def State.bootSlow (s : State) : State :=
  let p := s.phase
  if s.boot.inReset || decide (2 < p) || s.boot.slow.contains p || decide (s.now < s.boot.started + us (phaseLimit p)) then s
  else ({ s with boot := { s.boot with slow := s.boot.slow ++ [p] } }).errRec 0 0x73 0 14 [p]

def execBootSlow (s : State) : Res := .next s.bootSlow

/-! ### Warm device reset (R330, R396, R421, R466) -/

/-- Cloentim restarts: queues, caches, tickets and held packets are lost, Ember states return to WAIT, the CMD registers take their Reset values,
and CEPOCH advances. -/
def State.cmdRestart (s : State) : State :=
  let e := (s.cepoch + 1) % 256
  let s1 := s.regsClear (fun x => x.within 0 0x10000)
  ({ s1 with cmd := {} }).fset Fld.cmdCtrl_CEPOCH 0 0 e

/-- Every unit except PD42 and PD48 is reset, after the Rick's quench sequence. -/
def State.warmUnits (s : State) : State :=
  let us : List RUnit := [.hubDie 0, .hubDie 1, .spnDie 0, .spnDie 1, .spnDie 2, .spnDie 3] ++ (List.range 8).map .chiplet ++ [.reservoir, .host 0, .host 1]
  let s1 := State.each us State.unitDown s.rickFlushAll
  ((s1.rickDown Rick.off).crcTelReset).sbdReset

/-- Boot state at the start of a warm device reset. -/
def State.warmBoot (s : State) : BootSt :=
  { started := s.now, inReset := false, rstLow := false, untrained := s.boot.untrained, unlocked := s.boot.unlocked, hostLinks := [0, 1]
    held := [(RUnit.device.num, { since := s.now })] }

/-- A warm device reset, before the records of its step are written. -/
def State.warmDown (s : State) : State :=
  let links := [0, 1].map (fun n => s.fget Fld.cmdMpStat_LINK n)
  let s0 := s.warmUnits
  let s1 := ({ s0 with inq := [], delivered := [] } : State).cmdRestart
  let s2 := State.each [0, 1] (fun s n => s.fset Fld.cmdMpStat_LINK n 0 (links.getD n 0)) s1
  let s3 : State := { s2 with boot := s2.warmBoot }
  s3.heldShow.fset Fld.cmdBootW0_CAUSE 0 0 2

/-- A warm device reset: what Cloentim does afterwards is `State.bootWarm`. -/
def State.warmReset (s : State) : State := s.warmDown.settleErr

/-! ### Host ports (R465, R466) -/

/-- A RESET_UNIT of host port `h` began in this cycle. -/
def State.hostPulsed (s : State) (h : Nat) : Bool :=
  match tblFind s.boot.held (RUnit.host h).num with
  | some x => x.how == 0 && x.ticket.isSome && x.since == s.now
  | none => false

/-- A reset of host port `h` by PERST_N lasts until its deassertion; a hot reset or link down resets the function, and the link trains again. A
RESET_UNIT of the same cycle is one reset with it (R474). -/
def State.hostPortReset (s : State) (h : Nat) (perst : Bool) : State :=
  if s.boot.inReset then s
  else if perst && s.hostPulsed h then
    { s with boot := { s.boot with held := tblMod {} s.boot.held (RUnit.host h).num (fun x => { x with how := 3 }) } }
  else if s.resetBusy (.host h) then s
  else if perst then s.unitReset (.host h) 3 none
  else (s.unitReset (.host h) 3 none).unitOut (.host h) { since := s.now, how := 3 }

def execHostPortReset (h : Nat) (perst : Bool) (s : State) : Res := if h < 2 then (s.hostPortReset h perst).settled else .next s

/-- HPh_PERST_N is deasserted. -/
def State.perstDeassert (s : State) (h : Nat) : State :=
  match tblFind s.boot.held (RUnit.host h).num with
  | some x => if x.how = 3 then s.unitOut (.host h) x else s
  | none => s

def execHostPerstDeassert (h : Nat) (s : State) : Res := if h < 2 then (s.perstDeassert h).settled else .next s

/-! ### The root PLL (R442) -/

/-- Lock is lost (cause 0) or REFCLK is absent (1); nothing else follows. -/
def State.rootUnlock (s : State) (cause : Nat) : State :=
  if s.boot.inReset || s.boot.unlocked.isSome || decide (1 < cause) then s
  else ({ s with boot := { s.boot with unlocked := some cause } }).errRec 4 0x50 0 14 [cause, 0]

/-- Relock. -/
def State.rootRelock (s : State) : State :=
  match s.boot.unlocked with
  | some cause => ({ s with boot := { s.boot with unlocked := none } }).errRec 0 0x50 0 14 [cause, 1]
  | none => s

def execRootUnlock (cause : Nat) (s : State) : Res := (s.rootUnlock cause).settled
def execRootRelock (s : State) : Res := s.rootRelock.settled

/-! ### RESET_UNIT (R467) -/

/-- The unit that a RESET_UNIT names. -/
def resetCmdUnit (c : Cmd) : Option RUnit := resetUnit (bits (c.word 0) 3 0) (bits (c.word 0) 19 4)

/-- ACTION of a RESET_UNIT. -/
def resetAction (c : Cmd) : Nat := bits (c.word 0) 21 20

/-- A commanded reset closes the unit's recovery window (R432). -/
def State.resetStart (s : State) (u : RUnit) (how : Nat) (t : Option Nat) : State := (s.winClear u.key.1 u.key.2).unitReset u how t

/-- PERST_N of the host port was asserted in this cycle: the command joins its reset (R474). -/
def State.perstNow (s : State) (u : RUnit) : Bool :=
  match u, tblFind s.boot.held u.num with
  | .host _, some x => x.how == 3 && x.ticket.isNone && x.since == s.now
  | _, _ => false

/-- ACTION 0: the unit is reset; its completion follows when it is out of reset. The whole device is reset once the reply is placed. -/
def State.cmdResetPulse (s : State) (c : Cmd) (u : RUnit) : Ans :=
  if s.perstNow u then
    s.defer c (fun t s => { s with boot := { s.boot with held := tblMod {} s.boot.held u.num (fun x => { x with ticket := some t }) } })
  else if s.resetBusy u then s.noAns Status.busy
  else if u = .device then
    let a := s.defer c (fun _ s => s)
    { a with after := fun s => if a.status = Status.accepted then s.warmReset else s }
  else s.defer c (fun t s => (s.resetStart u 0 (some t)).settleErr)

/-- ACTION 1: the unit is held in reset; it is in reset at once. -/
def State.cmdResetAssert (s : State) (c : Cmd) (u : RUnit) : Ans :=
  if s.resetBusy u then s.noAns Status.busy
  else
    let a := s.defer c (fun _ s => (s.resetStart u 1 none).settleErr)
    { a with after := fun s => if a.status = Status.accepted then s.completeTicket a.ticket Status.ok [] else s }

/-- The unit is held by an ACTION 1. -/
def State.unitHeld (s : State) (u : RUnit) : Bool :=
  match tblFind s.boot.held u.num with
  | some h => h.how == 1
  | none => false

/-- ACTION 2: a held unit leaves reset. -/
def State.cmdResetRelease (s : State) (c : Cmd) (u : RUnit) : Ans :=
  if !s.unitHeld u then s.noAns Status.badParam
  else s.defer c (fun t s => { s with boot := { s.boot with held := tblMod {} s.boot.held u.num (fun h => { h with how := 0, ticket := some t }) } })

def State.cmdResetUnit (s : State) (c : Cmd) : Ans :=
  match resetCmdUnit c with
  | none => s.noAns Status.badParam
  | some u =>
    if !zeroOutside (c.word 0) [(21, 0)] || resetAction c == 3 || (resetAction c != 0 && u == .device) then s.noAns Status.badParam
    else if resetAction c = 0 then s.cmdResetPulse c u
    else if resetAction c = 1 then s.cmdResetAssert c u
    else s.cmdResetRelease c u

/-- A unit whose reset ends by itself comes out of reset: after a pulse, a release or an armed response. -/
def State.unitLeaves (s : State) (kind idx : Nat) : State :=
  match resetUnit kind idx with
  | none => s
  | some u =>
    if u = .device then s
    else
      match tblFind s.boot.held u.num with
      | some h => if h.how = 0 ∨ h.how = 2 then s.unitOut u h else s
      | none => s

def execUnitOutOfReset (kind idx : Nat) (s : State) : Res := (s.unitLeaves kind idx).settled

end Sys2Proof.Machine
end

