-- ==== Sys2Proof/Machine/Trigger.lean ====
section
/-! DEFINITION. Triggered operations of the network interface: arming, starting, ending, watchdogs, and counter additions (12). -/

namespace Sys2Proof.Machine
open Sys2Proof

/-! ### Arming (R278, R287) -/

/-- The words of entry `i` of EPB `n`. -/
def State.toWord (s : State) (n i k : Nat) : Word :=
  s.rd (match k with
    | 0 => .epbToW0
    | 1 => .epbToW1
    | 2 => .epbToW2
    | 3 => .epbToW3
    | 4 => .epbToW4
    | _ => .epbToW5) n i

/-- The format conditions of R287 on entry `i`. -/
def State.toFormOk (s : State) (n i : Nat) : Bool :=
  let w0 := s.toWord n i 0
  let op := bits w0 63 60
  let vc := bits w0 59 57
  let fmt := bits w0 49 46
  let rop := bits w0 45 44
  decide (op ≤ 4) && (vc == 2 || vc == 3) && (if op = 2 then fmt != 0 && fmt != 7 && rop != 3 else fmt == 0 && rop == 0)
    && (!(decide (1 ≤ op) && decide (op ≤ 3)) || bits (s.toWord n i 2) 63 57 == 0)
    && (if op = 3 then bits (s.toWord n i 3) 63 45 == 0 else bits (s.toWord n i 3) 63 57 == 0)
    && bits (s.toWord n i 4) 23 0 == 0 && bits (s.toWord n i 5) 63 57 == 0

/-- ARM of entry `i` is accepted (R287). -/
def State.toArmOk (s : State) (n i : Nat) : Bool :=
  s.toState n i == ToSt.idle && s.toFormOk n i && s.ringState n (bits (s.toWord n i 0) 37 32) == RingSt.off

/-- ARM: the entry is ARMED with its watchdog cleared, and may be due at once (R271, R277). -/
def State.toArm (s : State) (n i : Nat) : State :=
  if s.toArmOk n i then
    ((s.fset Fld.epbToW7_STATE n i ToSt.armed).epbMod n (fun e => { e with wdStart := tblDel e.wdStart i })).toFire n i
  else s

def execToArm (n i : Nat) (s : State) : Res := .next (if n < 64 ∧ i < 1024 then s.toArm n i else s)

/-- DISARM in RUNNING or PARKED is not applied (R287). -/
def State.toDisarmOk (s : State) (n i : Nat) : Bool := s.toState n i != ToSt.running && s.toState n i != ToSt.parked

/-- DISARM: an ARMED, QUEUED or FAILED entry returns to IDLE (R278). -/
def State.toDisarm (s : State) (n i : Nat) : State :=
  let st := s.toState n i
  if st = ToSt.armed ∨ st = ToSt.queued ∨ st = ToSt.failed then
    let s1 := if st = ToSt.failed then s.fdec Fld.epbNiStat_FAILED n 0 1 else s
    ((s1.fset Fld.epbToW7_STATE n i ToSt.idle).epbMod n
      (fun e => { e with fireq := e.fireq.filter (· != i), wdStart := tblDel e.wdStart i })).niStat n
  else s

def execToDisarm (n i : Nat) (s : State) : Res := .next (if n < 64 ∧ i < 1024 then s.toDisarm n i else s)

def execNctrAdd (n c v : Nat) (s : State) : Res := .next (if n < 64 ∧ c < 256 then s.ctrAdd n c (v % 2 ^ 32) else s)

/-! ### Starting (R272, R273) -/

/-- The mover of entry `i`: PUT as COPY, SIGNAL as FILL of one word, REDUCE as REDUCE, MCAST as COPY along its multicast route entry. -/
def State.toMover (s : State) (n i : Nat) : Mover :=
  let w0 := s.toWord n i 0
  let w1 := s.toWord n i 1
  let op := bits w0 63 60
  let r := bits w0 37 32
  let dop := if op = 1 ∨ op = 3 then 1 else if op = 2 then 3 else if op = 4 then 2 else 0
  let d0 := dop * 2 ^ 60 + bits w0 43 43 * 2 ^ 52 + bits w0 56 54 * 2 ^ 49 + bits w0 53 50 * 2 ^ 45 + 2 * 2 ^ 43 + bits w0 59 57 * 2 ^ 40
    + bits w0 49 46 * 2 ^ 36 + bits w0 45 44 * 2 ^ 34
  let len := if op = 4 then 7 else bits w1 23 0
  { ring := r, index := i, ni := true, fas := s.fget Fld.epbRingCfg_FAS n r,
    words := [BitVec.ofNat 64 d0, s.toWord n i 2, s.toWord n i 3, BitVec.ofNat 64 (len * 2 ^ 32), 0, 0, 0, 0],
    mcr := if op = 3 then some (bits w0 7 0) else none, role := bits w1 31 24,
    lenAt := if bit w0 38 && decide (1 ≤ op) && decide (op ≤ 3) then some (bits (s.toWord n i 5) 56 0) else none }

/-- Running operations, of which NI_MAX may run at once. -/
def State.niRoom (s : State) (n : Nat) : Bool := decide ((s.epbAt n).niRun.length < s.fget Fld.epbNiCtrl_NI_MAX n)

/-- Start entry `i`: RUNNING, FIRED + 1; a NOP completes at once (R272); a multicast route entry with V = 0 is a final fault (R287). -/
def State.toStart (s : State) (n i : Nat) : State :=
  let m := s.toMover n i
  let s1 := (s.fset Fld.epbToW7_STATE n i ToSt.running).fwrap Fld.epbToW6_FIRED n i 1
  if bits (s.toWord n i 0) 63 60 = 0 then s1.toOk n i else
  let dead := match m.mcr with
    | some k => (s.mcRoute k).isNone
    | none => false
  if dead then
    let (id, s2) := s1.faultRec n { cause := 0x07, status := TStat.fault, actor := 2, typ := Ty.store, fas := m.fas, context := m.context 0 }
    (s2.epbMod n (fun e => { e with niRun := tblPut e.niRun i { m with failed := some TStat.fault, record := id } })).niStat n
  else (s1.epbMod n (fun e => { e with niRun := tblPut e.niRun i m })).niStat n

/-- The network interface of EPB `n` starts an operation while fewer than NI_MAX run: one that resumes, or the head of the fire queue. -/
def State.niStart (s : State) (n : Nat) : State :=
  if !s.niRoom n then s
  else
    match (s.epbAt n).resumes.find? (fun p => p.mover.ni) with
    | some p =>
      (s.epbMod n (fun e => { e with niRun := tblPut e.niRun p.mover.index p.restart
                                     resumes := delFirst (fun q => decide (q = p)) e.resumes })).niStat n
    | none =>
      match (s.epbAt n).fireq with
      | [] => s
      | i :: t => (s.epbMod n (fun e => { e with fireq := t })).toStart n i

/-! ### Ending (R274, R275) -/

/-- A running operation ends OK or with a final fault, or parks (R274). -/
def State.niEnd (s : State) (n i : Nat) : State :=
  match tblFind (s.epbAt n).niRun i with
  | none => s
  | some m =>
    if m.toFail then
      let (st, _, s1) := s.moverFault n (i + 8) m
      s1.toFail n i st
    else if m.allDone then s.toOk n i
    else if m.toPark && decide (s.ringParks n m.ring < 8) then
      let (p, s1) := s.moverPark n (i + 8) m
      let s2 := s1.epbMod n (fun e => { e with niRun := tblDel e.niRun i, parks := e.parks ++ [p] })
      ((s2.fset Fld.epbToW7_STATE n i ToSt.parked).ringShow n m.ring).niStat n
    else s

def execTriggeredOpComplete (n i : Nat) (s : State) : Res := .next (s.niEnd n i)

/-- FAULT_RESUME of a parked operation (R275): it runs again once NI_MAX lets it, or ends as a final fault with FAULT. -/
def State.niResume (s : State) (n : Nat) (p : Park) (abort : Bool) : State :=
  let i := p.mover.index
  let s1 := (s.epbMod n (fun e => { e with parks := delFirst (fun q => decide (q = p)) e.parks })).ringShow n p.mover.ring
  if abort then s1.toFail n i TStat.fault
  else
    let s2 := s1.fset Fld.epbToW7_STATE n i ToSt.running
    if s2.niRoom n then (s2.epbMod n (fun e => { e with niRun := tblPut e.niRun i p.restart })).niStat n
    else (s2.epbMod n (fun e => { e with resumes := e.resumes ++ [p] })).niStat n

/-! ### Watchdogs (R277) -/

/-- The watchdog of entry `i` expires: FAILED with TIMEOUT, FCTR, and a contained-class record. -/
def State.toWatchdog (s : State) (n i : Nat) : State :=
  let due := match tblFind (s.epbAt n).wdStart i with
    | some t => decide (t + us (s.fget Fld.epbNiCtrl_WDOG n) ≤ s.now)
    | none => false
  if s.toState n i = ToSt.armed ∧ s.fget Fld.epbToW0_WD_EN n i = 1 ∧ due = true then
    ((s.stir (n / 8)).toFail n i TStat.timeout).errRec 2 0x12 14 (1024 * n + i)
      [s.fget Fld.epbNctrW0_COUNT n (s.fget Fld.epbToW4_WDC n i), s.fget Fld.epbToW1_THRESH n i]
  else s

def execToWatchdog (n i : Nat) (s : State) : Res := .next (if n < 64 ∧ i < 1024 then s.toWatchdog n i else s)

end Sys2Proof.Machine
end

