-- ==== Sys2Proof/Machine/FaultResume.lean ====
section
/-! DEFINITION. FAULT_RESUME (R107): fault-switch slots, parked descriptors and triggered operations, parked threads. -/

namespace Sys2Proof.Machine
open Sys2Proof

/-- Slots of EPB `n` that are WAITING, of context word `w` where one is named. -/
def State.heldSlots (s : State) (n : Nat) (w : Option Nat) : List Nat :=
  ((s.epbAt n).slots.filter (fun e => e.2.st == .waiting && (match w with
    | some t => t == wtoken e.2.ctx e.2.gen e.1
    | none => true))).map (·.1)

/-- FAULT_RESUME of slot `k` of EPB `n`: Z_WAKE, and WOKEN (R94). -/
def State.wakeSlot (s : State) (n k : Nat) (abort : Bool) : State :=
  let x := tblGet ({} : Slot) (s.epbAt n).slots k
  (s.epbMod n (fun e => { e with slots := tblPut e.slots k { x with st := .woken } })).zWake n x.ctx (wtoken x.ctx x.gen k)
    (if abort then TStat.fault else TStat.ok)

/-- Parked work of EPB `n`, of ring and index where they are named. -/
def State.heldParks (s : State) (n : Nat) (w : Option (Nat × Nat)) : List Park :=
  (s.epbAt n).parks.filter (fun p => match w with
    | some (r, i) => p.mover.ring == r && p.mover.index % 2 ^ 32 == i
    | none => true)

/-- Parked threads of core `k`, thread `t` where it is named. -/
def State.heldThreads (s : State) (k : Nat) (t : Option Nat) : List Nat :=
  ((List.range 16).filter (fun j => s.thrState (thrKey k j) == ThrSt.parked && (match t with
    | some x => x == j
    | none => true))).map (thrKey k)

/-- Take the action on the named work; an empty list is BAD_PARAM where it was named. -/
def State.resumeAll {α : Type} (s : State) (all : Bool) (l : List α) (f : State → α → State) : Ans :=
  if l.isEmpty && !all then s.noAns Status.badParam else (State.each l f s).okAns []

/-- Reserved fields of FAULT_RESUME are zero, and KIND and UNIT are in range. -/
def resumeFormOk (c : Cmd) : Bool :=
  let w := c.word 0
  let k := bits w 13 12
  zeroOutside w [(17, 16), (13, 12), (7, 0)] && k != 3 && (k == 2 || decide (bits w 7 0 < 64))
    && (bit w 17 || zeroOutside (c.word 1) [(if k = 0 then 31 else if k = 1 then 37 else 3, 0)])

def State.cmdFaultResume (s : State) (c : Cmd) (ext : List (List Word)) : Ans :=
  let w := c.word 0
  let id := c.word 1
  let all := bit w 17
  let abort := bit w 16
  let u := bits w 7 0
  let kind := bits w 13 12
  if !resumeFormOk c then s.noAns Status.badParam
  else if kind = 0 then
    let l := if s.epbHeld u then [] else s.heldSlots u (if all then none else some (bits id 31 0))
    s.resumeAll all l (fun s k => s.wakeSlot u k abort)
  else if kind = 1 then
    let l := if s.epbHeld u then [] else s.heldParks u (if all then none else some (bits id 37 32, bits id 31 0))
    s.resumeAll all l (fun s p => if p.mover.ni then s.niResume u p abort else s.descResume u p abort)
  else
    let l := if s.clusterHeld (u / 16) then [] else s.heldThreads u (if all then none else some (bits id 3 0))
    s.resumeAll all (l.zipIdx) (fun s x => s.thrResume x.1 abort (ext.getD x.2 []))

end Sys2Proof.Machine
end

