-- ==== Sys2Proof/Machine/Response.lean ====
section
/-! DEFINITION. Responses at the issuing unit, timeouts, rate control, role epochs (02, 06, 07). -/

namespace Sys2Proof.Machine
open Sys2Proof

/-! ### Rate control (R166) -/

/-- Set RATE toward a destination, with the credit settled at this cycle. -/
def State.rateSet (s : State) (n d v : Nat) : State := (s.creditAdd n d 0).fset Fld.epbCcRate_RATE n d v

/-- A response from destination `d` carries echo `c` (R166). -/
def State.echo (s : State) (n d c : Nat) : State :=
  if c = 0 ∨ 64 ≤ n then s
  else
    let r := tblGet {} (s.epbAt n).rates d
    let s1 := s.epbMod n (fun e => { e with rates := tblMod {} e.rates d (fun r => { r with marked := true }) })
    let due := match r.lastDec with
      | none => true
      | some t => decide (t + s.fget Fld.epbCcCtrl_DEC_GAP n * 800 ≤ s.now)
    if due && s.fget Fld.epbCcCtrl_EN n == 1 then
      let v := s.fget Fld.epbCcRate_RATE n d
      let v' := max (s.fget Fld.epbCcCtrl_RATE_MIN n) (if c ≥ 2 then v / 2 else v - v / 8)
      (s1.rateSet n d v').epbMod n (fun e => { e with rates := tblMod {} e.rates d (fun r => { r with lastDec := some s.now }) })
    else s1

/-- Quiet destinations raise RATE, and a new count of marks begins (R166). -/
def State.rateIncrease (s : State) (n : Nat) : State :=
  let step := s.fget Fld.epbCcCtrl_INC_STEP n
  let quiet := (List.range 256).filter (fun d => decide (s.fget Fld.epbCcRate_RATE n d < 1024) && !(tblGet ({} : Rate) (s.epbAt n).rates d).marked)
  let s1 := State.each quiet (fun s d => s.rateSet n d (min 1024 (s.fget Fld.epbCcRate_RATE n d + step))) s
  s1.epbMod n (fun e => { e with rates := e.rates.map (fun x => (x.1, { x.2 with marked := false })) })

/-- The end of an INC_PERIOD, once the EPB's free-running count has reached it: the next period has the length that now stands (R166). -/
def State.incPeriod (s : State) (n : Nat) : State :=
  let e := s.epbAt n
  if e.incAt + us e.incLen ≤ s.now then
    (if s.fget Fld.epbCcCtrl_EN n = 1 then s.rateIncrease n else s).epbMod n (fun e => { e with
      incAt := e.incAt + us e.incLen, incLen := s.fget Fld.epbCcCtrl_INC_PERIOD n })
  else s

def execRateIncrease (n : Nat) (s : State) : Res := .next (s.incPeriod n)

/-- The count of INC_PERIODs starts again (R166). -/
def State.incRestart (s : State) (n : Nat) : State :=
  s.epbMod n (fun e => { e with incAt := s.now, incLen := s.fget Fld.epbCcCtrl_INC_PERIOD n })

/-- Every RATE at 1,024 and every credit at 8 KiB: so they are held while EN is 0 (R166), and so a write of EN from 0 to 1 starts (R172). -/
def State.ratesHold (s : State) (n : Nat) : State :=
  (s.regsReset (regAddr .epbCcRate n 0) (regAddr .epbCcRate n 256)).epbMod n (fun e => { e with rates := [] })

/-- EN from 0 to 1. -/
def State.ccEnable (s : State) (n : Nat) : State :=
  if s.fget Fld.epbCcCtrl_EN n = 1 then s else ((s.fset Fld.epbCcCtrl_EN n 0 1).ratesHold n).incRestart n

def execCcEnable (n : Nat) (s : State) : Res := .next (s.ccEnable n)

/-! ### Responses (R34, R40, R41) -/

/-- A response that matches no outstanding request is discarded, counted and recorded (R34): in EPB_LATE_RSP, or in the counterpart that a Spindle
cluster or host port has (log entry 55). -/
def State.lateRsp (s : State) (u : Nat) (p : Packet) : State :=
  let s1 := if u < 64 then s.fsat Fld.epbLateRsp_LATE u 0 1 else { s with late := tblMod 0 s.late u (fun k => satAdd 32 k 1) }
  let (kind, idx) := if u < 64 then (1, u) else if u < 112 then (5, u - 96) else (15, u - 120)
  s1.errRec 0 0x10 kind idx [p.tag, p.addr / 2 ^ 45]

/-- The outstanding request that a response at unit `u` answers (R34). -/
def State.matchTag (s : State) (u : Nat) (p : Packet) : Option Tag :=
  let key := tagKey u (p.tag % 4096)
  match tblFind s.tags key with
  | none => none
  | some t =>
    if tblGet 0 s.gens key = p.tag / 4096 ∧ p.addr / 2 ^ 45 = s.xyp * 128 + u ∧ !t.posted ∧ t.answered.isNone then some t else none

/-- The outcome that a response carries (R31, R40). -/
def rspDone (p : Packet) : Done :=
  if p.typ = Ty.fswRsp then { status := TStat.fault, restart := some (ofBytes ((p.payload.drop 8).take 8)) }
  else { status := p.status, data := p.payload, poison := p.poison }

/-- Issuing units (R18). -/
def isIssuer (u : Nat) : Bool := decide (u < 64) || (decide (96 ≤ u) && decide (u < 112)) || u == 120 || u == 121

/-- A response reaches its issuing unit: a FENCE keeps its answer until the earlier requests have completed (R29); any other request completes. -/
def State.arriveRsp (s : State) (u : Nat) (p : Packet) (ty : Nat) : State :=
  if !isIssuer u || p.typ != ty then s
  else
    let s0 := { s with delivered := delFirst (fun x => x == (u, p)) s.delivered }
    match s0.matchTag u p with
    | none => s0.lateRsp u p
    | some t =>
      let key := tagKey u (p.tag % 4096)
      let s1 := s0.echo u (16 * p.sy + p.sx) p.cmark
      if t.hdr.typ = Ty.fence then { s1 with tags := tblPut s1.tags key { t with answered := some (rspDone p).status } }
      else s1.finishTag key (rspDone p)

def execLoadRsp (u : Nat) (p : Packet) (s : State) : Res := .next (s.arriveRsp u p Ty.loadRsp)
def execAck (u : Nat) (p : Packet) (s : State) : Res := .next (s.arriveRsp u p Ty.ack)
def execAtomicRsp (u : Nat) (p : Packet) (s : State) : Res := .next (s.arriveRsp u p Ty.atomicRsp)
def execFswRsp (u : Nat) (p : Packet) (s : State) : Res := .next (s.arriveRsp u p Ty.fswRsp)
def execNack (u : Nat) (p : Packet) (s : State) : Res := .next (s.arriveRsp u p Ty.nack)

/-- Complete an answered FENCE whose earlier requests have completed (R29). -/
def State.fenceComplete (s : State) (u i : Nat) : State :=
  match tblFind s.tags (tagKey u i) with
  | none => s
  | some t => if s.fenceReady u t then s.finishTag (tagKey u i) { status := t.answered.getD 0 } else s

def execFenceComplete (u i : Nat) (s : State) : Res := .next (s.fenceComplete u i)

/-- A response to the outstanding request of a tag stands at its unit (R38). -/
def State.responds (s : State) (key : Nat) : Bool :=
  s.delivered.any (fun x => isRspTy x.2.typ && tagKey x.1 (x.2.tag % 4096) == key && (s.matchTag x.1 x.2).isSome)

/-- The sweep of R44: every tag whose age has reached DEAD_BOUND − 1 µs without a response completes with TIMEOUT; a response that stands at the unit
is taken instead (R38). -/
def State.sweep (s : State) : State :=
  let due := s.tags.filter (fun t => decide (t.2.deadline ≤ s.now) && !t.2.posted && t.2.answered.isNone && !s.responds t.1)
  State.each due (fun s t => s.finishTag t.1 { status := TStat.timeout }) s

def execDeadBoundSweep (s : State) : Res := .next s.sweep

/-! ### Role and fence epochs (R51, R58, R67, R99, R123, R144, R280) -/

/-- End every tag of a unit at once, without delivering anything; each generation advances (R51, R52). -/
def State.dropTags (s : State) (u : Nat) : State := State.each ((s.unitTags u).map (·.1)) (fun s k => s.retire k) s

/-- Every item in execution on the EPB completes with STALE_ROLE, and its engines are free (R51). INFO names the last fault record written for the item
itself, 0 if none: the one CAUSE 0x10 record of R51 follows and is the EPB's (DESIGN CHOICE: R120 does not say; log entry 53). -/
def State.staleEngines (s : State) (n : Nat) : State :=
  let l := (s.epbAt n).engines
  let s1 := s.epbMod n (fun e => { e with engines := [] })
  State.each l (fun s x => (s.itemEnd n x.1 x.2 TStat.staleRole x.2.record false).ringShow n x.2.ring) s1

/-- Flush every open ring with CANCEL = 1 and STALE_ROLE (R123, R124). -/
def State.staleRings (s : State) (n : Nat) : State :=
  State.each ((List.range 64).filter (fun r => s.ringState n r != RingSt.off)) (fun s r => (s.ringFlush n r true TStat.staleRole).2.2) s

/-- The network interface on a new role epoch (R280). -/
def State.staleNi (s : State) (n : Nat) : State :=
  let live := (List.range 1024).filter (fun i => s.toState n i != ToSt.idle)
  let s1 := State.each live (fun s i => s.fset Fld.epbToW7_STATE n i ToSt.idle) s
  let s2 := State.each ((List.range 256).filter (fun c => s.fget Fld.epbNctrW0_COUNT n c != 0)) (fun s c => s.fset Fld.epbNctrW0_COUNT n c 0) s1
  let s3 := s2.epbMod n (fun e => { e with
    niRun := [], fireq := [], wdStart := []
    parks := e.parks.filter (fun p => !p.mover.ni)
    resumes := e.resumes.filter (fun p => !p.mover.ni) })
  (State.each ((List.range 64).filter (fun r => s3.fget Fld.epbRingStat_PARKED n r != s3.ringParks n r)) (fun s r => s.ringShow n r)
    (s3.niStat n)).fset Fld.epbNiStat_FAILED n 0 0

/-- The fill of a remote-read cache line. -/
def Owner.isFill : Owner → Bool
  | .fill _ _ _ => true
  | _ => false

/-- Requests that an EPB holds without a tag (R51): in translation, waiting to issue, or waiting on another request's fill. -/
def State.heldCount (s : State) (n : Nat) : Nat :=
  let e := s.epbAt n
  let q := tblGet [] s.waitq n
  let fills := ((tblVals (s.unitTags n)).filter (fun t => t.own.isFill)).length + (q.filter (fun w => w.req.own.isFill)).length
  e.zwait.length + q.length + (e.zloads.length - fills)

/-- A fault-switch slot becomes FREE. -/
def freeEntry (x : Nat × Slot) : Nat × Slot := (x.1, { x.2 with st := .free })

/-- A new EPB_ROLE value (R51): tags and held requests end with one record, slots are freed, rings are flushed, the cache is invalidated. -/
def State.roleWrite (s : State) (n v : Nat) : State :=
  if s.fget Fld.epbRole_ROLE_EPOCH n = v % 256 then s
  else
    let e := s.epbAt n
    let nis := e.niRun.length + (e.parks.filter (·.mover.ni)).length
    let parks := (e.parks.filter (fun p => !p.mover.ni)).length + e.resumes.length
    let count := (s.unitTags n).length + s.heldCount n + nis + parks
    let s1 := (s.fset Fld.epbRole_ROLE_EPOCH n 0 v).dropTags n
    let s2 : State := { s1 with waitq := tblDel s1.waitq n }
    let s3 := (s2.epbMod n (fun e => { e with slots := e.slots.map freeEntry, wakes := [], zwait := [], zloads := [] })).epbMod n
      (fun e => rrcInvalidate e (fun _ => true))
    let s4 := (((s3.slotsUsed n).staleEngines n).staleNi n).staleRings n
    let l := (s4.epbAt n).resumes
    let s5 := State.each l (fun s p => s.itemEnd n 0 p.mover TStat.staleRole p.mover.record false) (s4.epbMod n (fun e => { e with resumes := [] }))
    s5.fault n { cause := 0x10, status := TStat.staleRole, actor := 0, count := count }

def execEpbRoleWrite (n v : Nat) (s : State) : Res := .next (s.roleWrite n v)

/-- A write of HUB_FENCE (R48, R58). -/
def State.fenceWrite (s : State) (v : Nat) : State := s.wr .hubFence 0 0 (BitVec.ofNat 64 (v % 2 ^ 18))

def execHubFenceWrite (v : Nat) (s : State) : Res := .next (s.fenceWrite v)

/-! ### The remote-read cache (R144) -/

/-- INVAL = 1 invalidates every line. -/
def State.rrcInval (s : State) (n : Nat) : State := s.epbMod n (fun e => rrcInvalidate e (fun _ => true))

def execRrcInval (n : Nat) (s : State) : Res := .next (s.rrcInval n)

/-- RRC_EN from 1 to 0 invalidates every line. -/
def State.rrcDisable (s : State) (n : Nat) : State :=
  if s.fget Fld.epbVisCtrl_RRC_EN n = 1 then (s.fset Fld.epbVisCtrl_RRC_EN n 0 0).rrcInval n else s

def execRrcDisable (n : Nat) (s : State) : Res := .next (s.rrcDisable n)

end Sys2Proof.Machine
end

