-- ==== Sys2Proof/Machine/Target.lean ====
section
/-! DEFINITION. Requests at their target (02, 03, 06, 10, 11, 13): the checks of R42, and each operation at an EPB, a Spindle port,
a pool port and a host port. -/

namespace Sys2Proof.Machine
open Sys2Proof

/-! ### The target unit -/

/-- Power domain of a target port (R11). -/
def targetDomain (e : Nat) : Nat := if e < 64 then e / 8 else if e < 112 then 10 + (e - 96) else if e < 120 then 26 + (e - 112) else 44

/-- The target's unit is in reset or held, or a pool port takes no access yet. -/
def State.targetHeld (s : State) (e : Nat) : Bool :=
  if e < 64 then bit (s.rd .cmdHeld0) e || bit (s.rd .cmdHeld1) (41 + e / 32)
  else if e < 112 then bit (s.rd .cmdHeld1) (e - 96) || bit (s.rd .cmdHeld1) (37 + (e - 96) / 4)
  else if e < 120 then s.poolHeld (e - 112)
  else bit (s.rd .cmdHeld1) (35 + e - 120) || !s.boot.hostLinks.contains (e - 120)

/-- A pool port whose stack failed training answers every request NACK with FAULT (R469). -/
def State.stackFailed (s : State) (e : Nat) : Bool := decide (112 ≤ e) && decide (e < 120) && s.poolDead (e - 112)

/-- The target takes a request now: its unit is out of reset and its domain Active (R46, R305, R446). -/
def State.targetReady (s : State) (e : Nat) : Bool :=
  s.stackFailed e || (!s.targetHeld e && s.fget Fld.pwrDomW0_STATE (targetDomain e) == 0)

/-- Unit kind and index of a port's BAD_TYPE record (R428). -/
def portUnit (e : Nat) : Nat × Nat := if e < 64 then (1, e) else if e < 112 then (5, e - 96) else if e < 120 then (6, e - 112) else (15, e - 120)

/-- The target kind accepts the operation (R26). -/
def kindOk (e : Nat) (p : Packet) : Bool :=
  if p.typ = Ty.reduceStore then decide (96 ≤ e) && decide (e < 120)
  else if p.typ = Ty.doorbell then decide (e < 64)
  else if 3 ≤ p.typ ∧ p.typ ≤ 5 then e < 120 || (p.typ == Ty.atomicAdd && (decide (p.fmt ≤ 4)))
  else true

/-! ### Operations on memory of a pool or Spindle target (R27, R28, R41, R251, R301) -/

/-- Answer NACK with FAULT, CAUSE 0x15. -/
def State.memFault (s : State) (e : Nat) (p : Packet) (win : Nat) : State := s.targetFault e p 0x15 7 win none 0

/-- A read of `n` bytes at key `a`: good data, stored poison, or an uncorrectable line (R41). -/
def State.memLoad (s : State) (e : Nat) (p : Packet) (a win : Nat) : State :=
  let n := p.len + 1
  match s.view a n with
  | .good => (s.touch a n 0).respond p e Ty.loadRsp TStat.ok false (s.load a n)
  | .poison => (s.touch a n 0).respond p e Ty.loadRsp TStat.ok true (onesBytes n)
  | .bad =>
    let f : FaultRec := { cause := 0x15, actor := 5, gfa := some p.addr, typ := p.typ, fas := win, context := targetContext p win }
    ((s.touch a n 0).fault e f).respond p e Ty.loadRsp TStat.fault true (onesBytes n)

/-- A STORE or RELEASE: the state, and whether it was performed. -/
def State.memStore (s : State) (p : Packet) (a : Nat) : State × Bool :=
  if p.poison then (s.storePoison a (p.len + 1), true) else s.storeLines a (p.payload.take (p.len + 1))

/-- New value of an atomic or CAS: the element to write, if one is written (R27). -/
def atomicNew (p : Packet) (old : List Byte) : Option (List Byte) :=
  let n := p.len + 1
  if p.typ = Ty.cas then (if old = p.payload.take n then some ((p.payload.drop n).take n) else none)
  else some (toBytes n (combine p.fmt (p.typ - 3) (ofBytes old) (ofBytes (p.payload.take n))))

/-- An atomic or CAS at a good element: the old value, and the state. -/
def State.memAtomic (s : State) (p : Packet) (a : Nat) : List Byte × State :=
  let old := s.load a (p.len + 1)
  let s1 := s.touch a (p.len + 1) 4
  (old, match atomicNew p old with
    | some v => s1.store a v
    | none => s1)

/-- A REDUCE_STORE at good lines (R250). -/
def State.memReduce (s : State) (p : Packet) (a : Nat) : State :=
  let n := p.len + 1
  (s.touch a n 4).store a (combineBytes p.fmt p.rop (s.load a n) (p.payload.take n))

/-- Perform an operation at key `a` and answer it; `done` is applied once a writing operation has been performed. -/
def State.memOp (s : State) (e : Nat) (p : Packet) (a win : Nat) (done : State → State) (failed : State → State) : State :=
  if p.typ = Ty.load ∨ p.typ = Ty.acquire then s.memLoad e p a win
  else if p.typ = Ty.store ∨ p.typ = Ty.release then
    match s.memStore p a with
    | (s1, true) => (done s1).respond p e Ty.ack TStat.ok false []
    | (s1, false) => s1.memFault e p win
  else if p.typ = Ty.reduceStore ∧ p.poison then (done (s.storePoison a (p.len + 1))).respond p e Ty.ack TStat.ok false []
  else if s.view a (p.len + 1) ≠ .good then (failed (s.touch a (p.len + 1) 4)).memFault e p win
  else if p.typ = Ty.reduceStore then (done (s.memReduce p a)).respond p e Ty.ack TStat.ok false []
  else
    let (old, s1) := s.memAtomic p a
    (done s1).respond p e Ty.atomicRsp TStat.ok false old

/-! ### Pool target (R251, R294) -/

/-- A request at pool port `e`. -/
def State.atPool (s : State) (e : Nat) (p : Packet) : State :=
  if p.typ = Ty.fence then s.respond p e Ty.ack TStat.ok false []
  else
    match s.poolKey (e - 112) (gfaOff p.addr) (p.len + 1) with
    | none => s.targetFault e p 0x14 7 0 none 0
    | some a =>
      s.memOp e p a 0
        (fun s => if p.typ = Ty.reduceStore && !p.poison then s.fsat Fld.spnCsaElems_ELEMS (e - 112) 0 ((p.len + 1) / fmtSize p.fmt) else s)
        (fun s => if p.typ = Ty.reduceStore then s.fsat Fld.spnCsaFail_POISONED (e - 112) 0 1 else s)

/-! ### Spindle target (R238, R239, R252) -/

/-- The matching target context of a request at cluster `c` (R238). -/
def State.ctxOf (s : State) (c : Nat) (p : Packet) : Option Nat :=
  let off := gfaOff p.addr
  if 2 ^ 26 ≤ off ∨ 2 ^ 26 < off + p.len + 1 then none
  else
    (List.range 64).find? (fun m => s.fget Fld.spnCtxW0_EN c m == 1 && decide (s.fget Fld.spnCtxW0_BASE c m ≤ off / 4096)
      && decide ((off + p.len) / 4096 ≤ s.fget Fld.spnCtxW0_LIMIT c m))

/-- The context right of an operation (R238). -/
def State.ctxRight (s : State) (c m : Nat) (p : Packet) : Bool :=
  if p.typ = Ty.load ∨ p.typ = Ty.acquire then s.fget Fld.spnCtxW0_RD c m == 1
  else if p.typ = Ty.store ∨ p.typ = Ty.release then s.fget Fld.spnCtxW0_WR c m == 1
  else s.fget Fld.spnCtxW0_AT c m == 1

/-- A request at Spindle port `e`. -/
def State.atSpindle (s : State) (e : Nat) (p : Packet) : State :=
  let c := e - 96
  if p.typ = Ty.fence then s.respond p e Ty.ack TStat.ok false []
  else
    match s.ctxOf c p with
    | none => s.targetFault e p 0x0A 7 0 none 0
    | some m =>
      if s.fget Fld.spnCtxW0_ROLE c m ≠ p.role then s.targetNack e p TStat.staleRole
      else if !s.ctxRight c m p then s.targetFault e p 0x0C 7 m none 0
      else s.memOp e p (scrKey (c / 4) (gfaOff p.addr)) m (fun s => s.fwrap Fld.spnCtxW1_COUNT c m 1) id

/-! ### Host target (R104, R131) -/

/-- Split bytes from an address at fabric-line boundaries (R134); `fuel` bounds the pieces. -/
def linePieces : Nat → Nat → List Byte → List (Nat × List Byte)
  | 0, _, _ => []
  | fuel + 1, a, l => if l.isEmpty then [] else (a, l.take (128 - a % 128)) :: linePieces fuel (a + (128 - a % 128)) (l.drop (128 - a % 128))

/-- The PCI Express writes of a burst: one where it fits within Max Payload Size, else one for each fabric line (R134; log entry 56). -/
def hostWrites (h a : Nat) (l : List Byte) : List Out :=
  if l.length ≤ Config.maxPayload h then [.hostWrite h a l]
  else (linePieces (l.length / 128 + 2) a l).map (fun x => .hostWrite h (x.1 % 2 ^ 64) x.2)

/-- Send a fabric request to PCI Express: a STORE or RELEASE as posted writes with a zero-length read behind them (R131), any other as one request. -/
def State.toHost (s : State) (h id : Nat) (p : Packet) : State :=
  let a := (s.fget Fld.lnkHwinWbase_WBASE h * 4096 + gfaOff p.addr) % 2 ^ 64
  if p.typ = Ty.store ∨ p.typ = Ty.release then (s.emits (hostWrites h a (p.payload.take (p.len + 1)))).emit (.hostFlush h a id)
  else s.emit (.hostReq h a id p)

/-- A request at host port `e`: it goes to PCI Express, and is answered when its completion returns. -/
def State.atHost (s : State) (e : Nat) (p : Packet) : State :=
  let h := e - 120
  if p.typ = Ty.fence then s.respond p e Ty.ack TStat.ok false []
  else if s.fget Fld.lnkHwinWlim_EN h = 0 ∨ s.fget Fld.lnkHwinWlim_WLIM h < gfaOff p.addr / 4096 then s.targetFault e p 0x11 7 0 none 0
  else if s.bound && p.ksel != 0 && p.typ != Ty.load && p.typ != Ty.acquire then s.targetFault e p 0x05 7 0 none 0
  else if p.poison && isWriteTy p.typ then s.targetFault e p 0x15 7 0 none 0
  else
    let id := s.host.nextId
    let t : HostTgt := { hp := h, id := id, pkt := p }
    let s1 : State := { s with host := { s.host with nextId := id + 1, tgts := s.host.tgts ++ [t] } }
    s1.toHost h id p

/-! ### EPB target (R62, R82, R117) -/

/-- First offset of the doorbell page (R70). -/
def doorbellPage : Nat := 0x1FFFFFFF0000

/-- A source filter (Table — Target Window Table entry). -/
def State.sourceOk (s : State) (mode src : Nat) (p : Packet) : Bool :=
  if mode = 0 then true
  else if mode = 1 then p.sx == s.fget Fld.hubCoord_X && p.sy == s.fget Fld.hubCoord_Y
  else if mode = 2 then src == p.sx * 2 ^ 15 + p.sy * 2 ^ 11 + p.sp * 2 ^ 7 + p.se
  else false

/-- A DOORBELL in the doorbell page (R30, R116, R117). -/
def State.atDoorbell (s : State) (n : Nat) (p : Packet) : State :=
  let o := gfaOff p.addr - doorbellPage
  let r := o / 0x40
  if gfaOff p.addr < doorbellPage ∨ o % 0x40 ≠ 0 ∨ 64 ≤ r then s.targetFault n p 0x0A 7 0 none 0
  else if !s.sourceOk (s.fget Fld.epbRingCfg_DB_SRC_MODE n r) (s.fget Fld.epbRingCfg_DB_SRC n r) p then s.targetFault n p 0x0B 7 0 none 0
  else
    let v := ofBytes (p.payload.take 8)
    if 2 ^ 32 ≤ v then s.targetNack n p TStat.badParam
    else match s.ringCommit n r v with
      | some s1 => s1.respond p n Ty.ack TStat.ok false []
      | none => s.targetNack n p TStat.badParam

/-- A STORE in the doorbell page: to a push window, or refused (R117, R118). -/
def State.atPush (s : State) (n : Nat) (p : Packet) : State :=
  let o := gfaOff p.addr - doorbellPage
  let r := (o - 0x8000) / 0x200
  let len := p.len + 1
  if o < 0x8000 ∨ 64 ≤ r ∨ len % 8 ≠ 0 ∨ 512 < len ∨ o % 8 ≠ 0 ∨ 0x200 < o % 0x200 + len then s.targetFault n p 0x0A 7 0 none 0
  else if !s.sourceOk (s.fget Fld.epbRingCfg_DB_SRC_MODE n r) (s.fget Fld.epbRingCfg_DB_SRC n r) p then s.targetFault n p 0x0B 7 0 none 0
  else match s.ringPush n r (p.payload.take len) p.poison with
    | (0, s1) => s1.respond p n Ty.ack TStat.ok false []
    | (1, s1) => s1.targetFault n p 0x15 7 0 none 0
    | (st, s1) => s1.targetNack n p st

/-- The matching target window (R82 step 1). -/
def State.windowFor (s : State) (n off : Nat) : Option Nat :=
  (List.range 256).find? (fun w => s.fget Fld.epbTwtW0_EN n w == 1 && decide (s.fget Fld.epbTwtW0_BASE n w ≤ off / 65536)
    && decide (off / 65536 ≤ s.fget Fld.epbTwtW1_LIMIT n w))

/-- The window right of an operation (R82 step 3). -/
def State.windowRight (s : State) (n w : Nat) (p : Packet) : Bool :=
  if p.typ = Ty.load ∨ p.typ = Ty.acquire then s.fget Fld.epbTwtW0_RD n w == 1
  else if p.typ = Ty.store ∨ p.typ = Ty.release then s.fget Fld.epbTwtW0_WR n w == 1
  else s.fget Fld.epbTwtW0_AT n w == 1

/-- A request at a target window of EPB `n` (R82): it is refused, or waits to be sent to the accelerator, or waits on a walk. -/
def State.atWindow (s : State) (n : Nat) (p : Packet) : State :=
  let off := gfaOff p.addr
  if !(s.epbAt n).identSeen then s.targetFault n p 0x16 7 0 none 0
  else
    match s.windowFor n off with
    | none => s.targetFault n p 0x0A 7 0 none 0
    | some w =>
      let rel := off - s.fget Fld.epbTwtW0_BASE n w * 65536
      let req := s.fget Fld.epbTwtW2_KSEL_REQ n w
      if !s.sourceOk (s.fget Fld.epbTwtW2_SRC_MODE n w) (s.fget Fld.epbTwtW2_SRC n w) p || (req != 0 && p.ksel != req) then
        s.targetFault n p 0x0B 7 w (some rel) 0
      else if !s.windowRight n w p then s.targetFault n p 0x0C 7 w (some rel) 0
      else
        let t : TgtReq := { pkt := p, win := w, rel := rel, troot := s.fget Fld.epbTwtW3_TROOT n w, arrived := s.now }
        match cacheFind n (s.epbAt n) (.win w) rel with
        | some c => (s.epbMod n (fun e => cacheUse n e c)).tgtTranslated n t c.leaf c.size
        | none => (s.epbMod n (fun e => { e with tgts := e.tgts ++ [t] })).walkStart n (.win w) rel (BitVec.ofNat 64 t.troot)

/-- A request at EPB `n`, past the role-epoch check (R42, R50). -/
def State.atEpb (s : State) (n : Nat) (p : Packet) : State :=
  if s.fget Fld.epbRole_ROLE_EPOCH n ≠ p.role then s.targetNack n p TStat.staleRole
  else if p.typ = Ty.fence then s.respond p n Ty.ack TStat.ok false []
  else if p.typ = Ty.doorbell then s.atDoorbell n p
  else if doorbellPage ≤ gfaOff p.addr then
    if p.typ = Ty.store then s.atPush n p else s.targetFault n p 0x0A 7 0 none 0
  else s.atWindow n p

/-! ### The checks of R42 -/

/-- Steps 3 to 5 of R42 at target port `e`. -/
def State.atTarget (s : State) (e : Nat) (p : Packet) : State :=
  if s.stackFailed e then s.targetFault e p 0x14 7 0 none 0
  else if !kindOk e p then s.targetNack e p TStat.badParam
  else if e < 64 then s.atEpb e p
  else if e < 112 then s.atSpindle e p
  else if e < 120 then s.atPool e p
  else s.atHost e p

/-- A request of type `ty` arrives at port `e`: a reserved TYPE is discarded and recorded (R23); a request of another type is another
command's; a target that cannot take it yet lets it wait (R46). It is a wake cause of the target's domain (R446). -/
def State.arriveReq (s : State) (e : Nat) (p : Packet) (ty : Nat) : State :=
  if !isTarget e then s
  else if !isReqTy p.typ && !isRspTy p.typ then
    ({ s with delivered := delFirst (fun x => x == (e, p)) s.delivered }).errRec 2 0x11 (portUnit e).1 (portUnit e).2 [(wordAt (headerWords p) 0).toNat]
  else if p.typ ≠ ty then s
  else if !s.targetReady e then
    if s.delivered.contains (e, p) then s else ({ s with delivered := s.delivered ++ [(e, p)] } : State).stir (targetDomain e)
  else (({ s with delivered := delFirst (fun x => x == (e, p)) s.delivered } : State).stir (targetDomain e)).atTarget e p

def execAtomicAdd (e : Nat) (p : Packet) (s : State) : Res := .next (s.arriveReq e p Ty.atomicAdd)
def execAtomicMin (e : Nat) (p : Packet) (s : State) : Res := .next (s.arriveReq e p Ty.atomicMin)
def execAtomicMax (e : Nat) (p : Packet) (s : State) : Res := .next (s.arriveReq e p Ty.atomicMax)
def execCas (e : Nat) (p : Packet) (s : State) : Res := .next (s.arriveReq e p Ty.cas)
def execReduceStore (e : Nat) (p : Packet) (s : State) : Res := .next (s.arriveReq e p Ty.reduceStore)
def execAcquire (e : Nat) (p : Packet) (s : State) : Res := .next (s.arriveReq e p Ty.acquire)
def execRelease (e : Nat) (p : Packet) (s : State) : Res := .next (s.arriveReq e p Ty.release)
def execFence (e : Nat) (p : Packet) (s : State) : Res := .next (s.arriveReq e p Ty.fence)
def execDoorbell (e : Nat) (p : Packet) (s : State) : Res := .next (s.arriveReq e p Ty.doorbell)

/-- A STORE to a push window of EPB `n` (R118). -/
def execPushStore (n : Nat) (p : Packet) (s : State) : Res :=
  .next (if n < 64 ∧ doorbellPage + 0x8000 ≤ gfaOff p.addr then s.arriveReq n p Ty.store else s)

end Sys2Proof.Machine
end

