-- ==== Sys2Proof/Machine/HostPort.lean ====
section
/-! DEFINITION. Host ports as issuers and as targets (04, 06, 17). -/

namespace Sys2Proof.Machine
open Sys2Proof

/-- While a tenant is bound a host port reaches only the Metadata range of a pool port and the doorbell page of an EPB (R387). -/
def hostReachOk (gfa : Nat) : Bool :=
  (decide (112 ≤ gfaE gfa) && decide (gfaE gfa ≤ 119) && decide (gfaOff gfa < 2 ^ 32))
    || (decide (gfaE gfa < 64) && decide (doorbellPage ≤ gfaOff gfa))

/-- The fabric request of a PCI Express request (log entry 12: its GFA and type come with it). -/
def hostFabricReq (h id typ gfa len : Nat) (relaxed : Bool) (payload : List Byte) : Req :=
  { own := .host id (typ != Ty.load), typ := typ, dclass := 2, gfa := gfa, len := len, payload := payload, stream := (3, h), fva := gfa,
    behindWrites := typ == Ty.load || !relaxed }

/-- A PCI Express request of the host at host port `h` (R138, R387, R400): it is issued as a fabric request in PCI Express order, or refused. -/
def State.hostRequest (s : State) (h id typ gfa len : Nat) (relaxed : Bool) (payload : List Byte) : State :=
  let r := hostFabricReq h id typ gfa len relaxed payload
  if !s.hostUp h && !(s.boot.hostLinks.contains h) then s
  else if typ ≠ Ty.load ∧ typ ≠ Ty.store ∧ typ ≠ Ty.doorbell then s.emit (.hostCpl h id TStat.badParam [])
  else if s.bound && !hostReachOk gfa then s.refuseReq (120 + h) r 0x05 TStat.fault
  else if !isTarget (gfaE gfa) then s.refuseReq (120 + h) r 0x07 TStat.fault
  else if !operandOk typ (gfaOff gfa) len 0 0 0 payload.length || !endpointOk typ gfa then s.refuseReq (120 + h) r 0x08 TStat.badParam
  else s.submit (120 + h) r

def execHostPcieRequest (h id typ gfa len : Nat) (relaxed : Bool) (payload : List Byte) (s : State) : Res :=
  .next (s.hostRequest h id typ gfa len relaxed payload)

/-- Take a host target request out of the list of those sent. -/
def State.hostTake (s : State) (h id : Nat) : Option (Packet × State) :=
  match s.host.tgts.find? (fun t => t.hp == h && t.id == id) with
  | none => none
  | some t => some (t.pkt, { s with host := { s.host with tgts := delFirst (fun x => x == t) s.host.tgts } })

/-- A PCI Express completion of a host target request (R104, R131): `ok` is false for Unsupported Request and Completer Abort. -/
def State.hostCompletion (s : State) (h id : Nat) (ok poison : Bool) (data : List Byte) : State :=
  match s.hostTake h id with
  | none => s
  | some (p, s1) =>
    let e := 120 + h
    if !ok then s1.targetFault e p 0x12 7 0 none 0
    else if p.typ = Ty.load ∨ p.typ = Ty.acquire then
      if poison then
        let f : FaultRec := { cause := 0x15, actor := 5, gfa := some p.addr, typ := p.typ, context := targetContext p 0 }
        (s1.fault e f).respond p e Ty.loadRsp TStat.fault true (onesBytes (p.len + 1))
      else s1.respond p e Ty.loadRsp TStat.ok false (data.take (p.len + 1))
    else if poison then s1.targetFault e p 0x15 7 0 none 0
    else if returnsData p.typ then s1.respond p e Ty.atomicRsp TStat.ok false (data.take (p.len + 1))
    else s1.respond p e Ty.ack TStat.ok false []

def execHostCompletion (h id : Nat) (ok poison : Bool) (data : List Byte) (s : State) : Res :=
  .next (s.hostCompletion h id ok poison data)

/-- A Completion Timeout (R104). -/
def State.hostTimeout (s : State) (h id : Nat) : State :=
  match s.hostTake h id with
  | none => s
  | some (p, s1) => s1.targetFault (120 + h) p 0x12 7 0 none 0

def execHostCompletionTimeout (h id : Nat) (s : State) : Res := .next (s.hostTimeout h id)

end Sys2Proof.Machine
end

