-- ==== Sys2Proof/Machine/Telemetry.lean ====
section
/-! DEFINITION. CRC_FEED and the channels' configuration, the time counter, port counter snapshots (R490 to R500). -/

namespace Sys2Proof.Machine
open Sys2Proof

/-! ### CRC_FEED (R493) -/

/-- Answer and begin a CRC_FEED. -/
def State.cmdCrcFeed (s : State) (c : Cmd) : Ans :=
  let w := c.word 0
  let addr := (c.word 1).toNat
  let len := bits (c.word 2) 32 0
  let ch := bits w 3 0
  if !zeroOutside w [(8, 8), (3, 0)] || !zeroOutside (c.word 2) [(32, 0)] || len == 0 || decide (2 ^ 32 < len) || !s.inPool addr len
      || (s.bound && decide (2 ^ 32 ≤ gfaOff addr)) then s.noAns Status.badParam
  else if !s.crcFree ch then s.noAns Status.busy
  else s.defer c (fun t s =>
    let s1 := s.crcClaim ch 2 0 0 (bit w 8)
    { s1 with crc := { s1.crc with feeds := tblPut s1.crc.feeds ch { ticket := t, addr := addr, left := len } } })

/-- Feed `left` bytes from `addr` line by line, up to the first line that fails; `n` bounds the lines. Answers the state, the bytes fed and
whether every byte was fed. -/
def State.feedLines (s : State) (ch addr left fed : Nat) : Nat → State × Nat × Bool
  | 0 => (s, fed, left == 0)
  | n + 1 =>
    if left = 0 then (s, fed, true)
    else
      let k := min left (128 - addr % 128)
      match s.internalRead addr k none with
      | none => (s.internalTouch addr k, fed, false)
      | some l => ((s.internalTouch addr k).crcFeed ch l).feedLines ch (addr + k) (left - k) (fed + k) n

/-- The feeding of a channel ends; its reads wait while their controller does (R305). -/
def State.feedDone (s : State) (ch : Nat) : State :=
  match tblFind s.crc.feeds ch with
  | none => s
  | some f =>
    if s.readWaits f.addr then s else
    let (s1, fed, ok) := s.feedLines ch f.addr f.left f.fed (f.left / 128 + 2)
    let s2 : State := { s1 with crc := { s1.crc with feeds := tblDel s1.crc.feeds ch } }
    (s2.crcRelease ch).completeTicket f.ticket (if ok then Status.ok else Status.fault)
      (bytesOfWords [s2.rd .crcValue ch, BitVec.ofNat 64 fed])

def execCrcFeedDone (ch : Nat) (s : State) : Res := .next (s.feedDone ch)

/-! ### Configuration (R491, R492) -/

/-- Register `j` of a channel's configuration. -/
def crcCfgReg (j : Nat) : RegName := if j = 0 then .crcPoly else if j = 1 then .crcInit else .crcCfg

/-- What a write of configuration register `j` is answered: OK, BUSY or BAD_PARAM. -/
def State.crcCfgCheck (s : State) (ch : Nat) (poly init cfg : Word) : Nat :=
  let w := bits cfg 6 0
  if poly = s.rd .crcPoly ch ∧ init = s.rd .crcInit ch ∧ cfg = s.rd .crcCfg ch then Status.ok
  else if !s.crcFree ch then Status.busy
  else if w < 8 ∨ 64 < w ∨ !bit poly 0 ∨ 2 ^ w ≤ poly.toNat ∨ 2 ^ w ≤ init.toNat then Status.badParam
  else Status.ok

/-- Apply a checked write: a channel whose configuration changes restarts. -/
def State.crcCfgApply (s : State) (ch j : Nat) (v : Word) : State :=
  if s.rd (crcCfgReg j) ch = v then s else (s.wr (crcCfgReg j) ch 0 v).crcRestart ch

/-- A write of one configuration register; while a tenant is bound a change is not applied (R417). -/
def State.crcCfgWrite (s : State) (ch j : Nat) (v : Word) : State :=
  let v := if j = 2 then BitVec.ofNat 64 (bits v 31 30 * 2 ^ 30 + bits v 6 0) else v
  let pick := fun (k : Nat) => if j = k then v else s.rd (crcCfgReg k) ch
  if s.bound then s
  else if s.crcCfgCheck ch (pick 0) (pick 1) (pick 2) = Status.ok then s.crcCfgApply ch j v else s

def execCrcConfigWrite (ch j v : Nat) (s : State) : Res :=
  .next (if ch < 16 ∧ j < 3 then s.crcCfgWrite ch j (BitVec.ofNat 64 v) else s)

/-- RESTART is written with 1. -/
def State.crcRestartWrite (s : State) (ch : Nat) : State := if s.crcFree ch then s.crcRestart ch else s

def execCrcRestart (ch : Nat) (s : State) : Res := .next (if ch < 16 then s.crcRestartWrite ch else s)

/-! ### The time counter (R494, R495) -/

/-- A hold is in progress. -/
def State.holding (s : State) : Bool :=
  match s.tel.hold with
  | some t => decide (s.now < t)
  | none => false

/-- The counter runs: from the first lock of the root PLL, in phase UNBIND, and outside a hold; through a warm device reset it runs on (R494). -/
def State.timeRuns (s : State) : Bool :=
  let p := s.fget Fld.cmdBootW0_PHASE
  (p != 0 || s.fget Fld.cmdBootW0_CAUSE == 2) && p != 5 && !s.holding

/-- The open windows' END move with the counter (R432). -/
def State.windowsMove (s : State) (d : Int) : State :=
  State.each s.err.windows (fun s w => s.wr .errWinW1 w.slot 0 (BitVec.ofInt 64 ((s.rd .errWinW1 w.slot).toNat + d))) s

def State.timeSet (s : State) (v : Word) : State :=
  (((s.windowsMove ((v.toNat : Int) - s.time)).wr .telTime 0 0 v).fset Fld.telTctrl_LAST_STEP 0 0 0)

def State.timeStep (s : State) (off : Int) : State :=
  let s1 := (s.windowsMove off).fset Fld.telTctrl_LAST_STEP 0 0 (BitVec.ofInt 32 off).toNat
  if 0 ≤ off then s1.wr .telTime 0 0 (BitVec.ofInt 64 (s.time + off))
  else ({ s1 with tel := { s1.tel with hold := some (s.now + off.natAbs) } } : State).fset Fld.telTctrl_HOLDING 0 0 1

def State.cmdTimeAlign (s : State) (c : Cmd) : Ans :=
  let w := c.word 0
  let off := signed 64 (c.word 1).toNat
  if 1 < w.toNat ∨ (w.toNat = 1 ∧ 2 ^ 31 < off.natAbs) then s.noAns Status.badParam
  else if s.holding then s.noAns Status.busy
  else if w.toNat = 0 then (s.timeSet (c.word 1)).okAns []
  else (s.timeStep off).okAns []

/-- A hold ends. -/
def State.holdEnd (s : State) : State :=
  if s.holding then s else ({ s with tel := { s.tel with hold := none } } : State).fset Fld.telTctrl_HOLDING 0 0 0

def execTimeHoldEnd (s : State) : Res := .next s.holdEnd

/-- One CORE_CLK cycle passes. -/
def State.tick (s : State) : State :=
  let s1 : State := { s with now := s.now + 1 }
  if s.timeRuns then s1.wr .telTime 0 0 (s.rd .telTime + 1) else s1

/-! ### Snapshots (R497) -/

/-- SNAP is written with 1. -/
def State.snap (s : State) : State :=
  (State.each (List.range 124) (fun s p => (s.wr .telShadW0 p 0 (s.rd .telPortW0 p)).wr .telShadW1 p 0 (s.rd .telPortW1 p)) s).wr .telSnaptime 0 0 (s.rd .telTime)

def execTelSnap (s : State) : Res := .next s.snap

end Sys2Proof.Machine
end

