-- ==== Sys2Proof/Machine/RegCheck.lean ====
section
/-! DEFINITION. The register space (R415 to R419): where registers lie, what a write of each would leave, and the checks of the chapters' rules. -/

namespace Sys2Proof.Machine
open Sys2Proof

/-! ### Reads (R8, R416, R419) -/

/-- Power domain `d` is off: it is in Banked. -/
def State.domOff (s : State) (d : Nat) : Bool := s.domState d == Pwr.banked

/-- The register's unit is held in reset, or its power domain is off (R419). -/
def State.regOff (s : State) (x : RegAt) : Bool :=
  let dieOff := fun (d : Nat) => s.coreOff d
  if x.within 0x1000000 0x2000000 then s.epbHeld x.i || s.domOff (x.i / 8)
  else if x.within 0x100000 0x140000 then s.clusterHeld x.i || s.domOff (10 + x.i)
  else if x.within 0x140400 0x140800 then bit (s.rd .cmdHeld1) (37 + x.i / 2)
  else if x.within 0x140000 0x141000 then s.hbmHeld x.i || s.domOff (26 + x.i)
  else if x.within 0xC0000 0xC1000 then s.opticHeld x.i || s.domOff (34 + x.i)
  else if x.within 0xC1000 0xE0000 then s.opticHeld (x.i / 4) || s.domOff (34 + x.i / 4)
  else if x.reg = .lnkHwinWbase ∨ x.reg = .lnkHwinWlim ∨ x.reg = .lnkPrbs then false
  else if x.within 0xE0000 0x100000 then (if x.i < 64 then s.hubDieHeld (x.i / 32) else s.opticHeld ((x.i - 64) / 16)) || s.domOff (linkDomain x.i)
  else if x.within 0x80000 0x90000 then s.rsvHeld || s.domOff 49
  else if x.within 0xA0000 0xC0000 then s.domOff 45
  else if x.within 0x50000 0x60000 || x.within 0x41000 0x50000 then s.domOff 46
  else match x.reg with
    | .hubBufstat => dieOff x.i
    | .hubLink => dieOff (x.i / 64)
    | .hubInlim | .hubEglim | .hubMirsamp | .hubVcw => dieOff (dieOf x.i)
    | .hubQW0 | .hubQW1 => dieOff (dieOf (x.i / 128))
    | _ => x.within 0x200000 0x300000 && dieOff 0 && dieOff 1

/-- Current heater code of ring `r` of bus `b` of group `g` (R365, R367): a sweep has held each code for 1 µs; a dithered ring stands 2 codes above
its set point in the first half of the dither's 4 µs and 2 below in the second (log entry 64). -/
def State.heatNow (s : State) (g b r : Nat) : Nat :=
  let st := s.optRing g b r
  let h := s.fget Fld.optGRing_HEAT g (ringIx b r)
  if st = Ring.sweep then min 4095 ((s.now - (tblGet ({} : BusSearch) s.opt.search (busKey g b)).at_) / us 1)
  else if st = Ring.locking ∨ st = Ring.locked then
    (if (s.now - (tblGet ({} : RingLock) s.opt.locks (ringKey g b r)).start) / us 2 % 2 = 0 then min 4095 (h + 2) else h - 2)
  else h

/-- A register's word with the fields that run by themselves as they stand now: a queue's tokens, a ring's heater code, HOLDING. -/
def State.regNow (s : State) (x : RegAt) : Word :=
  let w := s.rd x.reg x.i x.j
  match x.reg with
  | .hubQW1 => setBits w 31 0 (((s.shTokens x.i) / 16) % 2 ^ 32).toNat
  | .optGRing => setBits w 11 0 (s.heatNow x.i (x.j / 16) (x.j % 16))
  | .telTctrl => setBits w 63 63 (b2n s.holding)
  | _ => w

/-- What a read of a register returns: the fields that are off read 0, the RWL fields as Cloentim's copy. -/
def State.regShown (s : State) (x : RegAt) : Word := if s.regOff x then rwlOnly x.reg (s.rd x.reg x.i x.j) else s.regNow x

/-- Byte `a` of the register space; 0 where no register lies. -/
def State.regByte (s : State) (a : Nat) : Byte :=
  match regAt a with
  | some x => (wordBytes (s.regShown x)).getD x.off 0
  | none => 0

/-- `n` bytes of the register space. -/
def State.regBytesAt (s : State) (a n : Nat) : List Byte := (List.range n).map (fun i => s.regByte (a + i))

/-! ### What a write carries (R416, R417) -/

/-- The registers that bytes from `a` cover whole, each with the word written to it; none where one is covered in part or none lies. -/
def regSplit : Nat → Nat → List Byte → Option (List (RegAt × Word))
  | 0, _, l => if l.isEmpty then some [] else none
  | fuel + 1, a, l =>
    if l.isEmpty then some []
    else
      match regAt a with
      | none => none
      | some x =>
        let n := regBytes x.reg
        if x.off ≠ 0 ∨ l.length < n then none
        else (regSplit fuel (a + n) (l.drop n)).map ((x, BitVec.ofNat 64 (ofBytes (l.take n))) :: ·)

/-- The word that a register holds after `raw` is written to it: the RW and RWL fields. -/
def regMerge (r : RegName) (old raw : Word) : Word :=
  (regDef r).fields.foldl (fun a f => if f.acc = .rw ∨ f.acc = .rwl then setBits a f.hi f.lo (bits raw f.hi f.lo) else a) old

/-- The same, of RWL fields only. -/
def regMergeRwl (r : RegName) (old raw : Word) : Word :=
  (regDef r).fields.foldl (fun a f => if f.acc = .rwl then setBits a f.hi f.lo (bits raw f.hi f.lo) else a) old

/-- The write would change an RWL field (R417). -/
def State.carriesRwl (s : State) (x : RegAt) (raw : Word) : Bool :=
  let old := s.rd x.reg x.i x.j
  rwlOnly x.reg (regMergeRwl x.reg old raw) != rwlOnly x.reg old

/-- Every non-RWL field of a written word is 0. -/
def onlyRwl (r : RegName) (raw : Word) : Bool := raw == rwlOnly r raw

/-- The state that a list of writes would leave in the registers they touch, effects apart. -/
def State.regsAfter (s : State) (l : List (RegAt × Word)) : State :=
  State.each l (fun s e => s.wr e.1.reg e.1.i e.1.j (regMerge e.1.reg (s.rd e.1.reg e.1.i e.1.j) e.2)) s

/-! ### Routes (R153, R163) -/

/-- Kind of a hop in the order of R163: 0 unicast optical, 1 fabric row, 2 fabric column, 3 grid line, 4 none of these. -/
def hopKind (h : Nat) : Nat :=
  if hopMc h then (if hopPort h < 16 then 3 else if hopPort h ≤ 17 then 1 else if hopPort h ≤ 19 then 2 else 4)
  else if 64 ≤ hopPort h ∧ hopPort h < 96 then 0 else 4

/-- The hop is a column hop; every other optical or fabric hop is a row hop. -/
def hopCol (h : Nat) : Bool := if hopMc h then decide (18 ≤ hopPort h) else decide (80 ≤ hopPort h)

/-- Row and column hops alternate, and at most one column hop is followed directly by a row hop. -/
def alternates : List Bool → Nat → Bool
  | a :: b :: t, n => a != b && (if a && !b then decide (n = 0) && alternates (b :: t) 1 else alternates (b :: t) n)
  | _, _ => true

/-- The hops of a route from 0 to `n`. -/
def hopsOf (route n : Nat) : List Nat := (List.range n).map (hopAt route)

/-- An alternative word with V = 1 meets R153. -/
def altOk (w : Word) : Bool :=
  let n := bits w 62 60
  let route := bits w 39 0
  let hs := hopsOf route n
  decide (1 ≤ n) && decide (n ≤ 4) && decide (route < 2 ^ (10 * n)) && hs.all (fun h => hopKind h == 0) && alternates (hs.map hopCol) 0

/-- The kinds follow the order of R163. -/
def kindsOrdered : List Nat → Bool
  | a :: b :: t => (decide (a < b) || (a == 0 && b == 0)) && kindsOrdered (b :: t)
  | [a] => a == 3
  | [] => false

/-- A multicast route entry with V = 1 meets R163. -/
def mcrtOk (w : Word) : Bool :=
  let n := bits w 62 60
  let route := bits w 59 0
  let hs := hopsOf route n
  decide (1 ≤ n) && decide (n ≤ 6) && decide (route < 2 ^ (10 * n)) && kindsOrdered (hs.map hopKind)
    && alternates ((hs.take (n - 1)).map hopCol) 0

/-! ### The chapters' checks -/

/-- Sum of RES over a Hub die (R178). -/
def State.resSum (s : State) (d : Nat) : Nat :=
  ((dieAttachments d).map (fun a => ((List.range 8).map (fun v => s.fget Fld.hubInlim_RES a v)).sum)).sum

/-- A write of HUB_INLIM is acceptable (R178). -/
def State.inlimOk (t : State) (a v : Nat) : Bool :=
  let res := t.fget Fld.hubInlim_RES a v
  let lim := t.fget Fld.hubInlim_LIM a v
  decide (res ≤ lim) && decide (17 ≤ lim) && (!(v == 1 || v == 7) || decide (34 ≤ res)) && decide (t.resSum (dieOf a) ≤ 327680)

/-- BAD_PARAM unless the condition holds. -/
def need (b : Bool) : Nat := if b then Status.ok else Status.badParam

/-- A value lies from `lo` to `hi`. -/
def within (lo v hi : Nat) : Bool := decide (lo ≤ v) && decide (v ≤ hi)

/-- Checks of an EPB's registers: `s` before the write, `t` what the whole write would leave. -/
def State.checkEpb (s t : State) (x : RegAt) (raw : Word) : Nat :=
  let n := x.i
  let j := x.j
  match x.reg with
  | .epbTxnCtrl => need (within 10 (t.fget Fld.epbTxnCtrl_DEAD_BOUND n) 1000)
  | .epbTagLend => need (decide (t.fget Fld.epbTagLend_SPN_LEND n ≤ 16) && decide (t.fget Fld.epbTagLend_HOST_LEND n ≤ 8))
  | .epbTwtW0 | .epbTwtW1 =>
    let lim := t.fget Fld.epbTwtW1_LIMIT n j
    need (t.fget Fld.epbTwtW0_EN n j == 0 || (decide (t.fget Fld.epbTwtW0_BASE n j ≤ lim) && lim != 0x1FFFFFFF))
  | .epbTwtW2 => need (t.fget Fld.epbTwtW2_SRC_MODE n j != 3)
  | .epbFasW0 =>
    let e := gfaE (t.fget Fld.epbFasW0_ROOT n j * 4096)
    let lv := t.fget Fld.epbFasW0_LEVELS n j
    need (t.fget Fld.epbFasW0_EN n j == 0 || ((lv == 4 || lv == 5) && within 112 e 121))
  | .epbXlateCtrl => need (decide (t.fget Fld.epbXlateCtrl_PF_WALKS n ≤ 32))
  | .epbHeatCtrl => need (t.fget Fld.epbHeatCtrl_PERIOD n != 0 && t.fget Fld.epbHeatCtrl_THRESH n != 0)
  | .epbRingBase | .epbRingCqbase => need (s.ringState n j == RingSt.off)
  | .epbRingCfg =>
    let off := s.ringState n j == RingSt.off
    let same := fun (f : Fld) => s.fget f n j == t.fget f n j
    let lo := t.fget Fld.epbRingCfg_ENG_MIN n j
    let hi := t.fget Fld.epbRingCfg_ENG_MAX n j
    if t.fget Fld.epbRingCfg_DB_SRC_MODE n j = 3 ∨ hi < lo ∨ within 1 hi 8 = false
        ∨ (off || (same Fld.epbRingCfg_FAS && same Fld.epbRingCfg_ORDER && same Fld.epbRingCfg_PUSH)) = false then Status.badParam
    else if off = false ∧ same Fld.epbRingCfg_ENG_MIN = false ∧ 8 < t.engMinSum n j + lo then Status.quota
    else Status.ok
  | .epbRingTail => need (s.ringCommit n j (raw.toNat % 2 ^ 32)).isSome
  | .epbCcCtrl => need (t.fget Fld.epbCcCtrl_INC_PERIOD n != 0 && t.fget Fld.epbCcCtrl_DEC_GAP n != 0 && within 1 (t.fget Fld.epbCcCtrl_RATE_MIN n) 1024)
  | .epbAdm => need (t.fget Fld.epbAdm_BURST n j != 0 && (t.fget Fld.epbAdm_EN n j == 0 || within 1 (t.fget Fld.epbAdm_RATE n j) 1964))
  | .epbNiCtrl => need (within 1 (t.fget Fld.epbNiCtrl_NI_MAX n) 32 && t.fget Fld.epbNiCtrl_WDOG n != 0)
  | .epbToW0 => need (s.toState n j == ToSt.idle && decide (t.fget Fld.epbToW0_OP n j ≤ 4))
  | .epbToW1 | .epbToW2 | .epbToW3 | .epbToW4 | .epbToW5 => need (s.toState n j == ToSt.idle)
  | .epbToW7 => need ((!bit raw 56 || t.toArmOk n j) && (!bit raw 55 || s.toDisarmOk n j))
  | _ => Status.ok

/-- Checks of the HUB block's registers. -/
def State.checkHub (t : State) (x : RegAt) : Nat :=
  match x.reg with
  | .hubCmark => need (t.fget Fld.hubCmark_MARK1 == 0 || decide (t.fget Fld.hubCmark_MARK1 ≤ t.fget Fld.hubCmark_MARK2))
  | .hubMcrow => need (t.fget Fld.hubMcrow_EN x.i == 0 || within 64 (t.fget Fld.hubMcrow_PORT x.i) 79)
  | .hubMccol => need (t.fget Fld.hubMccol_EN x.i == 0 || within 80 (t.fget Fld.hubMccol_PORT x.i) 95)
  | .hubRtW0 | .hubRtW => need (!bit (t.rd x.reg x.i x.j) 63 || altOk (t.rd x.reg x.i x.j))
  | .hubMcrtW0 | .hubMcrtW1 => need (!bit (t.rd .hubMcrtW0 x.i) 63 || mcrtOk (t.rd .hubMcrtW0 x.i))
  | .hubInlim => need (t.inlimOk x.i x.j)
  | .hubEglim => need (decide (17 ≤ t.fget Fld.hubEglim_LIM_EG x.i x.j))
  | .hubHold => need (t.fget Fld.hubHold_HOLD_TIME != 0 && t.fget Fld.hubHold_HOLD_LIM != 0)
  | .hubMirringCtrl =>
    let size := t.fget Fld.hubMirringCtrl_SIZE
    need (decide (size ≤ 14) && (t.fget Fld.hubMirringCtrl_EN == 0 || t.mirRingOk size))
  | .hubSchedCtrl =>
    let a := t.fget Fld.hubSchedCtrl_BTC0
    let b := t.fget Fld.hubSchedCtrl_BTC1
    need (a &&& b == 0 && !(a ||| b).testBit (t.fget Fld.hubSchedCtrl_DEMOTE_TC))
  | .hubVcw => need ((List.range 8).all (fun v => t.vcw x.i v != 0))
  | .hubCoppiceLim => need (within 17 (t.fget Fld.hubCoppiceLim_COP_LIM) 393216)
  | _ => Status.ok

/-- Entry `i` of SBD_REG duplicates another enabled one, or is 0x0C (R489). -/
def State.sbdClash (t : State) (i : Nat) : Bool :=
  let a := t.fget Fld.sbdRegW0_ADDR i
  t.fget Fld.sbdRegW0_EN i == 1 && (a == 0x0C || (List.range 16).any (fun k => k != i && t.fget Fld.sbdRegW0_EN k == 1 && t.fget Fld.sbdRegW0_ADDR k == a))

/-- Checks of the other blocks' registers. -/
def State.checkRest (s t : State) (x : RegAt) : Nat :=
  let n := x.i
  let j := x.j
  match x.reg with
  | .errFringCtrl => need (decide (t.fget Fld.errFringCtrl_SIZE n ≤ 10))
  | .telHringCtrl => need (decide (t.fget Fld.telHringCtrl_SIZE n ≤ 10))
  | .spnQuota => need (decide (t.fget Fld.spnQuota_THR_MAX n ≤ 256) && decide (t.fget Fld.spnQuota_SCR_MAX n ≤ 1024))
  | .spnCtxW0 =>
    if t.fget Fld.spnCtxW0_EN n j = 1 ∧ t.fget Fld.spnCtxW0_LIMIT n j < t.fget Fld.spnCtxW0_BASE n j then Status.badParam
    else if s.scrUsed n < t.scrUsed n ∧ 16 * t.fget Fld.spnQuota_SCR_MAX n < t.scrUsed n then Status.quota
    else Status.ok
  | .spnHregScrub => need (t.fget Fld.spnHregScrub_SCRUB_HRS n != 0)
  | .rsvHeat => need (t.fget Fld.rsvHeat_PERIOD != 0)
  | .rickJrnl => need (t.fget Fld.rickJrnl_JPERIOD != 0)
  | .lnkCtrl => need (t.fget Fld.lnkCtrl_REPLAY_MAX n != 0 && t.fget Fld.lnkCtrl_QIDLE n != 0 && within 1 (t.fget Fld.lnkCtrl_CRED_PER n) 8)
  | .optGCtrl => need (decide (t.fget Fld.optGCtrl_TAKEN_LO n < t.fget Fld.optGCtrl_TAKEN_HI n) && t.fget Fld.optGCtrl_BMISS_MAX n != 0
      && within 1 (t.fget Fld.optGCtrl_DARK_MAX n) 4)
  | .optOcPwr => need (t.fget Fld.optOcPwr_LASER_MIN n != 0)
  | .errCtrl => need (within 1 (t.fget Fld.errCtrl_REC_WIN) 1000 && within 1 (t.fget Fld.errCtrl_FLAP_WIN) 1000 && within 2 (t.fget Fld.errCtrl_FLAP_N) 15)
  | .pwrDamp => need (t.fget Fld.pwrDamp_SLOT != 0 && t.fget Fld.pwrDamp_SLEW != 0 && t.fget Fld.pwrDamp_STEP_MAX != 0 && t.fget Fld.pwrDamp_I_MAX != 0)
  | .pwrRegcmp => need (within 1 (t.fget Fld.pwrRegcmp_DIS_PCT) 100 && t.fget Fld.pwrRegcmp_DIS_N != 0)
  | .pwrDwell => need (t.fget Fld.pwrDwell_DW_BANK != 0 && t.fget Fld.pwrDwell_DW_DROWSE != 0 && t.fget Fld.pwrDwell_DW_IDLE != 0)
  | .sbdCtrl => need (t.fget Fld.sbdCtrl_POLL_MS != 0)
  | .sbdRegW0 => need (!t.sbdClash n)
  | .crcPoly | .crcInit | .crcCfg => s.crcCfgCheck n (t.rd .crcPoly n) (t.rd .crcInit n) (t.rd .crcCfg n)
  | .cmdMpCfg => need (within 2 (t.fget Fld.cmdMpCfg_EMBER_MISS n) 50)
  | .cmdMboxReqBase | .cmdMboxRspBase => need (s.fget Fld.cmdMboxRspCtrl_EN == 0)
  | .cmdMboxRspCtrl =>
    let same := fun (f : Fld) => s.fget f == t.fget f
    need (within 4 (t.fget Fld.cmdMboxRspCtrl_RSP_ORDER) 8
      && (s.fget Fld.cmdMboxRspCtrl_EN == 0 || (same Fld.cmdMboxRspCtrl_RSP_ORDER && same Fld.cmdMboxRspCtrl_HOST)))
  | _ => Status.ok

/-- The status that one register's write gives: of a unit that is off under R419, and by its chapter's rules otherwise. -/
def State.regCheck (s t : State) (x : RegAt) (raw : Word) : Nat :=
  if s.regOff x then (if s.carriesRwl x raw && onlyRwl x.reg raw then Status.ok else Status.busy)
  else if x.within 0x1000000 0x2000000 then s.checkEpb t x raw
  else if x.within 0x200000 0x300000 then t.checkHub x
  else s.checkRest t x

/-- The first failing register of a write: its status and address. -/
def State.firstFail (s t : State) : List (RegAt × Word) → Option (Nat × Nat)
  | [] => none
  | e :: l => if s.regCheck t e.1 e.2 = Status.ok then s.firstFail t l else some (s.regCheck t e.1 e.2, regAddr e.1.reg e.1.i e.1.j)

end Sys2Proof.Machine
end

