-- ==== Sys2Proof/Machine/RegWrite.lean ====
section
/-! DEFINITION. Register writes: their effects, REG_READ and REG_WRITE, host BAR accesses, and the mailbox's registers (R401, R416 to R422). -/

namespace Sys2Proof.Machine
open Sys2Proof

/-! ### The mailbox's registers (R401, R422) -/

/-- One more write or commit of host port `hp` is discarded. -/
def State.barDiscard (s : State) (hp : Nat) : State := s.fsat Fld.cmdBarstat_DISCARDW hp 0 1

/-- A REQ_TAIL value that commits: EN = 1 and at most 16 commands. -/
def State.mboxCommitOk (s : State) (tail : Nat) : Bool :=
  s.fget Fld.cmdMboxRspCtrl_EN == 1 && decide ((tail + 2 ^ 32 - s.fget Fld.cmdMboxReqHead_REQ_HEAD) % 2 ^ 32 ≤ 16)

/-- A BAR write, or the mailbox's own row, that clears EN of the mailbox. -/
def clearsEn : Instr → Bool
  | .registerWrite _ addr len val => addr == 0x418 && len == 4 && !val.testBit 31
  | .mboxEnable ctrl => !ctrl.testBit 31
  | _ => false

/-- A write of REQ_TAIL by host port `hp`; a write of EN 0 in the same cycle comes first (R420). -/
def State.mboxCommit (s : State) (hp tail : Nat) : State :=
  if s.mboxCommitOk (tail % 2 ^ 32) && !s.soon clearsEn then s.fset Fld.cmdMboxReqTail_REQ_TAIL 0 0 tail else s.barDiscard hp

/-- A write of RSP_HEAD frees slots, into which held packets go. -/
def State.mboxRspHead (s : State) (head : Nat) : State := (s.fset Fld.cmdMboxRspHead_RSP_HEAD 0 0 head).mboxDrain 64

/-- A write of the mailbox's control register; EN from 0 to 1 sets the four indices to 0, and held packets
go into the empty ring. -/
def State.mboxCtrl (s : State) (w : Word) : State :=
  let s1 := s.wr .cmdMboxRspCtrl 0 0 w
  if s.fget Fld.cmdMboxRspCtrl_EN = 0 ∧ s1.fget Fld.cmdMboxRspCtrl_EN = 1 then
    ((((s1.fset Fld.cmdMboxReqTail_REQ_TAIL 0 0 0).fset Fld.cmdMboxReqHead_REQ_HEAD 0 0 0).fset Fld.cmdMboxRspHead_RSP_HEAD 0 0 0).fset
      Fld.cmdMboxRspTail_RSP_TAIL 0 0 0).mboxDrain 64
  else s1

/-! ### Effects of one register's write -/

/-- A merged value in an EPB's register, and what follows. -/
def State.applyEpb (s : State) (x : RegAt) (raw : Word) : State :=
  let n := x.i
  let j := x.j
  let s1 := s.wr x.reg n j (regMerge x.reg (s.rd x.reg n j) raw)
  match x.reg with
  | .epbRole => s.roleWrite n (bits raw 7 0)
  | .epbTxnCtrl => s1.holdEffUpdate
  | .epbHeatCtrl => if bit raw 31 then s1 else s1.heatOff n
  | .epbVisCtrl =>
    let s2 := if bit raw 0 then s1 else (s.rrcDisable n).wr x.reg n j (regMerge x.reg (s.rd x.reg n j) raw)
    if bit raw 2 then s2.rrcInval n else s2
  | .epbCcCtrl => if bit raw 31 then (s.ccEnable n).wr x.reg n j (regMerge x.reg (s.rd x.reg n j) raw) else s1.ratesHold n
  | .epbRingTail => (s.ringCommit n j (raw.toNat % 2 ^ 32)).getD s
  | .epbAdm =>
    let t : Int := if s.fget Fld.hubSchedCtrl_SHAPER_RESET_MODE = 1 then 0 else (256 * s1.fget Fld.epbAdm_BURST n j * 16 : Nat)
    s1.epbMod n (fun e => { e with tokens := tblPut e.tokens j (t, s.now) })
  | .epbToW7 =>
    let s2 := if bit raw 56 then s.toArm n j else s
    if bit raw 55 then s2.toDisarm n j else s2
  | .epbNctrW1 => s.ctrAdd n j (bits raw 31 0)
  | _ => s1

/-- The same, of the HUB block. -/
def State.applyHub (s : State) (x : RegAt) (raw : Word) : State :=
  let w := regMerge x.reg (s.rd x.reg x.i x.j) raw
  let s1 := s.wr x.reg x.i x.j w
  match x.reg with
  | .hubFence => s.fenceWrite raw.toNat
  | .hubHold => s1.holdEffUpdate
  | .hubCoord | .hubRtW0 | .hubRtW => s1.destDownUpdate
  | .hubLink => if bit raw 31 then s.adminSet x.i else s.adminClear x.i
  | .hubMirsamp => { s1 with sw := { s1.sw with mirCount := tblDrop s1.sw.mirCount (fun k => k / 2 == x.i) } }
  | .hubMirringCtrl => if s.fget Fld.hubMirringCtrl_EN = 0 ∧ bit w 31 = true then s1.mirRestart else s1
  | _ => s1

/-- The same, of a link's control register: EN, and then RETRAIN. -/
def State.applyLink (s : State) (n : Nat) (raw : Word) : State :=
  let en := s.fget Fld.lnkCtrl_EN n
  let s1 := (s.wr .lnkCtrl n 0 (regMerge .lnkCtrl (s.rd .lnkCtrl n) raw)).fset Fld.lnkCtrl_EN n 0 en
  let s2 := if bits raw 31 31 = en then s1 else s1.enWrite n (bits raw 31 31)
  if bit raw 30 then s2.failEvent n 5 else s2

/-- The same, of the other blocks. -/
def State.applyRest (s : State) (x : RegAt) (raw : Word) : State :=
  let n := x.i
  let w := regMerge x.reg (s.rd x.reg n x.j) raw
  let s1 := s.wr x.reg n x.j w
  match x.reg with
  | .spnCtxW0 => s.ctxWrite n x.j w
  | .lnkCtrl => s.applyLink n raw
  | .errStat => if bit raw 31 then s.fset Fld.errStat_FATAL 0 0 0 else s
  | .errDieCap => if bit raw 0 then s.captureArm n else s
  | .errWinW0 => if bit raw 62 then s.firClear n else s
  | .pwrDampstat => if bit raw 0 then s.fset Fld.pwrDampstat_MAXWAIT 0 0 0 else s
  | .pwrRegcmp => if bit raw 0 then s1.retrustWrite else s1
  | .sbdCtrl => if bit raw 31 then s1.reviveWrite else s1
  | .crcPoly => s.crcCfgApply n 0 w
  | .crcInit => s.crcCfgApply n 1 w
  | .crcCfg => s.crcCfgApply n 2 w
  | .crcCtrl => if bit raw 0 then s.crcRestartWrite n else s
  | .telSnapctl => if bit raw 0 then s.snap else s
  | .cmdMboxReqTail => s.mboxCommit (s.fget Fld.cmdMboxRspCtrl_HOST) (bits raw 31 0)
  | .cmdMboxRspHead => s.mboxRspHead (bits raw 31 0)
  | .cmdMboxRspCtrl => s.mboxCtrl w
  | _ => s1

/-- Apply a checked write of one register; that of a unit that is off goes to Cloentim's copy of its RWL fields. -/
def State.regApply (s : State) (x : RegAt) (raw : Word) : State :=
  if s.regOff x then s.wr x.reg x.i x.j (regMergeRwl x.reg (s.rd x.reg x.i x.j) raw)
  else if x.within 0x1000000 0x2000000 then s.applyEpb x raw
  else if x.within 0x200000 0x300000 then s.applyHub x raw
  else s.applyRest x raw

/-- Apply a checked write, in ascending address order. -/
def State.regsApply (s : State) (l : List (RegAt × Word)) : State := State.each l (fun s e => s.regApply e.1 e.2) s

/-! ### REG_READ and REG_WRITE (R416) -/

/-- ADDR and LEN, when they meet the limits. -/
def regSpan (w : Word) (max : Nat) : Option (Nat × Nat) :=
  let a := bits w 31 0
  let n := bits w 44 32
  if zeroOutside w [(44, 0)] && a % 4 == 0 && n % 4 == 0 && within 4 n max && decide (a + n ≤ 0x2000000) then some (a, n) else none

def State.cmdRegRead (s : State) (c : Cmd) : Ans :=
  match regSpan (c.word 0) 4096 with
  | none => s.noAns Status.badParam
  | some (a, n) => { st := s, status := Status.ok, results := s.regBytesAt a n }

/-- The registers that a REG_WRITE covers, each with its word. -/
def regWriteList (c : Cmd) : Option (List (RegAt × Word)) :=
  match regSpan (c.word 0) 4088 with
  | none => none
  | some (a, n) => regSplit (n / 4 + 1) a ((c.params.drop 8).take n)

def State.cmdRegWrite (s : State) (c : Cmd) : Ans :=
  match regWriteList c with
  | none => s.noAns Status.badParam
  | some l =>
    match s.firstFail (s.regsAfter l) l with
    | some (st, a) => { st := s, status := st, results := bytesOfWords [BitVec.ofNat 64 a] }
    | none => (s.regsApply l).okAns []

/-! ### Host BAR accesses (R417, R418) -/

/-- An access of 4 or 8 bytes, naturally aligned. -/
def barShape (addr len : Nat) : Bool := (len == 4 || len == 8) && addr % len == 0

/-- The address lies in the KLN block. -/
def inKln (a : Nat) : Bool := within 0x10000 a 0x1FFFF

/-- What a BAR write applies, if it is not discarded. -/
def State.barList (s : State) (addr len val : Nat) : Option (List (RegAt × Word)) :=
  if !barShape addr len || inKln addr then none
  else
    match regSplit 3 addr (toBytes len val) with
    | none => none
    | some l =>
      if s.bound && l.any (fun e => s.carriesRwl e.1 e.2) then none
      else if (s.firstFail (s.regsAfter l) l).isSome then none
      else some l

/-- A BAR write that carries a commit to a ring (R116). -/
def barRing (addr len val : Nat) : Option Nat :=
  match regSplit 3 addr (toBytes len val) with
  | some ((x, _) :: _) => if x.reg = .epbRingTail then some x.i else none
  | _ => none

/-- A write of `len` bytes at BAR0 offset `addr` by host port `hp`. -/
def State.barWrite (s : State) (hp addr len val : Nat) : State :=
  if !s.hostUp hp then s
  else
    match s.barList addr len val with
    | some l => State.each l (fun s e => if e.1.reg = .cmdMboxReqTail then s.mboxCommit hp (bits e.2 31 0) else s.regApply e.1 e.2) s
    | none =>
      let s1 := s.barDiscard hp
      match barRing addr len val with
      | some n => s1.fsat Fld.epbRingRej_REJ n 0 1
      | none => s1

def execRegisterWrite (hp addr len val : Nat) (s : State) : Res := (if hp < 2 then s.barWrite hp addr len val else s).settled

/-- A read of `len` bytes: the bytes, or Completer Abort. -/
def State.barRead (s : State) (hp id addr len : Nat) : State :=
  if !s.hostUp hp then s
  else if barShape addr len then s.emit (.barCpl hp id false (s.regBytesAt addr len))
  else (s.fsat Fld.cmdBarstat_BADACC hp 0 1).emit (.barCpl hp id true [])

def execBarRead (hp id addr len : Nat) (s : State) : Res := .next (if hp < 2 then s.barRead hp id addr len else s)

/-! ### The mailbox rows -/

def execMboxCommit (hp tail : Nat) (s : State) : Res := .next (if hp < 2 then s.mboxCommit hp tail else s)
def execMboxRspHeadWrite (head : Nat) (s : State) : Res := .next (s.mboxRspHead (head % 2 ^ 32))

/-- A write of the mailbox's control register that R422 does not refuse. -/
def execMboxEnable (ctrl : Nat) (s : State) : Res :=
  let raw : Word := BitVec.ofNat 64 (ctrl % 2 ^ 32)
  let x : RegAt := { reg := .cmdMboxRspCtrl, i := 0, j := 0, off := 0 }
  (if s.regCheck (s.regsAfter [(x, raw)]) x raw = Status.ok then s.regApply x raw else s).settled

end Sys2Proof.Machine
end

