-- ==== Sys2Proof/Machine/Command.lean ====
section
/-! DEFINITION. Cloentim and the port logic (18): arrival, taking, the duplicate check, refusal, the header and length checks, the reply and its
cache, tickets, Embers; and the commands of the chapter. -/

namespace Sys2Proof.Machine
open Sys2Proof

/-! ### The commands of this chapter (R407, R411, R475) -/

def State.cmdNop (s : State) (_c : Cmd) : Ans := s.okAns []

/-- Table — IDENT results. -/
def State.cmdIdent (s : State) (_c : Cmd) : Ans :=
  s.okAns [s.rd .cmdIdent,
    BitVec.ofNat 64 (s.xyp * 2 ^ 52 + s.bstate * 2 ^ 49 + s.fget Fld.cmdCtrl_RR * 2 ^ 48 + s.cepoch * 2 ^ 40 + s.fget Fld.klnBoot_BOOTCNT),
    s.rd .klnDevid 0, s.rd .klnDevid 1, BitVec.ofNat 64 (s.fget Fld.cmdMpMac_MAC 0), BitVec.ofNat 64 (s.fget Fld.cmdMpMac_MAC 1)]

/-- Result word 0 of a TICKET_QUERY. -/
def ticketWord (t : Ticket) : Nat := b2n t.done * 2 ^ 63 + t.cmd.opcode * 2 ^ 32 + (if t.done then t.status else 0) * 2 ^ 16 + t.cmd.seq

def State.cmdTicketQuery (s : State) (c : Cmd) : Ans :=
  let n := (c.word 0).toNat
  match tblFind s.cmd.tickets (n % 256) with
  | none => s.noAns Status.badParam
  | some t =>
    if s.ticketNo (n % 256) ≠ n then s.noAns Status.badParam
    else { st := s, status := Status.ok, results := wordBytes (BitVec.ofNat 64 (ticketWord t)) ++ (if t.done then t.results else []) }

/-- CMD_SERVICE with MODE 0: strict priority; NORMAL returns to READY, and every domain that sleeps wakes (R471). -/
def State.cmdServiceStrict (s : State) (c : Cmd) : Ans :=
  if c.word 0 ≠ 0 then s.noAns Status.badParam
  else
    let s1 := ({ s with boot := { s.boot with service := false } }).fset Fld.cmdCtrl_RR 0 0 0
    let asleep := (List.range 50).filter (fun d => s.domState d != Pwr.active)
    (if s.phase = Phase.normal then State.each asleep State.wake (s1.phaseSet Phase.ready) else s1).okAns []

/-- CMD_SERVICE with MODE 1: round robin; READY becomes NORMAL (R471). -/
def State.cmdServiceRound (s : State) (c : Cmd) : Ans :=
  if c.word 0 ≠ 1 then s.noAns Status.badParam
  else ((({ s with boot := { s.boot with service := true } }).fset Fld.cmdCtrl_RR 0 0 1).serviceStart).okAns []

def State.cmdService (s : State) (c : Cmd) : Ans := if bit (c.word 0) 0 then s.cmdServiceRound c else s.cmdServiceStrict c

def State.cmdBootStatus (s : State) (_c : Cmd) : Ans := s.okAns [s.rd .cmdBootW0, s.rd .cmdBootW1, s.rd .cmdHeld0, s.rd .cmdHeld1]

/-- A search runs on group `g`, or an OPT_SEARCH of it; a single-ring relock that began in this cycle gives way to the command (R371). -/
def State.groupSearching (s : State) (g : Nat) : Bool :=
  (List.range 5).any (fun b => match tblFind s.opt.search (busKey g b) with
    | some x => x.single.isNone || x.at_ != s.now
    | none => false) || s.opt.cmds.any (fun x => x.group == g)

def State.cmdOptSearch (s : State) (c : Cmd) : Ans :=
  let w := c.word 0
  let g := bits w 4 0
  if !zeroOutside w [(36, 32), (4, 0)] || bits w 36 32 == 0 then s.noAns Status.badParam
  else if s.groupSearching g then s.noAns Status.busy
  else s.defer c (fun t s => s.optSearch g (bits w 36 32) t)

/-- SPN_THREAD, by its ACTION: a reserved one is refused by the format check. -/
def State.cmdThread (s : State) (c : Cmd) : Ans :=
  if bits (c.word 0) 47 46 = 0 then s.cmdThreadStart c
  else if bits (c.word 0) 47 46 = 2 then s.cmdThreadSetrole c
  else s.cmdThreadStop c

/-- RSV_STREAM, by its ACTION; actions 2 and 3 are reserved. -/
def State.cmdStream (s : State) (c : Cmd) : Ans :=
  if bits (c.word 0) 59 58 = 0 then s.cmdStreamStart c
  else if bits (c.word 0) 59 58 = 1 then s.cmdStreamStop c
  else s.noAns Status.badParam

/-! ### Opcodes and parameter lengths (R410, R534) -/

/-- Opcodes that the sideband accepts. -/
def opsSideband : List Nat := [0x0001, 0x0002, 0x0003, 0x0010, 0x0100, 0x0101, 0x0280, 0x0281, 0x0291, 0x0300]

/-- The other opcodes that a queue accepts; Ember is none of them. -/
def opsOther : List Nat :=
  [0x0006, 0x0011, 0x0213, 0x0214, 0x0220, 0x0221, 0x0230, 0x0231, 0x0240, 0x0241, 0x0250, 0x0260, 0x0261, 0x0262, 0x0263, 0x0264,
   0x0270, 0x0282, 0x0290, 0x02A0, 0x0301, 0x0302, 0x0310, 0x0311, 0x0320]

/-- The opcode is assigned and permitted on partner `p`. -/
def opPermitted (p op : Nat) : Bool := opsSideband.contains op || (p != 3 && opsOther.contains op)

/-- Opcodes whose parameters are of a fixed length, with it (Table — parameter lengths). -/
def plenTable : List (Nat × Nat) :=
  [(0x0001, 0), (0x0002, 0), (0x0003, 8), (0x0006, 8), (0x0010, 8), (0x0100, 8), (0x0101, 0), (0x0213, 16), (0x0214, 16), (0x0220, 8), (0x0221, 8),
   (0x0230, 24), (0x0231, 16), (0x0240, 24), (0x0241, 32), (0x0250, 16), (0x0260, 24), (0x0261, 24), (0x0262, 24), (0x0263, 24), (0x0264, 40),
   (0x0270, 8), (0x0281, 0), (0x0282, 0), (0x0290, 8), (0x0291, 8), (0x02A0, 24), (0x0300, 16), (0x0301, 8), (0x0302, 8), (0x0310, 16), (0x0311, 24)]

/-- PLEN is what R534 gives for the opcode. -/
def plenOk (c : Cmd) : Bool :=
  if c.opcode = 0x0011 then c.plen == 8 + bits (c.word 0) 44 32
  else if c.opcode = 0x0320 then c.plen == 8 + bits (c.word 0) 23 16
  else if c.opcode = 0x0280 then decide (1 ≤ c.plen) && decide (c.plen ≤ 4064)
  else plenTable.any (fun x => x.1 == c.opcode && x.2 == c.plen)

/-! ### Refusals (R387, R392, R394) -/

/-- Offset of an address in its register block (R415). -/
def blockOffset (a : Nat) : Nat :=
  if a < 0xA0000 then a % 0x10000
  else if a < 0xC0000 then a - 0xA0000
  else if a < 0xE0000 then a - 0xC0000
  else if a < 0x100000 then a - 0xE0000
  else if a < 0x200000 then a - 0x100000
  else if a < 0x1000000 then a - 0x200000
  else (a - 0x1000000) % 0x40000

/-- The word that a register holds once the bytes `l`, from its byte `off`, are written over it. -/
def overlay (w : Word) (off : Nat) (l : List Byte) : Word :=
  BitVec.ofNat 64 (ofBytes ((wordBytes w).take off ++ l.take (8 - off) ++ (wordBytes w).drop (off + l.length)))

/-- The first of `n` bytes from `a` that makes a REG_WRITE of the data `l` refused: the reason, and the offset of its register. -/
def State.spanRefusal (s : State) : Nat → Nat → List Byte → Option (Nat × Nat)
  | 0, _, _ => none
  | n + 1, a, l =>
    match regAt a with
    | none => if inKln a then some (2, blockOffset a) else s.spanRefusal n (a + 1) (l.drop 1)
    | some x =>
      let b := regAddr x.reg x.i x.j
      if inKln a then some (2, blockOffset b)
      else if s.bound && s.carriesRwl x (overlay (s.rd x.reg x.i x.j) x.off (l.take (regBytes x.reg - x.off))) then some (1, blockOffset b)
      else s.spanRefusal n (a + 1) (l.drop 1)

/-- The refusal of a REG_WRITE (R387, R392, R417): it is decided before any other check, so over the bytes that ADDR and LEN span. -/
def State.writeRefusal (s : State) (c : Cmd) : Option (Nat × Nat) :=
  let n := bits (c.word 0) 44 32
  s.spanRefusal n (bits (c.word 0) 31 0) ((c.params.drop 8).take n)

/-- A Rick command or a START names an object whose RICK key Kiln does not hold; a RICK_WRITE that would create it needs a key. -/
def State.rickKeyMissing (s : State) (o : Nat) (creates : Bool) : Bool :=
  match s.object o with
  | some x => s.kln.rickKey.map keyId != some x.keyid
  | none => creates && s.kln.rickKey.isNone

/-- A RICK_SEAL that would need a new entry of a full measurement log. -/
def State.sealFull (s : State) (c : Cmd) : Bool :=
  match s.poolBytes (c.word 1).toNat (rickCount c) with
  | some m => s.logFull 4 (rickObj c) (digestWords m)
  | none => false

/-- The refusal decision: REASON and DETAIL. -/
def State.refusal (s : State) (c : Cmd) : Option (Nat × Nat) :=
  let op := c.opcode
  if op = 0x0011 then s.writeRefusal c
  else if op = 0x0300 then (if bit (c.word 0) 42 && bits (c.word 1) 1 0 != 0 then some (3, 0) else none)
  else if op = 0x0240 then (if s.loadFull c then some (7, 0) else none)
  else if !s.bound then none
  else if op = 0x0282 then some (4, 0)
  else if op = 0x0264 then
    (if bits (c.word 0) 59 58 ≠ 0 then none
     else if s.kln.weightKey.isNone then some (5, bits (c.word 1) 63 52)
     else if s.rickKeyMissing (bits (c.word 1) 63 52) false then some (6, bits (c.word 1) 63 52)
     else none)
  else if op = 0x0260 ∨ op = 0x0261 ∨ op = 0x0262 then
    (if s.rickKeyMissing (rickObj c) (op == 0x0260) then some (6, rickObj c)
     else if op = 0x0261 ∧ s.sealFull c = true then some (7, rickObj c)
     else none)
  else none

/-- An entry of the refusal log, which holds the newest 256. -/
def State.logRefusal (s : State) (p : Nat) (c : Cmd) (reason detail : Nat) : State :=
  let e := [s.rd .telTime, BitVec.ofNat 64 (c.opcode * 2 ^ 48 + p * 2 ^ 44 + c.seq * 2 ^ 16 + reason * 2 ^ 8), BitVec.ofNat 64 detail, 0]
  let l := s.kln.refusals ++ [e]
  { s with kln := { s.kln with refusals := l.drop (l.length - 256) } }

/-! ### The reply caches (R408) -/

/-- Entries of the reply cache of a sequence space. -/
def cacheSize (sp : Nat) : Nat := if sp = 2 then 16 else 64

/-- The command packet with PARTNER and RETRY taken as 0. -/
def cmdBytes (c : Cmd) : List Byte :=
  bytesOfWords [BitVec.ofNat 64 (c.version * 2 ^ 56 + b2n c.reply * 2 ^ 51 + b2n c.event * 2 ^ 50 + c.resv % 2 * 2 ^ 48 + c.opcode * 2 ^ 32
    + c.seq * 2 ^ 16 + c.resv / 2 % 8 * 2 ^ 13 + c.plen), BitVec.ofNat 64 c.word1] ++ c.params

/-- CRC-32C of a command packet. -/
def cmdCrc (c : Cmd) : Nat := crcValue 32 true true (crcBytes 32 0x1EDC6F41 true 0xFFFFFFFF (cmdBytes c))

def State.cached (s : State) (sp seq : Nat) : Option CachedReply := (tblGet [] s.cmd.caches sp).find? (fun e => e.seq == seq)

/-- A new entry replaces the oldest. -/
def State.cachePut (s : State) (sp : Nat) (e : CachedReply) : State :=
  { s with cmd := { s.cmd with caches := tblPut s.cmd.caches sp ((e :: tblGet [] s.cmd.caches sp).take (cacheSize sp)) } }

/-- The completion event of a command goes to the port of its latest retry (R406), in a frame to that retry's source. -/
def State.retarget (s : State) (r : Reply) (p : Nat) (c : Cmd) : State :=
  if r.status ≠ Status.accepted then s
  else
    match tblFind s.cmd.tickets (r.ticket % 256) with
    | some t => if s.ticketNo (r.ticket % 256) = r.ticket then
        { s with cmd := { s.cmd with tickets := tblPut s.cmd.tickets (r.ticket % 256) { t with port := p, cmd := { t.cmd with src := c.src, tag := c.tag } } } } else s
    | none => s

/-- An earlier copy of the SEQ in the same sequence space is still queued; the queue of MP0 or MP1 that holds it. -/
def State.earlierCopy (s : State) (p seq time : Nat) : Option Nat :=
  if p ≤ 1 ∧ (s.queueOf (1 - p)).any (fun q => q.cmd.seq == seq && decide (q.time < time)) = true then some (1 - p) else none

/-- A refused reply waits for its 20 µs. -/
def State.refuseLater (s : State) (r : Reply) : State := { s with cmd := { s.cmd with refused := s.cmd.refused ++ [(r, s.now)] } }

/-- The oldest REFUSED reply is placed, 20.0 µs after its take (R392). -/
def State.refusalReply (s : State) : State :=
  match s.cmd.refused with
  | [] => s
  | (r, t) :: rest =>
    if s.now < t + us 20 then s else ({ s with cmd := { s.cmd with refused := rest } } : State).placeHeld r

/-! ### Handling (R403, R470, R457) -/

/-- Step 3: the header's fields. -/
def cmdHeaderOk (c : Cmd) (p : Nat) : Bool :=
  c.version == 1 && !c.reply && !c.event && c.resv == 0 && c.partner == p && c.word1 == 0

/-- Opcodes carried out from RICK_WAIT onward (R457). -/
def opsQuenched : List Nat := [0x0001, 0x0002, 0x0003, 0x0010, 0x0101, 0x0291, 0x0280, 0x0281]

/-- The boot phase or the quench state answers BUSY. -/
def State.phaseBusy (s : State) (c : Cmd) : Bool :=
  (decide (s.phase < Phase.units) && c.opcode != 0x0280) || ((s.phase == Phase.quenched || s.quenched) && !opsQuenched.contains c.opcode)

/-- Steps 3 to 6; the command's own checks are those of `run`. -/
def State.handled (s : State) (p : Nat) (c : Cmd) (run : State → Cmd → Ans) : Ans :=
  if !cmdHeaderOk c p then s.noAns Status.badParam
  else if !opPermitted p c.opcode then s.noAns Status.invalidOpcode
  else if !plenOk c then s.noAns Status.badParam
  else if s.phaseBusy c then s.noAns Status.busy
  else run s c

/-- The domains that the work of a command needs: of EPBs, clusters, stacks, the Rick, the reservoir engine, an optical chiplet, check-value units. -/
def cmdDomains (c : Cmd) : List Nat :=
  let w := c.word 0
  match c.opcode with
  | 0x0213 => ((setBitsOf (c.word 1) 64).map (· / 8)).eraseDups
  | 0x0214 => if bits w 13 12 = 2 then [10 + bits w 7 4] else [bits w 5 3]
  | 0x0220 => [bits w 13 11]
  | 0x0221 => [bits w 13 11]
  | 0x0240 => (setBitsOf w 16).map (10 + ·)
  | 0x0241 => [10 + bits w 39 36]
  | 0x0250 => (regionStacks c).map (26 + ·)
  | 0x0260 => [45]
  | 0x0261 => [45]
  | 0x0262 => [45]
  | 0x0263 => [45]
  | 0x0264 => [45, 49]
  | 0x0270 => [34 + bits w 4 2]
  | 0x0311 => [46]
  | _ => []

/-- A command that is carried out, or that finds its unit busy and no phase or quench forbids, is a wake cause of the domains that its work needs
(R446). -/
def State.cmdWakes (s : State) (c : Cmd) (status : Nat) : State :=
  if status = Status.ok ∨ status = Status.accepted ∨ status = Status.flushed ∨ (status = Status.busy ∧ s.phaseBusy c = false) then
    State.each (cmdDomains c) State.wake s
  else s

/-- Step 1 does not end the handling: the refusal decision, or steps 3 to 6 and the reply. `port` is where a completion event goes. -/
def State.handleNew (s : State) (p port : Nat) (c : Cmd) (run : State → Cmd → Ans) : State :=
  match s.refusal c with
  | some (reason, detail) =>
    let r := s.replyTo p c (Status.refused, 0, [])
    (((s.logRefusal p c reason detail).cachePut (seqSpace p) { seq := c.seq, crc := cmdCrc c, reply := r, placed := false })).refuseLater r
  | none =>
    let a := s.handled p c run
    let r := s.replyTo p c (a.status, a.ticket, a.results)
    match a.later with
    | some f => f r (a.st.cachePut (seqSpace p) { seq := c.seq, crc := cmdCrc c, reply := r, placed := false })
    | none => (a.after ((((a.st.cachePut (seqSpace p) { seq := c.seq, crc := cmdCrc c, reply := r })).retarget r port c).placeAt r).1).cmdWakes c a.status

/-- Cloentim handles a command that it has taken of partner `p`; it arrived on `port` at `time`. A refused reply whose time has come is placed first
(R420). -/
def State.handle (s : State) (p port time : Nat) (c : Cmd) (run : State → Cmd → Ans) : State :=
  let s1 := (State.each s.cmd.refused (fun s _ => s.refusalReply) s).fsat Fld.cmdPstatCnt_TAKEN p 0 1
  match s1.cached (seqSpace p) c.seq with
  | some e =>
    if !e.placed then s1.fsat Fld.cmdPstatCnt_DUPS p 0 1
    else if e.crc = cmdCrc c then
      let r := s1.replyTo p c (e.reply.status, e.reply.ticket, e.reply.body)
      let s2 := (s1.fsat Fld.cmdPstatCnt_RETRIED p 0 1).retarget r port c
      if r.status = Status.refused then s2.refuseLater r else (s2.placeAt r).1
    else ((s1.fsat Fld.cmdPstatErr_SEQCLASH p 0 1).placeAt (s1.replyTo p c (Status.badParam, 0, []))).1
  | none =>
    match s1.earlierCopy p c.seq time with
    | some q =>
      let l := (s1.queueOf q).map (fun x => if x.cmd.seq = c.seq then { x with port := port } else x)
      ({ s1 with cmd := { s1.cmd with queues := tblPut s1.cmd.queues q l } }).fsat Fld.cmdPstatCnt_DUPS p 0 1
    | none => s1.handleNew p port c run

/-- A row of a command: Cloentim takes it from the partner it names. In KINDLING and FAILED the port logic answers. -/
def State.cmdRow (s : State) (c : Cmd) (mine : Bool) (run : State → Cmd → Ans) : Res :=
  if !mine || s.boot.inReset || decide (3 < c.partner) then .next s
  else if s.noCloentim then .next (s.placeAt (s.replyTo c.partner c (Status.busy, 0, []))).1
  else (s.handle c.partner c.partner s.now c run).settled

/-! ### Taking (R398, R401, R404) -/

/-- The command of an opcode. `ext`: the words that FAULT_RESUME's walks read of host memory. -/
def runCmd (ext : List (List Word)) (s : State) (c : Cmd) : Ans :=
  match c.opcode with
  | 0x0001 => s.cmdNop c
  | 0x0002 => s.cmdIdent c
  | 0x0003 => s.cmdTicketQuery c
  | 0x0006 => s.cmdService c
  | 0x0010 => s.cmdRegRead c
  | 0x0011 => s.cmdRegWrite c
  | 0x0100 => s.cmdResetUnit c
  | 0x0101 => s.cmdBootStatus c
  | 0x0213 => s.cmdXlateInval c
  | 0x0214 => s.cmdFaultResume c ext
  | 0x0220 => s.cmdRingFlush c
  | 0x0221 => s.cmdRingCtrl c
  | 0x0230 => s.cmdSchedMode c
  | 0x0231 => s.cmdQueueSet c
  | 0x0240 => s.cmdProgLoad c
  | 0x0241 => s.cmdThread c
  | 0x0250 => s.cmdRegionSet c
  | 0x0260 => s.cmdRickWrite c
  | 0x0261 => s.cmdRickSeal c
  | 0x0262 => s.cmdRickRead c
  | 0x0263 => s.cmdRickDelete c
  | 0x0264 => s.cmdStream c
  | 0x0270 => s.cmdOptSearch c
  | 0x0280 => s.cmdKlnSpdm c
  | 0x0281 => s.cmdKlnUnbind c
  | 0x0282 => s.cmdKlnDebug c
  | 0x0290 => s.cmdErrArm c
  | 0x0291 => s.cmdErrFifoRead c
  | 0x02A0 => s.cmdCoppice c
  | 0x0300 => s.cmdPwrSet c
  | 0x0301 => s.cmdPwrTolerance c
  | 0x0302 => s.cmdPwrCapArm c
  | 0x0310 => s.cmdTimeAlign c
  | 0x0311 => s.cmdCrcFeed c
  | 0x0320 => s.cmdSbdXfer c
  | _ => s.noAns Status.invalidOpcode

/-- Partner `p` has a command waiting; the mailbox's queue is its command ring. -/
def State.cmdWaiting (s : State) (p : Nat) : Bool :=
  if p = 2 then s.fget Fld.cmdMboxRspCtrl_EN == 1 && s.fget Fld.cmdMboxReqTail_REQ_TAIL != s.fget Fld.cmdMboxReqHead_REQ_HEAD
  else !(s.queueOf p).isEmpty

/-- The partner that Cloentim serves next. -/
def State.nextPartner (s : State) : Option Nat :=
  let order := if s.fget Fld.cmdCtrl_RR = 1 then (List.range 4).map (fun i => (s.cmd.lastServed + 1 + i) % 4) else List.range 4
  order.find? s.cmdWaiting

/-- Remove the command at the head of a queue. -/
def State.takeFrom (s : State) (p : Nat) (mb : Cmd) : Option (Queued × State) :=
  let s1 : State := { s with cmd := { s.cmd with lastServed := p } }
  if p = 2 then some ({ cmd := mb, port := 2, time := s.now }, s1.fwrap Fld.cmdMboxReqHead_REQ_HEAD 0 0 1)
  else
    match s.queueOf p with
    | [] => none
    | q :: t => some (q, { s1 with cmd := { s1.cmd with queues := tblPut s1.cmd.queues p t } })

/-- Cloentim takes the next command. -/
def State.takeNext (s : State) (mb : Cmd) (ext : List (List Word)) : State :=
  if s.boot.inReset || s.noCloentim then s
  else
    match s.nextPartner with
    | none => s
    | some p =>
      match s.takeFrom p mb with
      | none => s
      | some (q, s1) => s1.handle p q.port q.time q.cmd (runCmd ext)

def execCommandTake (mb : Cmd) (ext : List (List Word)) (s : State) : Res := (s.takeNext mb ext).settled

def execRefusalReply (s : State) : Res := .next s.refusalReply

/-! ### Embers (R413) -/

/-- Ember states. -/
def Ember.wait : Nat := 0
def Ember.alive : Nat := 1
def Ember.lost : Nat := 2

/-- Body of EMBER_LOST and EMBER_BACK. -/
def State.emberBody (s : State) (p : Nat) : List Byte := bytesOfWords [BitVec.ofNat 64 p, s.rd .cmdMpEmber p]

/-- A packet with the Ember opcode arrives on management port `p`: it is valid with PLEN 16; one whose reserved header bits are not zero is ignored
(R7). -/
def State.emberIn (s : State) (p : Nat) (c : Cmd) : State :=
  if s.boot.inReset || s.fget Fld.cmdMpStat_LINK p == 0 || c.opcode != 0x0004 || c.plen != 16 || c.resv != 0 then s
  else
    let was := s.fget Fld.cmdMpStat_EMBER p
    let s1 := ((s.wr .cmdMpEmber p 0 (c.word 1)).wr .cmdMpEmbert p 0 (s.rd .telTime)).fset Fld.cmdMpStat_EMBER p 0 Ember.alive
    let s2 : State := { s1 with cmd := { s1.cmd with emberAt := tblPut s1.cmd.emberAt p s1.now } }
    if was = Ember.lost then State.each [0, 1, 2] (fun s q => s.eventTo q 0x0F02 (s.emberBody p)) s2 else s2

/-- Port `p` enters LOST. -/
def State.emberLost (s : State) (p : Nat) : State :=
  let s1 := (s.fset Fld.cmdMpStat_EMBER p 0 Ember.lost).fsat Fld.cmdMpStat_LOSSES p 0 1
  let s2 := State.each [1 - p, 2] (fun s q => s.eventTo q 0x0F01 (s.emberBody p)) s1
  s2.errRec 0 0x08 12 p [(s2.rd .cmdMpEmber p).toNat]

/-- The miss timer of port `p` has expired. -/
def State.emberDue (s : State) (p : Nat) : Bool :=
  decide (tblGet 0 s.cmd.emberAt p + us (100 * s.fget Fld.cmdMpCfg_EMBER_MISS p) ≤ s.now)

/-- A command that may be an Ember at port `p`. -/
def bringsEmber (p : Nat) : Instr → Bool
  | .ember q _ => q == p
  | .mgmtFrameReceive q _ _ _ _ c => q == p && c.opcode == 0x0004
  | _ => false

/-- The miss timer expires, or the link goes down; an Ember that arrives in the cycle of the expiry comes first (R420). -/
def State.emberMiss (s : State) (p : Nat) (down : Bool) : State :=
  let s1 := if down then s.fset Fld.cmdMpStat_LINK p 0 0 else s
  let due := s.emberDue p && !s.soon (bringsEmber p)
  if s.fget Fld.cmdMpStat_EMBER p = Ember.alive ∧ (down = true ∨ due = true) then s1.emberLost p else s1

def execEmber (port : Nat) (c : Cmd) (s : State) : Res := (if port < 2 then s.emberIn port c else s).settled
def execEmberMiss (port : Nat) (down : Bool) (s : State) : Res := (if port < 2 then s.emberMiss port down else s).settled

/-- A management port's link comes up. -/
def execMgmtPortLinkUp (port : Nat) (s : State) : Res :=
  .next (if port < 2 ∧ s.boot.inReset = false then s.fset Fld.cmdMpStat_LINK port 0 1 else s)

/-! ### Arrival (R398, R399) -/

/-- A command or an Ember at a management port. -/
def State.mpArrive (s : State) (p : Nat) (c : Cmd) : State :=
  if c.opcode = 0x0004 then s.emberIn p c
  else
    let s1 := s.arrive p p c
    if (s.queueOf p).length < (s1.queueOf p).length then s1.fsat Fld.cmdMpFrames_RX p 0 1 else s1

/-- The frame passes the filters of R399; `len` counts the bytes of packet that it carries. -/
def State.frameOk (s : State) (p ety src dst len plen : Nat) : Bool :=
  ety == s.fget Fld.cmdMpCfg_ETYPE p && dst == s.fget Fld.cmdMpMac_MAC p
    && (s.fget Fld.cmdMpCfg_PEER_EN p == 0 || src == s.fget Fld.cmdMpPeer_PEER_MAC p) && decide (16 + plen ≤ len)

/-- A frame on management port `p`. -/
def State.frame (s : State) (p ety dst len : Nat) (c : Cmd) : State :=
  if s.boot.inReset || s.fget Fld.cmdMpStat_LINK p == 0 then s
  else if s.frameOk p ety c.src dst len c.plen then s.mpArrive p c
  else s.fsat Fld.cmdMpFrames_DISCARD p 0 1

def execMgmtFrameReceive (port ety src dst len : Nat) (c : Cmd) (s : State) : Res :=
  (if port < 2 then s.frame port ety dst len { c with src := src } else s).settled

/-- A command reaches the queue of partner 0, 1 or 3; the mailbox's commands enter by MBOX_COMMIT. -/
def execCommandArrive (partner : Nat) (c : Cmd) (s : State) : Res :=
  (if partner < 2 then s.mpArrive partner c else if partner = 3 then s.arrive 3 3 c else s).settled

end Sys2Proof.Machine
end

