-- ==== Sys2Proof/Machine/CommandRows.lean ====
section
/-! DEFINITION. One meaning per command row: Cloentim takes the command from the partner that it names and handles it (R403). A row of one ACTION or
MODE of a command answers only packets that carry it. -/

namespace Sys2Proof.Machine
open Sys2Proof

/-- NOP. -/
def execNop (c : Cmd) (s : State) : Res := s.cmdRow c (c.opcode == 0x0001) State.cmdNop
/-- IDENT. -/
def execIdent (c : Cmd) (s : State) : Res := s.cmdRow c (c.opcode == 0x0002) State.cmdIdent
/-- TICKET_QUERY. -/
def execTicketQuery (c : Cmd) (s : State) : Res := s.cmdRow c (c.opcode == 0x0003) State.cmdTicketQuery
/-- CMD_SERVICE, MODE 0. -/
def execCmdServiceStrict (c : Cmd) (s : State) : Res := s.cmdRow c (c.opcode == 0x0006 && !bit (c.word 0) 0) State.cmdServiceStrict
/-- CMD_SERVICE, MODE 1. -/
def execCmdServiceRoundRobin (c : Cmd) (s : State) : Res := s.cmdRow c (c.opcode == 0x0006 && bit (c.word 0) 0) State.cmdServiceRound
/-- REG_READ. -/
def execRegRead (c : Cmd) (s : State) : Res := s.cmdRow c (c.opcode == 0x0010) State.cmdRegRead
/-- REG_WRITE. -/
def execRegWrite (c : Cmd) (s : State) : Res := s.cmdRow c (c.opcode == 0x0011) State.cmdRegWrite
/-- RESET_UNIT, ACTION 0. -/
def execResetUnitPulse (c : Cmd) (s : State) : Res := s.cmdRow c (c.opcode == 0x0100 && resetAction c == 0) State.cmdResetUnit
/-- RESET_UNIT, ACTION 1. -/
def execResetUnitAssert (c : Cmd) (s : State) : Res := s.cmdRow c (c.opcode == 0x0100 && resetAction c == 1) State.cmdResetUnit
/-- RESET_UNIT, ACTION 2. -/
def execResetUnitRelease (c : Cmd) (s : State) : Res := s.cmdRow c (c.opcode == 0x0100 && resetAction c == 2) State.cmdResetUnit
/-- BOOT_STATUS. -/
def execBootStatus (c : Cmd) (s : State) : Res := s.cmdRow c (c.opcode == 0x0101) State.cmdBootStatus
/-- XLATE_INVAL. -/
def execXlateInval (c : Cmd) (s : State) : Res := s.cmdRow c (c.opcode == 0x0213) State.cmdXlateInval
/-- FAULT_RESUME. -/
def execFaultResume (c : Cmd) (ext : List (List Word)) (s : State) : Res := s.cmdRow c (c.opcode == 0x0214) (fun s c => s.cmdFaultResume c ext)
/-- RING_FLUSH. -/
def execRingFlush (c : Cmd) (s : State) : Res := s.cmdRow c (c.opcode == 0x0220) State.cmdRingFlush
/-- RING_CTRL, OPEN. -/
def execRingCtrlOpen (c : Cmd) (s : State) : Res := s.cmdRow c (c.opcode == 0x0221 && bits (c.word 0) 17 16 == 0) State.cmdRingCtrl
/-- RING_CTRL, RUN. -/
def execRingCtrlRun (c : Cmd) (s : State) : Res := s.cmdRow c (c.opcode == 0x0221 && bits (c.word 0) 17 16 == 1) State.cmdRingCtrl
/-- RING_CTRL, CLOSE. -/
def execRingCtrlClose (c : Cmd) (s : State) : Res := s.cmdRow c (c.opcode == 0x0221 && bits (c.word 0) 17 16 == 2) State.cmdRingCtrl
/-- SCHED_MODE, MODE 0. -/
def execSchedModeNormal (c : Cmd) (s : State) : Res := s.cmdRow c (c.opcode == 0x0230 && !bit (c.word 0) 0) State.cmdSchedMode
/-- SCHED_MODE, MODE 1. -/
def execSchedModeStrict (c : Cmd) (s : State) : Res := s.cmdRow c (c.opcode == 0x0230 && bit (c.word 0) 0) State.cmdSchedMode
/-- QUEUE_SET. -/
def execQueueSet (c : Cmd) (s : State) : Res := s.cmdRow c (c.opcode == 0x0231) State.cmdQueueSet
/-- SPN_PROG_LOAD. -/
def execSpnProgLoad (c : Cmd) (s : State) : Res := s.cmdRow c (c.opcode == 0x0240) State.cmdProgLoad
/-- SPN_THREAD, START. -/
def execSpnThreadStart (c : Cmd) (s : State) : Res := s.cmdRow c (c.opcode == 0x0241 && bits (c.word 0) 47 46 == 0) State.cmdThreadStart
/-- SPN_THREAD, STOP. -/
def execSpnThreadStop (c : Cmd) (s : State) : Res := s.cmdRow c (c.opcode == 0x0241 && bits (c.word 0) 47 46 == 1) State.cmdThreadStop
/-- SPN_THREAD, SETROLE. -/
def execSpnThreadSetrole (c : Cmd) (s : State) : Res := s.cmdRow c (c.opcode == 0x0241 && bits (c.word 0) 47 46 == 2) State.cmdThreadSetrole
/-- HBM_REGION_SET. -/
def execHbmRegionSet (c : Cmd) (s : State) : Res := s.cmdRow c (c.opcode == 0x0250) State.cmdRegionSet
/-- RICK_WRITE. -/
def execRickWrite (c : Cmd) (s : State) : Res := s.cmdRow c (c.opcode == 0x0260) State.cmdRickWrite
/-- RICK_SEAL. -/
def execRickSeal (c : Cmd) (s : State) : Res := s.cmdRow c (c.opcode == 0x0261) State.cmdRickSeal
/-- RICK_READ. -/
def execRickRead (c : Cmd) (s : State) : Res := s.cmdRow c (c.opcode == 0x0262) State.cmdRickRead
/-- RICK_DELETE. -/
def execRickDelete (c : Cmd) (s : State) : Res := s.cmdRow c (c.opcode == 0x0263) State.cmdRickDelete
/-- RSV_STREAM, START. -/
def execRsvStreamStart (c : Cmd) (s : State) : Res := s.cmdRow c (c.opcode == 0x0264 && bits (c.word 0) 59 58 == 0) State.cmdStreamStart
/-- RSV_STREAM, STOP. -/
def execRsvStreamStop (c : Cmd) (s : State) : Res := s.cmdRow c (c.opcode == 0x0264 && bits (c.word 0) 59 58 == 1) State.cmdStreamStop
/-- OPT_SEARCH. -/
def execOptSearch (c : Cmd) (s : State) : Res := s.cmdRow c (c.opcode == 0x0270) State.cmdOptSearch
/-- KLN_SPDM. -/
def execKlnSpdm (c : Cmd) (s : State) : Res := s.cmdRow c (c.opcode == 0x0280) State.cmdKlnSpdm
/-- KLN_UNBIND. -/
def execKlnUnbind (c : Cmd) (s : State) : Res := s.cmdRow c (c.opcode == 0x0281) State.cmdKlnUnbind
/-- KLN_DEBUG. -/
def execKlnDebug (c : Cmd) (s : State) : Res := s.cmdRow c (c.opcode == 0x0282) State.cmdKlnDebug
/-- ERR_ARM. -/
def execErrArm (c : Cmd) (s : State) : Res := s.cmdRow c (c.opcode == 0x0290) State.cmdErrArm
/-- ERR_FIFO_READ. -/
def execErrFifoRead (c : Cmd) (s : State) : Res := s.cmdRow c (c.opcode == 0x0291) State.cmdErrFifoRead
/-- PWR_TOLERANCE. -/
def execPwrTolerance (c : Cmd) (s : State) : Res := s.cmdRow c (c.opcode == 0x0301) State.cmdPwrTolerance
/-- PWR_SET. -/
def execPwrSet (c : Cmd) (s : State) : Res := s.cmdRow c (c.opcode == 0x0300) State.cmdPwrSet
/-- PWR_CAP_ARM, CLEAR 0. -/
def execPwrCapArm (c : Cmd) (s : State) : Res := s.cmdRow c (c.opcode == 0x0302 && !bit (c.word 0) 8) State.cmdPwrCapArm
/-- PWR_CAP_ARM, CLEAR 1. -/
def execPwrCapClear (c : Cmd) (s : State) : Res := s.cmdRow c (c.opcode == 0x0302 && bit (c.word 0) 8) State.cmdPwrCapArm
/-- SBD_XFER. -/
def execSbdXfer (c : Cmd) (s : State) : Res := s.cmdRow c (c.opcode == 0x0320) State.cmdSbdXfer
/-- CRC_FEED. -/
def execCrcFeed (c : Cmd) (s : State) : Res := s.cmdRow c (c.opcode == 0x0311) State.cmdCrcFeed
/-- TIME_ALIGN, MODE 0. -/
def execTimeAlignSet (c : Cmd) (s : State) : Res := s.cmdRow c (c.opcode == 0x0310 && !bit (c.word 0) 0) State.cmdTimeAlign
/-- TIME_ALIGN, MODE 1. -/
def execTimeAlignStep (c : Cmd) (s : State) : Res := s.cmdRow c (c.opcode == 0x0310 && bit (c.word 0) 0) State.cmdTimeAlign
/-- COPPICE_CTRL, OFF. -/
def execCoppiceCtrlOff (c : Cmd) (s : State) : Res := s.cmdRow c (c.opcode == 0x02A0 && bits (c.word 2) 1 0 == 0) State.cmdCoppice
/-- COPPICE_CTRL, SOURCE. -/
def execCoppiceCtrlSource (c : Cmd) (s : State) : Res := s.cmdRow c (c.opcode == 0x02A0 && bits (c.word 2) 1 0 == 1) State.cmdCoppice
/-- COPPICE_CTRL, SHADOW. -/
def execCoppiceCtrlShadow (c : Cmd) (s : State) : Res := s.cmdRow c (c.opcode == 0x02A0 && bits (c.word 2) 1 0 == 2) State.cmdCoppice
/-- COPPICE_CTRL, PROMOTE. -/
def execCoppiceCtrlPromote (c : Cmd) (s : State) : Res := s.cmdRow c (c.opcode == 0x02A0 && bits (c.word 2) 1 0 == 3) State.cmdCoppice

end Sys2Proof.Machine
end

