-- ==== Sys2Proof/Machine/Jtag.lean ====
section
/-! DEFINITION. The test access port (R515 to R518). -/

namespace Sys2Proof.Machine
open Sys2Proof

/-- The low `n` bits of a number, bit 0 first. -/
def bitList (n v : Nat) : List Bool := (List.range n).map (fun i => v.testBit i)

/-- The identification register (R517). -/
def idcode32 : Nat := (BitVec.ofNat 4 Config.fusedStepping ++ 0x3200#16 ++ BitVec.ofNat 11 Config.jtagMaker ++ 1#1 : BitVec 32).toNat

/-- An instruction enters the instruction register. -/
def State.jtagIr (s : State) (code : Nat) (lands : Lands) : State := { s with jtag := { s.jtag with ir := code, lands := lands } }

/-- The one-bit bypass register, which captures 0; the lands are functional. -/
def State.jtagBypass (s : State) (code : Nat) : State := (s.jtagIr code .functional).emit (.tdo [false])

/-- EXTEST drives the preloaded values and captures the lands, while PKG_RESET_N is asserted (R516). -/
def State.jtagExtest (s : State) (lands : List Bool) : State :=
  if s.boot.rstLow then
    let s1 := s.jtagIr 0x00 .driven
    ({ s1 with jtag := { s1.jtag with captured := lands } } : State).emit (.tdo lands)
  else s.jtagBypass 0x00

/-- IDCODE selects the identification register. -/
def State.jtagIdcode (s : State) : State := (s.jtagIr 0x01 .functional).emit (.tdo (bitList 32 idcode32))

/-- SAMPLE/PRELOAD captures the lands without disturbing them, and takes the values shifted in for later instructions. -/
def State.jtagSample (s : State) (lands load : List Bool) : State :=
  let s1 := s.jtagIr 0x02 .functional
  ({ s1 with jtag := { s1.jtag with captured := lands, preload := load } } : State).emit (.tdo lands)

/-- CLAMP and HIGHZ select BYPASS; while PKG_RESET_N is asserted they hold or float the lands (R516). -/
def State.jtagHold (s : State) (code : Nat) (lands : Lands) : State :=
  if s.boot.rstLow then (s.jtagIr code lands).emit (.tdo [false]) else s.jtagBypass code

/-- TRST_N resets the TAP controller: the instruction becomes IDCODE and the lands functional (R465, R518). -/
def State.tapReset (s : State) : State := s.jtagIr 0x01 .functional

def execExtest (lands : List Bool) (s : State) : Res := .next (s.jtagExtest lands)
def execIdcode (s : State) : Res := .next s.jtagIdcode
def execSamplePreload (lands load : List Bool) (s : State) : Res := .next (s.jtagSample lands load)
def execClamp (s : State) : Res := .next (s.jtagHold 0x04 .held)
def execHighz (s : State) : Res := .next (s.jtagHold 0x05 .floated)
def execBypass (s : State) : Res := .next (s.jtagBypass 0xFF)

/-- A private instruction acts as BYPASS unless KLN_DEBUG has opened them; the spec says nothing of what an open one does (R388, R515). -/
def execPrivateInstruction (code : Nat) (s : State) : Res :=
  if s.fget Fld.klnState_DEBUG_OPEN = 1 ∧ 0x80 ≤ code ∧ code ≤ 0xFE then .refused (.privateJtag code)
  else .next (s.jtagBypass code)

def execTapReset (s : State) : Res := .next s.tapReset

end Sys2Proof.Machine
end

