-- ==== Sys2Proof/Machine/SpindleRun.lean ====
section
/-! DEFINITION. The issue of a Spindle instruction as a whole step (R227, R430). -/

namespace Sys2Proof.Machine
open Sys2Proof

/-- Thread `t` of core `k` issues an instruction. -/
def State.spnRun (s : State) (k t cls op : Nat) (ue : Bool) (eff : Nat → SInstr → State → State) : Res :=
  (s.spnIssue k t cls op ue eff).settled

end Sys2Proof.Machine
end

