-- ==== Sys2Proof/Machine/SpindleScalar.lean ====
section
/-! DEFINITION. The scalar and control instructions of a Spindle thread (10). -/

namespace Sys2Proof.Machine
open Sys2Proof

/-- An instruction that executes as a whole or not at all by bit 0 (R224), and goes on to the next one. -/
def whole (f : Nat → SInstr → State → State) (q : Nat) (i : SInstr) (s : State) : State :=
  if s.enabled q i 0 then (f q i s).thrNext q else s.thrNext q

/-! ### Scalar instructions -/

/-- s[D] from s[A] and s[B]. -/
def aluRR (f : Word → Word → Word) (q : Nat) (i : SInstr) (s : State) : State := s.setS q i.d (f (s.sreg q i.a) (s.sreg q i.b))
/-- s[D] from s[A] and IMM, sign-extended. -/
def aluRI (f : Word → Word → Word) (q : Nat) (i : SInstr) (s : State) : State := s.setS q i.d (f (s.sreg q i.a) (BitVec.ofInt 64 i.simm))

/-- Shift count: bits [5:0]. -/
def shamt (w : Word) : Nat := w.toNat % 64

def aluShl (x y : Word) : Word := x <<< shamt y
def aluShr (x y : Word) : Word := x >>> shamt y
def aluSra (x y : Word) : Word := x.sshiftRight (shamt y)
def aluMin (x y : Word) : Word := if x.toInt ≤ y.toInt then x else y
def aluMax (x y : Word) : Word := if x.toInt ≤ y.toInt then y else x
def aluMinu (x y : Word) : Word := if x.toNat ≤ y.toNat then x else y
def aluMaxu (x y : Word) : Word := if x.toNat ≤ y.toNat then y else x

/-- RDSYS's system value. -/
def State.sysValue (s : State) (q n : Nat) : Nat :=
  if n = 0 then q / 16 else if n = 1 then q % 16 else if n = 2 then s.thrGet Fld.spnThrW0_ROLE q else if n = 3 then s.time
  else if n = 4 then q / 256 else s.thrGet Fld.spnThrW0_LAST_STATUS q

def execAdd (k t : Nat) (ue : Bool) (s : State) : Res := s.spnRun k t 0 0x00 ue (whole (aluRR (· + ·)))
def execSub (k t : Nat) (ue : Bool) (s : State) : Res := s.spnRun k t 0 0x01 ue (whole (aluRR (· - ·)))
def execMul (k t : Nat) (ue : Bool) (s : State) : Res := s.spnRun k t 0 0x02 ue (whole (aluRR (· * ·)))
def execAnd (k t : Nat) (ue : Bool) (s : State) : Res := s.spnRun k t 0 0x03 ue (whole (aluRR (· &&& ·)))
def execOr (k t : Nat) (ue : Bool) (s : State) : Res := s.spnRun k t 0 0x04 ue (whole (aluRR (· ||| ·)))
def execXor (k t : Nat) (ue : Bool) (s : State) : Res := s.spnRun k t 0 0x05 ue (whole (aluRR (· ^^^ ·)))
def execShl (k t : Nat) (ue : Bool) (s : State) : Res := s.spnRun k t 0 0x06 ue (whole (aluRR aluShl))
def execShr (k t : Nat) (ue : Bool) (s : State) : Res := s.spnRun k t 0 0x07 ue (whole (aluRR aluShr))
def execSra (k t : Nat) (ue : Bool) (s : State) : Res := s.spnRun k t 0 0x08 ue (whole (aluRR aluSra))
def execMin (k t : Nat) (ue : Bool) (s : State) : Res := s.spnRun k t 0 0x09 ue (whole (aluRR aluMin))
def execMax (k t : Nat) (ue : Bool) (s : State) : Res := s.spnRun k t 0 0x0A ue (whole (aluRR aluMax))
def execMinu (k t : Nat) (ue : Bool) (s : State) : Res := s.spnRun k t 0 0x0B ue (whole (aluRR aluMinu))
def execMaxu (k t : Nat) (ue : Bool) (s : State) : Res := s.spnRun k t 0 0x0C ue (whole (aluRR aluMaxu))
def execAddi (k t : Nat) (ue : Bool) (s : State) : Res := s.spnRun k t 1 0x00 ue (whole (aluRI (· + ·)))
def execAndi (k t : Nat) (ue : Bool) (s : State) : Res := s.spnRun k t 1 0x03 ue (whole (aluRI (· &&& ·)))
def execOri (k t : Nat) (ue : Bool) (s : State) : Res := s.spnRun k t 1 0x04 ue (whole (aluRI (· ||| ·)))
def execXori (k t : Nat) (ue : Bool) (s : State) : Res := s.spnRun k t 1 0x05 ue (whole (aluRI (· ^^^ ·)))
def execShli (k t : Nat) (ue : Bool) (s : State) : Res := s.spnRun k t 1 0x06 ue (whole (aluRI aluShl))
def execShri (k t : Nat) (ue : Bool) (s : State) : Res := s.spnRun k t 1 0x07 ue (whole (aluRI aluShr))
def execSrai (k t : Nat) (ue : Bool) (s : State) : Res := s.spnRun k t 1 0x08 ue (whole (aluRI aluSra))

def execLi (k t : Nat) (ue : Bool) (s : State) : Res :=
  s.spnRun k t 1 0x20 ue (whole (fun q i s => s.setS q i.d (BitVec.ofInt 64 i.simm)))
def execLui (k t : Nat) (ue : Bool) (s : State) : Res :=
  s.spnRun k t 1 0x21 ue (whole (fun q i s => s.setS q i.d (setBits (s.sreg q i.d) 63 32 i.imm)))
def execRdsys (k t : Nat) (ue : Bool) (s : State) : Res :=
  s.spnRun k t 1 0x22 ue (whole (fun q i s => s.setS q i.d (BitVec.ofNat 64 (s.sysValue q i.imm))))

/-! ### Control instructions -/

/-- The PC that 8 × IMM away from this one is. -/
def State.branchPc (s : State) (q : Nat) (i : SInstr) : Nat := wrapInt 64 (((s.thr q).pc : Int) + 8 * i.simm)

/-- A control instruction that writes PC, by bit 0. -/
def jump (f : Nat → SInstr → State → State) (q : Nat) (i : SInstr) (s : State) : State :=
  if s.enabled q i 0 then f q i s else s.thrNext q

def execBr (k t : Nat) (ue : Bool) (s : State) : Res :=
  s.spnRun k t 8 0x00 ue (jump (fun q i s => s.thrPc q (s.branchPc q i)))
/-- PC = s[A]; a PC is a multiple of 8, so bits [2:0] are dropped (R223, log entry 16). -/
def execJr (k t : Nat) (ue : Bool) (s : State) : Res :=
  s.spnRun k t 8 0x01 ue (jump (fun q i s => s.thrPc q ((s.sreg q i.a).toNat / 8 * 8)))
def execCall (k t : Nat) (ue : Bool) (s : State) : Res :=
  s.spnRun k t 8 0x02 ue (jump (fun q i s => (s.setS q i.d (BitVec.ofNat 64 ((s.thr q).pc + 8))).thrPc q (s.branchPc q i)))
def execYield (k t : Nat) (ue : Bool) (s : State) : Res := s.spnRun k t 8 0x0A ue (fun q _ s => s.thrNext q)
def execHalt (k t : Nat) (ue : Bool) (s : State) : Res :=
  s.spnRun k t 8 0x0F ue (jump (fun q _ s => (s.thrEnd q).thrSet Fld.spnThrW0_ERRCODE q 0))
def execNopInstruction (k t : Nat) (ue : Bool) (s : State) : Res := s.spnRun k t 8 0x10 ue (fun q _ s => s.thrNext q)

def execWaitc (k t : Nat) (ue : Bool) (s : State) : Res :=
  s.spnRun k t 8 0x08 ue (jump (fun q i s =>
    if s.fget Fld.spnCtxW0_EN (q / 256) (i.imm % 64) = 0 then s.progError q 6 else s.thrGo q ThrSt.wait))

end Sys2Proof.Machine
end

