-- ==== Sys2Proof/Machine/SpindleAccess.lean ====
section
/-! DEFINITION. The remote instructions of a Spindle thread (10). -/

namespace Sys2Proof.Machine
open Sys2Proof

def execRlds (k t : Nat) (ue : Bool) (ext : List Word) (s : State) : Res := s.spnRun k t 6 0x00 ue (remote ext)
def execRsts (k t : Nat) (ue : Bool) (ext : List Word) (s : State) : Res := s.spnRun k t 6 0x01 ue (remote ext)
def execRldv (k t : Nat) (ue : Bool) (ext : List Word) (s : State) : Res := s.spnRun k t 6 0x02 ue (remote ext)
def execRstv (k t : Nat) (ue : Bool) (ext : List Word) (s : State) : Res := s.spnRun k t 6 0x03 ue (remote ext)
def execRatom (k t : Nat) (ue : Bool) (ext : List Word) (s : State) : Res := s.spnRun k t 6 0x04 ue (remote ext)
def execRred (k t : Nat) (ue : Bool) (ext : List Word) (s : State) : Res := s.spnRun k t 6 0x05 ue (remote ext)
def execRmove (k t : Nat) (ue : Bool) (ext : List Word) (s : State) : Res := s.spnRun k t 6 0x06 ue (remote ext)
def execRfetch (k t : Nat) (ue : Bool) (ext : List Word) (s : State) : Res := s.spnRun k t 6 0x07 ue (remote ext)
def execRmcast (k t : Nat) (ue : Bool) (ext : List Word) (s : State) : Res := s.spnRun k t 6 0x08 ue (remote ext)

end Sys2Proof.Machine
end

