-- ==== Sys2Proof/Machine/SpindleVector.lean ====
section
/-! DEFINITION. The vector, scalar-operand and predicate instructions of a Spindle thread (10, 11). -/

namespace Sys2Proof.Machine
open Sys2Proof

/-! ### Elements (R224) -/

/-- The vector whose element of `k` bytes is the new one where `en` holds of its lowest lane, the old one elsewhere. -/
def mergeElems (k : Nat) (en : Nat → Bool) (new old : List Nat) : List Byte :=
  ((List.range (256 / k)).map (fun e => toBytes k (if en (k * e) then new.getD e 0 else old.getD e 0))).flatten

/-- v[D] takes new elements where they are enabled. -/
def State.setElems (s : State) (q : Nat) (i : SInstr) (k : Nat) (new : List Nat) : State :=
  s.setV q i.d (mergeElems k (s.enabled q i) new (elems k (256 / k) (s.vreg q i.d)))

/-- The elements of vector register `r`. -/
def State.velems (s : State) (q r k : Nat) : List Nat := elems k (256 / k) (s.vreg q r)

/-- The low element of a scalar register, in every element. -/
def State.splat (s : State) (q r k : Nat) : List Nat := List.replicate (256 / k) ((s.sreg q r).toNat % 2 ^ (8 * k))

/-! ### Element arithmetic (R231, R247) -/

def elemAdd (fmt x y : Nat) : Nat := combine fmt 0 x y
def elemMin (fmt x y : Nat) : Nat := combine fmt 1 x y
def elemMax (fmt x y : Nat) : Nat := combine fmt 2 x y

def elemSub (fmt x y : Nat) : Nat :=
  match fpOf fmt with
  | some f => f.encode ((f.decode x).add (f.decode y).neg)
  | none => (x + 2 ^ fmtBits fmt - y) % 2 ^ fmtBits fmt

def elemMul (fmt x y : Nat) : Nat :=
  match fpOf fmt with
  | some f => f.encode ((f.decode x).mul (f.decode y))
  | none => x * y % 2 ^ fmtBits fmt

/-- x × y + z with one rounding. -/
def elemFma (fmt x y z : Nat) : Nat :=
  match fpOf fmt with
  | some f => f.encode (((f.decode x).mul (f.decode y)).add (f.decode z))
  | none => (x * y + z) % 2 ^ fmtBits fmt

/-- v[D] = v[A] op v[B]. -/
def vecVV (f : Nat → Nat → Nat → Nat) (q : Nat) (i : SInstr) (s : State) : State :=
  let k := fmtBytes i.fmt
  (s.setElems q i k (List.zipWith (f i.fmt) (s.velems q i.a k) (s.velems q i.b k))).thrNext q

/-- v[D] = v[A] op the low element of s[B]. -/
def vecVS (f : Nat → Nat → Nat → Nat) (q : Nat) (i : SInstr) (s : State) : State :=
  let k := fmtBytes i.fmt
  (s.setElems q i k (List.zipWith (f i.fmt) (s.velems q i.a k) (s.splat q i.b k))).thrNext q

/-- Three operands, element by element. -/
def zip3 (f : Nat → Nat → Nat → Nat) (x y z : List Nat) : List Nat := List.zipWith (fun g z => g z) (List.zipWith f x y) z

def vecFma (q : Nat) (i : SInstr) (s : State) : State :=
  let k := fmtBytes i.fmt
  (s.setElems q i k (zip3 (elemFma i.fmt) (s.velems q i.a k) (s.velems q i.b k) (s.velems q i.c k))).thrNext q

def vecFmas (q : Nat) (i : SInstr) (s : State) : State :=
  let k := fmtBytes i.fmt
  (s.setElems q i k (zip3 (elemFma i.fmt) (s.velems q i.a k) (s.splat q i.b k) (s.velems q i.c k))).thrNext q

/-- Bitwise, on 64-bit elements. -/
def vecBits (f : Nat → Nat → Nat) (q : Nat) (i : SInstr) (s : State) : State :=
  (s.setElems q i 8 (List.zipWith f (s.velems q i.a 8) (s.velems q i.b 8))).thrNext q

def execVadd (k t : Nat) (ue : Bool) (s : State) : Res := s.spnRun k t 2 0x00 ue (vecVV elemAdd)
def execVsub (k t : Nat) (ue : Bool) (s : State) : Res := s.spnRun k t 2 0x01 ue (vecVV elemSub)
def execVmul (k t : Nat) (ue : Bool) (s : State) : Res := s.spnRun k t 2 0x02 ue (vecVV elemMul)
def execVfma (k t : Nat) (ue : Bool) (s : State) : Res := s.spnRun k t 2 0x03 ue vecFma
def execVmin (k t : Nat) (ue : Bool) (s : State) : Res := s.spnRun k t 2 0x04 ue (vecVV elemMin)
def execVmax (k t : Nat) (ue : Bool) (s : State) : Res := s.spnRun k t 2 0x05 ue (vecVV elemMax)
def execVand (k t : Nat) (ue : Bool) (s : State) : Res := s.spnRun k t 2 0x06 ue (vecBits (· &&& ·))
def execVor (k t : Nat) (ue : Bool) (s : State) : Res := s.spnRun k t 2 0x07 ue (vecBits (· ||| ·))
def execVxor (k t : Nat) (ue : Bool) (s : State) : Res := s.spnRun k t 2 0x08 ue (vecBits (· ^^^ ·))

/-- Byte j of v[D] = byte (byte j of v[B]) of v[A]. -/
def vecPerm (q : Nat) (i : SInstr) (s : State) : State :=
  let a := s.vreg q i.a
  (s.setElems q i 8 (elems 8 32 ((s.vreg q i.b).map (fun x => a.getD x.toNat 0)))).thrNext q

def execVperm (k t : Nat) (ue : Bool) (s : State) : Res := s.spnRun k t 2 0x0A ue vecPerm

/-- VCVT (R249): element i of v[D] from element i of v[A]; bytes beyond the last are zero. -/
def vecCvt (q : Nat) (i : SInstr) (s : State) : State :=
  let k := fmtBytes i.fmt
  let m := fmtBytes i.c
  let n := 256 / max k m
  let old := s.velems q i.d m
  let new := (s.velems q i.a k).map (convert i.fmt i.c)
  let l := ((List.range n).map (fun e => toBytes m (if s.enabled q i (m * e) then new.getD e 0 else old.getD e 0))).flatten
  (s.setV q i.d (l ++ List.replicate (256 - n * m) 0)).thrNext q

def execVcvt (k t : Nat) (ue : Bool) (s : State) : Res := s.spnRun k t 2 0x0B ue vecCvt

def execVadds (k t : Nat) (ue : Bool) (s : State) : Res := s.spnRun k t 3 0x00 ue (vecVS elemAdd)
def execVmuls (k t : Nat) (ue : Bool) (s : State) : Res := s.spnRun k t 3 0x02 ue (vecVS elemMul)
def execVfmas (k t : Nat) (ue : Bool) (s : State) : Res := s.spnRun k t 3 0x03 ue vecFmas
def execVmins (k t : Nat) (ue : Bool) (s : State) : Res := s.spnRun k t 3 0x04 ue (vecVS elemMin)
def execVmaxs (k t : Nat) (ue : Bool) (s : State) : Res := s.spnRun k t 3 0x05 ue (vecVS elemMax)

def vecSplat (q : Nat) (i : SInstr) (s : State) : State :=
  let k := fmtBytes i.fmt
  (s.setElems q i k (s.splat q i.b k)).thrNext q

def execVsplat (k t : Nat) (ue : Bool) (s : State) : Res := s.spnRun k t 3 0x10 ue vecSplat

/-- VEXT: the element that s[B] numbers; a number beyond the last element names none, and gives a free value (log entry 17). -/
def vecExt (q : Nat) (i : SInstr) (s : State) : State :=
  let k := fmtBytes i.fmt
  let n := (s.sreg q i.b).toNat
  if 256 / k ≤ n then
    let (v, s1) := s.draw
    (s1.setS q i.d (BitVec.ofNat 64 v)).thrNext q
  else if s.enabled q i (k * n) then (s.setS q i.d (BitVec.ofNat 64 ((s.velems q i.a k).getD n 0))).thrNext q
  else s.thrNext q

def execVext (k t : Nat) (ue : Bool) (s : State) : Res := s.spnRun k t 3 0x11 ue vecExt

/-- VINS: the element that s[B] numbers; a number beyond the last element names none, and v[D] is free (log entry 17). -/
def vecIns (q : Nat) (i : SInstr) (s : State) : State :=
  let k := fmtBytes i.fmt
  let n := (s.sreg q i.b).toNat
  if 256 / k ≤ n then
    let (l, s1) := s.drawBytes 256
    (s1.setV q i.d l).thrNext q
  else
    (s.setV q i.d (mergeElems k (fun j => j == k * n && s.enabled q i j) (s.splat q i.a k) (s.velems q i.d k))).thrNext q

def execVins (k t : Nat) (ue : Bool) (s : State) : Res := s.spnRun k t 3 0x12 ue vecIns

/-! ### Predicates -/

/-- `x = y` as numbers of a format: zeros of either sign are equal, a NaN equals nothing. -/
def elemEq (fmt x y : Nat) : Bool :=
  match fpOf fmt with
  | some f => (f.decode x).eqv (f.decode y)
  | none => x == y

/-- `x < y` as numbers of a format. -/
def elemLt (fmt x y : Nat) : Bool :=
  match fpOf fmt with
  | some f => (f.decode x).lt (f.decode y) && !(f.decode x).eqv (f.decode y)
  | none => decide (intVal fmt x < intVal fmt y)

/-- A 256-bit number from its bits. -/
def ofBits (f : Nat → Bool) : Nat := ((List.range 256).map (fun j => b2n (f j) * 2 ^ j)).sum

/-- Each enabled element's bits of p[D] take the comparison. -/
def predVV (f : Nat → Nat → Nat → Bool) (q : Nat) (i : SInstr) (s : State) : State :=
  let k := fmtBytes i.fmt
  let r := List.zipWith (f i.fmt) (s.velems q i.a k) (s.velems q i.b k)
  let old := s.preg q i.d
  (s.setP q i.d (ofBits (fun j => if s.enabled q i (j / k * k) then r.getD (j / k) false else old.testBit j))).thrNext q

/-- Each enabled bit of p[D] takes the bit of `f`. -/
def predBits (f : State → Nat → SInstr → Nat → Bool) (q : Nat) (i : SInstr) (s : State) : State :=
  let old := s.preg q i.d
  (s.setP q i.d (ofBits (fun j => if s.enabled q i j then f s q i j else old.testBit j))).thrNext q

def execPeq (k t : Nat) (ue : Bool) (s : State) : Res := s.spnRun k t 4 0x00 ue (predVV elemEq)
def execPne (k t : Nat) (ue : Bool) (s : State) : Res := s.spnRun k t 4 0x01 ue (predVV (fun f x y => !elemEq f x y))
def execPlt (k t : Nat) (ue : Bool) (s : State) : Res := s.spnRun k t 4 0x02 ue (predVV elemLt)
def execPle (k t : Nat) (ue : Bool) (s : State) : Res := s.spnRun k t 4 0x03 ue (predVV (fun f x y => elemLt f x y || elemEq f x y))
def execPseq (k t : Nat) (ue : Bool) (s : State) : Res :=
  s.spnRun k t 4 0x08 ue (predBits (fun s q i _ => s.sreg q i.a == s.sreg q i.b))
def execPslt (k t : Nat) (ue : Bool) (s : State) : Res :=
  s.spnRun k t 4 0x09 ue (predBits (fun s q i _ => decide ((s.sreg q i.a).toInt < (s.sreg q i.b).toInt)))
def execPult (k t : Nat) (ue : Bool) (s : State) : Res :=
  s.spnRun k t 4 0x0A ue (predBits (fun s q i _ => decide ((s.sreg q i.a).toNat < (s.sreg q i.b).toNat)))
def execPand (k t : Nat) (ue : Bool) (s : State) : Res :=
  s.spnRun k t 4 0x10 ue (predBits (fun s q i j => (s.preg q i.a).testBit j && (s.preg q i.b).testBit j))
def execPor (k t : Nat) (ue : Bool) (s : State) : Res :=
  s.spnRun k t 4 0x11 ue (predBits (fun s q i j => (s.preg q i.a).testBit j || (s.preg q i.b).testBit j))
def execPnot (k t : Nat) (ue : Bool) (s : State) : Res := s.spnRun k t 4 0x12 ue (predBits (fun s q i j => !(s.preg q i.a).testBit j))
def execPall (k t : Nat) (ue : Bool) (s : State) : Res := s.spnRun k t 4 0x13 ue (predBits (fun _ _ _ _ => true))

end Sys2Proof.Machine
end

