-- ==== Sys2Proof/Machine/SpindleMemory.lean ====
section
/-! DEFINITION. The local store and exact accumulator instructions of a Spindle thread (10, 11). -/

namespace Sys2Proof.Machine
open Sys2Proof

/-! ### Local store (R226) -/

/-- Key of `n` bytes at a window address of the thread, when they lie within the window and the address is a multiple of `align`. -/
def State.localKey (s : State) (q addr n align : Nat) : Option Nat :=
  let t := s.thr q
  if addr % align = 0 ∧ addr + n ≤ t.lsSize * 1024 then some (lsKey (q / 16) (t.lsBase * 1024 + addr)) else none

/-- Window address s[A] + IMM. -/
def State.localAddr (s : State) (q : Nat) (i : SInstr) : Nat := (s.sreg q i.a + BitVec.ofInt 64 i.simm).toNat

/-- An access of `n` aligned bytes at s[A] + IMM; outside the window, or misaligned, it is a program error. -/
def localAccess (n : Nat) (f : Nat → SInstr → Nat → State → State) (q : Nat) (i : SInstr) (s : State) : State :=
  match s.localKey q (s.localAddr q i) n n with
  | none => s.progError q 3
  | some a => (f q i a s).thrNext q

def execLds (k t : Nat) (ue : Bool) (s : State) : Res :=
  s.spnRun k t 5 0x00 ue (jump (localAccess 8 (fun q i a s => s.setS q i.d (BitVec.ofNat 64 (ofBytes (s.load a 8))))))
def execSts (k t : Nat) (ue : Bool) (s : State) : Res :=
  s.spnRun k t 5 0x01 ue (jump (localAccess 8 (fun q i a s => s.store a (wordBytes (s.sreg q i.d)))))
/-- The bytes of `new` where a lane is enabled, of `old` elsewhere. -/
def State.mergeBytes (s : State) (q : Nat) (i : SInstr) (new old : List Byte) : List Byte :=
  (List.range 256).map (fun j => if s.enabled q i j then new.getD j 0 else old.getD j 0)
def execLdv (k t : Nat) (ue : Bool) (s : State) : Res :=
  s.spnRun k t 5 0x02 ue (localAccess 256 (fun q i a s => s.setV q i.d (s.mergeBytes q i (s.load a 256) (s.vreg q i.d))))
def execStv (k t : Nat) (ue : Bool) (s : State) : Res :=
  s.spnRun k t 5 0x03 ue (localAccess 256 (fun q i a s => s.store a (s.mergeBytes q i (s.vreg q i.d) (s.load a 256))))
def execLdp (k t : Nat) (ue : Bool) (s : State) : Res :=
  s.spnRun k t 5 0x04 ue (jump (localAccess 32 (fun q i a s => s.setP q i.d (ofBytes (s.load a 32)))))
def execStp (k t : Nat) (ue : Bool) (s : State) : Res :=
  s.spnRun k t 5 0x05 ue (jump (localAccess 32 (fun q i a s => s.store a (toBytes 32 (s.preg q i.d)))))

/-! ### Exact accumulators (R225, R255 to R260) -/

/-- Accumulator `x` of the thread's core. -/
def State.acc (s : State) (q x : Nat) : List Lane := tblGet (List.replicate 64 {}) s.spn.accs (4 * (q / 16) + x)
def State.setAcc (s : State) (q x : Nat) (l : List Lane) : State :=
  { s with spn := { s.spn with accs := tblPut s.spn.accs (4 * (q / 16) + x) l } }

/-- An exact instruction on accumulator `x`: one that XMASK does not grant is a program error. -/
def exact (x : SInstr → Nat) (f : Nat → SInstr → State → State) (q : Nat) (i : SInstr) (s : State) : State :=
  if (s.thrGet Fld.spnThrW0_XMASK q).testBit (x i) then f q i s else s.progError q 4

def execXclr (k t : Nat) (ue : Bool) (s : State) : Res :=
  s.spnRun k t 7 0x00 ue (jump (exact (·.d) (fun q i s => (s.setAcc q i.d (List.replicate 64 {})).thrNext q)))

/-- XACC: each enabled element of the block B of v[A] is added to its lane (R256). Bit 0 decides whether it executes at all (R224). DEDUCED (log entry
58): within an XACC or XNARR that executes, the elements are enabled one by one, as R256 and R258 say. -/
def xacc (q : Nat) (i : SInstr) (s : State) : State :=
  let k := fmtBytes i.fmt
  let src := s.velems q i.a k
  let f := (fpOf i.fmt).getD fp32
  let lane := fun (x : Lane × Nat) =>
    let e := 64 * i.b + x.2
    if s.enabled q i (k * e) then x.1.addNum (f.decode (src.getD e 0)) else x.1
  (s.setAcc q i.d ((s.acc q i.d).zipIdx.map lane)).thrNext q

def execXacc (k t : Nat) (ue : Bool) (s : State) : Res := s.spnRun k t 7 0x01 ue (jump (exact (·.d) xacc))

/-- Narrow lanes in order, each with its draw when the mode is stochastic; the elements, and the generator after them. -/
def narrowAll (f : FpFmt) (stoch : Bool) : List Lane → Nat → List Nat × Nat
  | [], g => ([], g)
  | l :: t, g =>
    let (r, g1) : Option Nat × Nat := if stoch then (some (sround g).1, (sround g).2) else (none, g)
    let (x, g2) := narrowAll f stoch t g1
    (l.narrow f r :: x, g2)

/-- XNARR: the block B of v[D] takes the narrowed lanes. -/
def xnarr (q : Nat) (i : SInstr) (s : State) : State :=
  let k := fmtBytes i.fmt
  let (x, g) := narrowAll ((fpOf i.fmt).getD fp32) (i.c == 1) (s.acc q i.a) (s.thr q).gen
  let old := s.velems q i.d k
  let new := (List.range (256 / k)).map (fun e => if 64 * i.b ≤ e ∧ e < 64 * i.b + 64 then x.getD (e - 64 * i.b) 0 else old.getD e 0)
  ((s.setElems q i k new).thrMod q (fun t => { t with gen := g })).thrNext q

def execXnarr (k t : Nat) (ue : Bool) (s : State) : Res := s.spnRun k t 7 0x02 ue (jump (exact (·.a) xnarr))

def execXseed (k t : Nat) (ue : Bool) (s : State) : Res :=
  s.spnRun k t 7 0x03 ue (whole (fun q i s => s.thrMod q (fun t => { t with gen := (s.sreg q i.a).toNat })))

/-- 2,560 bytes at window address s[A], a multiple of 256. -/
def exactAccess (f : Nat → SInstr → Nat → State → State) (q : Nat) (i : SInstr) (s : State) : State :=
  match s.localKey q (s.sreg q i.a).toNat 2560 256 with
  | none => s.progError q 3
  | some a => (f q i a s).thrNext q

/-- Lane i at byte offset 40 × i, little-endian (R255). -/
def accBytes (l : List Lane) : List Byte := (l.map (fun x => toBytes 40 x.bits)).flatten

def execXsave (k t : Nat) (ue : Bool) (s : State) : Res :=
  s.spnRun k t 7 0x04 ue (jump (exact (·.d) (exactAccess (fun q i a s => s.store a (accBytes (s.acc q i.d))))))
def execXrest (k t : Nat) (ue : Bool) (s : State) : Res :=
  s.spnRun k t 7 0x05 ue (jump (exact (·.d) (exactAccess (fun q i a s => s.setAcc q i.d ((elems 40 64 (s.load a 2560)).map Lane.ofBits)))))

end Sys2Proof.Machine
end

