-- ==== Sys2Proof/Machine/StateLoss.lean ====
section
/-! DEFINITION. Rows that may meet an uncorrectable error of a unit's own state (R429): dispatch of the packet buffer, LOAD and STORE at an HBM
controller or an EPB window, Z_LOAD, and the start of a descriptor or a triggered operation. -/

namespace Sys2Proof.Machine
open Sys2Proof

def execEgressDispatch (p ecc : Nat) (s : State) : Res := (if p < 124 then s.egressDispatch p ecc else s).settled

/-- Controller `k` loses its state: its requests in flight, `p` and those that wait at its port, are answered NACK with FAULT. -/
def State.hbmCtrlLost (s : State) (e : Nat) (p : Packet) : State :=
  let mine := fun (x : Nat × Packet) => x.1 == e && isReqTy x.2.typ
  let l := p :: ((s.delivered.filter mine).map (·.2)).filter (fun q => q != p)
  let s1 : State := { s with delivered := s.delivered.filter (fun x => !mine x) }
  (State.each l (fun s q => s.targetFault e q 0x15 7 0 none 0) s1).errLater 2 0x22 6 (e - 112) []

/-- The window that a request matches is lost: it is treated as having no match. -/
def State.windowLost (s : State) (n : Nat) (p : Packet) (w : Nat) : State :=
  (({ s with delivered := delFirst (fun x => x == (n, p)) s.delivered }).targetFault n p 0x0A 7 0 none 0).errLater 2 0x14 1 n [4, w]

/-- The window of EPB `n` that a request past the role check matches. -/
def State.windowMet (s : State) (n : Nat) (p : Packet) : Option Nat :=
  if s.fget Fld.epbRole_ROLE_EPOCH n = p.role ∧ gfaOff p.addr < doorbellPage then s.windowFor n (gfaOff p.addr) else none

/-- A request of type `ty` at port `e`, whose unit loses the state it needs when `ue`. -/
def State.arriveUe (s : State) (e : Nat) (p : Packet) (ty : Nat) (ue : Bool) : State :=
  if !ue || p.typ != ty || !s.targetReady e then s.arriveReq e p ty
  else if 112 ≤ e ∧ e < 120 then s.hbmCtrlLost e p
  else if e < 64 then
    match s.windowMet e p with
    | some w => s.windowLost e p w
    | none => s.arriveReq e p ty
  else s.arriveReq e p ty

def execLoad (e : Nat) (p : Packet) (ue : Bool) (s : State) : Res := (s.arriveUe e p Ty.load ue).settled
def execStore (e : Nat) (p : Packet) (ue : Bool) (s : State) : Res := (s.arriveUe e p Ty.store ue).settled

/-- A Z_LOAD whose tag's state is lost completes with FAULT; which tag it was is a free value. -/
def State.zLoadLost (s : State) (n : Nat) (m : ZMsg) : State :=
  let (i, s1) := s.draw
  (s1.zfail n m TStat.fault).errLater 2 0x14 1 n [0, i % 4096]

def execZLoad (n : Nat) (m : ZMsg) (ue : Bool) (s : State) : Res :=
  (s.zArrive n m 0x01 (fun s => if ue then s.zLoadLost n m else s.zRequest n m)).settled

/-- The descriptor that an engine has just taken is lost with its ring state or its park entry: it completes with FAULT. -/
def State.itemLost (s s1 : State) (n : Nat) : State :=
  let fresh := (s1.epbAt n).engines.filter (fun x => (tblFind (s.epbAt n).engines x.1).isNone)
  State.each fresh (fun s x =>
    (s.epbMod n (fun y => { y with engines := tblPut y.engines x.1 { x.2 with failed := some TStat.fault } })).errLater 2 0x14 1 n
      [if x.2.resumeSeg = 0 ∧ x.2.doneMask = 0 then 3 else 1, x.2.ring]) s1

def execEngineStart (n : Nat) (ext : List (Nat × List Word)) (ue : Bool) (s : State) : Res :=
  (if ue then s.itemLost (s.engineStart n ext) n else s.engineStart n ext).settled

/-- The triggered operation that has just started is lost. -/
def State.opLost (s s1 : State) (n : Nat) : State :=
  let fresh := (s1.epbAt n).niRun.filter (fun x => (tblFind (s.epbAt n).niRun x.1).isNone)
  State.each fresh (fun s x =>
    (s.epbMod n (fun y => { y with niRun := tblPut y.niRun x.1 { x.2 with failed := some TStat.fault } })).errLater 2 0x14 1 n [2, x.1]) s1

def execTriggeredOpStart (n : Nat) (ue : Bool) (s : State) : Res :=
  (if ue then s.opLost (s.niStart n) n else s.niStart n).settled

end Sys2Proof.Machine
end

