-- ==== Sys2Proof/Machine/Dispatch.lean ====
section
/-! DEFINITION. One arm per command: the row of the opcode table and the meaning it calls. -/

namespace Sys2Proof.Machine
open Sys2Proof

def exec (i : Instr) (s : State) : Host.Outcome State Fault Refusal :=
  match i with
  | .supplyApply => Sys2Proof.Machine.execSupplyApply s
  | .supplyBrownout => Sys2Proof.Machine.execSupplyBrownout s
  | .coldReset => Sys2Proof.Machine.execColdReset s
  | .pkgResetDeassert a b => Sys2Proof.Machine.execPkgResetDeassert a b s
  | .cloentimStart failed => Sys2Proof.Machine.execCloentimStart failed s
  | .bootUnitsDone => Sys2Proof.Machine.execBootUnitsDone s
  | .bootSlow => Sys2Proof.Machine.execBootSlow s
  | .hostPortReset h perst => Sys2Proof.Machine.execHostPortReset h perst s
  | .tapReset => Sys2Proof.Machine.execTapReset s
  | .rootUnlock cause => Sys2Proof.Machine.execRootUnlock cause s
  | .rootRelock => Sys2Proof.Machine.execRootRelock s
  | .nop c => Sys2Proof.Machine.execNop c s
  | .ident c => Sys2Proof.Machine.execIdent c s
  | .ticketQuery c => Sys2Proof.Machine.execTicketQuery c s
  | .ember port c => Sys2Proof.Machine.execEmber port c s
  | .emberMiss port down => Sys2Proof.Machine.execEmberMiss port down s
  | .cmdServiceStrict c => Sys2Proof.Machine.execCmdServiceStrict c s
  | .cmdServiceRoundRobin c => Sys2Proof.Machine.execCmdServiceRoundRobin c s
  | .regRead c => Sys2Proof.Machine.execRegRead c s
  | .regWrite c => Sys2Proof.Machine.execRegWrite c s
  | .registerWrite hp addr len val => Sys2Proof.Machine.execRegisterWrite hp addr len val s
  | .mgmtFrameReceive port ety src dst len c => Sys2Proof.Machine.execMgmtFrameReceive port ety src dst len c s
  | .mboxCommit hp tail => Sys2Proof.Machine.execMboxCommit hp tail s
  | .mboxRspHeadWrite head => Sys2Proof.Machine.execMboxRspHeadWrite head s
  | .mboxEnable ctrl => Sys2Proof.Machine.execMboxEnable ctrl s
  | .commandArrive partner c => Sys2Proof.Machine.execCommandArrive partner c s
  | .commandTake mb ext => Sys2Proof.Machine.execCommandTake mb ext s
  | .refusalReply => Sys2Proof.Machine.execRefusalReply s
  | .resetUnitPulse c => Sys2Proof.Machine.execResetUnitPulse c s
  | .resetUnitAssert c => Sys2Proof.Machine.execResetUnitAssert c s
  | .resetUnitRelease c => Sys2Proof.Machine.execResetUnitRelease c s
  | .bootStatus c => Sys2Proof.Machine.execBootStatus c s
  | .zIdent n m => Sys2Proof.Machine.execZIdent n m s
  | .zLoad n m ue => Sys2Proof.Machine.execZLoad n m ue s
  | .zStore n m => Sys2Proof.Machine.execZStore n m s
  | .zAtomicAdd n m => Sys2Proof.Machine.execZAtomicAdd n m s
  | .zAtomicMin n m => Sys2Proof.Machine.execZAtomicMin n m s
  | .zAtomicMax n m => Sys2Proof.Machine.execZAtomicMax n m s
  | .zCas n m => Sys2Proof.Machine.execZCas n m s
  | .zReduce n m => Sys2Proof.Machine.execZReduce n m s
  | .zAcquire n m => Sys2Proof.Machine.execZAcquire n m s
  | .zRelease n m => Sys2Proof.Machine.execZRelease n m s
  | .zFence n m => Sys2Proof.Machine.execZFence n m s
  | .zDoorbell n m => Sys2Proof.Machine.execZDoorbell n m s
  | .zResume n m => Sys2Proof.Machine.execZResume n m s
  | .zTgtRsp n m => Sys2Proof.Machine.execZTgtRsp n m s
  | .zTgtSend n => Sys2Proof.Machine.execZTgtSend n s
  | .tgtTimeout n ix => Sys2Proof.Machine.execTgtTimeout n ix s
  | .heatPeriod n => Sys2Proof.Machine.execHeatPeriod n s
  | .heatCtrlDisable n => Sys2Proof.Machine.execHeatCtrlDisable n s
  | .tagFreeIssue u ix => Sys2Proof.Machine.execTagFreeIssue u ix s
  | .admission u ix => Sys2Proof.Machine.execAdmission u ix s
  | .walkComplete n w ext => Sys2Proof.Machine.execWalkComplete n w ext s
  | .prefetchStart n e off dst => Sys2Proof.Machine.execPrefetchStart n e off dst s
  | .xlateInval c => Sys2Proof.Machine.execXlateInval c s
  | .xlateInvalDrainDone ticket => Sys2Proof.Machine.execXlateInvalDrainDone ticket s
  | .packetIngress k v => Sys2Proof.Machine.execPacketIngress k v s
  | .packetEnqueue ix => Sys2Proof.Machine.execPacketEnqueue ix s
  | .egressDispatch p ecc => Sys2Proof.Machine.execEgressDispatch p ecc s
  | .packetTransmitDone ix => Sys2Proof.Machine.execPacketTransmitDone ix s
  | .holdDeadline l => Sys2Proof.Machine.execHoldDeadline l s
  | .linkAdminSet l => Sys2Proof.Machine.execLinkAdminSet l s
  | .linkAdminClear l => Sys2Proof.Machine.execLinkAdminClear l s
  | .mirrorBurstWrite die => Sys2Proof.Machine.execMirrorBurstWrite die s
  | .mirrorBurstDone => Sys2Proof.Machine.execMirrorBurstDone s
  | .mirrorRingEnable ctrl => Sys2Proof.Machine.execMirrorRingEnable ctrl s
  | .load e p ue => Sys2Proof.Machine.execLoad e p ue s
  | .store e p ue => Sys2Proof.Machine.execStore e p ue s
  | .atomicAdd e p => Sys2Proof.Machine.execAtomicAdd e p s
  | .atomicMin e p => Sys2Proof.Machine.execAtomicMin e p s
  | .atomicMax e p => Sys2Proof.Machine.execAtomicMax e p s
  | .cas e p => Sys2Proof.Machine.execCas e p s
  | .reduceStore e p => Sys2Proof.Machine.execReduceStore e p s
  | .acquire e p => Sys2Proof.Machine.execAcquire e p s
  | .release e p => Sys2Proof.Machine.execRelease e p s
  | .fence e p => Sys2Proof.Machine.execFence e p s
  | .doorbell e p => Sys2Proof.Machine.execDoorbell e p s
  | .loadRsp u p => Sys2Proof.Machine.execLoadRsp u p s
  | .ack u p => Sys2Proof.Machine.execAck u p s
  | .atomicRsp u p => Sys2Proof.Machine.execAtomicRsp u p s
  | .fswRsp u p => Sys2Proof.Machine.execFswRsp u p s
  | .nack u p => Sys2Proof.Machine.execNack u p s
  | .fenceComplete u ix => Sys2Proof.Machine.execFenceComplete u ix s
  | .deadBoundSweep => Sys2Proof.Machine.execDeadBoundSweep s
  | .rateIncrease n => Sys2Proof.Machine.execRateIncrease n s
  | .ccEnable n => Sys2Proof.Machine.execCcEnable n s
  | .epbRoleWrite n v => Sys2Proof.Machine.execEpbRoleWrite n v s
  | .hubFenceWrite v => Sys2Proof.Machine.execHubFenceWrite v s
  | .rrcInval n => Sys2Proof.Machine.execRrcInval n s
  | .rrcDisable n => Sys2Proof.Machine.execRrcDisable n s
  | .ringCommit n r tail bar => Sys2Proof.Machine.execRingCommit n r tail bar s
  | .pushStore n p => Sys2Proof.Machine.execPushStore n p s
  | .engineStart n ext ue => Sys2Proof.Machine.execEngineStart n ext ue s
  | .segmentIssue n e xs xd => Sys2Proof.Machine.execSegmentIssue n e xs xd s
  | .descriptorPark n e => Sys2Proof.Machine.execDescriptorPark n e s
  | .itemComplete n e => Sys2Proof.Machine.execItemComplete n e s
  | .ringFlush c => Sys2Proof.Machine.execRingFlush c s
  | .ringCtrlOpen c => Sys2Proof.Machine.execRingCtrlOpen c s
  | .ringCtrlRun c => Sys2Proof.Machine.execRingCtrlRun c s
  | .ringCtrlClose c => Sys2Proof.Machine.execRingCtrlClose c s
  | .faultResume c ext => Sys2Proof.Machine.execFaultResume c ext s
  | .hostPcieRequest h id typ gfa len relaxed payload => Sys2Proof.Machine.execHostPcieRequest h id typ gfa len relaxed payload s
  | .hostCompletion h id ok poison data => Sys2Proof.Machine.execHostCompletion h id ok poison data s
  | .hostCompletionTimeout h id => Sys2Proof.Machine.execHostCompletionTimeout h id s
  | .hostD3hot h => Sys2Proof.Machine.execHostD3hot h s
  | .hostD0 h => Sys2Proof.Machine.execHostD0 h s
  | .schedModeNormal c => Sys2Proof.Machine.execSchedModeNormal c s
  | .schedModeStrict c => Sys2Proof.Machine.execSchedModeStrict c s
  | .queueSet c => Sys2Proof.Machine.execQueueSet c s
  | .spnProgLoad c => Sys2Proof.Machine.execSpnProgLoad c s
  | .progLoadDone ticket => Sys2Proof.Machine.execProgLoadDone ticket s
  | .spnThreadStart c => Sys2Proof.Machine.execSpnThreadStart c s
  | .spnThreadStop c => Sys2Proof.Machine.execSpnThreadStop c s
  | .spnThreadSetrole c => Sys2Proof.Machine.execSpnThreadSetrole c s
  | .spnCtxRoleWrite n m v => Sys2Proof.Machine.execSpnCtxRoleWrite n m v s
  | .remoteAccessComplete k t => Sys2Proof.Machine.execRemoteAccessComplete k t s
  | .waitcMet k t => Sys2Proof.Machine.execWaitcMet k t s
  | .add k t ue => Sys2Proof.Machine.execAdd k t ue s
  | .sub k t ue => Sys2Proof.Machine.execSub k t ue s
  | .mul k t ue => Sys2Proof.Machine.execMul k t ue s
  | .and k t ue => Sys2Proof.Machine.execAnd k t ue s
  | .or k t ue => Sys2Proof.Machine.execOr k t ue s
  | .xor k t ue => Sys2Proof.Machine.execXor k t ue s
  | .shl k t ue => Sys2Proof.Machine.execShl k t ue s
  | .shr k t ue => Sys2Proof.Machine.execShr k t ue s
  | .sra k t ue => Sys2Proof.Machine.execSra k t ue s
  | .min k t ue => Sys2Proof.Machine.execMin k t ue s
  | .max k t ue => Sys2Proof.Machine.execMax k t ue s
  | .minu k t ue => Sys2Proof.Machine.execMinu k t ue s
  | .maxu k t ue => Sys2Proof.Machine.execMaxu k t ue s
  | .addi k t ue => Sys2Proof.Machine.execAddi k t ue s
  | .andi k t ue => Sys2Proof.Machine.execAndi k t ue s
  | .ori k t ue => Sys2Proof.Machine.execOri k t ue s
  | .xori k t ue => Sys2Proof.Machine.execXori k t ue s
  | .shli k t ue => Sys2Proof.Machine.execShli k t ue s
  | .shri k t ue => Sys2Proof.Machine.execShri k t ue s
  | .srai k t ue => Sys2Proof.Machine.execSrai k t ue s
  | .li k t ue => Sys2Proof.Machine.execLi k t ue s
  | .lui k t ue => Sys2Proof.Machine.execLui k t ue s
  | .rdsys k t ue => Sys2Proof.Machine.execRdsys k t ue s
  | .vadd k t ue => Sys2Proof.Machine.execVadd k t ue s
  | .vsub k t ue => Sys2Proof.Machine.execVsub k t ue s
  | .vmul k t ue => Sys2Proof.Machine.execVmul k t ue s
  | .vfma k t ue => Sys2Proof.Machine.execVfma k t ue s
  | .vmin k t ue => Sys2Proof.Machine.execVmin k t ue s
  | .vmax k t ue => Sys2Proof.Machine.execVmax k t ue s
  | .vand k t ue => Sys2Proof.Machine.execVand k t ue s
  | .vor k t ue => Sys2Proof.Machine.execVor k t ue s
  | .vxor k t ue => Sys2Proof.Machine.execVxor k t ue s
  | .vperm k t ue => Sys2Proof.Machine.execVperm k t ue s
  | .vcvt k t ue => Sys2Proof.Machine.execVcvt k t ue s
  | .vadds k t ue => Sys2Proof.Machine.execVadds k t ue s
  | .vmuls k t ue => Sys2Proof.Machine.execVmuls k t ue s
  | .vfmas k t ue => Sys2Proof.Machine.execVfmas k t ue s
  | .vmins k t ue => Sys2Proof.Machine.execVmins k t ue s
  | .vmaxs k t ue => Sys2Proof.Machine.execVmaxs k t ue s
  | .vsplat k t ue => Sys2Proof.Machine.execVsplat k t ue s
  | .vext k t ue => Sys2Proof.Machine.execVext k t ue s
  | .vins k t ue => Sys2Proof.Machine.execVins k t ue s
  | .peq k t ue => Sys2Proof.Machine.execPeq k t ue s
  | .pne k t ue => Sys2Proof.Machine.execPne k t ue s
  | .plt k t ue => Sys2Proof.Machine.execPlt k t ue s
  | .ple k t ue => Sys2Proof.Machine.execPle k t ue s
  | .pseq k t ue => Sys2Proof.Machine.execPseq k t ue s
  | .pslt k t ue => Sys2Proof.Machine.execPslt k t ue s
  | .pult k t ue => Sys2Proof.Machine.execPult k t ue s
  | .pand k t ue => Sys2Proof.Machine.execPand k t ue s
  | .por k t ue => Sys2Proof.Machine.execPor k t ue s
  | .pnot k t ue => Sys2Proof.Machine.execPnot k t ue s
  | .pall k t ue => Sys2Proof.Machine.execPall k t ue s
  | .lds k t ue => Sys2Proof.Machine.execLds k t ue s
  | .sts k t ue => Sys2Proof.Machine.execSts k t ue s
  | .ldv k t ue => Sys2Proof.Machine.execLdv k t ue s
  | .stv k t ue => Sys2Proof.Machine.execStv k t ue s
  | .ldp k t ue => Sys2Proof.Machine.execLdp k t ue s
  | .stp k t ue => Sys2Proof.Machine.execStp k t ue s
  | .rlds k t ue ext => Sys2Proof.Machine.execRlds k t ue ext s
  | .rsts k t ue ext => Sys2Proof.Machine.execRsts k t ue ext s
  | .rldv k t ue ext => Sys2Proof.Machine.execRldv k t ue ext s
  | .rstv k t ue ext => Sys2Proof.Machine.execRstv k t ue ext s
  | .ratom k t ue ext => Sys2Proof.Machine.execRatom k t ue ext s
  | .rred k t ue ext => Sys2Proof.Machine.execRred k t ue ext s
  | .rmove k t ue ext => Sys2Proof.Machine.execRmove k t ue ext s
  | .rfetch k t ue ext => Sys2Proof.Machine.execRfetch k t ue ext s
  | .rmcast k t ue ext => Sys2Proof.Machine.execRmcast k t ue ext s
  | .xclr k t ue => Sys2Proof.Machine.execXclr k t ue s
  | .xacc k t ue => Sys2Proof.Machine.execXacc k t ue s
  | .xnarr k t ue => Sys2Proof.Machine.execXnarr k t ue s
  | .xseed k t ue => Sys2Proof.Machine.execXseed k t ue s
  | .xsave k t ue => Sys2Proof.Machine.execXsave k t ue s
  | .xrest k t ue => Sys2Proof.Machine.execXrest k t ue s
  | .br k t ue => Sys2Proof.Machine.execBr k t ue s
  | .jr k t ue => Sys2Proof.Machine.execJr k t ue s
  | .call k t ue => Sys2Proof.Machine.execCall k t ue s
  | .waitc k t ue => Sys2Proof.Machine.execWaitc k t ue s
  | .yield k t ue => Sys2Proof.Machine.execYield k t ue s
  | .halt k t ue => Sys2Proof.Machine.execHalt k t ue s
  | .nopInstruction k t ue => Sys2Proof.Machine.execNopInstruction k t ue s
  | .toArm n ix => Sys2Proof.Machine.execToArm n ix s
  | .toDisarm n ix => Sys2Proof.Machine.execToDisarm n ix s
  | .nctrAdd n c v => Sys2Proof.Machine.execNctrAdd n c v s
  | .triggeredOpStart n ue => Sys2Proof.Machine.execTriggeredOpStart n ue s
  | .triggeredOpComplete n ix => Sys2Proof.Machine.execTriggeredOpComplete n ix s
  | .toWatchdog n ix => Sys2Proof.Machine.execToWatchdog n ix s
  | .hbmRegionSet c => Sys2Proof.Machine.execHbmRegionSet c s
  | .granuleDrained k g => Sys2Proof.Machine.execGranuleDrained k g s
  | .granuleZeroed k g => Sys2Proof.Machine.execGranuleZeroed k g s
  | .scrubStep k => Sys2Proof.Machine.execScrubStep k s
  | .controllerZeroFillDone k => Sys2Proof.Machine.execControllerZeroFillDone k s
  | .rickWrite c => Sys2Proof.Machine.execRickWrite c s
  | .rickSeal c => Sys2Proof.Machine.execRickSeal c s
  | .rickRead c => Sys2Proof.Machine.execRickRead c s
  | .rickDelete c => Sys2Proof.Machine.execRickDelete c s
  | .rickCmdComplete ticket ue => Sys2Proof.Machine.execRickCmdComplete ticket ue s
  | .nandProgramFail ch block lost => Sys2Proof.Machine.execNandProgramFail ch block lost s
  | .fillComplete key ue => Sys2Proof.Machine.execFillComplete key ue s
  | .rsvHeatPeriod => Sys2Proof.Machine.execRsvHeatPeriod s
  | .promotionScan => Sys2Proof.Machine.execPromotionScan s
  | .rsvStreamStart c => Sys2Proof.Machine.execRsvStreamStart c s
  | .rsvStreamStop c => Sys2Proof.Machine.execRsvStreamStop c s
  | .sequenceCurrent ix => Sys2Proof.Machine.execSequenceCurrent ix s
  | .partEmit ix => Sys2Proof.Machine.execPartEmit ix s
  | .sequenceDone ix => Sys2Proof.Machine.execSequenceDone ix s
  | .streamDrained ix => Sys2Proof.Machine.execStreamDrained ix s
  | .journalWrite ticket units => Sys2Proof.Machine.execJournalWrite ticket units s
  | .rickRecovery up torn free targets luns => Sys2Proof.Machine.execRickRecovery up torn free targets luns s
  | .rickQuenchSignal => Sys2Proof.Machine.execRickQuenchSignal s
  | .rickProgramsEnded => Sys2Proof.Machine.execRickProgramsEnded s
  | .rickQuenchProgTimeout => Sys2Proof.Machine.execRickQuenchProgTimeout s
  | .rickJournalWritten => Sys2Proof.Machine.execRickJournalWritten s
  | .linkEnWrite n v => Sys2Proof.Machine.execLinkEnWrite n v s
  | .linkEnergyDetect n => Sys2Proof.Machine.execLinkEnergyDetect n s
  | .cdrLock n => Sys2Proof.Machine.execCdrLock n s
  | .eqDone n lanes => Sys2Proof.Machine.execEqDone n lanes s
  | .prbsPass n errs partner => Sys2Proof.Machine.execPrbsPass n errs partner s
  | .aligned n seen partner => Sys2Proof.Machine.execAligned n seen partner s
  | .linkUp n peer resume => Sys2Proof.Machine.execLinkUp n peer resume s
  | .trainTimeout n => Sys2Proof.Machine.execTrainTimeout n s
  | .codewordReceive n j levels => Sys2Proof.Machine.execCodewordReceive n j levels s
  | .alignmentLoss n j => Sys2Proof.Machine.execAlignmentLoss n j s
  | .replayTimer n => Sys2Proof.Machine.execReplayTimer n s
  | .creditUpdateSend n => Sys2Proof.Machine.execCreditUpdateSend n s
  | .creditReturnFailure n pool => Sys2Proof.Machine.execCreditReturnFailure n pool s
  | .linkRetrain n => Sys2Proof.Machine.execLinkRetrain n s
  | .linkFailureEvent n cause => Sys2Proof.Machine.execLinkFailureEvent n cause s
  | .linkStateDiscard n => Sys2Proof.Machine.execLinkStateDiscard n s
  | .txqEnter n => Sys2Proof.Machine.execTxqEnter n s
  | .txqWake n => Sys2Proof.Machine.execTxqWake n s
  | .txWakeDone n => Sys2Proof.Machine.execTxWakeDone n s
  | .rxqEnergy n => Sys2Proof.Machine.execRxqEnergy n s
  | .relockDone n => Sys2Proof.Machine.execRelockDone n s
  | .relockTimeout n => Sys2Proof.Machine.execRelockTimeout n s
  | .burstReceive l first cws => Sys2Proof.Machine.execBurstReceive l first cws s
  | .darkTimeout l => Sys2Proof.Machine.execDarkTimeout l s
  | .visitSend l => Sys2Proof.Machine.execVisitSend l s
  | .trainingBurst l => Sys2Proof.Machine.execTrainingBurst l s
  | .optSearch c => Sys2Proof.Machine.execOptSearch c s
  | .sweepComplete g b r dips => Sys2Proof.Machine.execSweepComplete g b r dips s
  | .ditherUpdate g b r err mv => Sys2Proof.Machine.execDitherUpdate g b r err mv s
  | .lockTimeout g b r => Sys2Proof.Machine.execLockTimeout g b r s
  | .ringRelock g b r => Sys2Proof.Machine.execRingRelock g b r s
  | .laserLow c pwr => Sys2Proof.Machine.execLaserLow c pwr s
  | .klnSpdm c => Sys2Proof.Machine.execKlnSpdm c s
  | .klnSpdmComplete ticket => Sys2Proof.Machine.execKlnSpdmComplete ticket s
  | .getVersion sid msg ok => Sys2Proof.Machine.execGetVersion sid msg ok s
  | .getCapabilities sid msg ok => Sys2Proof.Machine.execGetCapabilities sid msg ok s
  | .negotiateAlgorithms sid msg ok => Sys2Proof.Machine.execNegotiateAlgorithms sid msg ok s
  | .getDigests sid msg ok => Sys2Proof.Machine.execGetDigests sid msg ok s
  | .getCertificate sid msg ok => Sys2Proof.Machine.execGetCertificate sid msg ok s
  | .challenge sid msg ok => Sys2Proof.Machine.execChallenge sid msg ok s
  | .getMeasurements sid msg ok => Sys2Proof.Machine.execGetMeasurements sid msg ok s
  | .keyExchange sid msg ok => Sys2Proof.Machine.execKeyExchange sid msg ok s
  | .finish sid msg ok key => Sys2Proof.Machine.execFinish sid msg ok key s
  | .heartbeat sid msg ok => Sys2Proof.Machine.execHeartbeat sid msg ok s
  | .keyUpdate sid msg ok => Sys2Proof.Machine.execKeyUpdate sid msg ok s
  | .endSession sid msg ok => Sys2Proof.Machine.execEndSession sid msg ok s
  | .chunkSend sid msg ok => Sys2Proof.Machine.execChunkSend sid msg ok s
  | .chunkGet sid msg ok => Sys2Proof.Machine.execChunkGet sid msg ok s
  | .bind sid msg ok => Sys2Proof.Machine.execBind sid msg ok s
  | .keySet sid msg ok => Sys2Proof.Machine.execKeySet sid msg ok s
  | .keyDestroy sid msg ok => Sys2Proof.Machine.execKeyDestroy sid msg ok s
  | .report sid msg ok => Sys2Proof.Machine.execReport sid msg ok s
  | .status sid msg ok => Sys2Proof.Machine.execStatus sid msg ok s
  | .unbind sid msg ok => Sys2Proof.Machine.execUnbind sid msg ok s
  | .logRead sid msg ok => Sys2Proof.Machine.execLogRead sid msg ok s
  | .klnUnbind c => Sys2Proof.Machine.execKlnUnbind c s
  | .klnDebug c => Sys2Proof.Machine.execKlnDebug c s
  | .bindResetComplete => Sys2Proof.Machine.execBindResetComplete s
  | .unbindResetComplete => Sys2Proof.Machine.execUnbindResetComplete s
  | .errArm c => Sys2Proof.Machine.execErrArm c s
  | .errFifoRead c => Sys2Proof.Machine.execErrFifoRead c s
  | .errCaptureArm d => Sys2Proof.Machine.execErrCaptureArm d s
  | .errWinFirClear ix => Sys2Proof.Machine.execErrWinFirClear ix s
  | .recoveryWindowEnd ix => Sys2Proof.Machine.execRecoveryWindowEnd ix s
  | .powerChoice => Sys2Proof.Machine.execPowerChoice s
  | .domainWake d => Sys2Proof.Machine.execDomainWake d s
  | .damperSlot => Sys2Proof.Machine.execDamperSlot s
  | .domainWakeComplete d => Sys2Proof.Machine.execDomainWakeComplete d s
  | .pwrTolerance c => Sys2Proof.Machine.execPwrTolerance c s
  | .pwrSet c => Sys2Proof.Machine.execPwrSet c s
  | .pwrSetTimeout ticket => Sys2Proof.Machine.execPwrSetTimeout ticket s
  | .pwrCapArm c => Sys2Proof.Machine.execPwrCapArm c s
  | .pwrCapClear c => Sys2Proof.Machine.execPwrCapClear c s
  | .smoulderTick filler => Sys2Proof.Machine.execSmoulderTick filler s
  | .powerEstimate p => Sys2Proof.Machine.execPowerEstimate p s
  | .retrust => Sys2Proof.Machine.execRetrust s
  | .thermalSample temps sensor => Sys2Proof.Machine.execThermalSample temps sensor s
  | .throttleStep => Sys2Proof.Machine.execThrottleStep s
  | .quenchRickReady => Sys2Proof.Machine.execQuenchRickReady s
  | .quenchRickTimeout => Sys2Proof.Machine.execQuenchRickTimeout s
  | .regulatorPoll outs => Sys2Proof.Machine.execRegulatorPoll outs s
  | .regulatorAlert addr sw => Sys2Proof.Machine.execRegulatorAlert addr sw s
  | .sbdXfer c => Sys2Proof.Machine.execSbdXfer c s
  | .sbdXferDone st data => Sys2Proof.Machine.execSbdXferDone st data s
  | .busRecoveryAttempt ok pulses scl => Sys2Proof.Machine.execBusRecoveryAttempt ok pulses scl s
  | .revive => Sys2Proof.Machine.execRevive s
  | .sbWrite len c => Sys2Proof.Machine.execSbWrite len c s
  | .sbRead => Sys2Proof.Machine.execSbRead s
  | .traySclTimeout => Sys2Proof.Machine.execTraySclTimeout s
  | .enec ev => Sys2Proof.Machine.execEnec ev s
  | .disec ev => Sys2Proof.Machine.execDisec ev s
  | .rstdaa => Sys2Proof.Machine.execRstdaa s
  | .entdaa addr => Sys2Proof.Machine.execEntdaa addr s
  | .setdasa addr => Sys2Proof.Machine.execSetdasa addr s
  | .setmwl len => Sys2Proof.Machine.execSetmwl len s
  | .setmrl len => Sys2Proof.Machine.execSetmrl len s
  | .getmwl => Sys2Proof.Machine.execGetmwl s
  | .getmrl => Sys2Proof.Machine.execGetmrl s
  | .getpid => Sys2Proof.Machine.execGetpid s
  | .getbcr => Sys2Proof.Machine.execGetbcr s
  | .getdcr => Sys2Proof.Machine.execGetdcr s
  | .getstatus => Sys2Proof.Machine.execGetstatus s
  | .imageErase slot off => Sys2Proof.Machine.execImageErase slot off s
  | .imageProgram slot off data => Sys2Proof.Machine.execImageProgram slot off data s
  | .imageReadStatus => Sys2Proof.Machine.execImageReadStatus s
  | .crcFeed c => Sys2Proof.Machine.execCrcFeed c s
  | .crcFeedDone ch => Sys2Proof.Machine.execCrcFeedDone ch s
  | .crcConfigWrite ch j v => Sys2Proof.Machine.execCrcConfigWrite ch j v s
  | .crcRestart ch => Sys2Proof.Machine.execCrcRestart ch s
  | .timeAlignSet c => Sys2Proof.Machine.execTimeAlignSet c s
  | .timeAlignStep c => Sys2Proof.Machine.execTimeAlignStep c s
  | .timeHoldEnd => Sys2Proof.Machine.execTimeHoldEnd s
  | .telSnap => Sys2Proof.Machine.execTelSnap s
  | .extest lands => Sys2Proof.Machine.execExtest lands s
  | .idcode => Sys2Proof.Machine.execIdcode s
  | .samplePreload lands load => Sys2Proof.Machine.execSamplePreload lands load s
  | .clamp => Sys2Proof.Machine.execClamp s
  | .highz => Sys2Proof.Machine.execHighz s
  | .bypass => Sys2Proof.Machine.execBypass s
  | .privateInstruction code => Sys2Proof.Machine.execPrivateInstruction code s
  | .coppiceCtrlOff c => Sys2Proof.Machine.execCoppiceCtrlOff c s
  | .coppiceCtrlSource c => Sys2Proof.Machine.execCoppiceCtrlSource c s
  | .coppiceCtrlShadow c => Sys2Proof.Machine.execCoppiceCtrlShadow c s
  | .coppiceCtrlPromote c => Sys2Proof.Machine.execCoppiceCtrlPromote c s
  | .coppiceOffDrained => Sys2Proof.Machine.execCoppiceOffDrained s
  | .laserPowerReturn c pwr => Sys2Proof.Machine.execLaserPowerReturn c pwr s
  | .hostPerstDeassert h => Sys2Proof.Machine.execHostPerstDeassert h s
  | .mgmtPortLinkUp port => Sys2Proof.Machine.execMgmtPortLinkUp port s
  | .unitOutOfReset kind idx => Sys2Proof.Machine.execUnitOutOfReset kind idx s
  | .imageLoaderDone err => Sys2Proof.Machine.execImageLoaderDone err s
  | .sessionHeartbeatExpiry id => Sys2Proof.Machine.execSessionHeartbeatExpiry id s
  | .barRead hp id addr len => Sys2Proof.Machine.execBarRead hp id addr len s

end Sys2Proof.Machine
end

