-- ==== Sys2Proof/Safety.lean ====
section
/-! DEFINITION. What counts as a safe state and a safe step, in the terms the claims use. -/

namespace Sys2Proof.Machine
open Sys2Proof

/-- Keys of a sparse table rise strictly. -/
def Tbl.rising {α : Type} (lo : Nat) : Tbl α → Bool
  | [] => true
  | (k, _) :: t => decide (lo ≤ k) && Tbl.rising (k + 1) t

/-- A state is settled when its memory has the canonical form and no record of an armable code waits to be written. -/
def State.Settled (s : State) : Prop := Memory.wf s.mem = true ∧ s.err.later = []

/-- A run is safe while every step answers a next state: a step stops only where this model refuses a private JTAG instruction. -/
def Outcome.goesOn (o : Host.Outcome State Fault Refusal) : Prop := ∃ t, o = .next t

end Sys2Proof.Machine

/-! ### Commands, in the terms of the claims about them (R392, R398 to R408) -/

namespace Sys2Proof.Claims
open Sys2Proof Sys2Proof.Machine

/-- The state in which Cloentim has taken a command of its partner, after the refused replies whose time has come (R420). -/
def taken (s : State) (c : Cmd) : State := (State.each s.cmd.refused (fun s _ => s.refusalReply) s).fsat Fld.cmdPstatCnt_TAKEN c.partner 0 1

/-- Cloentim runs, the SEQ of the command is new in its sequence space (R408), and the command is not refused. -/
def New (s : State) (c : Cmd) : Prop :=
  s.boot.inReset = false ∧ s.noCloentim = false ∧ c.partner < 4 ∧ (taken s c).cached (seqSpace c.partner) c.seq = none
    ∧ (taken s c).earlierCopy c.partner c.seq s.now = none ∧ (taken s c).refusal c = none

/-- Steps 1 to 5 of R403 let a command of opcode `op` reach its own checks: it is new, and its header, opcode, length and phase are good. -/
def Ready (s : State) (c : Cmd) (op : Nat) : Prop :=
  New s c ∧ c.opcode = op ∧ cmdHeaderOk c c.partner = true ∧ opPermitted c.partner op = true ∧ plenOk c = true ∧ (taken s c).phaseBusy c = false

/-- The reply of R403 to a command that Cloentim has taken in `s`; on a management port it goes to the command's source (R399). -/
def replyOf (s : State) (c : Cmd) (status ticket : Nat) (results : List Byte) : Reply :=
  { partner := c.partner, opcode := c.opcode, seq := c.seq, status := status, cepoch := (taken s c).cepoch, ticket := ticket, body := results
    dst := if c.partner < 2 then some c.src else none, tag := if c.partner < 2 then c.tag else none }

/-- `s'`, with the reply cached (R408) and placed at the command's partner (R398), and the domains that the command's work needs woken (R446). `follow` is
what the command does once its reply is placed. -/
def replied (s s' : State) (c : Cmd) (status ticket : Nat) (results : List Byte) (follow : State → State := id) : State :=
  let r := replyOf s c status ticket results
  (follow (((s'.cachePut (seqSpace c.partner) { seq := c.seq, crc := cmdCrc c, reply := r }).retarget r c.partner c).placeAt r).1).cmdWakes c status

/-- `s'` with an OK reply of these result words. -/
def answered (s s' : State) (c : Cmd) (ws : List Word) : State := replied s s' c Status.ok 0 (bytesOfWords ws)

/-- The ticket that slot `k` gives a command, and the state that holds it (R406). -/
abbrev ticketed (s : State) (k : Nat) (c : Cmd) : Nat × State := (taken s c).ticketNew k c

/-- A deferred command is accepted: slot `k` gives its ticket, `work` begins with that ticket, and the reply carries ACCEPTED and the ticket; where the work
may fail links or reset units, armed responses follow (R430). -/
def accepted (s : State) (k : Nat) (c : Cmd) (work : Nat → State → State) (follow : State → State := id) : State :=
  replied s (work (ticketed s k c).1 (ticketed s k c).2) c Status.accepted (ticketed s k c).1 [] follow

end Sys2Proof.Claims
end

