-- ==== Sys2Proof/WellFormed.lean ====
section
/-! DEFINITION. Well-formed commands: every operand lies in the range that the spec gives it. -/

namespace Sys2Proof

/-- `a` is below `b`. -/
def lt (a b : Nat) : Bool := decide (a < b)
/-- `a` is at most `b`. -/
def leN (a b : Nat) : Bool := decide (a ≤ b)

/-- The fields of a fabric header fit their widths (R20), and the payload is at most 4,096 bytes (R17). -/
def Packet.wf (p : Packet) : Bool :=
  lt p.typ 64 && lt p.vc 8 && lt p.tc 8 && lt p.flow 16 && lt p.dclass 4 && lt p.cmark 4 && lt p.status 16 && lt p.ksel 64 && lt p.fas 4096
    && lt p.tag 65536 && lt p.fmt 16 && lt p.addr (2 ^ 64) && lt p.sx 16 && lt p.sy 16 && lt p.sp 16 && lt p.se 128 && lt p.fence 65536
    && lt p.role 256 && lt p.hopidx 8 && lt p.hopcnt 8 && lt p.rop 4 && lt p.len 4096 && lt p.route (2 ^ 64) && leN p.payload.length 4096

/-- The fields of a Zaralos header fit their widths (R60), and the payload is at most 4,096 bytes (R59). -/
def ZMsg.wf (m : ZMsg) : Bool :=
  lt m.ztype 64 && lt m.vc 8 && lt m.tc 8 && lt m.flow 16 && lt m.dclass 4 && lt m.status 16 && lt m.fmt 16 && lt m.rop 4 && lt m.fas 4096
    && lt m.ztag 4096 && lt m.ctx 65536 && lt m.len 4096 && lt m.wtoken (2 ^ 32) && lt m.addr (2 ^ 57) && lt m.rqid (2 ^ 19) && lt m.win 256
    && leN m.payload.length 4096

/-- The fields of a command header fit their widths (R402), and PLEN bytes of parameters follow. -/
def Cmd.wf (c : Cmd) : Bool :=
  lt c.version 256 && lt c.partner 16 && lt c.resv 16 && lt c.opcode 65536 && lt c.seq 65536 && lt c.plen 8192 && lt c.word1 (2 ^ 64)
    && c.params.length == c.plen && lt c.src (2 ^ 48) && lt (c.tag.getD 0) 65536

/-- An EPB (R11). -/
def epbIx (n : Nat) : Bool := lt n 64
/-- A host port. -/
def hostIx (h : Nat) : Bool := lt h 2
/-- A link: attach links 0 to 63, optical links 64 to 191 (R354). -/
def linkIx (n : Nat) : Bool := lt n 192
/-- Lanes of a link. -/
def lanesIn (n : Nat) : Nat := if n < 64 then 8 else 16
/-- A target port (R12). -/
def targetIx (e : Nat) : Bool := lt e 64 || (leN 96 e && leN e 121)
/-- A ring: group, bus and ring (R355). -/
def ringIxOk (g b r : Nat) : Bool := lt g 32 && lt b 5 && lt r 16

/-- Every operand of the command lies in its range. -/
def Instr.wf : Instr → Bool
  | .supplyApply | .supplyBrownout | .coldReset | .bootUnitsDone | .bootSlow | .tapReset | .rootRelock | .refusalReply | .packetEnqueue _
  | .packetTransmitDone _ | .mirrorBurstDone | .deadBoundSweep | .rsvHeatPeriod | .promotionScan
  | .rickRecovery _ _ _ _ _ | .rickQuenchSignal | .rickProgramsEnded | .rickQuenchProgTimeout | .rickJournalWritten | .bindResetComplete
  | .unbindResetComplete | .powerChoice | .damperSlot | .smoulderTick _ | .retrust | .throttleStep | .quenchRickReady | .quenchRickTimeout
  | .revive | .sbRead | .traySclTimeout | .rstdaa | .getmwl | .getmrl | .getpid | .getbcr | .getdcr | .getstatus
  | .imageReadStatus | .timeHoldEnd | .telSnap | .extest _ | .idcode | .samplePreload _ _ | .clamp | .highz | .bypass | .coppiceOffDrained
  | .imageLoaderDone _ => true
  | .pkgResetDeassert a b => lt a 4 && lt b 4
  | .cloentimStart failed => failed.all (fun f => lt f.1 8 && lt f.2 3)
  | .hostPortReset h _ | .hostCompletionTimeout h _ | .hostD3hot h | .hostD0 h | .hostPerstDeassert h => hostIx h
  | .rootUnlock cause => lt cause 2
  | .nop c | .ident c | .ticketQuery c | .cmdServiceStrict c | .cmdServiceRoundRobin c | .regRead c | .regWrite c | .resetUnitPulse c
  | .resetUnitAssert c | .resetUnitRelease c | .bootStatus c | .xlateInval c | .ringFlush c | .ringCtrlOpen c | .ringCtrlRun c
  | .ringCtrlClose c | .faultResume c _ | .schedModeNormal c | .schedModeStrict c | .queueSet c | .spnProgLoad c | .spnThreadStart c
  | .spnThreadStop c | .spnThreadSetrole c | .hbmRegionSet c | .rickWrite c | .rickSeal c | .rickRead c | .rickDelete c | .rsvStreamStart c
  | .rsvStreamStop c | .optSearch c | .klnSpdm c | .klnUnbind c | .klnDebug c | .errArm c | .errFifoRead c | .pwrTolerance c | .pwrSet c
  | .pwrCapArm c | .pwrCapClear c | .sbdXfer c | .sbWrite _ c | .crcFeed c | .timeAlignSet c | .timeAlignStep c | .coppiceCtrlOff c
  | .coppiceCtrlSource c | .coppiceCtrlShadow c | .coppiceCtrlPromote c => c.wf
  | .ember port c => lt port 2 && c.wf
  | .emberMiss port _ | .mgmtPortLinkUp port => lt port 2
  | .registerWrite hp addr len val => hostIx hp && leN len 8 && lt addr (2 ^ 26) && lt val (2 ^ (8 * len))
  | .mgmtFrameReceive port ety src dst len c => lt port 2 && lt ety (2 ^ 16) && lt src (2 ^ 48) && lt dst (2 ^ 48) && lt len 4135 && c.wf
  | .mboxCommit hp tail => hostIx hp && lt tail (2 ^ 32)
  | .mboxRspHeadWrite head => lt head (2 ^ 32)
  | .mboxEnable ctrl | .mirrorRingEnable ctrl => lt ctrl (2 ^ 32)
  | .commandArrive partner c => (lt partner 2 || partner == 3) && c.wf
  | .commandTake mb _ => mb.wf
  | .zIdent n m | .zLoad n m _ | .zStore n m | .zAtomicAdd n m | .zAtomicMin n m | .zAtomicMax n m | .zCas n m | .zReduce n m
  | .zAcquire n m | .zRelease n m | .zFence n m | .zDoorbell n m | .zResume n m | .zTgtRsp n m => epbIx n && m.wf
  | .zTgtSend n | .tgtTimeout n _ | .heatPeriod n | .heatCtrlDisable n | .walkComplete n _ _ | .rateIncrease n | .ccEnable n | .rrcInval n
  | .rrcDisable n | .engineStart n _ _ | .triggeredOpStart n _ => epbIx n
  | .tagFreeIssue u _ | .admission u _ => lt u 122
  | .prefetchStart n e _ _ | .segmentIssue n e _ _ => epbIx n && lt e (8 + 1024)
  | .descriptorPark n e | .itemComplete n e => epbIx n && lt e 8
  | .xlateInvalDrainDone ticket | .progLoadDone ticket | .rickCmdComplete ticket _ | .journalWrite ticket _ | .klnSpdmComplete ticket
  | .pwrSetTimeout ticket => lt ticket (2 ^ 32)
  | .packetIngress k v => lt k 1152 && lt v 8
  | .egressDispatch p ecc => lt p 124 && lt ecc 8
  | .holdDeadline l | .linkAdminSet l | .linkAdminClear l | .darkTimeout l | .visitSend l | .trainingBurst l => lt l 128
  | .mirrorBurstWrite die => lt die 2
  | .load e p _ | .store e p _ | .atomicAdd e p | .atomicMin e p | .atomicMax e p | .cas e p | .reduceStore e p | .acquire e p
  | .release e p | .fence e p | .doorbell e p => targetIx e && p.wf
  | .loadRsp u p | .ack u p | .atomicRsp u p | .fswRsp u p | .nack u p => lt u 122 && p.wf
  | .fenceComplete u i => lt u 122 && lt i 4096
  | .epbRoleWrite n v => epbIx n && lt v 256
  | .hubFenceWrite v => lt v (2 ^ 18)
  | .ringCommit n r tail _ => epbIx n && lt r 64 && lt tail (2 ^ 32)
  | .pushStore n p => epbIx n && p.wf
  | .hostPcieRequest h _ typ gfa len _ payload => hostIx h && lt typ 64 && lt gfa (2 ^ 64) && lt len 4096 && leN payload.length 4096
  | .hostCompletion h _ _ _ data => hostIx h && leN data.length 4096
  | .spnCtxRoleWrite n m v => lt n 16 && lt m 64 && lt v 256
  | .remoteAccessComplete k t | .waitcMet k t | .add k t _ | .sub k t _ | .mul k t _ | .and k t _ | .or k t _ | .xor k t _ | .shl k t _
  | .shr k t _ | .sra k t _ | .min k t _ | .max k t _ | .minu k t _ | .maxu k t _ | .addi k t _ | .andi k t _ | .ori k t _ | .xori k t _
  | .shli k t _ | .shri k t _ | .srai k t _ | .li k t _ | .lui k t _ | .rdsys k t _ | .vadd k t _ | .vsub k t _ | .vmul k t _ | .vfma k t _
  | .vmin k t _ | .vmax k t _ | .vand k t _ | .vor k t _ | .vxor k t _ | .vperm k t _ | .vcvt k t _ | .vadds k t _ | .vmuls k t _
  | .vfmas k t _ | .vmins k t _ | .vmaxs k t _ | .vsplat k t _ | .vext k t _ | .vins k t _ | .peq k t _ | .pne k t _ | .plt k t _
  | .ple k t _ | .pseq k t _ | .pslt k t _ | .pult k t _ | .pand k t _ | .por k t _ | .pnot k t _ | .pall k t _ | .lds k t _ | .sts k t _
  | .ldv k t _ | .stv k t _ | .ldp k t _ | .stp k t _ | .rlds k t _ _ | .rsts k t _ _ | .rldv k t _ _ | .rstv k t _ _ | .ratom k t _ _
  | .rred k t _ _ | .rmove k t _ _ | .rfetch k t _ _ | .rmcast k t _ _ | .xclr k t _ | .xacc k t _ | .xnarr k t _ | .xseed k t _
  | .xsave k t _ | .xrest k t _ | .br k t _ | .jr k t _ | .call k t _ | .waitc k t _ | .yield k t _ | .halt k t _ | .nopInstruction k t _ => lt k 256 && lt t 16
  | .toArm n i | .toDisarm n i | .triggeredOpComplete n i | .toWatchdog n i => epbIx n && lt i 1024
  | .nctrAdd n c v => epbIx n && lt c 256 && lt v (2 ^ 32)
  | .granuleDrained k g | .granuleZeroed k g => lt k 8 && lt g 384
  | .scrubStep k | .controllerZeroFillDone k => lt k 8
  | .nandProgramFail ch _ _ => lt ch 32
  | .fillComplete key _ => lt (key / 65536) 8
  | .sequenceCurrent i | .partEmit i | .sequenceDone i | .streamDrained i => lt i 8
  | .linkEnWrite n v => linkIx n && lt v 2
  | .linkEnergyDetect n | .cdrLock n | .prbsPass n _ _ | .trainTimeout n | .replayTimer n | .creditUpdateSend n | .linkRetrain n
  | .linkStateDiscard n | .txqEnter n | .txqWake n | .txWakeDone n | .rxqEnergy n | .relockDone n | .relockTimeout n => linkIx n
  | .eqDone n lanes => linkIx n && lt lanes.length (lanesIn n + 1) && lanes.all (fun x => lt x.eye 65536 && x.reqs.all (fun r => lt r 256))
  | .aligned n seen _ => linkIx n && seen.all (fun x => lt x.lane 16 && lt x.slot 65536 && x.commas.all (fun c => c.all (fun v => lt v 4)))
  | .linkUp n peer resume => linkIx n && lt peer (2 ^ 32) && lt resume 4096
  | .codewordReceive n j levels => linkIx n && lt j 8 && levels.all (fun x => lt x 4)
  | .alignmentLoss n j => linkIx n && lt j (lanesIn n)
  | .creditReturnFailure n pool => linkIx n && lt pool 9
  | .linkFailureEvent n cause => linkIx n && lt cause 10
  | .burstReceive l first cws => lt l 128 && (first :: cws).all (fun c => c.all (fun x => lt x 4))
  | .sweepComplete g b r _ | .ditherUpdate g b r _ _ | .lockTimeout g b r | .ringRelock g b r => ringIxOk g b r
  | .laserLow c _ | .laserPowerReturn c _ => lt c 8
  | .getVersion sid _ _ | .getCapabilities sid _ _ | .negotiateAlgorithms sid _ _ | .getDigests sid _ _ | .getCertificate sid _ _
  | .challenge sid _ _ | .getMeasurements sid _ _ | .keyExchange sid _ _ | .finish sid _ _ _ | .heartbeat sid _ _ | .keyUpdate sid _ _
  | .endSession sid _ _ | .chunkSend sid _ _ | .chunkGet sid _ _ | .bind sid _ _ | .keySet sid _ _ | .keyDestroy sid _ _ | .report sid _ _
  | .status sid _ _ | .unbind sid _ _ | .logRead sid _ _ => lt sid (2 ^ 32)
  | .errCaptureArm d => lt d 15
  | .errWinFirClear i | .recoveryWindowEnd i => lt i 256
  | .domainWake d | .domainWakeComplete d => lt d 50
  | .powerEstimate p => lt p (2 ^ 16)
  | .thermalSample temps _ => temps.all (fun x => lt x 4096)
  | .regulatorPoll outs => outs.all (fun o => lt o.st 5 && lt o.iout 65536 && lt o.vout 65536 && lt o.vmode 256)
  | .sbdXferDone st _ => lt st 5
  | .regulatorAlert addr sw => lt addr 128 && lt sw (2 ^ 16)
  | .busRecoveryAttempt _ pulses _ => lt pulses 10
  | .enec ev | .disec ev => lt ev 256
  | .entdaa addr | .setdasa addr => lt addr 128
  | .setmwl len | .setmrl len => lt len (2 ^ 16)
  | .imageErase slot _ => lt slot 2
  | .imageProgram slot _ data => lt slot 2 && leN data.length 256
  | .crcFeedDone ch | .crcRestart ch => lt ch 16
  | .crcConfigWrite ch j v => lt ch 16 && lt j 3 && lt v (2 ^ 64)
  | .privateInstruction code => lt code 256
  | .unitOutOfReset kind idx => lt kind 16 && lt idx (2 ^ 16)
  | .sessionHeartbeatExpiry id => lt id (2 ^ 32)
  | .barRead hp _ addr len => hostIx hp && lt addr (2 ^ 26) && lt len 9

end Sys2Proof
end

