-- ==== Sys2Proof/Certificates/Slice0/Obligations.lean ====
section
/-! DEFINITION. The statements of this model for the provers, and the few terms that they are written in. A statement about a command or an event says
what exec answers for it: the whole next state, so that everything the equation does not change is its frame. -/

namespace Sys2Proof.Claims
open Sys2Proof Sys2Proof.Machine

/-- Table — IDENT results, of a state. -/
def identWords (s : State) : List Word :=
  [s.rd .cmdIdent,
   BitVec.ofNat 64 (s.xyp * 2 ^ 52 + s.fget Fld.klnState_BSTATE * 2 ^ 49 + s.fget Fld.cmdCtrl_RR * 2 ^ 48 + s.fget Fld.cmdCtrl_CEPOCH * 2 ^ 40
     + s.fget Fld.klnBoot_BOOTCNT),
   s.rd .klnDevid 0, s.rd .klnDevid 1, BitVec.ofNat 64 (s.fget Fld.cmdMpMac_MAC 0), BitVec.ofNat 64 (s.fget Fld.cmdMpMac_MAC 1)]

/-- `row` is a command packet's row, with the packets that spell it. `ext` is what FAULT_RESUME's walks read of host memory. -/
def CommandRow (ext : List (List Word)) (row : (Cmd → Instr) × (Cmd → Bool)) : Prop :=
  row ∈ ([(.nop, fun c => c.opcode == 0x0001), (.ident, fun c => c.opcode == 0x0002), (.ticketQuery, fun c => c.opcode == 0x0003),
   (.cmdServiceStrict, fun c => c.opcode == 0x0006 && !bit (c.word 0) 0), (.cmdServiceRoundRobin, fun c => c.opcode == 0x0006 && bit (c.word 0) 0),
   (.regRead, fun c => c.opcode == 0x0010), (.regWrite, fun c => c.opcode == 0x0011),
   (.resetUnitPulse, fun c => c.opcode == 0x0100 && bits (c.word 0) 21 20 == 0),
   (.resetUnitAssert, fun c => c.opcode == 0x0100 && bits (c.word 0) 21 20 == 1),
   (.resetUnitRelease, fun c => c.opcode == 0x0100 && bits (c.word 0) 21 20 == 2),
   (.bootStatus, fun c => c.opcode == 0x0101), (.xlateInval, fun c => c.opcode == 0x0213), (fun c => .faultResume c ext, fun c => c.opcode == 0x0214),
   (.ringFlush, fun c => c.opcode == 0x0220), (.ringCtrlOpen, fun c => c.opcode == 0x0221 && bits (c.word 0) 17 16 == 0),
   (.ringCtrlRun, fun c => c.opcode == 0x0221 && bits (c.word 0) 17 16 == 1), (.ringCtrlClose, fun c => c.opcode == 0x0221 && bits (c.word 0) 17 16 == 2),
   (.schedModeNormal, fun c => c.opcode == 0x0230 && !bit (c.word 0) 0), (.schedModeStrict, fun c => c.opcode == 0x0230 && bit (c.word 0) 0),
   (.queueSet, fun c => c.opcode == 0x0231), (.spnProgLoad, fun c => c.opcode == 0x0240),
   (.spnThreadStart, fun c => c.opcode == 0x0241 && bits (c.word 0) 47 46 == 0), (.spnThreadStop, fun c => c.opcode == 0x0241 && bits (c.word 0) 47 46 == 1),
   (.spnThreadSetrole, fun c => c.opcode == 0x0241 && bits (c.word 0) 47 46 == 2), (.hbmRegionSet, fun c => c.opcode == 0x0250),
   (.rickWrite, fun c => c.opcode == 0x0260), (.rickSeal, fun c => c.opcode == 0x0261), (.rickRead, fun c => c.opcode == 0x0262),
   (.rickDelete, fun c => c.opcode == 0x0263), (.rsvStreamStart, fun c => c.opcode == 0x0264 && bits (c.word 0) 59 58 == 0),
   (.rsvStreamStop, fun c => c.opcode == 0x0264 && bits (c.word 0) 59 58 == 1), (.optSearch, fun c => c.opcode == 0x0270),
   (.klnSpdm, fun c => c.opcode == 0x0280), (.klnUnbind, fun c => c.opcode == 0x0281), (.klnDebug, fun c => c.opcode == 0x0282),
   (.errArm, fun c => c.opcode == 0x0290), (.errFifoRead, fun c => c.opcode == 0x0291), (.pwrTolerance, fun c => c.opcode == 0x0301),
   (.pwrSet, fun c => c.opcode == 0x0300), (.pwrCapArm, fun c => c.opcode == 0x0302 && !bit (c.word 0) 8),
   (.pwrCapClear, fun c => c.opcode == 0x0302 && bit (c.word 0) 8), (.sbdXfer, fun c => c.opcode == 0x0320), (.crcFeed, fun c => c.opcode == 0x0311),
   (.timeAlignSet, fun c => c.opcode == 0x0310 && !bit (c.word 0) 0), (.timeAlignStep, fun c => c.opcode == 0x0310 && bit (c.word 0) 0),
   (.coppiceCtrlOff, fun c => c.opcode == 0x02A0 && bits (c.word 2) 1 0 == 0), (.coppiceCtrlSource, fun c => c.opcode == 0x02A0 && bits (c.word 2) 1 0 == 1),
   (.coppiceCtrlShadow, fun c => c.opcode == 0x02A0 && bits (c.word 2) 1 0 == 2), (.coppiceCtrlPromote, fun c => c.opcode == 0x02A0 && bits (c.word 2) 1 0 == 3)] : List ((Cmd → Instr) × (Cmd → Bool)))

end Sys2Proof.Claims

section
open Sys2Proof Sys2Proof.Machine Sys2Proof.Claims

/-- For every row of a command that is new and not refused, the checks of R403 steps 3 to 5 decide in their order: a bad header is answered BAD_PARAM, an
opcode that the partner may not send INVALID_OPCODE, another PLEN than R534's BAD_PARAM, and a command that the boot phase (R470) or quench (R457) holds back
BUSY; nothing else is done. The readings that it rests on are the model's own: log entries 24 and 26. -/
def Obligations.CommandChecksDecideInOrder : Prop :=
  ∀ (ext : List (List Sys2Proof.Word)) (s : State) (c : Sys2Proof.Cmd), ∀ row, CommandRow ext row → row.2 c = true →
    New s c →
    (cmdHeaderOk c c.partner = false →
      exec (row.1 c) s = .next (replied s (taken s c) c 3 0 []).settleErr) ∧
    (cmdHeaderOk c c.partner = true → opPermitted c.partner c.opcode = false →
      exec (row.1 c) s = .next (replied s (taken s c) c 2 0 []).settleErr) ∧
    (cmdHeaderOk c c.partner = true → opPermitted c.partner c.opcode = true → plenOk c = false →
      exec (row.1 c) s = .next (replied s (taken s c) c 3 0 []).settleErr) ∧
    (cmdHeaderOk c c.partner = true → opPermitted c.partner c.opcode = true → plenOk c = true →
      (taken s c).phase ≠ 0 → (((taken s c).phase < 2 ∧ c.opcode ≠ 0x0280) ∨
        (((taken s c).phase = 6 ∨ (taken s c).quenched = true) ∧ c.opcode ∉ [0x0001, 0x0002, 0x0003, 0x0010, 0x0101, 0x0291, 0x0280, 0x0281])) →
      exec (row.1 c) s = .next (replied s (taken s c) c 4 0 []).settleErr)

/-- For every row of a command, a SEQ whose reply is cached and placed (R408): with the same packet CRC the cached reply is placed again on the partner (a
REFUSED one waits 20.0 µs), RETRIED counts, and nothing is executed; with another CRC BAD_PARAM is answered and SEQCLASH counts. A SEQ whose first reply is not
placed yet counts in DUPS alone. The readings that it rests on are the model's own: log entry 25. -/
def Obligations.RetriesAreNotExecutedAgain : Prop :=
  ∀ (ext : List (List Sys2Proof.Word)) (s : State) (c : Sys2Proof.Cmd) (e : CachedReply),
    ∀ row, CommandRow ext row → row.2 c = true → s.boot.inReset = false → s.noCloentim = false → c.partner < 4 →
    (taken s c).cached (seqSpace c.partner) c.seq = some e →
    let t := taken s c
    let r := replyOf s c e.reply.status e.reply.ticket e.reply.body
    let u := (t.fsat Fld.cmdPstatCnt_RETRIED c.partner 0 1).retarget r c.partner c
    (e.placed = true → e.crc = cmdCrc c → r.status = 5 → exec (row.1 c) s = .next (u.refuseLater r).settleErr) ∧
    (e.placed = true → e.crc = cmdCrc c → r.status ≠ 5 → exec (row.1 c) s = .next (u.placeAt r).1.settleErr) ∧
    (e.placed = true → e.crc ≠ cmdCrc c → exec (row.1 c) s =
      .next ((t.fsat Fld.cmdPstatErr_SEQCLASH c.partner 0 1).placeAt (replyOf s c 3 0 [])).1.settleErr) ∧
    (e.placed = false → exec (row.1 c) s = .next (t.fsat Fld.cmdPstatCnt_DUPS c.partner 0 1).settleErr)

/-- For every row of a command: a refused command (R387, R392, R394) changes nothing but the refusal log and what Cloentim keeps of a command taken; no ticket
is given, and its REFUSED reply waits among those that are placed 20.0 µs after the take. The readings that it rests on are the model's own: log entry 24. -/
def Obligations.RefusedCommandsOnlyLog : Prop :=
  ∀ (ext : List (List Sys2Proof.Word)) (s : State) (c : Sys2Proof.Cmd) (reason detail : Nat),
    ∀ row, CommandRow ext row → row.2 c = true → s.boot.inReset = false → s.noCloentim = false → c.partner < 4 →
    (taken s c).cached (seqSpace c.partner) c.seq = none →
    (taken s c).earlierCopy c.partner c.seq s.now = none →
    (taken s c).refusal c = some (reason, detail) →
    let r := replyOf s c 5 0 []
    exec (row.1 c) s = .next ((((taken s c).logRefusal c.partner c reason detail).cachePut
      (seqSpace c.partner) { seq := c.seq, crc := cmdCrc c, reply := r, placed := false }).refuseLater r).settleErr

/-- R407: TICKET_QUERY of a ticket whose slot has not been given to another command, in the current CEPOCH, is answered OK with DONE, OPCODE, STATUS and SEQ,
and once it is done with the event's results; of any other value of its word, BAD_PARAM. NOP is answered OK; IDENT with its table's words; BOOT_STATUS with
CMD_BOOT and CMD_HELD; REG_READ within its limits with the bytes of the registers, and outside them BAD_PARAM. Each changes nothing but what Cloentim keeps of
every command: its count of commands taken, its reply cache and the reply placed. -/
def Obligations.ReadCommandsAnswer : Prop :=
  ∀ (s : State) (c : Cmd),
    let t := taken s c
    (Ready s c 0x0001 → exec (.nop c) s = .next (answered s t c []).settleErr) ∧
    (Ready s c 0x0002 → exec (.ident c) s = .next (answered s t c (identWords t)).settleErr) ∧
    (Ready s c 0x0101 → exec (.bootStatus c) s = .next (answered s t c [t.rd .cmdBootW0, t.rd .cmdBootW1, t.rd .cmdHeld0, t.rd .cmdHeld1]).settleErr) ∧
    (∀ x : Ticket, Ready s c 0x0003 → tblFind t.cmd.tickets ((c.word 0).toNat % 256) = some x →
      (c.word 0).toNat = t.ticketNo ((c.word 0).toNat % 256) → exec (.ticketQuery c) s =
      .next (replied s t c 0 0 (if x.done then wordBytes (BitVec.ofNat 64 (2 ^ 63 + x.cmd.opcode * 2 ^ 32 + x.status * 2 ^ 16 + x.cmd.seq)) ++ x.results
        else wordBytes (BitVec.ofNat 64 (x.cmd.opcode * 2 ^ 32 + x.cmd.seq)))).settleErr) ∧
    (Ready s c 0x0003 → (tblFind t.cmd.tickets ((c.word 0).toNat % 256) = none ∨ (c.word 0).toNat ≠ t.ticketNo ((c.word 0).toNat % 256)) →
      exec (.ticketQuery c) s = .next (replied s t c 3 0 []).settleErr) ∧
    (∀ a n : Nat, Ready s c 0x0010 → bits (c.word 0) 31 0 = a → bits (c.word 0) 44 32 = n →
      let good := zeroOutside (c.word 0) [(44, 0)] = true ∧ a % 4 = 0 ∧ n % 4 = 0 ∧ 4 ≤ n ∧ n ≤ 4096 ∧ a + n ≤ 0x2000000
      (good → exec (.regRead c) s = .next (replied s t c 0 0 (t.regBytesAt a n)).settleErr) ∧
      (¬ good → exec (.regRead c) s = .next (replied s t c 3 0 []).settleErr))

end

namespace Sys2Proof.Claims
open Sys2Proof Sys2Proof.Machine

/-- Domains that are not in ACTIVE. -/
def asleep (s : State) : List Nat := (List.range 50).filter (fun d => s.domState d != Pwr.active)

/-- The rows of SCHED_MODE: `m` is bit 0 of MODE. -/
def SchedRow (c : Cmd) (m : Nat) (i : Instr) : Prop := (m = 0 ∧ i = .schedModeNormal c) ∨ (m = 1 ∧ i = .schedModeStrict c)

/-- The egress ports that words 1 and 2 of a SCHED_MODE name. -/
def schedPorts (c : Cmd) : List Nat := setBitsOf (c.word 1) 64 ++ (setBitsOf (c.word 2) 60).map (· + 64)

end Sys2Proof.Claims

section
open Sys2Proof Sys2Proof.Machine Sys2Proof.Claims

/-- CMD_SERVICE (R404, R471) with MODE 0 selects strict priority, and in phase NORMAL returns to READY and wakes every domain that sleeps; with MODE 1 it
selects round robin, and in phase READY goes to NORMAL. Each is answered OK. -/
def Obligations.ServiceCommandsSetPolicyAndPhase : Prop :=
  ∀ (s : State) (c : Cmd), Ready s c 0x0006 →
    let t := taken s c
    let strict := ({ t with boot := { t.boot with service := false } } : State).fset Fld.cmdCtrl_RR 0 0 0
    let robin := ({ t with boot := { t.boot with service := true } } : State).fset Fld.cmdCtrl_RR 0 0 1
    (c.word 0 = 0 → t.phase ≠ Phase.normal → exec (.cmdServiceStrict c) s = .next (answered s strict c []).settleErr) ∧
    (c.word 0 = 0 → t.phase = Phase.normal → exec (.cmdServiceStrict c) s =
      .next (answered s (State.each (asleep t) State.wake (strict.phaseSet Phase.ready)) c []).settleErr) ∧
    (c.word 0 = 1 → robin.phase ≠ Phase.ready → exec (.cmdServiceRoundRobin c) s = .next (answered s robin c []).settleErr) ∧
    (c.word 0 = 1 → robin.phase = Phase.ready → exec (.cmdServiceRoundRobin c) s = .next (answered s (robin.phaseSet Phase.normal) c []).settleErr)

/-- SCHED_MODE (R202) sets the mode of each egress port that its mask names and that sends no packet, and of no other; where every one is such, it is answered
OK, otherwise the others wait for their next dispatch opportunity, and the OK with them. A reserved MODE or a mask bit for ports 124 to 127 is answered
BAD_PARAM. QUEUE_SET (R206), its parameters good and with the role epoch that the queue holds, keeps the queue's new entry for the next dispatch opportunity
and is answered OK; with another epoch STALE_ROLE, and with bad parameters BAD_PARAM, and nothing is set. The readings that it rests on are the model's own:
log entry 31. -/
def Obligations.SchedulerCommandsSetPortsAndQueues : Prop :=
  ∀ (s : State) (c : Cmd),
    let t := taken s c
    (∀ m i, Ready s c 0x0230 → SchedRow c m i → (c.word 0).toNat % 2 = m →
      let now := (schedPorts c).filter t.egressFree
      let busy := (schedPorts c).filter (fun p => !t.egressFree p)
      let set := State.each now (fun s p => s.setMode p (m == 1)) t
      let held := set.cachePut (seqSpace c.partner) { seq := c.seq, crc := cmdCrc c, reply := replyOf s c 0 0 [], placed := false }
      (1 < (c.word 0).toNat ∨ bits (c.word 2) 63 60 ≠ 0 → exec i s = .next (replied s t c 3 0 []).settleErr) ∧
      ((c.word 0).toNat ≤ 1 → bits (c.word 2) 63 60 = 0 → busy = [] → exec i s = .next (answered s set c []).settleErr) ∧
      ((c.word 0).toNat ≤ 1 → bits (c.word 2) 63 60 = 0 → busy ≠ [] → exec i s = .next ({ held with sw := { held.sw with
        modes := held.sw.modes ++ [{ egresses := busy, strict := m == 1, reply := replyOf s c 0 0 [] }] } } : State).settleErr)) ∧
    (∀ q rate burst, Ready s c 0x0231 → bits (c.word 0) 13 0 = q → bits (c.word 1) 13 0 = rate → bits (c.word 1) 43 32 = burst →
      let good := zeroOutside (c.word 0) [(63, 39), (13, 0)] = true ∧ zeroOutside (c.word 1) [(43, 32), (13, 0)] = true ∧ q ≤ 15871 ∧
        bits (c.word 0) 47 40 ≠ 0 ∧ (bit (c.word 0) 39 = true → 1 ≤ rate ∧ rate ≤ 16000 ∧ burst ≠ 0)
      (¬ good → exec (.queueSet c) s = .next (replied s t c 3 0 []).settleErr) ∧
      (good → bits (c.word 0) 63 56 = t.queueRole q → exec (.queueSet c) s =
        .next (answered s { t with sw := { t.sw with qsets := t.sw.qsets ++ [(q, BitVec.ofNat 64 (bits (c.word 0) 55 48 * 2 ^ 56
          + bits (c.word 0) 47 40 * 2 ^ 48 + bits (c.word 0) 39 39 * 2 ^ 47 + burst * 2 ^ 32 + rate))] } } c []).settleErr) ∧
      (good → bits (c.word 0) 63 56 ≠ t.queueRole q → exec (.queueSet c) s = .next (replied s t c Status.staleRole 0 []).settleErr))

/-- R495: TIME_ALIGN with MODE 0 sets the counter to VALUE, and with MODE 1 moves it forward at once by OFFSET, or holds it for -OFFSET cycles; LAST_STEP shows
OFFSET, or 0, and the ends of open recovery windows move with the counter. During a hold each is answered BUSY; a reserved bit or MODE, and an OFFSET beyond
2^31, is answered BAD_PARAM. -/
def Obligations.TimeAlignSetsStepsOrHolds : Prop :=
  ∀ (s : State) (c : Cmd), Ready s c 0x0310 →
    let t := taken s c
    let d := signed 64 (c.word 1).toNat
    let stepped := (t.windowsMove d).fset Fld.telTctrl_LAST_STEP 0 0 (BitVec.ofInt 32 d).toNat
    (c.word 0 = 0 → t.holding = false → exec (.timeAlignSet c) s =
      .next (answered s (((t.windowsMove (((c.word 1).toNat : Int) - t.time)).wr .telTime 0 0 (c.word 1)).fset Fld.telTctrl_LAST_STEP 0 0 0) c []).settleErr) ∧
    (c.word 0 = 1 → t.holding = false → d.natAbs ≤ 2 ^ 31 → 0 ≤ d → exec (.timeAlignStep c) s =
      .next (answered s (stepped.wr .telTime 0 0 (BitVec.ofInt 64 (t.time + d))) c []).settleErr) ∧
    (c.word 0 = 1 → t.holding = false → d.natAbs ≤ 2 ^ 31 → d < 0 → exec (.timeAlignStep c) s =
      .next (answered s (({ stepped with tel := { stepped.tel with hold := some (t.now + d.natAbs) } } : State).fset Fld.telTctrl_HOLDING 0 0 1) c []).settleErr) ∧
    (c.word 0 = 0 → t.holding = true → exec (.timeAlignSet c) s = .next (replied s t c Status.busy 0 []).settleErr) ∧
    (c.word 0 = 1 → t.holding = true → d.natAbs ≤ 2 ^ 31 → exec (.timeAlignStep c) s = .next (replied s t c Status.busy 0 []).settleErr) ∧
    (c.word 0 = 1 → 2 ^ 31 < d.natAbs → exec (.timeAlignStep c) s = .next (replied s t c 3 0 []).settleErr) ∧
    (1 < (c.word 0).toNat → (bit (c.word 0) 0 = false → exec (.timeAlignSet c) s = .next (replied s t c 3 0 []).settleErr) ∧
      (bit (c.word 0) 0 = true → exec (.timeAlignStep c) s = .next (replied s t c 3 0 []).settleErr))

/-- R427: ERR_FIFO_READ answers how many records it returns, how many remain, and the oldest records, at most MAX; with POP = 1 it removes them, with POP = 0
they stay; a set reserved bit, DIE 15 or MAX 0 is answered BAD_PARAM. ERR_ARM sets the response of a code to 0 or to the one listed for it, and answers the
response that the code had; a set reserved bit, a reserved code and a response that is not listed are answered BAD_PARAM. -/
def Obligations.ErrorCommandsArmAndRead : Prop :=
  ∀ (s : State) (c : Cmd),
    let t := taken s c
    let w := c.word 0
    (∀ code act a, Ready s c 0x0290 → zeroOutside w [(17, 16), (7, 0)] = true → bits w 7 0 = code → bits w 17 16 = act → codeAction code = some a →
      (act = 0 ∨ act = a) → exec (.errArm c) s =
        .next (answered s (t.wr .errArm (code / 8) 0 (setBits (t.rd .errArm (code / 8)) (8 * (code % 8) + 1) (8 * (code % 8)) act)) c
          [BitVec.ofNat 64 (t.armedAction code)]).settleErr) ∧
    (Ready s c 0x0290 → (zeroOutside w [(17, 16), (7, 0)] = false ∨ codeAction (bits w 7 0) = none ∨
        ∃ a, codeAction (bits w 7 0) = some a ∧ bits w 17 16 ≠ 0 ∧ bits w 17 16 ≠ a) →
      exec (.errArm c) s = .next (replied s t c 3 0 []).settleErr) ∧
    (Ready s c 0x0291 → (zeroOutside w [(16, 16), (13, 8), (3, 0)] = false ∨ bits w 3 0 = 15 ∨ bits w 13 8 = 0) →
      exec (.errFifoRead c) s = .next (replied s t c Status.badParam 0 []).settleErr) ∧
    (∀ d n, Ready s c 0x0291 → zeroOutside w [(16, 16), (13, 8), (3, 0)] = true → bits w 3 0 = d → d ≠ 15 → bits w 13 8 = n → n ≠ 0 →
      let q := tblGet [] t.err.fifos d
      (bit w 16 = false → exec (.errFifoRead c) s =
        .next (answered s t c (BitVec.ofNat 64 (q.length * 256 + min n q.length) :: (q.take n).flatten)).settleErr) ∧
      (bit w 16 = true → exec (.errFifoRead c) s =
        .next (answered s (({ t with err := { t.err with fifos := tblPut t.err.fifos d (q.drop n) } } : State).fset Fld.errDieCnt1_LEVEL d 0 (q.length - n)) c
          (BitVec.ofNat 64 ((q.length - n) * 256 + min n q.length) :: (q.take n).flatten)).settleErr))

/-- KLN_DEBUG, where no rule refuses it, sets DEBUG_OPEN (R388); PWR_TOLERANCE sets LAT of a function and wakes its domains whose wake would take longer
(R447); PWR_CAP_ARM sets the cap, its triggers and ARMED, and with CLEAR = 1 clears them (R454). Each is answered OK, or for a reserved bit or a value out of
range BAD_PARAM. The readings that it rests on are the model's own: log entry 44. -/
def Obligations.PowerAndDebugCommandsSetRegisters : Prop :=
  ∀ (s : State) (c : Cmd),
    let t := taken s c
    let w := c.word 0
    (Ready s c 0x0282 → exec (.klnDebug c) s = .next (answered s (t.fset Fld.klnState_DEBUG_OPEN 0 0 1) c []).settleErr) ∧
    (∀ f, Ready s c 0x0301 → zeroOutside w [(31, 16), (3, 0)] = true → bits w 3 0 = f → f ≤ 9 →
      let t1 := t.fset Fld.pwrFunc_LAT f 0 (bits w 31 16)
      exec (.pwrTolerance c) s =
        .next (answered s (State.each ((funcDoms f).filter (fun d => decide (t1.tol f < wakeLatency f (t1.domState d)))) State.wake t1) c []).settleErr) ∧
    (∀ cap, Ready s c 0x0302 → zeroOutside w [(31, 16), (8, 8), (3, 0)] = true → bit w 8 = false → bit w 3 = false → bits w 31 16 = cap → 300 ≤ cap →
      cap ≤ 1900 → exec (.pwrCapArm c) s =
        .next (answered s (((t.fset Fld.pwrCap_CAP 0 0 cap).fset Fld.pwrCap_ARMED 0 0 1).fset Fld.pwrCap_TRIG 0 0 (bits w 3 0)) c []).settleErr) ∧
    (Ready s c 0x0302 → zeroOutside w [(31, 16), (8, 8), (3, 0)] = true → bit w 8 = true →
      exec (.pwrCapClear c) s = .next (answered s (t.wr .pwrCap 0 0 0) c []).settleErr) ∧
    (Ready s c 0x0301 → (zeroOutside w [(31, 16), (3, 0)] = false ∨ 9 < bits w 3 0) → exec (.pwrTolerance c) s = .next (replied s t c 3 0 []).settleErr) ∧
    (Ready s c 0x0302 → bit w 8 = false → (zeroOutside w [(31, 16), (8, 8), (3, 0)] = false ∨ bit w 3 = true ∨ bits w 31 16 < 300 ∨ 1900 < bits w 31 16) →
      exec (.pwrCapArm c) s = .next (replied s t c 3 0 []).settleErr) ∧
    (Ready s c 0x0302 → bit w 8 = true → zeroOutside w [(31, 16), (8, 8), (3, 0)] = false →
      exec (.pwrCapClear c) s = .next (replied s t c 3 0 []).settleErr)

end

namespace Sys2Proof.Claims
open Sys2Proof Sys2Proof.Machine

/-- Units whose translations an XLATE_INVAL of this mask reaches: the EPBs named that are not held, and the cluster walkers of the first EPB of a group. -/
def xlatUnits (t : State) (c : Cmd) : List Nat :=
  (setBitsOf (c.word 1) 64).filter (fun n => !t.epbHeld n)
    ++ (((setBitsOf (c.word 1) 64).filter (fun n => n % 4 == 0)).map (fun n => 96 + n / 4)).filter (fun u => !t.clusterHeld (u - 96))

/-- The space that it names: a FAS tag, or with SEL = 1 a target window. -/
def xlatSpace (c : Cmd) : Space := if bit (c.word 0) 12 then .win (bits (c.word 0) 11 0) else .fas (bits (c.word 0) 11 0)

/-- What steps 1 and 2 of R78 leave: no leaf of the space is cached, and walks in it are stale. -/
def xlatCleared (t : State) (c : Cmd) (s : State) : State := State.each (xlatUnits t c) (fun s n => s.epbMod n (xlatClear (xlatSpace c))) s

end Sys2Proof.Claims

section
open Sys2Proof Sys2Proof.Machine Sys2Proof.Claims

/-- XLATE_INVAL of a good form (R77, R78): in every unit that it names and that is not in reset, it drops the cached leaves of its space, makes the walks
there stale, and drops the remote-read lines filled under its FAS tag. Without DRAIN it is answered OK; with DRAIN it is accepted, and its drain keeps the
requests under way that use the space. A reserved bit, and a window above 255, are answered BAD_PARAM. -/
def Obligations.XlateInvalDropsTheSpace : Prop :=
  ∀ (s : State) (c : Cmd), Ready s c 0x0213 →
    let t := taken s c
    let good := zeroOutside (c.word 0) [(16, 16), (12, 12), (11, 0)] = true ∧ (bit (c.word 0) 12 = true → bits (c.word 0) 11 0 ≤ 255)
    (¬ good → exec (.xlateInval c) s = .next (replied s t c 3 0 []).settleErr) ∧
    (good → bit (c.word 0) 16 = false → exec (.xlateInval c) s = .next (answered s (xlatCleared t c t) c []).settleErr) ∧
    (∀ k, good → bit (c.word 0) 16 = true → t.ticketSlot = some k → exec (.xlateInval c) s =
      .next (accepted s k c (fun n u =>
        let v := xlatCleared t c u
        let users := (xlatUnits t c).map (fun n => t.xlatUsers n (xlatSpace c))
        { v with xlat := { v.xlat with drains := v.xlat.drains ++
          [{ ticket := n, reqs := users.flatMap (·.1), tgts := users.flatMap (·.2) }] } })).settleErr)

/-- FAULT_RESUME of a good form and of a unit that is not in reset (R94, R98, R107, R236) resumes the parked work that it names, or with ALL all of its unit,
or with ABORT ends it; where it names work that is not parked, it is answered BAD_PARAM. The readings that it rests on are the model's own: log entries 33, 34
and 40. -/
def Obligations.FaultResumeTakesTheWorkNamed : Prop :=
  ∀ (s : State) (c : Cmd) (ext : List (List Word)), Ready s c 0x0214 → resumeFormOk c = true →
    let t := taken s c
    let u := bits (c.word 0) 7 0
    let all := bit (c.word 0) 17
    let abort := bit (c.word 0) 16
    (bits (c.word 0) 13 12 = 0 → t.epbHeld u = false →
      let l := t.heldSlots u (if all then none else some (bits (c.word 1) 31 0))
      (all = true ∨ l ≠ [] → exec (.faultResume c ext) s = .next (answered s (State.each l (fun s k => s.wakeSlot u k abort) t) c []).settleErr) ∧
      (all = false → l = [] → exec (.faultResume c ext) s = .next (replied s t c Status.badParam 0 []).settleErr)) ∧
    (bits (c.word 0) 13 12 = 1 → t.epbHeld u = false →
      let l := t.heldParks u (if all then none else some (bits (c.word 1) 37 32, bits (c.word 1) 31 0))
      (all = true ∨ l ≠ [] → exec (.faultResume c ext) s =
        .next (answered s (State.each l (fun s p => if p.mover.ni then s.niResume u p abort else s.descResume u p abort) t) c []).settleErr) ∧
      (all = false → l = [] → exec (.faultResume c ext) s = .next (replied s t c Status.badParam 0 []).settleErr)) ∧
    (bits (c.word 0) 13 12 = 2 → t.clusterHeld (u / 16) = false →
      let l := t.heldThreads u (if all then none else some (bits (c.word 1) 3 0))
      (all = true ∨ l ≠ [] → exec (.faultResume c ext) s =
        .next (answered s (State.each l.zipIdx (fun s x => s.thrResume x.1 abort (ext.getD x.2 [])) t) c []).settleErr) ∧
      (all = false → l = [] → exec (.faultResume c ext) s = .next (replied s t c Status.badParam 0 []).settleErr))

/-- The ring commands of a good form, of a ring r of an EPB n that is not in reset (R124, R127, R128, R276). RING_FLUSH flushes a ring that is not OFF and
answers FLUSHED with TAIL, the words discarded and the items cancelled. OPEN takes an OFF ring of a good configuration to RUN with its indices at 0, and a
FLUSHED one to RUN, or HELD where it has parked items; of a ring that carries triggered operations it is answered BUSY. RUN does the same for a HALTED ring;
CLOSE takes an idle ring to OFF, and a busy one is answered BUSY. The readings that it rests on are the model's own: log entry 33. -/
def Obligations.RingCommandsMoveTheRing : Prop :=
  ∀ (s : State) (c : Cmd) (n r : Nat), bits (c.word 0) 13 8 = n → bits (c.word 0) 5 0 = r → (taken s c).epbHeld n = false →
    let t := taken s c
    let resumed := if 0 < t.ringParks n r then RingSt.held else RingSt.run
    let zero := (((t.fset Fld.epbRingTail_TAIL n r 0).fset Fld.epbRingLow_LOW n r 0).fset Fld.epbRingFetch_FETCH n r 0).fset Fld.epbRingFill_FILL n r 0
    (Ready s c 0x0220 → zeroOutside (c.word 0) [(14, 14), (13, 8), (5, 0)] = true → t.ringState n r ≠ RingSt.off →
      let f := t.ringFlush n r (bit (c.word 0) 14) 8
      exec (.ringFlush c) s = .next (replied s f.2.2 c Status.flushed 0
        (bytesOfWords [BitVec.ofNat 64 (t.ringTail n r * 2 ^ 32 + f.1 % 2 ^ 32), BitVec.ofNat 64 f.2.1])).settleErr) ∧
    (Ready s c 0x0221 → zeroOutside (c.word 0) [(17, 16), (13, 8), (5, 0)] = true →
      (bits (c.word 0) 17 16 = 0 → t.ringCarries n r = true → exec (.ringCtrlOpen c) s = .next (replied s t c Status.busy 0 []).settleErr) ∧
      (bits (c.word 0) 17 16 = 0 → t.ringCarries n r = false → t.ringState n r = RingSt.off → t.ringConfigOk n r = true →
        t.engMinSum n r + t.fget Fld.epbRingCfg_ENG_MIN n r ≤ 8 → exec (.ringCtrlOpen c) s =
          .next (answered s (((zero.epbMod n (fun e => { e with ringDone := tblDel e.ringDone r })).fset Fld.epbRingStat_STATE n r RingSt.run).ringShow n r) c
            []).settleErr) ∧
      (bits (c.word 0) 17 16 = 0 → t.ringCarries n r = false → t.ringState n r = RingSt.flushed → t.engMinSum n r + t.fget Fld.epbRingCfg_ENG_MIN n r ≤ 8 →
        exec (.ringCtrlOpen c) s = .next (answered s (((t.fset Fld.epbRingFill_FILL n r (8 * t.ringTail n r)).fset Fld.epbRingStat_STATE n r resumed).ringShow n r) c
            []).settleErr) ∧
      (bits (c.word 0) 17 16 = 1 → t.ringState n r = RingSt.halted → exec (.ringCtrlRun c) s =
        .next (answered s (t.fset Fld.epbRingStat_STATE n r resumed) c []).settleErr) ∧
      (bits (c.word 0) 17 16 = 2 → t.ringState n r ≠ RingSt.off → t.ringUse n r + t.ringParks n r + t.ringResumes n r = 0 → exec (.ringCtrlClose c) s =
        .next (answered s ((t.fset Fld.epbRingStat_STATE n r RingSt.off).ringShow n r) c []).settleErr) ∧
      (bits (c.word 0) 17 16 = 2 → t.ringState n r ≠ RingSt.off → 0 < t.ringUse n r + t.ringParks n r + t.ringResumes n r →
        exec (.ringCtrlClose c) s = .next (replied s t c Status.busy 0 []).settleErr))

/-- REG_WRITE (R416) of registers that are all writable with these values applies them in ascending address order and is answered OK; when one is not, it
applies none and answers the first failing register's status and address; outside its limits, or where it covers a register in part or no register, it is
answered BAD_PARAM. The readings that it rests on are the model's own: log entries 33 and 43. -/
def Obligations.RegWriteAppliesAllOrNothing : Prop :=
  ∀ (s : State) (c : Cmd), Ready s c 0x0011 →
    let t := taken s c
    (regWriteList c = none → exec (.regWrite c) s = .next (replied s t c 3 0 []).settleErr) ∧
    ∀ l : List (RegAt × Word), regWriteList c = some l →
    ((∀ e ∈ l, t.regCheck (t.regsAfter l) e.1 e.2 = Status.ok) →
      exec (.regWrite c) s = .next (answered s (State.each l (fun s e => s.regApply e.1 e.2) t) c []).settleErr) ∧
    (∀ pre e post, l = pre ++ e :: post → (∀ x ∈ pre, t.regCheck (t.regsAfter l) x.1 x.2 = Status.ok) → t.regCheck (t.regsAfter l) e.1 e.2 ≠ Status.ok →
      exec (.regWrite c) s = .next (replied s t c (t.regCheck (t.regsAfter l) e.1 e.2) 0
        (bytesOfWords [BitVec.ofNat 64 (regAddr e.1.reg e.1.i e.1.j)])).settleErr)

/-- SPN_PROG_LOAD (R233) of an image in the pool to clusters whose threads are IDLE is accepted, and to others answered BUSY. SPN_THREAD (R235), its checks
passed: START makes the threads named READY at its PC with its argument in S1, STOP stops them, SETROLE stops them and sets their ROLE; of a good form with an
EXP_ROLE that a named thread does not hold, it is answered STALE_ROLE. The readings that it rests on are the model's own: log entry 40. -/
def Obligations.SpindleCommandsLoadStartStop : Prop :=
  ∀ (s : State) (c : Cmd),
    let t := taken s c
    (∀ k src len, Ready s c 0x0240 → zeroOutside (c.word 0) [(15, 0)] = true → setBitsOf (c.word 0) 16 ≠ [] → (c.word 1).toNat = src → (c.word 2).toNat = len →
      0 < len → len ≤ 262144 → len % 8 = 0 → gfaXyp src = t.xyp → 112 ≤ gfaE src → gfaE src ≤ 119 → gfaXyp (src + len - 1) = t.xyp →
      112 ≤ gfaE (src + len - 1) → gfaE (src + len - 1) ≤ 119 → t.ticketSlot = some k →
      ((∀ x ∈ setBitsOf (c.word 0) 16, t.clusterBusy x = false) → exec (.spnProgLoad c) s =
        .next (accepted s k c (fun n u =>
          { u with spn := { u.spn with loads := u.spn.loads ++ [{ ticket := n, cmask := (c.word 0).toNat, src := src, len := len }] } })).settleErr) ∧
      ((∃ x ∈ setBitsOf (c.word 0) 16, t.clusterBusy x = true) → exec (.spnProgLoad c) s = .next (replied s t c Status.busy 0 []).settleErr)) ∧
    (∀ a i, Ready s c 0x0241 → bits (c.word 0) 47 46 = a → ((a = 0 ∧ i = .spnThreadStart c) ∨ (a = 1 ∧ i = .spnThreadStop c) ∨ (a = 2 ∧ i = .spnThreadSetrole c)) →
      t.threadCheck c = Status.staleRole → exec i s = .next (replied s t c Status.staleRole 0 []).settleErr) ∧
    (Ready s c 0x0241 → bits (c.word 0) 47 46 = 0 → t.threadCheck c = Status.ok → t.startCheck c = Status.ok → exec (.spnThreadStart c) s =
      .next (answered s (State.each (threadsOf c) (fun s q => s.thrStart c q) t) c []).settleErr) ∧
    (Ready s c 0x0241 → bits (c.word 0) 47 46 = 1 → t.threadCheck c = Status.ok → exec (.spnThreadStop c) s =
      .next (answered s (State.each (threadsOf c) State.thrStop t) c []).settleErr) ∧
    (Ready s c 0x0241 → bits (c.word 0) 47 46 = 2 → t.threadCheck c = Status.ok → exec (.spnThreadSetrole c) s =
      .next (answered s (State.each (threadsOf c) (fun s q => (s.thrStop q).thrSet Fld.spnThrW0_ROLE q (bits (c.word 0) 55 48)) t) c []).settleErr)

end

namespace Sys2Proof.Claims
open Sys2Proof Sys2Proof.Machine

/-- A Rick command's entry in the list of those in progress (R315). -/
def rickEntry (c : Cmd) (ticket now : Nat) : RickCmd :=
  { ticket := ticket, op := c.opcode, obj := rickObj c, addr := (c.word 1).toNat, unit := rickUnit c, count := rickCount c, jAt := now }

/-- `s` with a Rick command in progress. -/
def rickBegun (c : Cmd) (ticket : Nat) (s : State) : State := { s with rick := { s.rick with cmds := s.rick.cmds ++ [rickEntry c ticket s.now] } }

/-- A Rick command may begin (R315): a tenant is bound, the Rick is in RUN, and no other Rick command acts on the object. -/
def RickFree (t : State) (c : Cmd) : Prop := t.bound = true ∧ t.objBusy (rickObj c) = false ∧ t.rickState = Rick.run

/-- The work of an accepted PWR_SET of ceiling MAXDEEP, with ticket `n` (R448). -/
def powerSet (c : Cmd) (n : Nat) (s : State) : State :=
  let doms := setBitsOf (c.word 0) 50
  let deep := bits (c.word 1) 1 0
  let s1 := State.each doms (fun s d => s.fset Fld.pwrDomW0_MAXDEEP d 0 deep) s
  let s2 : State := { s1 with pwr := { s1.pwr with
    cmds := s1.pwr.cmds ++ [{ ticket := n, domains := bits (c.word 0) 49 0, deep := deep, at_ := s1.now }]
    forced := s1.pwr.forced.filter (fun d => !doms.contains d) ++ (if bit (c.word 1) 2 then doms else []) } }
  let s3 := State.each (doms.filter (fun d => decide (deep < s2.domState d))) State.wake s2
  if bit (c.word 1) 2 then State.each doms State.forceOne s3 else s3

end Sys2Proof.Claims

section
open Sys2Proof Sys2Proof.Machine Sys2Proof.Claims

/-- RESET_UNIT (R467) of a unit of which nothing is in reset: a pulse puts it in reset with the command's ticket waiting for its end; an assert holds it, and
completes at once; a release of a held unit lets it leave reset, with the ticket waiting. A pulse of the whole device resets it once the reply is placed. A
pulse or an assert of a unit in reset is answered BUSY, but a pulse of a host port whose PERST_N was asserted in this cycle joins that reset (R474); a release
of a unit that is not held is answered BAD_PARAM. The readings that it rests on are the model's own: log entry 29. -/
def Obligations.ResetUnitCommandsResetHoldAndRelease : Prop :=
  ∀ (s : State) (c : Cmd) (u : RUnit) (k : Nat), Ready s c 0x0100 → zeroOutside (c.word 0) [(21, 0)] = true →
    resetUnit (bits (c.word 0) 3 0) (bits (c.word 0) 19 4) = some u → (taken s c).ticketSlot = some k →
    let t := taken s c
    let n := (ticketed s k c).1
    (bits (c.word 0) 21 20 = 0 → t.perstNow u = true → exec (.resetUnitPulse c) s = .next (accepted s k c (fun n v =>
      { v with boot := { v.boot with held := tblMod {} v.boot.held u.num (fun x => { x with ticket := some n }) } })).settleErr) ∧
    (bits (c.word 0) 21 20 = 0 → u ≠ .device → t.perstNow u = false → t.resetBusy u = false → exec (.resetUnitPulse c) s =
      .next (accepted s k c (fun n v => ((v.winClear u.key.1 u.key.2).unitReset u 0 (some n)).settleErr)).settleErr) ∧
    (bits (c.word 0) 21 20 = 0 → u = .device → t.resetBusy u = false → exec (.resetUnitPulse c) s =
      .next (accepted s k c (fun _ v => v) State.warmReset).settleErr) ∧
    (bits (c.word 0) 21 20 = 0 → t.perstNow u = false → t.resetBusy u = true → exec (.resetUnitPulse c) s = .next (replied s t c Status.busy 0 []).settleErr) ∧
    (bits (c.word 0) 21 20 = 1 → u ≠ .device → t.resetBusy u = false → exec (.resetUnitAssert c) s =
      .next (accepted s k c (fun _ v => ((v.winClear u.key.1 u.key.2).unitReset u 1 none).settleErr) (fun v => v.completeTicket n Status.ok [])).settleErr) ∧
    (bits (c.word 0) 21 20 = 1 → u ≠ .device → t.resetBusy u = true → exec (.resetUnitAssert c) s = .next (replied s t c Status.busy 0 []).settleErr) ∧
    (bits (c.word 0) 21 20 = 2 → u ≠ .device → t.unitHeld u = true → exec (.resetUnitRelease c) s =
      .next (accepted s k c (fun n v =>
        { v with boot := { v.boot with held := tblMod {} v.boot.held u.num (fun h => { h with how := 0, ticket := some n }) } })).settleErr) ∧
    (bits (c.word 0) 21 20 = 2 → u ≠ .device → t.unitHeld u = false → exec (.resetUnitRelease c) s = .next (replied s t c Status.badParam 0 []).settleErr)

/-- A Rick command (R315 to R318) of good parameters, while a tenant is bound, the Rick is in RUN and no other Rick command acts on the object, is accepted and
waits among the Rick's commands; RICK_WRITE, which needs COUNT free units, creates an absent object, and RICK_DELETE, of an object that no stream names, makes
it DELETING. Without a tenant, while the Rick does not recover, each is answered NOT_BOUND. RSV_STREAM (R322): while a tenant is BOUND and the Rick is in RUN,
START of an OFF stream with good parameters puts the stream in RUN from its first layer; without a tenant it is answered NOT_BOUND; STOP takes a FAILED stream
to OFF and its pins away, and otherwise lets the stream stop. The readings that it rests on are the model's own: log entry 38. -/
def Obligations.RickAndStreamCommandsBegin : Prop :=
  (∀ (s : State) (c : Cmd) (k : Nat), (taken s c).ticketSlot = some k →
       let t := taken s c
       (Ready s c 0x0260 → RickFree t c → t.rickWriteOk c = true → rickCount c ≤ t.fget Fld.rickFree_FREE → exec (.rickWrite c) s =
         .next (accepted s k c (fun n u => (rickBegun c n u).rickCreate c)).settleErr) ∧
       (Ready s c 0x0261 → RickFree t c → t.rickSealOk c = true → exec (.rickSeal c) s = .next (accepted s k c (rickBegun c)).settleErr) ∧
       (Ready s c 0x0262 → RickFree t c → t.rickReadOk c = true → exec (.rickRead c) s = .next (accepted s k c (rickBegun c)).settleErr) ∧
       (Ready s c 0x0263 → RickFree t c → t.rickDeleteOk c = true → t.streamNames (rickObj c) = false → exec (.rickDelete c) s =
         .next (accepted s k c (fun n u => (rickBegun c n u).objDeleting (rickObj c))).settleErr) ∧
       (∀ op i, Ready s c op → t.rickState ≠ Rick.recovering → t.bound = false → ((op = 0x0260 ∧ i = .rickWrite c) ∨ (op = 0x0261 ∧ i = .rickSeal c) ∨ (op = 0x0262 ∧ i = .rickRead c)
         ∨ (op = 0x0263 ∧ i = .rickDelete c)) → exec i s = .next (replied s t c Status.notBound 0 []).settleErr)) ∧
  (∀ (s : State) (c : Cmd) (i : Nat), Ready s c 0x0264 → bits (c.word 0) 57 55 = i →
       let t := taken s c
       let v := c.word 1
       (bits (c.word 0) 59 58 = 0 → t.fget Fld.klnState_BSTATE = 2 → t.strmState i = 0 → t.rickState = Rick.run → t.streamOk c = true →
         exec (.rsvStreamStart c) s = .next (answered s (((t.strmPut i { words := (List.range 5).map c.word, run := (t.strm i).run + 1 }).wr .rsvStrStat i 0
           (BitVec.ofNat 64 (2 ^ 61))).wr .rsvStrCfg i 0 (BitVec.ofNat 64 (bits v 63 52 * 2 ^ 52 + bits v 51 32 * 2 ^ 32 + bits (c.word 0) 31 0))) c []).settleErr) ∧
       (bits (c.word 0) 59 58 = 0 → t.rickState ≠ Rick.recovering → t.fget Fld.klnState_BSTATE ≠ 2 → exec (.rsvStreamStart c) s = .next (replied s t c Status.notBound 0 []).settleErr) ∧
       (bits (c.word 0) 59 58 = 1 → t.strmState i = 3 → exec (.rsvStreamStop c) s =
         .next (answered s ((t.unpin (fun p => p.strm == i)).fset Fld.rsvStrStat_STATE i 0 0).rsvRetry c []).settleErr) ∧
       (bits (c.word 0) 59 58 = 1 → t.strmState i ≠ 3 → exec (.rsvStreamStop c) s = .next (answered s (t.streamStop i) c []).settleErr))


/-- The other deferred commands, with good parameters and nothing in their way, are accepted, and their work begins: HBM_REGION_SET's change on each stack
(R297), OPT_SEARCH's search on each bus (R369), KLN_SPDM's message waits (R378), KLN_UNBIND begins the unbind reset or waits for the one that runs (R383),
PWR_SET sets its ceilings (R448), SBD_XFER's transfer waits on the bus (R482), CRC_FEED claims its channel (R493). The readings that it rests on are the
model's own: log entries 20, 37 and 44. -/
def Obligations.DeferredCommandsBeginTheirWork : Prop :=
  ∀ (s : State) (c : Cmd) (k : Nat), (taken s c).ticketSlot = some k →
    let t := taken s c
    let w := c.word 0
    (Ready s c 0x0250 → regionOk c = true → t.regionBusy c = false → exec (.hbmRegionSet c) s =
      .next (accepted s k c (fun n u => State.each (regionStacks c) (fun s x => s.regionBegin (regionSizes c) n x) u)
        (fun v => State.each (regionStacks c) State.regionTry v)).settleErr) ∧
    (∀ g, Ready s c 0x0270 → zeroOutside w [(36, 32), (4, 0)] = true → bits w 36 32 ≠ 0 → bits w 4 0 = g → t.groupSearching g = false →
      exec (.optSearch c) s = .next (accepted s k c (fun n u => u.optSearch g (bits w 36 32) n)).settleErr) ∧
    (Ready s c 0x0280 → exec (.klnSpdm c) s =
      .next (accepted s k c (fun n u => { u with kln := { u.kln with spdm := u.kln.spdm ++ [{ ticket := n, at_ := u.now, data := c.params }] } })).settleErr) ∧
    (Ready s c 0x0281 → t.bstate = Bind.unbinding → exec (.klnUnbind c) s =
      .next (accepted s k c (fun n u => { u with kln := { u.kln with unbinds := u.kln.unbinds ++ [n] } })).settleErr) ∧
    (Ready s c 0x0281 → t.bstate ≠ Bind.unbinding → exec (.klnUnbind c) s =
      .next (accepted s k c (fun n u => ({ u with kln := { u.kln with unbinds := u.kln.unbinds ++ [n] } } : State).unbindBegin.settleErr)).settleErr) ∧
    (Ready s c 0x0300 → zeroOutside w [(49, 0)] = true → zeroOutside (c.word 1) [(2, 0)] = true → setBitsOf w 50 ≠ [] →
      (∀ d ∈ setBitsOf w 50, bits (c.word 1) 1 0 ≤ domLimit d) → exec (.pwrSet c) s = .next (accepted s k c (powerSet c) State.pwrSettle).settleErr) ∧
    (∀ wl rl, Ready s c 0x0320 → zeroOutside w [(31, 24), (23, 16), (8, 8), (6, 0)] = true → bits w 23 16 = wl → bits w 31 24 = rl → 0 < wl + rl →
      c.plen = 8 + wl → t.busDown = false → exec (.sbdXfer c) s =
        .next (accepted s k c (fun n u => { u with sbd := { u.sbd with xfers := u.sbd.xfers ++
          [{ ticket := n, addr := bits w 6 0, pec := bit w 8, data := (c.params.drop 8).take wl, rlen := rl }] } })).settleErr) ∧
    (∀ ch addr len, Ready s c 0x0311 → zeroOutside w [(8, 8), (3, 0)] = true → bits w 3 0 = ch → (c.word 1).toNat = addr →
      zeroOutside (c.word 2) [(32, 0)] = true → bits (c.word 2) 32 0 = len → 1 ≤ len → len ≤ 2 ^ 32 → t.inPool addr len = true →
      (t.bound = true → gfaOff addr < 2 ^ 32) → t.crcFree ch = true → exec (.crcFeed c) s =
        .next (accepted s k c (fun n u =>
          let v := u.crcClaim ch 2 0 0 (bit w 8)
          { v with crc := { v.crc with feeds := tblPut v.crc.feeds ch { ticket := n, addr := addr, left := len } } })).settleErr)

/-- COPPICE_CTRL of a good form, while a tenant is bound (R523, R524), takes the mode from NONE to SOURCE or SHADOW, with its clusters, channel and link, and
from SHADOW to NONE by OFF or PROMOTE, completing at once; OFF from SOURCE leaves at once, and its completion waits for the copies. CLEAR sets counts and sum to
0 first. The readings that it rests on are the model's own: log entry 41. -/
def Obligations.CoppiceCommandsChangeMode : Prop :=
  ∀ (s : State) (c : Cmd) (k : Nat), Ready s c 0x02A0 → (taken s c).bound = true → zeroOutside (c.word 0) [(17, 17), (15, 0)] = true →
    zeroOutside (c.word 1) [(11, 8), (6, 0)] = true → zeroOutside (c.word 2) [(1, 0)] = true → (taken s c).ticketSlot = some k →
    let t := taken s c
    let m := t.fget Fld.hubCoppiceCtrl_MODE
    let n := (ticketed s k c).1
    let a := bits (c.word 2) 1 0
    let mask := bits (c.word 0) 15 0
    let ch := bits (c.word 1) 11 8
    let clear := fun (u : State) => if bit (c.word 0) 17 then u.copClear else u
    let done := fun (u : State) => u.completeTicket n Status.ok []
    (a = 1 → m = 0 → mask ≠ 0 → t.crcFree ch = true → exec (.coppiceCtrlSource c) s =
      .next (accepted s k c (fun _ u => (clear u).copEnter 1 mask ch (bits (c.word 1) 6 0)) done).settleErr) ∧
    (a = 2 → m = 0 → mask ≠ 0 → t.crcFree ch = true → exec (.coppiceCtrlShadow c) s =
      .next (accepted s k c (fun _ u => (clear u).copEnter 2 mask ch (bits (c.word 1) 6 0)) done).settleErr) ∧
    (a = 0 → m = 2 → t.copThreads (t.fget Fld.hubCoppiceCtrl_CMASK) = false → t.copLinkDown = true → exec (.coppiceCtrlOff c) s =
      .next (accepted s k c (fun _ u => (clear u).copLeave) done).settleErr) ∧
    (a = 3 → m = 2 → t.copLinkDown = true → exec (.coppiceCtrlPromote c) s =
      .next (accepted s k c (fun _ u => (clear u).copLeave) done).settleErr) ∧
    (a = 0 → m = 1 → exec (.coppiceCtrlOff c) s = .next (accepted s k c (fun n u =>
      let l := (clear u).fget Fld.hubCoppiceCtrl_LINK
      let v := (clear u).copLeave
      { v with sw := { v.sw with copOff := v.sw.copOff ++ [(n, l)] } })).settleErr)

end

section
open Sys2Proof Sys2Proof.Machine Sys2Proof.Claims

/-- Arrival and taking of commands while Cloentim runs (R398, R399, R401, R404). A frame on a management port whose link is up that passes the filters of R399
brings its command to the port's queue of 16, or where the queue is full is answered BUSY and counted in FULL; a frame that fails a filter is counted and
discarded. A command arrives at a management port's queue, or at the sideband's queue of 4, in the same way. Cloentim takes the oldest command of the partner
that comes first, by number under strict priority, and from the one after the partner served last under round robin; the mailbox's command is that of slot
REQ_HEAD, which advances. With nothing waiting it takes none. The readings that it rests on are the model's own: log entries 25, 26 and 47. -/
def Obligations.CommandsArriveAndAreTakenInOrder : Prop :=
  (∀ (s : State) (p ety src dst len : Nat) (c : Cmd), p < 2 → s.boot.inReset = false → s.noCloentim = false → c.opcode ≠ 0x0004 →
       let fromFrame := { c with src := src }
       let q := fun k => s.queueOf k
       let joins := fun k (c : Cmd) => ({ s with cmd := { s.cmd with queues := tblPut s.cmd.queues k (q k ++ [{ cmd := c, port := k, time := s.now }]) } } : State)
       let full := fun k (c : Cmd) => ((s.fsat Fld.cmdPstatErr_FULL k 0 1).placeAt (s.replyTo k c (Status.busy, 0, []))).1
       let filters := ety = s.fget Fld.cmdMpCfg_ETYPE p ∧ dst = s.fget Fld.cmdMpMac_MAC p ∧
         (s.fget Fld.cmdMpCfg_PEER_EN p = 0 ∨ src = s.fget Fld.cmdMpPeer_PEER_MAC p) ∧ 16 + c.plen ≤ len
       (s.fget Fld.cmdMpStat_LINK p ≠ 0 → filters → (q p).length < 16 →
         exec (.mgmtFrameReceive p ety src dst len c) s = .next ((joins p fromFrame).fsat Fld.cmdMpFrames_RX p 0 1).settleErr) ∧
       (s.fget Fld.cmdMpStat_LINK p ≠ 0 → filters → 16 ≤ (q p).length → exec (.mgmtFrameReceive p ety src dst len c) s = .next (full p fromFrame).settleErr) ∧
       (s.fget Fld.cmdMpStat_LINK p ≠ 0 → ¬ filters →
         exec (.mgmtFrameReceive p ety src dst len c) s = .next (s.fsat Fld.cmdMpFrames_DISCARD p 0 1).settleErr) ∧
       ((q p).length < 16 → exec (.commandArrive p c) s = .next ((joins p c).fsat Fld.cmdMpFrames_RX p 0 1).settleErr) ∧
       (16 ≤ (q p).length → exec (.commandArrive p c) s = .next (full p c).settleErr) ∧
       ((q 3).length < 4 → exec (.commandArrive 3 c) s = .next (joins 3 c).settleErr) ∧
       (4 ≤ (q 3).length → exec (.commandArrive 3 c) s = .next (full 3 c).settleErr)) ∧
  (∀ (s : State) (mb : Cmd) (ext : List (List Word)) (p : Nat), s.boot.inReset = false → s.noCloentim = false →
       ((s.fget Fld.cmdCtrl_RR ≠ 1 ∧ p < 4 ∧ s.cmdWaiting p = true ∧ ∀ k < p, s.cmdWaiting k = false) ∨
         (s.fget Fld.cmdCtrl_RR = 1 ∧ ∃ i < 4, p = (s.cmd.lastServed + 1 + i) % 4 ∧ s.cmdWaiting p = true ∧
           ∀ k < i, s.cmdWaiting ((s.cmd.lastServed + 1 + k) % 4) = false)) →
       let s1 : State := { s with cmd := { s.cmd with lastServed := p } }
       (∀ q rest, p ≠ 2 → s.queueOf p = q :: rest → exec (.commandTake mb ext) s =
         .next ((({ s1 with cmd := { s1.cmd with queues := tblPut s1.cmd.queues p rest } } : State).handle p q.port q.time q.cmd (runCmd ext))).settleErr) ∧
       (p = 2 → exec (.commandTake mb ext) s = .next (((s1.fwrap Fld.cmdMboxReqHead_REQ_HEAD 0 0 1).handle 2 2 s.now mb (runCmd ext))).settleErr)) ∧
  (∀ (s : State) (mb : Cmd) (ext : List (List Word)), s.boot.inReset = false → s.noCloentim = false → (∀ p < 4, s.cmdWaiting p = false) →
       exec (.commandTake mb ext) s = .next s.settleErr)


/-- R392, R413: a REFUSED reply is placed once 20.0 µs have passed since its command was taken; an Ember on a port whose link is up is recorded and makes the
port ALIVE, and a port that was LOST posts EMBER_BACK to every partner; an ALIVE port whose time is over with no Ember in that cycle, or whose link goes down, is
LOST: LOSSES counts, EMBER_LOST goes to the other port and the mailbox, and a record is written. A management port's link comes up. The readings that it rests
on are the model's own: log entry 25. -/
def Obligations.EmbersAndRefusedRepliesFollowTheClock : Prop :=
  ∀ (s : State) (p : Nat) (c : Cmd), p < 2 →
    let seen := (((s.wr .cmdMpEmber p 0 (c.word 1)).wr .cmdMpEmbert p 0 (s.rd .telTime)).fset Fld.cmdMpStat_EMBER p 0 1)
    let alive : State := { seen with cmd := { seen.cmd with emberAt := tblPut seen.cmd.emberAt p s.now } }
    let lost := fun (t : State) =>
      let t1 := (t.fset Fld.cmdMpStat_EMBER p 0 2).fsat Fld.cmdMpStat_LOSSES p 0 1
      let t2 := State.each [1 - p, 2] (fun u k => u.eventTo k 0x0F01 (t.emberBody p)) t1
      t2.errRec 0 0x08 12 p [(t2.rd .cmdMpEmber p).toNat]
    let marked := fun (r : Reply) => (tblGet [] s.cmd.caches (seqSpace r.partner)).map (fun e => if e.seq = r.seq then { e with placed := true } else e)
    (s.boot.inReset = false → s.fget Fld.cmdMpStat_LINK p ≠ 0 → c.opcode = 0x0004 → c.plen = 16 → c.resv = 0 → s.fget Fld.cmdMpStat_EMBER p ≠ 2 →
      exec (.ember p c) s = .next alive.settleErr) ∧
    (s.boot.inReset = false → s.fget Fld.cmdMpStat_LINK p ≠ 0 → c.opcode = 0x0004 → c.plen = 16 → c.resv = 0 → s.fget Fld.cmdMpStat_EMBER p = 2 →
      exec (.ember p c) s = .next (State.each [0, 1, 2] (fun s k => s.eventTo k 0x0F02 (s.emberBody p)) alive).settleErr) ∧
    (s.fget Fld.cmdMpStat_EMBER p = 1 → tblGet 0 s.cmd.emberAt p + us (100 * s.fget Fld.cmdMpCfg_EMBER_MISS p) ≤ s.now → s.soon (bringsEmber p) = false →
      exec (.emberMiss p false) s = .next (lost s).settleErr) ∧
    (s.fget Fld.cmdMpStat_EMBER p = 1 → exec (.emberMiss p true) s = .next (lost (s.fset Fld.cmdMpStat_LINK p 0 0)).settleErr) ∧
    (s.boot.inReset = false → exec (.mgmtPortLinkUp p) s = .next (s.fset Fld.cmdMpStat_LINK p 0 1)) ∧
    (∀ r at_ rest, s.cmd.refused = (r, at_) :: rest → at_ + us 20 ≤ s.now → exec .refusalReply s =
      .next (({ s with cmd := { s.cmd with refused := rest, caches := tblPut s.cmd.caches (seqSpace r.partner) (marked r) } } : State).placeAt r).1)

/-- R401, R417, R418, R422, of a host port: a commit of at most 16 commands while EN = 1, and not cleared in that cycle, sets REQ_TAIL, another is discarded and
counted; a write of RSP_HEAD lets held packets into the reply ring; a control write that R422 does not refuse and that takes EN from 0 to 1 sets the four
indices to 0 and lets held packets go, and another leaves them; while the port is up, a BAR write that no rule discards applies its registers, one that is discarded is counted, a
naturally aligned read of 4 or 8 bytes answers their bytes, and another read is counted and completed with Completer Abort. The readings that it rests on are the
model's own: log entry 43. -/
def Obligations.HostRegisterAccesses : Prop :=
  ∀ (s : State) (hp : Nat), hp < 2 →
    (∀ tail, s.fget Fld.cmdMboxRspCtrl_EN = 1 → s.soon clearsEn = false → (tail % 2 ^ 32 + 2 ^ 32 - s.fget Fld.cmdMboxReqHead_REQ_HEAD) % 2 ^ 32 ≤ 16 →
      exec (.mboxCommit hp tail) s = .next (s.fset Fld.cmdMboxReqTail_REQ_TAIL 0 0 tail)) ∧
    (∀ tail, (s.fget Fld.cmdMboxRspCtrl_EN ≠ 1 ∨ s.soon clearsEn = true ∨ 16 < (tail % 2 ^ 32 + 2 ^ 32 - s.fget Fld.cmdMboxReqHead_REQ_HEAD) % 2 ^ 32) →
      exec (.mboxCommit hp tail) s = .next (s.fsat Fld.cmdBarstat_DISCARDW hp 0 1)) ∧
    (∀ head, exec (.mboxRspHeadWrite head) s = .next ((s.fset Fld.cmdMboxRspHead_RSP_HEAD 0 0 (head % 2 ^ 32)).mboxDrain 64)) ∧
    (∀ (ctrl : Nat) (w : Word), w = BitVec.ofNat 64 (ctrl % 2 ^ 32) →
      let x : RegAt := { reg := .cmdMboxRspCtrl, i := 0, j := 0, off := 0 }
      let t := s.wr .cmdMboxRspCtrl 0 0 (regMerge .cmdMboxRspCtrl (s.rd .cmdMboxRspCtrl) w)
      s.regCheck (s.regsAfter [(x, w)]) x w = Status.ok →
      (s.fget Fld.cmdMboxRspCtrl_EN = 0 → t.fget Fld.cmdMboxRspCtrl_EN = 1 → exec (.mboxEnable ctrl) s =
        .next (((((t.fset Fld.cmdMboxReqTail_REQ_TAIL 0 0 0).fset Fld.cmdMboxReqHead_REQ_HEAD 0 0 0).fset Fld.cmdMboxRspHead_RSP_HEAD 0 0 0).fset
          Fld.cmdMboxRspTail_RSP_TAIL 0 0 0).mboxDrain 64).settleErr) ∧
      (s.fget Fld.cmdMboxRspCtrl_EN ≠ 0 ∨ t.fget Fld.cmdMboxRspCtrl_EN ≠ 1 → exec (.mboxEnable ctrl) s = .next t.settleErr)) ∧
    (∀ addr len val l, s.hostUp hp = true → s.barList addr len val = some l → (∀ e ∈ l, e.1.reg ≠ .cmdMboxReqTail) →
      exec (.registerWrite hp addr len val) s = .next (State.each l (fun s e => s.regApply e.1 e.2) s).settleErr) ∧
    (∀ addr len val, s.hostUp hp = true → s.barList addr len val = none → barRing addr len val = none →
      exec (.registerWrite hp addr len val) s = .next (s.fsat Fld.cmdBarstat_DISCARDW hp 0 1).settleErr) ∧
    (∀ addr len val n, s.hostUp hp = true → s.barList addr len val = none → barRing addr len val = some n →
      exec (.registerWrite hp addr len val) s = .next ((s.fsat Fld.cmdBarstat_DISCARDW hp 0 1).fsat Fld.epbRingRej_REJ n 0 1).settleErr) ∧
    (∀ addr len id, s.hostUp hp = true → (len = 4 ∨ len = 8) → addr % len = 0 →
      exec (.barRead hp id addr len) s = .next (s.emit (.barCpl hp id false (s.regBytesAt addr len)))) ∧
    (∀ addr len id, s.hostUp hp = true → ¬ ((len = 4 ∨ len = 8) ∧ addr % len = 0) →
      exec (.barRead hp id addr len) s = .next ((s.fsat Fld.cmdBarstat_BADACC hp 0 1).emit (.barCpl hp id true [])))

/-- R465, R504, R506: a cold reset takes every register and every unit to its reset value; what stays is the boot count, which advances, the Rick's stored pages
and journal areas, the image slots, each link's count of restarts, and the test access port, which applying the supplies resets and TRST_N too. The boot cause
names the reset; PKG_RESET_N asserted again within a reset only ends what a brownout requires. The readings that it rests on are the model's own: log entry 28. -/
def Obligations.ColdResetsKeepOnlyWhatIsNonVolatile : Prop :=
  ∀ (s : State),
    let n := ((s.rd .klnBoot).toNat + 1) % 2 ^ 32
    let bare : State := { now := s.now, freeN := s.freeN, out := s.out, pending := s.pending, jtag := s.jtag, sbd := { flash := s.sbd.flash }
                          epb := (List.range 64).map (fun k => (k, { heatAt := s.now, incAt := s.now })), rsv := { heatAt := s.now, promoAt := s.now }
                          lnk := { links := s.lnk.links.map (fun x => (x.1, { boots := x.2.boots })) }
                          rick := { pages := s.rick.pages, chans := s.rick.chans, j0 := s.rick.j0, j1 := s.rick.j1 } }
    let cold := fun (cause : Nat) => (bare.wr .klnBoot 0 0 (BitVec.ofNat 64 n)).fset Fld.cmdBootW0_CAUSE 0 0 cause
    exec .supplyApply s = .next { cold 0 with jtag := {} } ∧
    exec .supplyBrownout s = .next { cold 0 with boot := { brown := true, rstLow := s.boot.rstLow }, pwr := { cut := s.pwr.cut } } ∧
    (s.boot.inReset = false → exec .coldReset s = .next { cold 1 with pwr := { cut := s.pwr.cut } }) ∧
    (s.boot.inReset = true → exec .coldReset s = .next { s with boot := { s.boot with brown := false, rstLow := true } }) ∧
    exec .tapReset s = .next { s with jtag := { s.jtag with ir := 1, lands := .functional } }

/-- R468, R469, R471: after PKG_RESET_N is deasserted Kindling takes slot A, or B where A is rejected, and the phase is FAILED where neither is accepted;
Cloentim starts the unbind reset of a boot, or after a warm device reset restarts the units; once the Rick has recovered and no search runs the phase is READY,
or NORMAL where normal service had been commanded; and a phase that is unfinished at its limit is recorded once. The readings that it rests on are the model's
own: log entries 26 and 27. -/
def Obligations.BootGoesThroughItsPhases : Prop :=
  ∀ (s : State),
    let up := ({ s with boot := { s.boot with inReset := false, rstLow := false, started := s.now }, jtag := { s.jtag with lands := .functional } } : State).recover
    (∀ b, s.boot.inReset = true → s.boot.brown = false → exec (.pkgResetDeassert 3 b) s = .next (up.kindled 0)) ∧
    (∀ a, a ≠ 3 → s.boot.inReset = true → s.boot.brown = false →
      exec (.pkgResetDeassert a 3) s = .next ((up.errRec 0 0x70 0 14 [a, 0]).kindled 1)) ∧
    (∀ a b, a ≠ 3 → b ≠ 3 → s.boot.inReset = true → s.boot.brown = false →
      exec (.pkgResetDeassert a b) s = .next (up.fset Fld.cmdBootW0_PHASE 0 0 5)) ∧
    (∀ failed, s.boot.inReset = false → s.phase = 0 → s.fget Fld.cmdBootW0_CAUSE ≠ 2 → exec (.cloentimStart failed) s = .next (s.bootUnbind failed).settleErr) ∧
    (∀ failed, s.boot.inReset = false → s.phase = 0 → s.fget Fld.cmdBootW0_CAUSE = 2 → exec (.cloentimStart failed) s = .next s.bootWarm.settleErr) ∧
    (s.phase = 2 → s.rickState = Rick.run → s.opt.search = [] →
      let t := (s.fset Fld.cmdBootW0_PHASE 0 0 3).wr .cmdBootW1 0 0 (s.rd .telTime)
      (s.boot.service = false → exec .bootUnitsDone s = .next t) ∧
      (s.boot.service = true → exec .bootUnitsDone s = .next (t.fset Fld.cmdBootW0_PHASE 0 0 4))) ∧
    (∀ p, s.boot.inReset = false → s.phase = p → p ≤ 2 → p ∉ s.boot.slow → s.boot.started + us (phaseLimit p) ≤ s.now →
      exec .bootSlow s = .next (({ s with boot := { s.boot with slow := s.boot.slow ++ [p] } } : State).errRec 0 0x73 0 14 [p]))

/-- R442, R465, R466: PERST_N holds a host port in reset until its deassertion (a RESET_UNIT of the same cycle is one reset with it), a hot reset resets it at
once; a unit leaves a reset that ends by itself; loss of the root PLL's lock makes one record, and the relock one with its cause. The readings that it rests on
are the model's own: log entry 29. -/
def Obligations.HostPortResetsAndRootClock : Prop :=
  ∀ (s : State),
    (∀ h, h < 2 → s.boot.inReset = false → s.hostPulsed h = false → s.resetBusy (.host h) = false →
      exec (.hostPortReset h true) s = .next (s.unitReset (.host h) 3 none).settleErr) ∧
    (∀ h, h < 2 → s.boot.inReset = false → s.hostPulsed h = true → exec (.hostPortReset h true) s =
      .next ({ s with boot := { s.boot with held := tblMod {} s.boot.held (RUnit.host h).num (fun x => { x with how := 3 }) } } : State).settleErr) ∧
    (∀ h, h < 2 → s.boot.inReset = false → s.resetBusy (.host h) = false →
      exec (.hostPortReset h false) s = .next ((s.unitReset (.host h) 3 none).unitOut (.host h) { since := s.now, how := 3 }).settleErr) ∧
    (∀ h x, h < 2 → tblFind s.boot.held (RUnit.host h).num = some x → x.how = 3 →
      exec (.hostPerstDeassert h) s = .next (s.unitOut (.host h) x).settleErr) ∧
    (∀ kind idx u x, resetUnit kind idx = some u → u ≠ .device → tblFind s.boot.held u.num = some x → (x.how = 0 ∨ x.how = 2) →
      exec (.unitOutOfReset kind idx) s = .next (s.unitOut u x).settleErr) ∧
    (∀ cause, cause ≤ 1 → s.boot.inReset = false → s.boot.unlocked = none →
      exec (.rootUnlock cause) s = .next (({ s with boot := { s.boot with unlocked := some cause } } : State).errRec 4 0x50 0 14 [cause, 0]).settleErr) ∧
    (∀ cause, s.boot.unlocked = some cause →
      exec .rootRelock s = .next (({ s with boot := { s.boot with unlocked := none } } : State).errRec 0 0x50 0 14 [cause, 1]).settleErr)

/-- Each instruction of the test access port (R515, R516) enters the instruction register, selects the register of its row, which captures the row's contents,
and drives, holds or floats the lands only while PKG_RESET_N is asserted; a private instruction that is not open acts as BYPASS, and at one that is open this
model stops. The readings that it rests on are the model's own: log entries 5 and 21. -/
def Obligations.JtagInstructionsSelectAndCapture : Prop :=
  ∀ (s : State),
    let ir := fun (code : Nat) (l : Lands) => ({ s with jtag := { s.jtag with ir := code, lands := l } } : State)
    let bypassed := fun (code : Nat) => { ir code .functional with out := s.out ++ [.tdo [false]] }
    exec .idcode s = .next { ir 0x01 .functional with out := s.out ++ [.tdo ((List.range 32).map (fun i => idcode32.testBit i))] } ∧
    (∀ lands load, exec (.samplePreload lands load) s =
      .next { s with jtag := { ir := 0x02, captured := lands, preload := load, lands := .functional }, out := s.out ++ [.tdo lands] }) ∧
    (∀ lands, s.boot.rstLow = true → exec (.extest lands) s =
      .next { s with jtag := { s.jtag with ir := 0x00, captured := lands, lands := .driven }, out := s.out ++ [.tdo lands] }) ∧
    (s.boot.rstLow = true → exec .clamp s = .next { ir 0x04 .held with out := s.out ++ [.tdo [false]] }) ∧
    (s.boot.rstLow = true → exec .highz s = .next { ir 0x05 .floated with out := s.out ++ [.tdo [false]] }) ∧
    (∀ lands, s.boot.rstLow = false → exec (.extest lands) s = .next (bypassed 0x00) ∧ exec .clamp s = .next (bypassed 0x04) ∧ exec .highz s = .next (bypassed 0x05)) ∧
    exec .bypass s = .next (bypassed 0xFF) ∧
    (∀ code, s.fget Fld.klnState_DEBUG_OPEN ≠ 1 → exec (.privateInstruction code) s = .next (bypassed code)) ∧
    (∀ code, s.fget Fld.klnState_DEBUG_OPEN = 1 → 0x80 ≤ code → code ≤ 0xFE → exec (.privateInstruction code) s = .refused (.privateJtag code))

end

namespace Sys2Proof.Claims
open Sys2Proof Sys2Proof.Machine

/-- No recovery of the regulator bus runs, and the bus is not down. -/
def BusFree (s : State) : Prop := s.busDown = false ∧ s.sbd.tries = none

end Sys2Proof.Claims

section
open Sys2Proof Sys2Proof.Machine Sys2Proof.Claims

/-- R478 to R483, R453, R487: a poll that is due, with no alert in its cycle, of the enabled regulators, none of which fails, takes VOUT_MODE where it is not
known, shows each one's current and voltage (as log entry 23 reads their formats) and compares the sum of the currents with the estimate. The first alert of
an enabled entry that reports a phase fault sets its STATUS, is recorded and triggers the load cap. The oldest transfer goes out and completes with the bytes
that it read, or FAULT. A recovery attempt that succeeds brings the bus up and is recorded; the first two that fail with SCL free leave another to come, and a
third takes the bus down. REVIVE starts a recovery where the bus is down, and in one asks for another. -/
def Obligations.RegulatorBusPollsAlertsAndRecovers : Prop :=
  ∀ (s : State),
    let es := (List.range 16).filter (fun i => s.fget Fld.sbdRegW0_EN i == 1)
    (∀ outs : List PollRead, s.boot.inReset = false → BusFree s → s.sbd.pollAt + us (1000 * s.fget Fld.sbdCtrl_POLL_MS) ≤ s.now → s.soon alerts = false →
      (∀ i ∈ es, (outs.getD i {}).st = 0) →
      let s0 : State := { s with sbd := { s.sbd with pollAt := s.now } }
      let t := State.each es (fun s i => (s.fset Fld.sbdRegW1_IOUT i 0 (ioutOf (outs.getD i {}).iout)).fset Fld.sbdRegW1_VOUT i 0
        (voutOf (tblGet 0 s.sbd.vmodes i) (outs.getD i {}).vout)) (s0.readModes es outs)
      exec (.regulatorPoll outs) s = .next (t.pollCompare false
        (((es.filter (fun i => s.fget Fld.sbdRegW0_RAIL i == 0)).map (fun i => t.fget Fld.sbdRegW1_IOUT i)).sum / 10)).settleErr) ∧
    (∀ addr sw i, s.boot.inReset = false → BusFree s → (List.range 16).find? (fun i => s.fget Fld.sbdRegW0_EN i == 1 && s.fget Fld.sbdRegW0_ADDR i == addr) = some i →
      tblFind s.sbd.alertAt i = none → sw &&& s.fget Fld.sbdRegW0_PHASE_MASK i ≠ 0 →
      exec (.regulatorAlert addr sw) s = .next (((({ s with sbd := { s.sbd with alertAt := tblPut s.sbd.alertAt i s.now } } : State).fset
        Fld.sbdRegW1_STATUS i 0 sw).errRec 0 0x57 0 14 [addr, sw]).capTrigger 0).settleErr) ∧
    (∀ x rest data, s.sbd.xfers = x :: rest → data.length = x.rlen → exec (.sbdXferDone 0 data) s =
      .next (({ s with sbd := { s.sbd with xfers := rest }, out := s.out ++ [.regXfer x.addr x.pec x.data x.rlen] } : State).completeTicket x.ticket
        Status.ok data).settleErr) ∧
    (∀ x rest st data, s.sbd.xfers = x :: rest → (st = 1 ∨ st = 2) → exec (.sbdXferDone st data) s =
      .next (({ s with sbd := { s.sbd with xfers := rest }, out := s.out ++ [.regXfer x.addr x.pec x.data x.rlen] } : State).completeTicket x.ticket
        Status.fault []).settleErr) ∧
    (∀ k at_ pulses scl, s.sbd.tries = some (k, at_) → (k = 0 ∨ at_ + us 1000 ≤ s.now) → exec (.busRecoveryAttempt true pulses scl) s =
      .next (((({ s with sbd := { s.sbd with tries := none, vmode := false } } : State).fset Fld.sbdStat_DOWN 0 0 0).errRec 0 0x61 0 14
        [k + 1, pulses]).recoverEnd).settleErr) ∧
    (∀ k at_ pulses, s.sbd.tries = some (k, at_) → (k = 0 ∨ at_ + us 1000 ≤ s.now) → k < 2 → exec (.busRecoveryAttempt false pulses false) s =
      .next ({ s with sbd := { s.sbd with tries := some (k + 1, s.now) } } : State).settleErr) ∧
    (∀ at_ pulses scl, s.sbd.tries = some (2, at_) → at_ + us 1000 ≤ s.now → exec (.busRecoveryAttempt false pulses scl) s =
      .next (s.busStuck scl 3).recoverEnd.settleErr) ∧
    (s.busDown = true → s.sbd.tries = none → exec .revive s = .next { s with sbd := { s.sbd with tries := some (0, s.now) } }) ∧
    (s.sbd.tries ≠ none → exec .revive s = .next { s with sbd := { s.sbd with again := true } })

/-- R477, R479: with room in the sideband buffer, a tray-bus write of exactly the bytes of a command reaches the sideband queue (`State.arrive`), and one of
another length or of more than 4,112 bytes is counted in SHORT; a read returns the oldest packet and removes it, or 16 zeros; an SCL timeout has no effect.
R484: in I3C mode ENEC and DISEC set and clear the in-band interrupt, SETMWL and SETMRL the lengths, and the reading CCCs return what the target holds, the most
significant byte first, GETSTATUS two bytes that are a free value; RSTDAA returns to I2C; in I2C mode ENTDAA and SETDASA give the address.
R485: the image loader, idle and with no tenant bound, erases the slot that the running firmware did not come from (either slot in phase FAILED), and programs
256 bytes of it; its status is 1 while an operation runs, 2 after one that failed, otherwise 0; the end of an erase is recorded.
R465: in a cold reset a write, a read, an address or an image operation of the tray bus does nothing. The readings that it rests on
are the model's own: log entries 3, 5 and 22. -/
def Obligations.TrayBusAndImageLoader : Prop :=
  (∀ (s : State),
       (∀ len c, s.boot.inReset = false → s.cmd.sbBuf.length < 4 → len = 16 + c.plen → len ≤ 4112 → exec (.sbWrite len c) s = .next (s.arrive 3 3 c).settleErr) ∧
       (∀ len c, s.boot.inReset = false → s.cmd.sbBuf.length < 4 → (len ≠ 16 + c.plen ∨ 4112 < len) →
         exec (.sbWrite len c) s = .next (s.fsat Fld.sbdStat_SHORT 0 0 1).settleErr) ∧
       (∀ r rest, s.boot.inReset = false → s.cmd.sbBuf = r :: rest → exec .sbRead s =
         .next { s with cmd := { s.cmd with sbBuf := rest }, out := s.out ++ [.tray (bytesOfWords (replyHeader r) ++ r.body)] }) ∧
       (s.boot.inReset = false → s.cmd.sbBuf = [] → exec .sbRead s = .next { s with out := s.out ++ [.tray (List.replicate 16 0)] }) ∧
       exec .traySclTimeout s = .next s ∧
       (∀ ev, s.i3c = true → ev % 2 = 1 → exec (.enec ev) s = .next { s with sbd := { s.sbd with ibi := true } }
         ∧ exec (.disec ev) s = .next { s with sbd := { s.sbd with ibi := false } }) ∧
       exec .rstdaa s = .next ((s.fset Fld.sbdStat_I3C 0 0 0).fset Fld.sbdStat_DYNADDR 0 0 0) ∧
       (∀ a, s.boot.inReset = false → s.i3c = false → exec (.entdaa a) s = .next ((s.fset Fld.sbdStat_I3C 0 0 1).fset Fld.sbdStat_DYNADDR 0 0 a)
         ∧ exec (.setdasa a) s = .next ((s.fset Fld.sbdStat_I3C 0 0 1).fset Fld.sbdStat_DYNADDR 0 0 a)) ∧
       (s.i3c = true →
         let read := fun (n v : Nat) => ({ s with out := s.out ++ [.tray (toBytes n v).reverse] } : State)
         (∀ len, exec (.setmwl len) s = .next { s with sbd := { s.sbd with mwl := len % 65536 } }
           ∧ exec (.setmrl len) s = .next { s with sbd := { s.sbd with mrl := len % 65536 } }) ∧
         exec .getmwl s = .next (read 2 s.sbd.mwl) ∧ exec .getmrl s = .next (read 2 s.sbd.mrl) ∧ exec .getpid s = .next (read 6 Config.i3cPid) ∧
         exec .getbcr s = .next (read 1 Config.i3cBcr) ∧ exec .getdcr s = .next (read 1 Config.i3cDcr) ∧
         exec .getstatus s = .next { read 2 (Config.freeValue s.freeN) with freeN := s.freeN + 1 })) ∧
  (∀ (s : State) (slot off : Nat),
       (s.boot.inReset = false → s.bound = false → s.sbd.load = none → slot < 2 → off % 256 = 0 → (s.phase = 5 ∨ slot ≠ s.fget Fld.cmdBootW0_IMAGE) →
         exec (.imageErase slot off) s =
           .next { s with sbd := { s.sbd with flash := tblDrop s.sbd.flash (fun k => k / 2 ^ 24 == slot), load := some (true, slot), loadErr := false } } ∧
         (∀ data, data.length = 256 → exec (.imageProgram slot off data) s =
           .next { s with sbd := { s.sbd with flash := tblPut s.sbd.flash (2 ^ 24 * slot + off / 256) data, load := some (false, slot), loadErr := false } })) ∧
       (∀ (erase err : Bool), s.sbd.load = some (erase, slot) → (s.boot.inReset = false → exec .imageReadStatus s = .next { s with out := s.out ++ [.tray [1]] }) ∧
         exec (.imageLoaderDone err) s =
           .next (if erase = true ∧ err = false then (({ s with sbd := { s.sbd with load := none, loadErr := false } } : State).errRec 0 0x64 0 14 [slot]).settleErr
             else ({ s with sbd := { s.sbd with load := none, loadErr := err } } : State).settleErr)) ∧
       (s.boot.inReset = false → s.sbd.load = none → exec .imageReadStatus s = .next { s with out := s.out ++ [.tray [if s.sbd.loadErr then 2 else 0]] })) ∧
  (∀ (s : State) (len a slot off : Nat) (c : Cmd) (data : List Byte), s.boot.inReset = true →
       exec (.sbWrite len c) s = .next s.settleErr ∧ exec .sbRead s = .next s ∧ exec (.entdaa a) s = .next s ∧ exec (.setdasa a) s = .next s ∧
       exec (.imageErase slot off) s = .next s ∧ exec (.imageProgram slot off data) s = .next s ∧ exec .imageReadStatus s = .next s)


end

section
open Sys2Proof Sys2Proof.Machine Sys2Proof.Claims

/-- R445, R448, R471: with no quench and a microsecond after the last choice, the choice of states in phase NORMAL carries out the forced entries and then makes
the choice for each domain, in any other phase the forced entries alone. The choice for a domain of a function that has no wake under way takes it to the deepest
state that it is permitted, where that is deeper than its own; a domain with no function or with no state permitted stays as it is.
R446, R450: with no quench, a wake cause is recorded; a domain in Idle becomes Active at once, and one in Drowse or Banked with no wake under way queues a request
for the Damper. A slot of the Damper, SLOT microseconds after the last one, goes through the requests in the order of their deadlines with its budget. A granted
wake completes when its time has come. R448: a PWR_SET that waits for 200 ms ends with TIMEOUT. R449: D3hot and D0 of a host function are kept; in D3hot a packet for
its mailbox waits in the holding buffer, and D0 lets held packets go and is a wake cause of the host domain. The readings that it rests on are the model's own:
log entries 5, 43, 44 and 68. -/
def Obligations.PowerChoiceAndWakesMoveDomains : Prop :=
  (∀ (s : State),
       let forced := State.each s.pwr.forced State.forceOne ({ s with pwr := { s.pwr with choiceAt := s.now } } : State)
       (s.quenched = false → s.pwr.choiceAt + us 1 ≤ s.now → s.fget Fld.cmdBootW0_PHASE = 4 →
         exec .powerChoice s = .next (State.each (List.range 50) State.choose forced).pwrSettle.settleErr) ∧
       (s.quenched = false → s.pwr.choiceAt + us 1 ≤ s.now → s.fget Fld.cmdBootW0_PHASE ≠ 4 → exec .powerChoice s = .next forced.pwrSettle.settleErr) ∧
       (∀ d f st, domFunc d = some f → 1 ≤ st → st ≤ 3 → s.permits d f st = true → (∀ k, st < k → k ≤ 3 → s.permits d f k = false) →
         s.pwr.reqs.any (fun r => r.dom == d) = false → tblFind s.pwr.waking d = none →
         s.choose d = if s.domState d < st then s.deepen d st else s) ∧
       (∀ d, domFunc d = none → s.choose d = s) ∧
       (∀ d f, domFunc d = some f → (∀ k, 1 ≤ k → k ≤ 3 → s.permits d f k = false) → s.choose d = s)) ∧
  (∀ (s : State),
       let cause := fun (d : Nat) => ({ s with pwr := { s.pwr with cause := tblPut s.pwr.cause d s.now } } : State)
       (∀ d, d < 50 → s.quenched = false → s.domState d = Pwr.idle → exec (.domainWake d) s = .next ((cause d).domUp d Pwr.idle).pwrSettle.settleErr) ∧
       (∀ d, d < 50 → s.quenched = false → s.domState d = Pwr.active → exec (.domainWake d) s = .next (cause d).pwrSettle.settleErr) ∧
       (∀ d, d < 50 → s.quenched = false → (s.domState d = Pwr.drowse ∨ s.domState d = Pwr.banked) → s.pwr.reqs.any (fun r => r.dom == d) = false →
         tblFind s.pwr.waking d = none →
         let r : WakeReq := { dom := d, deep := s.domState d, at_ := s.now, rem := s.wakeStep d (s.domState d) }
         exec (.domainWake d) s =
           .next (({ cause d with pwr := { (cause d).pwr with reqs := s.pwr.reqs ++ [r] } } : State).damperShow).pwrSettle.settleErr) ∧
       (s.quenched = false → s.pwr.slotAt + us (s.fget Fld.pwrDamp_SLOT) ≤ s.now → exec .damperSlot s =
         .next ((({ s with pwr := { s.pwr with slotAt := s.now } } : State).damperLoop s.damperBudget (s.pwr.reqs.foldl (fun l r => s.wakeInsert r l) []) 0).damperShow).settleErr) ∧
       (∀ d t, tblFind s.pwr.waking d = some t → t ≤ s.now → exec (.domainWakeComplete d) s =
         .next ((({ s with pwr := { s.pwr with waking := tblDel s.pwr.waking d } } : State).domUp d (s.domState d)).pwrSettle).settleErr) ∧
       (∀ c, s.pwr.cmds.find? (fun x => x.ticket == c.ticket) = some c → c.at_ + us 200000 ≤ s.now → exec (.pwrSetTimeout c.ticket) s =
         .next (({ s with pwr := { s.pwr with cmds := s.pwr.cmds.filter (fun x => x.ticket != c.ticket) } } : State).completeTicket c.ticket
           Status.timeout []).settleErr) ∧
       (∀ h, h < 2 → h ∉ s.boot.d3hot → exec (.hostD3hot h) s = .next { s with boot := { s.boot with d3hot := s.boot.d3hot ++ [h] } }) ∧
       (∀ (r : Reply), r.partner = 2 → s.fget Fld.cmdMboxRspCtrl_EN = 1 → s.fget Fld.cmdMboxRspCtrl_HOST ∈ s.boot.d3hot → s.cmd.holding.length < 64 →
         s.placeAt r = ({ s with cmd := { s.cmd with holding := s.cmd.holding ++ [r] } }, true)) ∧
       (∀ h, h ∈ s.boot.d3hot → exec (.hostD0 h) s =
         .next ((({ s with boot := { s.boot with d3hot := s.boot.d3hot.filter (· != h) } } : State).mboxDrain 64).wake 44).pwrSettle.settleErr))


/-- R453: a microsecond after the last estimate, the estimator's power and its current at 0.75 V go to PWR_EST; RETRUST lets the next poll restore trust, and
starts the count of disagreeing polls again. R452: a microsecond after Smoulder's last one, with Smoulder enabled and no quench, the envelope falls by FALL but not
below the power, and FILLER shows the filler work where, with throttle level 0, the power is below the target, and 0 otherwise; filler work wakes the cluster domains
in Idle, and the shortfall from the target is judged. Disabled or quenched, the envelope and FILLER are 0. The readings that it rests on are the model's own: log
entries 44 and 68. -/
def Obligations.SmoulderFillsUpToTheTarget : Prop :=
  ∀ (s : State) (n : Nat),
    let p := s.fget Fld.pwrEst_P
    let env := max (1000 * p) (s.pwr.env - s.fget Fld.pwrSmoulder_FALL)
    let s1 : State := { s with pwr := { s.pwr with smAt := s.now, env := env } }
    (s.boot.inReset = false → s.pwr.estAt + us 1 ≤ s.now → exec (.powerEstimate n) s =
      .next ((({ s with pwr := { s.pwr with estAt := s.now } } : State).fset Fld.pwrEst_P 0 0 n).fset Fld.pwrEst_I_EST 0 0 (n * 4 / 3))) ∧
    exec .retrust s = .next { s with pwr := { s.pwr with retrust := true, disagree := 0 } } ∧
    (s.pwr.smAt + us 1 ≤ s.now → s.quenched = false → s.fget Fld.pwrSmoulder_EN ≠ 0 →
      (s.fget Fld.pwrTherm_LEVEL = 0 → 1000 * p < s.smoulderTarget env → n ≠ 0 →
        let s2 := s1.fset Fld.pwrEst_FILLER 0 0 n
        exec (.smoulderTick n) s = .next ((State.each ((funcDoms 2).filter (fun d => s2.domState d == Pwr.idle)) State.wake s2).floorCheck
          (s.smoulderTarget env) p n).settleErr) ∧
      ((s.fget Fld.pwrTherm_LEVEL ≠ 0 ∨ s.smoulderTarget env ≤ 1000 * p ∨ n = 0) →
        exec (.smoulderTick n) s = .next ((s1.fset Fld.pwrEst_FILLER 0 0 0).floorCheck (s.smoulderTarget env) p 0).settleErr)) ∧
    (s.pwr.smAt + us 1 ≤ s.now → (s.quenched = true ∨ s.fget Fld.pwrSmoulder_EN = 0) → exec (.smoulderTick n) s =
      .next (({ s with pwr := { s.pwr with smAt := s.now, env := 0, short := none } } : State).fset Fld.pwrEst_FILLER 0 0 0).settleErr)

/-- R455, R458: a sample of the sensors, 10 µs after the last one, shows every reading; at 125 °C and above THERMTRIP_N is asserted, below it the three
thresholds are looked at; R514: in a cold reset it only asserts THERMTRIP_N. A threshold not yet reached is reached by the second of two samples in a row at or above it. R456: a millisecond after the last step the
throttle level rises by one while a cause stands, and 10 ms after it falls by one while none does. R457: a quench is complete when the Rick is off, or 6.0 ms
after it began. The readings that it rests on are the model's own: log entry 45. -/
def Obligations.ThermalControlThrottlesAndQuenches : Prop :=
  ∀ (s : State),
    (∀ temps sensor i t, s.pwr.cut = false → s.boot.inReset = false → s.pwr.sampleAt + us 10 ≤ s.now → hottest (temps.take 23) 0 (0, 0) = (i, t) →
      let shown := ({ s with pwr := { s.pwr with sampleAt := s.now } } : State).tempShow temps i t
      (125 ≤ t → exec (.thermalSample temps sensor) s =
        .next ({ shown with pwr := { shown.pwr with cut := true }, out := shown.out ++ [.thermTrip] } : State).settleErr) ∧
      (t < 125 → exec (.thermalSample temps sensor) s =
        .next (State.each [0, 1, 2] (fun s k => s.thermStep t (readingDie i) (if i < 15 then sensor else 0x100 + (i - 15)) k) shown).settleErr)) ∧
    (∀ temps sensor i t, s.pwr.cut = false → s.boot.inReset = true → s.pwr.sampleAt + us 10 ≤ s.now → hottest (temps.take 23) 0 (0, 0) = (i, t) →
      let taken : State := { s with pwr := { s.pwr with sampleAt := s.now } }
      (125 ≤ t → exec (.thermalSample temps sensor) s =
        .next ({ s with pwr := { taken.pwr with cut := true }, out := s.out ++ [.thermTrip] } : State).settleErr) ∧
      (t < 125 → exec (.thermalSample temps sensor) s = .next taken.settleErr)) ∧
    (∀ t die sensor k, thermLimit k ≤ t → k ∉ s.pwr.reached → 1 ≤ tblGet 0 s.pwr.hits k → s.thermStep t die sensor k =
      ({ s with pwr := { s.pwr with hits := tblPut s.pwr.hits k (tblGet 0 s.pwr.hits k + 1), reached := s.pwr.reached ++ [k] } } : State).thermReach k die t sensor) ∧
    (∀ why l, s.throttleWhy = some why → s.fget Fld.pwrTherm_LEVEL = l → l < 7 → s.pwr.stepAt + us 1000 ≤ s.now →
      exec .throttleStep s = .next (s.throttleTo (l + 1) why).settleErr) ∧
    (∀ l, s.throttleWhy = none → s.fget Fld.pwrTherm_LEVEL = l → 0 < l → s.pwr.stepAt + us 10000 ≤ s.now →
      exec .throttleStep s = .next (s.throttleTo (l - 1) s.pwr.stepCap).settleErr) ∧
    (s.fget Fld.pwrTherm_QSTATE = 1 → s.rickState = Rick.off → exec .quenchRickReady s = .next ((s.deepen 45 Pwr.banked).fset Fld.pwrTherm_QSTATE 0 0 2).settleErr) ∧
    (s.fget Fld.pwrTherm_QSTATE = 1 → s.pwr.quenchAt + us 6000 ≤ s.now →
      exec .quenchRickTimeout s = .next ((s.deepen 45 Pwr.banked).fset Fld.pwrTherm_QSTATE 0 0 2).settleErr)

end

namespace Sys2Proof.Claims
open Sys2Proof Sys2Proof.Machine

/-- The object's LENGTH, 0 where it is absent. -/
def objectLength (s : State) (o : Nat) : Nat := ((s.object o).map (fun x => x.length)).getD 0

end Sys2Proof.Claims

section
open Sys2Proof Sys2Proof.Machine Sys2Proof.Claims

/-- R490, R493: the feed of a piece of one line that reads well enters the channel's state byte by byte, releases the channel and completes with VALUE and the
bytes fed. R491, R492: a restart of a free channel sets its state to INIT; with no tenant bound, a write of another POLY to a free channel that is in range for
its WIDTH is applied and restarts it. R417: while a tenant is bound a write of the configuration does nothing. The readings that it rests on are the model's
own: log entry 43. -/
def Obligations.CheckValueChannelsFeedAndRestart : Prop :=
  ∀ (s : State) (ch : Nat),
    (∀ f l, tblFind s.crc.feeds ch = some f → 0 < f.left → f.addr % 128 + f.left ≤ 128 → s.readWaits f.addr = false → s.internalRead f.addr f.left none = some l →
      let u := (s.internalTouch f.addr f.left).crcFeed ch l
      let v : State := { u with crc := { u.crc with feeds := tblDel u.crc.feeds ch } }
      exec (.crcFeedDone ch) s = .next ((v.crcRelease ch).completeTicket f.ticket Status.ok
        (bytesOfWords [v.rd .crcValue ch, BitVec.ofNat 64 (f.fed + f.left)]))) ∧
    (ch < 16 → s.crcFree ch = true → exec (.crcRestart ch) s = .next (s.crcSet ch (s.fget Fld.crcInit_INIT ch) 0)) ∧
    (∀ (v : Word), ch < 16 → s.bound = false → s.crcFree ch = true → bit v 0 = true → 8 ≤ bits (s.rd .crcCfg ch) 6 0 → bits (s.rd .crcCfg ch) 6 0 ≤ 64 →
      v.toNat < 2 ^ bits (s.rd .crcCfg ch) 6 0 → (s.rd .crcInit ch).toNat < 2 ^ bits (s.rd .crcCfg ch) 6 0 → s.rd .crcPoly ch ≠ v →
      exec (.crcConfigWrite ch 0 v.toNat) s = .next ((s.wr .crcPoly ch 0 v).crcRestart ch)) ∧
    (∀ j v, s.bound = true → exec (.crcConfigWrite ch j v) s = .next s)

/-- R494, R495, R497: one cycle with no command advances the free clock, and the time counter by 1 where it runs; a hold ends at its time; a snapshot copies the
counters of ports 0 to 123 at once, with the time. R524: every COPPICE_CTRL OFF whose copies have left or been freed completes. R78: a drained invalidation
completes once no request that it names is left, and not before. R425: VALID of a die's capture is cleared by its write. R432, R433: a window closes at its END,
but not while FIR is set, and FIR written with 1 closes it at once: its entry reads zero and ERR_STAT counts the windows left. The readings that it rests on
are the model's own: log entries 1 and 41. -/
def Obligations.ClockSnapshotsAndWindowsPass : Prop :=
  (∀ (s : State),
       (s.pending = [] → s.timeRuns = true → step s = .next (({ s with now := s.now + 1 } : State).wr .telTime 0 0 (s.rd .telTime + 1))) ∧
       (s.pending = [] → s.timeRuns = false → step s = .next { s with now := s.now + 1 }) ∧
       (s.holding = false → exec .timeHoldEnd s = .next (({ s with tel := { s.tel with hold := none } } : State).fset Fld.telTctrl_HOLDING 0 0 0)) ∧
       exec .telSnap s = .next ((State.each (List.range 124) (fun s p =>
         (s.wr .telShadW0 p 0 (s.rd .telPortW0 p)).wr .telShadW1 p 0 (s.rd .telPortW1 p)) s).wr .telSnaptime 0 0 (s.rd .telTime)) ∧
       exec .coppiceOffDrained s = .next (State.each (s.sw.copOff.filter (fun x => !s.copLeft x.2)) (fun s x =>
         ({ s with sw := { s.sw with copOff := s.sw.copOff.filter (· != x) } } : State).completeTicket x.1 Status.ok []) s) ∧
       (∀ d, s.xlat.drains.find? (fun x => x.ticket == d.ticket) = some d → s.stillUsed d = false → exec (.xlateInvalDrainDone d.ticket) s =
         .next (({ s with xlat := { s.xlat with drains := s.xlat.drains.filter (fun x => x.ticket != d.ticket) } } : State).completeTicket d.ticket Status.ok [])) ∧
       (∀ d, s.xlat.drains.find? (fun x => x.ticket == d.ticket) = some d → s.stillUsed d = true → exec (.xlateInvalDrainDone d.ticket) s = .next s)) ∧
  (∀ (s : State) (i : Nat),
       let zeroed := (s.wr .errWinW0 i 0 0).wr .errWinW1 i 0 0
       let closed := ({ zeroed with err := { zeroed.err with windows := zeroed.err.windows.filter (fun w => w.slot != i) } } : State).winShow
       (i < 15 → exec (.errCaptureArm i) s = .next (s.fset Fld.errDieCap_VALID i 0 0)) ∧
       ((∃ w ∈ s.err.windows, w.slot = i) → s.fget Fld.errWinW0_FIR i = 1 → exec (.errWinFirClear i) s = .next closed) ∧
       ((∃ w ∈ s.err.windows, w.slot = i ∧ w.closeAt ≤ s.now) → s.fget Fld.errWinW0_FIR i = 0 → exec (.recoveryWindowEnd i) s = .next closed) ∧
       ((∃ w ∈ s.err.windows, w.slot = i ∧ w.closeAt ≤ s.now) → s.fget Fld.errWinW0_FIR i ≠ 0 → exec (.recoveryWindowEnd i) s = .next s))


/-- R297: a draining granule that no request is in (its row says so) begins its zero-fill; at the zero-fill's end it reads zero and is free, and with the last one of
the stack the regions grow. R302: while its stack is served, the scrub reads the next line of a granule in use, and skips a granule not in use whole. R305: the
zero-fill of a controller that is released and Active ends, and the requests held for it go on. The readings that it rests on are the model's own: log entries
8 and 57. -/
def Obligations.HbmGranulesDrainFillAndScrub : Prop :=
  ∀ (s : State) (k : Nat), k < 8 →
    let q := tblGet [] s.hbm.draining k
    let pos := s.fget Fld.spnHregScrubpos_LINE k
    let begun := fun (g : Nat) => modFirst (fun (d : Drain) => d.granule == g) (fun d => { d with zeroing := true }) q
    (∀ g, exec (.granuleDrained k g) s = .next { s with hbm := { s.hbm with draining := tblPut s.hbm.draining k (begun g) } }) ∧
    (∀ g, (∃ d ∈ q, d.granule = g ∧ d.zeroing = true) →
      let rest := q.filter (fun d => d.granule != g)
      let a := hbmKey k (g * granuleBytes)
      let zeroed : State := { s with
        hbm := { s.hbm with draining := tblPut s.hbm.draining k rest }
        mem := memClear s.mem a granuleBytes
        lines := tblDrop s.lines (fun l => decide (a / 128 ≤ l) && decide (l < (a + granuleBytes) / 128)) }
      exec (.granuleZeroed k g) s = .next (if rest = [] then (zeroed.regionShow k).regionEnd k else zeroed.regionShow k)) ∧
    (s.fget Fld.spnHregScrub_SCRUB_EN k ≠ 0 → s.poolReady k = true →
      ((∃ r < 4, pos / granuleLines ∈ s.grans k r) →
        exec (.scrubStep k) s = .next ((((s.stir (26 + k)).lineAge (hbmKey k (128 * pos) / 128)).touch (hbmKey k (128 * pos)) 128 3).fset
          Fld.spnHregScrubpos_LINE k 0 ((pos + 1) % (384 * granuleLines)))) ∧
      ((∀ r < 4, pos / granuleLines ∉ s.grans k r) →
        exec (.scrubStep k) s = .next (s.fset Fld.spnHregScrubpos_LINE k 0 ((pos / granuleLines + 1) * granuleLines % (384 * granuleLines))))) ∧
    (k ∈ s.hbm.filling → s.hbmHeld k = false → s.fget Fld.pwrDomW0_STATE (26 + k) = 0 → exec (.controllerZeroFillDone k) s =
      .next { s with hbm := { s.hbm with filling := s.hbm.filling.filter (· != k) } })

/-- R315 to R318: in RUN, with its pool memory served, a Rick command ends by its opcode: a RICK_WRITE appends its units that are left (`unitsAppend`), a RICK_SEAL
with a good manifest that the measurement log takes seals its set, and with a bad one answers BAD_PARAM, a RICK_READ copies its units and counts the bad ones, a
RICK_DELETE erases its blocks channel by channel and the object is gone; the journal is written and the event carries LENGTH. R328: JPERIOD after its last one, a
running RICK_WRITE journals the units programmed so far. R309: a failed program retires its block and is recorded. R329: recovery takes the journal copy chosen,
marks channels that are down and objects with torn units, journals again and enters RUN, and a bound tenant's manifests are logged again. R330: on the quench
signal streams stop and commands in progress are FLUSHED; programs end or time out after 3.0 ms, the journal is written, and the state is OFF. The readings that
it rests on are the model's own: log entries 18, 38 and 62. -/
def Obligations.RickCommandsEndAndRickQuenches : Prop :=
  (∀ (s : State) (x : RickCmd), s.rickCmd x.ticket = some x → s.rickState = Rick.run → s.rickWaits x = false →
       let ended := fun (s : State) (y : RickCmd) (status : Nat) (more : List Word) =>
         (({ s with rick := { s.rick with cmds := s.rick.cmds.filter (fun z => z.ticket != y.ticket) } } : State).journalPut).completeTicket y.ticket status
           (bytesOfWords (BitVec.ofNat 64 (objectLength s y.obj) :: more))
       (∀ ue s1 y, x.op = 0x260 → s.unitsAppend x (x.count - x.done) = (s1, y) → exec (.rickCmdComplete x.ticket ue) s =
         .next (ended s1 y (if y.failed then Status.fault else Status.ok) [])) ∧
       (∀ ue m o, x.op = 0x261 → s.poolBytes x.addr x.count = some m → s.object x.obj = some o →
         (manifestOk m x.obj o = false → exec (.rickCmdComplete x.ticket ue) s = .next (ended (s.poolTouch x.addr x.count) x Status.badParam [])) ∧
         (manifestOk m x.obj o = true → s.logFull 4 x.obj (digestWords m) = false → exec (.rickCmdComplete x.ticket ue) s =
           .next (ended ((s.poolTouch x.addr x.count).objSeal x.obj o m) x Status.ok []))) ∧
       (∀ ue o, x.op = 0x262 → s.object x.obj = some o →
         let bad := ((List.range x.count).filter (fun j => s.unitBad o (x.unit + j) || ue.contains (x.unit + j))).length
         let copy := (List.range x.count).foldl (fun (a : State × Bool) j => ((a.1.unitCopy x o ue j).1, a.2 && (a.1.unitCopy x o ue j).2)) (s, true)
         exec (.rickCmdComplete x.ticket ue) s =
           .next (ended copy.1 x (if bad = 0 ∧ copy.2 = true then Status.ok else Status.fault) [BitVec.ofNat 64 bad])) ∧
       (∀ fail o, x.op = 0x263 → s.object x.obj = some o →
         let e := State.each (List.range 32) (fun s ch => s.chanErase x.obj o fail ch) s
         exec (.rickCmdComplete x.ticket fail) s = .next (ended (({ e with rick := { e.rick with
           objs := tblDel e.rick.objs x.obj, pages := e.rick.pages.filter (fun p => p.2.obj != x.obj) } } : State).objShow x.obj) x Status.ok [])) ∧
       (∀ n s1 y, x.op = 0x260 → x.jAt + s.fget Fld.rickJrnl_JPERIOD * us 1000000 ≤ s.now → s.unitsAppend x n = (s1, y) →
         exec (.journalWrite x.ticket n) s = .next (((s1.rickCmdPut { y with jAt := s.now }).journalPut).stir 45))) ∧
  (∀ (s : State) (ch block lost : Nat), s.rickState = Rick.run → ch < 32 → block ∉ (s.rickChan ch).retired →
       let s1 : State := { s with rick := { s.rick with chans := tblMod {} s.rick.chans ch (fun c => { c with retired := c.retired ++ [block] }) } }
       exec (.nandProgramFail ch block lost) s =
         .next (((s1.fsat Fld.rickRetire_RETIRED 0 0 1).fdec Fld.rickFree_FREE 0 0 lost).errRec 0 0x29 10 ch [block])) ∧
  (∀ (s : State),
       (∀ up torn free targets luns, s.rickState = Rick.recovering →
         let s2 := State.each (List.range 32) (fun s n => s.chanInit up targets luns n) (s.journalTake (s.journalChoice up))
         let s3 := State.each (s2.rick.objs.map (·.1)) State.objShow s2
         let all := torn ++ s3.tagFails
         let s4 := State.each all State.unitTorn s3
         let hit := s4.rick.objs.filter (fun e => all.any (fun t => t.1 == e.1) && e.2.st == 3)
         let s5 := State.each hit (fun s e => s.errRec 1 0x2C 11 0 [e.1, e.2.bad.length]) s4
         let s6 := (((s5.fset Fld.rickFree_FREE 0 0 free).fset Fld.rickRetire_RETIRED 0 0
           ((tblVals s5.rick.chans).map (fun c => c.retired.length)).sum).journalPut).fset Fld.rickStat_STATE 0 0 Rick.run
         exec (.rickRecovery up torn free targets luns) s = .next (if s6.bound then s6.relogAll else s6)) ∧
       (s.rickState = Rick.run → s.fget Fld.pwrTherm_QSTATE ≠ 0 →
         let t := State.each s.rick.cmds State.rickFlush s.streamsStop
         exec .rickQuenchSignal s = .next (({ t with rick := { t.rick with cmds := [], quenchAt := t.now } } : State).fset Fld.rickStat_STATE 0 0 Rick.quenchProg)) ∧
       (s.rickState = Rick.quenchProg → exec .rickProgramsEnded s = .next (s.fset Fld.rickStat_STATE 0 0 Rick.quenchJournal)) ∧
       (s.rickState = Rick.quenchProg → s.rick.quenchAt + us 3000 ≤ s.now → exec .rickQuenchProgTimeout s = .next (s.fset Fld.rickStat_STATE 0 0 Rick.quenchJournal)) ∧
       (s.rickState = Rick.quenchJournal → exec .rickJournalWritten s = .next (s.journalPut.fset Fld.rickStat_STATE 0 0 Rick.off)))


end

section
open Sys2Proof Sys2Proof.Machine Sys2Proof.Claims

/-- R319, R320: a fill under the weight key, its slot's controller serving, writes and checks the billets of its page in order, counts and records those that are
bad, and ends with its page resident; demands that wait are tried again. R321: every PERIOD each HEAT is halved; every 10 µs a promotion scan, where promotion is
on, the engine is not held and the throttle level is below 4, goes through the ways by descending heat, and otherwise nothing changes. The readings that it rests
on are the model's own: log entries 18 and 38. -/
def Obligations.ReservoirFillsHeatAndPromotion : Prop :=
  ∀ (s : State),
    (∀ k ue sl o key, tblFind s.rsv.slots k = some sl → s.kln.weightKey = some key → s.object sl.obj = some o → sl.filling = true →
      s.poolHeld (k / 65536) = false →
      let r := (o.pageBillets sl.page).foldl (fun (a : State × List Nat) b =>
        if (a.1.fillBillet k o sl.obj ue b).2 then ((a.1.fillBillet k o sl.obj ue b).1.billetBad sl.obj b, a.2 ++ [b]) else ((a.1.fillBillet k o sl.obj ue b).1, a.2)) (s, [])
      exec (.fillComplete k ue) s = .next ((({ r.1 with rsv := { r.1.rsv with slots := tblPut r.1.rsv.slots k { sl with filling := false, bad := r.2 } } } : State).fsat
        Fld.rsvCnt_FILLS 0 0 1).rsvShow).rsvRetry) ∧
    (s.rsv.heatAt + s.fget Fld.rsvHeat_PERIOD * us 100 ≤ s.now → exec .rsvHeatPeriod s =
      .next { s with rsv := { s.rsv with heat := s.rsv.heat.map (fun x => (x.1, { x.2 with heat := x.2.heat / 2 })), heatAt := s.now } }) ∧
    (s.fget Fld.rsvHeat_PROMO_EN ≠ 0 → s.rsvHeld = false → s.fget Fld.pwrTherm_LEVEL < 4 → s.rsv.promoAt + us 10 ≤ s.now →
      exec .promotionScan s = .next (s.hotWays.foldl State.promote ({ s with rsv := { s.rsv with promoAt := s.now } }, 0)).1) ∧
    ((s.fget Fld.rsvHeat_PROMO_EN = 0 ∨ s.rsvHeld = true ∨ 4 ≤ s.fget Fld.pwrTherm_LEVEL) → exec .promotionScan s = .next s)

/-- R324, R325, of stream i in RUN: a sequence whose pace allows it becomes current, with its select word and its parts; the parts not pinned ahead are pinned, and
the sequences ahead are read; one whose pace does not allow it waits. R326: the next selected part, with the last part's STOREs issued, its pages resident and its
route valid, is emitted as STOREs, and its pages without output are unpinned. R324: once every STORE of a current sequence with no part left has retired, the
sequence is done; the last one of a stream without LOOP sets DONE and takes the stream OFF. R327: a stopping stream whose fills and STOREs have ended releases its
pins and is OFF, and a failed one releases them. The readings that it rests on are the model's own: log entries 19 and 38. -/
def Obligations.StreamsRunTheirSequences : Prop :=
  ∀ (s : State) (i : Nat), i < 8 →
    let x := s.strm i
    (∀ sel s1 parts k s2, s.strmState i = 1 → x.current = false → s.paceOk x = true → s.tablesWait x = false → s.selWord x x.n = (.ok sel, s1) →
      s1.layer x.ltab (if x.n % x.layers = 0 then 0 else x.after) [] 64 = (.ok (parts, k), s2) →
      let y : Strm := { x with current := true, sel := sel, parts := parts, after := k, emitted := 0 }
      let s3 := ((s2.strmPut i y).fset Fld.rsvStrStat_LAYER i 0 (x.n % x.layers)).fset Fld.rsvStrStat_SEQ i 0 x.n
      let fresh := parts.zipIdx.filter (fun q => !s3.rsv.pins.any (fun p => p.strm == i && p.seq == x.n && p.part == q.2))
      exec (.sequenceCurrent i) s = .next (((s3.pinParts i x.n x sel fresh).rsvRetry).readAhead i y (x.n + 1) k x.ahead)) ∧
    (s.strmState i = 1 → x.current = false → s.paceOk x = false → exec (.sequenceCurrent i) s = .next s) ∧
    (∀ j p o, s.strmState i = 1 → x.current = true → x.next = some (j, p) → s.object x.obj = some o → s.storesWait i = false → s.partReady x o p = true →
      (x.mode ≠ 0 ∨ (s.mcRoute (bits p.1 7 0)).isSome = true) →
      let w := s.partStores i j x o p
      let y : Strm := { x with emitted := j + 1, out := w.2.foldl (fun t r => tblMod 0 t r.2.rsvKey (· + 1)) x.out }
      let s3 := State.each w.2 (fun s r => s.submit r.1 r.2) ((w.1.strmPut i y).fsat Fld.rsvStrOut_BYTES i 0 ((w.2.map (fun r => r.2.payload.length)).sum))
      exec (.partEmit i) s = .next (s3.unpin (fun q => q.strm == i && q.seq == x.n && q.part == j && !w.2.any (fun r => keyPage r.2.rsvKey == q.page))).rsvRetry) ∧
    (s.strmState i = 1 → x.current = true → x.next = none → x.out = [] →
      let last := decide (x.n % x.layers = x.layers - 1) && !x.loop
      let s1 := ((s.selClear x).strmPut i { x with n := x.n + 1, current := false, parts := [], emitted := 0 }).unpin
        (fun p => p.strm == i && (last || p.seq == x.n))
      exec (.sequenceDone i) s = .next (if last then (s1.fset Fld.rsvStrStat_DONE i 0 1).fset Fld.rsvStrStat_STATE i 0 0 else s1).rsvRetry) ∧
    (s.strmState i = 2 → x.out = [] → s.strmFills i = false →
      exec (.streamDrained i) s = .next (((s.unpin (fun p => p.strm == i)).rsvRetry).fset Fld.rsvStrStat_STATE i 0 0)) ∧
    (s.strmState i = 3 → x.out = [] → s.strmFills i = false → exec (.streamDrained i) s = .next (s.unpin (fun p => p.strm == i)).rsvRetry)

end

namespace Sys2Proof.Claims
open Sys2Proof Sys2Proof.Machine

/-- What a failure event of link `n` in UP does (R350, R434, R180): the record with its cause, RECOVER or for cause 9 RESET, both directions awake, the state kept
from now on; the flap count, but at cause 9 only where the egress enters HOLD; what R88 and R183 do at the attached EPB or the optical egress, and what becomes of
the packets being received. -/
def failed (s : State) (n cause : Nat) : State :=
  let s1 := s.errLater 3 0x03 (linkKind n) (linkIdx n) [cause]
  let s2 := ((s1.lkEnter n (if cause = 9 then LnkS.reset else LnkS.recover)).lkAwake n).lkMod n (fun l => { l with keptAt := some s.now, quiet := 0 })
  if n < 64 then (if cause = 9 then s2 else s2.flap n).attachDown n
  else
    let s3 := s2.hubFail (n - 64)
    let s4 := State.each (s.lk n).parts (fun s x => s.interrupt n x)
      (if cause ≠ 9 ∨ s3.fget Fld.hubLink_STATE (n - 64) = Hub.hold then s3.flap n else s3)
    if s4.fget Fld.hubLink_STATE (n - 64) = Hub.down then s4.lkMod n (Lnk.discard true) else s4

/-- What a codeword does on a link in UP and awake, its levels in logical order as `l` on logical lane `j` (R342, R343, R346): the taps adapt, the comma is judged,
and then the codewords of an attach link are taken in the order of its lanes, the one of an optical link at once. -/
def received (s : State) (n j : Nat) (l : List Nat) : State :=
  let s1 := (s.adapt n).commaSeen n j l
  if s1.lkState n ≠ LnkS.up then s1
  else if n < 64 then
    let s2 := s1.lkMod n (fun k => { k with skew := k.skew ++ [(j, l.drop 16)] })
    State.consumeLanes n (s2.lk n).skew.length s2
  else State.orFail n (s1.rxCodeword n (groupBytes (l.drop 16)))

end Sys2Proof.Claims

section
open Sys2Proof Sys2Proof.Machine Sys2Proof.Claims

/-- R344, R363: EN 1 lets a link in RESET that may train leave it, EN 0 takes it to RESET; energy, CDR lock (whose result an optical link keeps as its source
phase), both sides equalised, with the transmit taps as the partner asked, and a PRBS window within PRBS_MAX on both sides each take the link from its state to
the next; lanes that show their commas, directly or reversed on an attach link, take ALIGN to INIT where the
partner reports ALIGNED, with REV, POLINV and ALIGNED, or LANEMAP; a state's timeout takes it back, with a record at most once a second. R344, R345, R347: with no EN 0 of the same cycle, the end of INIT takes an attach link, in RECOVER once its lanes are
aligned anew, to UP: the partner's LINK_ID is kept, the retrain is counted and recorded with no hold, the credits are updated, and the EPB sends its Z_IDENT.
With the same LINK_ID and within HOLD_EFF the retry buffer after RESUME is sent again, otherwise the link-layer state starts anew. The readings that it rests on
are the model's own: log entries 36 and 64. -/
def Obligations.LinksTrainThroughTheirStates : Prop :=
  (∀ (s : State) (n : Nat), n < 192 →
       (∀ v, v % 2 = 1 → s.lkState n = LnkS.reset → (s.fset Fld.lnkCtrl_EN n 0 v).mayTrain n = true → (s.fset Fld.lnkCtrl_EN n 0 v).lkState n = LnkS.reset →
         exec (.linkEnWrite n v) s = .next ((s.fset Fld.lnkCtrl_EN n 0 v).lkEnter n LnkS.detect).settleErr) ∧
       (∀ v, v % 2 = 0 → s.lkState n ≠ LnkS.reset → exec (.linkEnWrite n v) s = .next ((s.fset Fld.lnkCtrl_EN n 0 v).linkOff n).settleErr) ∧
       (s.lkState n = LnkS.detect → exec (.linkEnergyDetect n) s = .next (s.lkEnter n LnkS.cdr).settleErr) ∧
       (s.lkState n = LnkS.cdr →
         let e := (s.lkEnter n LnkS.eq).adapt n
         exec (.cdrLock n) s = .next (if n < 64 then e else e.lkMod n (fun l => { l with stored := l.rxTaps })).settleErr) ∧
       (∀ lanes, s.lkState n = LnkS.eq → exec (.eqDone n lanes) s =
         .next (((((s.coefs n lanes).adapt n).eyes n (lanes.map (·.eye))).lkMod n (fun k => { k with flags := 4 })).lkEnter n LnkS.prbsChk).settleErr) ∧
       (∀ errs partner, s.lkState n = LnkS.prbsChk →
         let s1 := if n < 64 then State.each (List.range 8) (fun s j => s.fset Fld.lnkLane_PRBS_ERR n j (errs.getD j 0)) s else s
         let pass := partner && (List.range (lanesOf n)).all (fun j => decide (errs.getD j 0 ≤ s.fget Fld.lnkPrbs_PRBS_MAX))
         exec (.prbsPass n errs partner) s = .next (if pass then (s1.lkMod n (fun l => { l with flags := 6 })).lkEnter n LnkS.align else s1).settleErr) ∧
       (∀ seen, s.lkState n = LnkS.align → n < 64 → lanesAligned n seen = true →
         (seen.map (·.lane) = List.range 8 ∨ seen.map (·.lane) = (List.range 8).reverse) →
         let pol := ((seen.filter (fun x => !(laneHits x false))).map (fun x => 2 ^ x.lane)).sum
         let s1 := ((s.fset Fld.lnkStat_REV n 0 (b2n (seen.map (·.lane) == (List.range 8).reverse))).fset Fld.lnkStat_POLINV n 0 pol).fset Fld.lnkStat_ALIGNED n 0 0xFF
         s1.lkState n = LnkS.align →
         exec (.aligned n seen true) s = .next ((s1.lkMod n (fun l => { l with flags := 7 })).lkEnter n LnkS.init).settleErr) ∧
       (∀ seen, s.lkState n = LnkS.align → 64 ≤ n → lanesAligned n seen = true → (∀ j < 16, j ∈ seen.map (·.lane)) →
         let s1 := s.fset Fld.optGLanemap_LANEMAP ((n - 64) / 4) ((n - 64) % 4) ((List.range 16).foldl (fun a w => a + (seen.map (·.lane)).getD w 0 * 16 ^ w) 0)
         s1.lkState n = LnkS.align →
         exec (.aligned n seen true) s = .next ((s1.lkMod n (fun l => { l with flags := 7 })).lkEnter n LnkS.init).settleErr) ∧
       (∀ lim back, trainLimit (s.lkState n) = some (lim, back) → (s.lk n).entered + lim ≤ s.now →
         ((s.lk n).toRec = none → exec (.trainTimeout n) s =
           .next (((s.lkMod n (fun l => { l with toRec := some s.now })).errRec 0 0x02 (linkKind n) (linkIdx n) [s.lkState n]).lkEnter n back).settleErr) ∧
         (∀ t, (s.lk n).toRec = some t → s.now < t + us 1000000 → exec (.trainTimeout n) s = .next (s.lkEnter n back).settleErr))) ∧
  (∀ (s : State) (n peer resume : Nat), n < 64 → (s.lkState n = LnkS.init ∨ (s.lkState n = LnkS.recover ∧ (s.lk n).flags % 2 = 1)) → s.fget Fld.lnkCtrl_EN n = 1 →
       s.soon (stopsLink n) = false →
       let own := s.ownLinkId n
       let same := peer == s.fget Fld.lnkPeer_LINK_ID n && own == (s.lk n).sentId
       let anew := (List.range 9).map (fun p => (p, ({ at_ := s.now } : Credit)))
       let started := fun (l : Lnk) => { l with keptAt := none, inits := if same then l.inits + 1 else 1, sentId := own, nak := false, gap := false, owed := true,
                                                resend := false, credits := anew, misses := 0, burstAt := s.now, ackAt := s.now, sentAt := s.now, idleAt := s.now,
                                                quiet := 0, txRound := 0, rxRound := 0, skew := [], missed := [] }
       let up := fun (s : State) => ((((((s.fset Fld.lnkPeer_LINK_ID n 0 peer).fsat Fld.lnkLl_RETRAINS n 0 1).lkEnter n LnkS.up).errRec 0 0x01 2 n [0, 0]).creditUpdate n).zsend n
         (identMsg n)).settleErr
       (s.keepsState n peer = false → exec (.linkUp n peer resume) s =
         .next (up (s.lkMod n (fun l => { started (Lnk.discard false l) with inits := if same then l.inits + 1 else 1 })))) ∧
       (s.keepsState n peer = true →
         let s1 := s.lkMod n (fun l => started { l with txq := ackDrop resume l.retry ++ l.txq, retry := [] })
         exec (.linkUp n peer resume) s = .next (up (if ackDrop resume (s.lk n).retry = [] then s1 else s1.fsat Fld.lnkLl_REPLAYS n 0 1))))

/-- R350: a failure event of a link in UP, a requested retrain, an optical comma lost, a pool without credit update for 2 µs with no codeword waiting, and 2 µs of
energy without alignment each make one failure event with their cause. R347: the state kept since a failure is discarded after HOLD_EFF. R183: ADMIN 1 frees an
optical link's packets and holds the link untrained, ADMIN 0 lets it train. The readings that it rests on are the model's own: log entries 36 and 66. -/
def Obligations.LinksFailWithTheirCause : Prop :=
  ∀ (s : State) (n : Nat), n < 192 →
    (s.lkState n = LnkS.up →
      (∀ cause, cause ≤ 9 → exec (.linkFailureEvent n cause) s = .next (failed s n cause).settleErr) ∧
      exec (.linkRetrain n) s = .next (failed s n 5).settleErr ∧
      (∀ j, (s.lk n).rx = 0 → 64 ≤ n → exec (.alignmentLoss n j) s = .next (failed s n 0).settleErr) ∧
      (∀ pool, (s.lk n).rx = 0 → pool < 9 → (tblGet ({} : Credit) (s.lk n).credits pool).at_ + us 2 ≤ s.now → s.soon (bringsCodeword n) = false →
        (s.fsat Fld.lnkLl_CRED_FAIL n 0 1).lkState n = LnkS.up →
        exec (.creditReturnFailure n pool) s = .next (failed (s.fsat Fld.lnkLl_CRED_FAIL n 0 1) n 1).settleErr) ∧
      ((s.lk n).rx = 2 → (s.lk n).rxAt + us 2 ≤ s.now → exec (.relockTimeout n) s = .next (failed s n 3).settleErr)) ∧
    (∀ t, (s.lk n).keptAt = some t → t + s.holdEff ≤ s.now → exec (.linkStateDiscard n) s = .next (s.lkMod n (Lnk.discard (decide (64 ≤ n)))).settleErr) ∧
    (∀ l, l < 128 → s.fget Fld.hubLink_ADMIN l ≠ 1 →
      let s1 := s.fset Fld.hubLink_ADMIN l 0 1
      let s2 := if s.fget Fld.hubLink_STATE l = Hub.up then s1.toHold l else s1
      exec (.linkAdminSet l) s = .next ((((((s2.freeHold l 1).hubSet l Hub.down).lkMod (64 + l) (Lnk.discard true)).lkEnter (64 + l) LnkS.reset).lkAwake (64 + l)).settleErr)) ∧
    (∀ l, l < 128 → s.fget Fld.hubLink_ADMIN l ≠ 0 → exec (.linkAdminClear l) s = .next ((s.fset Fld.hubLink_ADMIN l 0 0).lkRelease (64 + l)).settleErr)

/-- R342, R343, R346, R357, of a link in UP: a codeword that an awake link receives is put in logical order, its lane's polarity undone, and received. R346: with
no codeword waiting, flits unacknowledged for 1 µs are replayed. R349: an active link with no other fibre's packet under way sends a credit update for each
pool. R351: with no wake cause waiting, a link that has owed nothing for QIDLE sends a round of QUIET flits and enters TXQ; it wakes when something is owed, and
resumes 0.85 µs later; energy in RXQ starts the relock, whose end makes it awake. R361: an awake fibre dark for DARK_MAX fails with cause 7; a burst that begins with a
comma is counted and received under the stored taps. R360: a fibre that owes a visit sends one idle flit, and the steering goes back. R364: a fibre in training beside
one that is UP is sent 8 training frames. The readings that it rests on are the model's own: log entries 14, 35, 36 and 64. -/
def Obligations.LinksReceiveReplaySleepAndVisit : Prop :=
  (∀ (s : State) (n : Nat), n < 192 → s.lkState n = LnkS.up →
    (∀ p levels, (s.lk n).rx = 0 →
      let j := if n < 64 then s.logicalLane n p else 0
      exec (.codewordReceive n p levels) s = .next (received s n j (s.undo n j levels)).settleErr) ∧
    (s.lkActive n = true → (s.lk n).retry ≠ [] → (s.lk n).ackAt + us 1 ≤ s.now → s.soon (bringsCodeword n) = false →
      exec (.replayTimer n) s = .next (State.orFail n (s.replay n)).settleErr) ∧
    (s.lkActive n = true → s.fibreFree n = true → exec (.creditUpdateSend n) s = .next (State.each (List.range 9) (fun s p => (s.grant n p).sendIdle n p) s)) ∧
    (s.lkActive n = true → s.fget Fld.lnkCtrl_SLEEP_EN n = 1 → (s.lk n).nothingOwed = true → s.creditDue n = false → s.soon (wakesLink n) = false →
      s.fibreFree n = true → (s.lk n).idleAt + s.fget Fld.lnkCtrl_QIDLE n * 400 ≤ s.now →
      exec (.txqEnter n) s = .next (((State.each (List.range (quietRound n)) (fun s _ => s.sendCodeword n { kind := 2 } (padTo 256 [1]) none 0) s).fset
        Fld.lnkStat_TXQ n 0 1).lkMod n (fun l => { l with tx := 1, txAt := s.now }))) ∧
    ((s.lk n).tx = 1 → ((s.lk n).nothingOwed = false ∨ s.creditDue n = true) → exec (.txqWake n) s =
      .next ((((s.emit (.wakeSeq n)).fset Fld.lnkStat_TXQ n 0 0).lkMod n (fun l => { l with tx := 2, txAt := s.now })).stir (linkDomain n))) ∧
    ((s.lk n).tx = 2 → (s.lk n).txAt + 1360 ≤ s.now →
      exec (.txWakeDone n) s = .next ((s.lkMod n (fun l => { l with tx := 0, txRound := 0, idleAt := s.now })).linkPump n)) ∧
    ((s.lk n).rx = 1 → exec (.rxqEnergy n) s =
      .next (((s.fset Fld.lnkStat_RXQ n 0 0).lkMod n (fun l => { l with rx := 2, rxAt := s.now })).stir (linkDomain n))) ∧
    ((s.lk n).rx = 2 → exec (.relockDone n) s = .next ((s.lkMod n (fun l => { l with rx := 0, rxRound := 0, skew := [], missed := [] })).creditTimers n)) ∧
    (∀ l, n = 64 + l → (s.lk n).rx = 0 → (s.lk n).burstAt + s.fget Fld.optGCtrl_DARK_MAX (l / 4) * 800 ≤ s.now → s.hitsSoon l = false →
      exec (.darkTimeout l) s = .next ((s.fsat Fld.optGFail_DARK_FAIL (l / 4) (l % 4) 1).linkFail n 7).settleErr) ∧
    (∀ l first cws, n = 64 + l → (s.lk n).rx = 0 → s.firstHit l (first :: cws) = true →
      let s0 := s.lkMod n (fun k => { k with burstAt := s.now, rxTaps := k.stored, missed := [] })
      (s0.lk n).rx = 0 →
      exec (.burstReceive l first cws) s = .next (((((s0.lkMod n (fun k => { k with misses := 0 })).fsat Fld.optGBurst_BURSTS (l / 4) (l % 4) 1).burstWords n (first :: cws)).lkMod n
        (fun k => { k with stored := k.rxTaps })).settleErr))) ∧
  (∀ (s : State) (l : Nat), l < 128 →
    let n := 64 + l
    (s.visitDue l = true →
      let pool := s.fget Fld.optGVisits_VISITS (l / 4) (l % 4) % 9
      let s1 := (((s.fsat Fld.optGVisits_VISITS (l / 4) (l % 4) 1).lkMod n (fun k => { k with visits := s.now :: s.visitsOf n })).grant n pool).sendIdle n pool
      exec (.visitSend l) s = .next (match tblFind s.lnk.aim (linkPort n) with
        | some m => s1.aimAt m
        | none => s1).settleErr) ∧
    (s.lkState n ≠ LnkS.reset → s.lkState n ≠ LnkS.up → s.trainsNow n = false → s.fibreFree n = true → exec (.trainingBurst l) s =
      .next ((State.each (List.range 8) (fun s' _ => s'.trainSlot n (s.lkState n)) (s.aimAt n)).lkMod n (fun k => { k with trainAt := s.now })).settleErr))

/-- R365: a sweep of 4.096 ms that finds a dip deep enough sets the heater at the first one and begins to lock. R367: an update of a LOCKING ring, 4 µs or more
after the last and no later than 128 µs after the start, with line power present, moves the code and locks the ring after sixteen updates within tolerance and
64 µs; 128 µs without lock, and no update of that cycle to come, make the ring UNLOCKED and fail the search. R368: such an update of a LOCKED ring loses it after 64
out of tolerance or at an end of its range; a drop ring updates in bursts alone while its fibre is UP. A lost ring with AUTO_RELOCK whose bus may be searched is swept
alone. R370: low line power sets LASER_LOW and is recorded, and its return clears LASER_LOW. The readings that it rests on are the model's own: log entries 5, 37
and 64. -/
def Obligations.RingsSweepLockAndAreLost : Prop :=
  ∀ (s : State) (g b r : Nat), g < 32 → b < 5 → r < 16 →
    let k := ringKey g b r
    let j := ringIx b r
    let x := tblGet ({} : RingLock) s.opt.locks k
    (∀ dips y code depth, tblFind s.opt.search (busKey g b) = some y → y.ring = r → s.optRing g b r = Ring.sweep → y.at_ + us 4096 ≤ s.now →
      dips.find? (fun d => decide (s.fget Fld.optGCtrl_TAKEN_HI g ≤ d.2)) = some (code, depth) →
      let amb := ((dips.takeWhile (fun d => decide (d.2 < s.fget Fld.optGCtrl_TAKEN_HI g))).filter (fun d => decide (s.fget Fld.optGCtrl_TAKEN_LO g ≤ d.2))).length
      let s1 := (s.fset Fld.optGRing_DIPS g j (min 31 dips.length)).fsat Fld.optGStat_AMBIG g 0 amb
      let s2 := ((s1.fset Fld.optGRing_SWEPT g j code).optHeat g b r code).optRingSet g b r Ring.locking
      exec (.sweepComplete g b r dips) s = .next ({ s2 with opt := { s2.opt with locks := tblPut s2.opt.locks k { start := s.now, last := s.now } } } : State).settleErr) ∧
    (∀ err mv, s.laserLow g = false → x.last + us 4 ≤ s.now → s.betweenBursts g b = false → (s.optRing g b r = Ring.locking → s.now ≤ x.start + us 128) →
      let y : RingLock := { x with last := s.now, good := if err ≤ Config.lockTol k then x.good + 1 else 0, bad := if Config.lossTol k < err then x.bad + 1 else 0 }
      let h := s.fget Fld.optGRing_HEAT g j
      let h1 := if mv = 1 then min 4095 (h + 1) else if mv = 2 then h - 1 else h
      let s1 := ({ s with opt := { s.opt with locks := tblPut s.opt.locks k y } } : State).optHeat g b r h1
      (s.optRing g b r = Ring.locking → 16 ≤ y.good → x.start + us 64 ≤ s.now →
        exec (.ditherUpdate g b r err mv) s = .next (((s1.optRingSet g b r Ring.locked).busUpdate g b).searchNext g b r).settleErr) ∧
      (s.optRing g b r = Ring.locking → (y.good < 16 ∨ s.now < x.start + us 64) → exec (.ditherUpdate g b r err mv) s = .next s1.settleErr) ∧
      (s.optRing g b r = Ring.locked → (64 ≤ y.bad ∨ h1 = 0 ∨ h1 = 4095) → exec (.ditherUpdate g b r err mv) s = .next (s1.ringLost g b r).settleErr)) ∧
    (s.optRing g b r = Ring.locking → x.start + us 128 ≤ s.now → s.soon (updatesRing g b r) = false → exec (.lockTimeout g b r) s =
      .next (((({ s with opt := { s.opt with locks := tblDel s.opt.locks k } } : State).optRingSet g b r Ring.unlocked).searchFail g b)).settleErr) ∧
    (s.optRing g b r = Ring.lost → s.fget Fld.optGCtrl_AUTO_RELOCK g = 1 → s.searchable g b = true → tblFind s.opt.search (busKey g b) = none →
      exec (.ringRelock g b r) s = .next ((s.fset Fld.optGStat_SEARCH g 0 1).sweepRing g b { single := some r }).settleErr) ∧
    (∀ c pwr, c < 8 → pwr < s.fget Fld.optOcPwr_LASER_MIN c → s.fget Fld.optOcStat_LASER_LOW c = 0 →
      let s1 := s.fset Fld.optOcPwr_PWR c 0 pwr
      exec (.laserLow c pwr) s = .next ((s1.fset Fld.optOcStat_LASER_LOW c 0 1).errRec 2 0x31 9 c [s1.fget Fld.optOcPwr_PWR c]).settleErr) ∧
    (∀ c pwr, c < 8 → s.fget Fld.optOcPwr_LASER_MIN c ≤ pwr → exec (.laserPowerReturn c pwr) s =
      .next ((s.fset Fld.optOcPwr_PWR c 0 pwr).fset Fld.optOcStat_LASER_LOW c 0 0).settleErr)

end

namespace Sys2Proof.Claims
open Sys2Proof Sys2Proof.Machine

/-- The SPDM request that a row handles: the message itself, or the plaintext of its session's record. -/
def asked (m : SpdmMsg) (sid : Nat) (msg : List Byte) : List Byte := if sid = 0 then m.data else msg

/-- The session's last message is now. -/
def seen (s : State) (sid : Nat) : State := s.sessionMod sid (fun x => { x with lastSeen := s.now })

/-- The oldest message without a response is the request `code`, in its version, after the negotiation `lo`, and not within chunks. -/
def Waits (s : State) (m : SpdmMsg) (sid : Nat) (msg : List Byte) (code lo : Nat) : Prop :=
  s.kln.spdm.find? (fun x => x.resp.isNone) = some m ∧ m.whole = none ∧ lo ≤ s.kln.nego ∧ ((asked m sid msg).getD 1 0).toNat = code ∧
    ((asked m sid msg).getD 0 0).toNat = (if code = 0x84 then 0x10 else 0x13)

/-- The session is open. -/
def InSession (s : State) (sid : Nat) : Prop := sid ≠ 0 ∧ ∃ x, s.session sid = some x ∧ x.isOpen = true

/-- A Kiln message of `kop` and this body, as R380 lays it out, in a VENDOR_DEFINED_REQUEST. -/
def KilnAsks (p : List Byte) (kop : Nat) (body : List Byte) : Prop :=
  p.take 9 = (vendorHeader 0xFE 0).take 9 ∧ body.length < 2 ^ 32 ∧ p.drop 11 = bytesOfWords [BitVec.ofNat 64 (kop * 2 ^ 56 + body.length), 0] ++ body

/-- The answer to it, in a VENDOR_DEFINED_RESPONSE. -/
def kilnAnswered (s' : State) (m : SpdmMsg) (sid kop kstatus : Nat) (body : List Byte) : State :=
  s'.spdmRespond m sid (vendorHeader 0x7E (16 + body.length) ++ (bytesOfWords [BitVec.ofNat 64 (kop * 2 ^ 56 + kstatus * 2 ^ 48 + body.length), 0] ++ body))

/-- Bytes of a KEY_SET or KEY_DESTROY body: class and slot, then a key. -/
def keyBody (cls slot : Nat) (key : List Byte) : List Byte := bytesOfWords [BitVec.ofNat 64 (cls * 2 ^ 56 + slot * 2 ^ 48)] ++ key

end Sys2Proof.Claims

section
open Sys2Proof Sys2Proof.Machine Sys2Proof.Claims

/-- R377, R378: each SPDM request that may stand where it comes, valid and in its version, is answered with its response (`State.spdmRespond`), and changes the
negotiation and the sessions as that response's function says; FINISH opens the session, with the requester's key where it authenticated, and END_SESSION
removes it. A session whose heartbeat period has passed is removed. A KLN_SPDM command whose message has its response completes 2.0 ms after it was accepted,
with that response as its result. The readings that it rests on are the model's own: log entries 3, 5 and 20. -/
def Obligations.SpdmRequestsAreAnswered : Prop :=
  ∀ (s : State) (m : SpdmMsg) (sid : Nat) (msg : List Byte),
    let p := asked m sid msg
    let s1 := seen s sid
    let given := fun (a : List Byte × State) => Host.Outcome.next (φ := Fault) (ρ := Refusal) (a.2.spdmRespond m sid a.1)
    (Waits s m sid msg 0x84 0 → sid = 0 → exec (.getVersion sid msg true) s = given ([0x10, 0x04, 0, 0, 0, 1, 0x00, 0x13], s1.negoTo 1)) ∧
    (Waits s m sid msg 0xE1 1 → sid = 0 → exec (.getCapabilities sid msg true) s = given (s1.spdmCapabilities p)) ∧
    (Waits s m sid msg 0xE3 2 → sid = 0 → exec (.negotiateAlgorithms sid msg true) s = given (s1.spdmAlgorithms p)) ∧
    (Waits s m sid msg 0x83 3 → sid = 0 → exec (.challenge sid msg true) s =
      given (s1.spdmChallenge p)) ∧
    (Waits s m sid msg 0xE4 3 → sid = 0 → exec (.keyExchange sid msg true) s = given (s1.spdmKeyExchange p)) ∧
    (sid = 0 ∨ InSession s sid →
      (Waits s m sid msg 0x81 3 → exec (.getDigests sid msg true) s = given ([0x13, 0x01, 1, 1] ++ sha384 Config.certChain, s1)) ∧
      (Waits s m sid msg 0x82 3 → exec (.getCertificate sid msg true) s = given (s1.spdmCertificate p)) ∧
      (Waits s m sid msg 0xE0 3 → exec (.getMeasurements sid msg true) s = given (s1.spdmMeasurements p)) ∧
      (Waits s m sid msg 0x85 3 → exec (.chunkSend sid msg true) s = .next (s1.spdmChunkSend m sid p)) ∧
      (Waits s m sid msg 0x86 3 → exec (.chunkGet sid msg true) s = given (s1.spdmChunkGet sid p))) ∧
    (∀ key x, Waits s m sid msg 0xE5 3 → sid ≠ 0 → s.session sid = some x → x.isOpen = false → exec (.finish sid msg true key) s =
      given ([0x13, 0x65, 0, 0], s1.sessionMod sid (fun x => { x with isOpen := true, authed := key.isSome, keyHash := (key.map sha384).getD [] }))) ∧
    (InSession s sid →
      (Waits s m sid msg 0xE8 3 → exec (.heartbeat sid msg true) s = given ([0x13, 0x68, p.getD 2 0, p.getD 3 0], s1)) ∧
      (Waits s m sid msg 0xE9 3 → exec (.keyUpdate sid msg true) s = given ([0x13, 0x69, p.getD 2 0, p.getD 3 0], s1)) ∧
      (Waits s m sid msg 0xEC 3 → exec (.endSession sid msg true) s = .next
        (let s2 := s1.spdmRespond m sid [0x13, 0x6C, 0, 0]
         { s2 with kln := { s2.kln with sessions := s2.kln.sessions.filter (fun x => x.id != sid) } }))) ∧
    (∀ x, s.session sid = some x → x.lastSeen + us 10000000 ≤ s.now → ∃ t, exec (.sessionHeartbeatExpiry sid) s = .next t ∧
      t = { s with kln := { s.kln with sessions := s.kln.sessions.filter (fun x => !(x.id == sid && decide (x.lastSeen + us 10000000 ≤ s.now))) } }) ∧
    (∀ r, m ∈ s.kln.spdm → s.kln.spdm.find? (fun x => x.ticket == m.ticket) = some m → m.at_ + us 2000 ≤ s.now → m.resp = some r → exec (.klnSpdmComplete m.ticket) s =
      .next (({ s with kln := { s.kln with spdm := s.kln.spdm.filter (fun x => x.ticket != m.ticket) } }).completeTicket m.ticket Status.ok r))

/-- R379, R380, R383, of the Kiln messages of an open session, laid out as R380 says: BIND of an unbound device that is not open for debugging, from an
authenticated requester with good keys and no KLN_UNBIND of the same cycle, takes the keys and the tenant and begins the bind reset (R381); a bound tenant's KEY_SET
sets the weight key or a link key and answers its KEYID, and KEY_DESTROY destroys a key of its class; UNBIND destroys every key and begins the unbind reset;
LOG_READ reads up to 64 entries of the refusal log. REPORT answers header, log and signature (R390); STATUS tells the binding. R382: once their zero-fill has had
its time, the resets end with memory cleared and counted in ERASES, BOUND with the manifests logged again (R389), or UNBOUND with no tenant, the refusal log empty
and the waiting KLN_UNBINDs complete, and in phase UNBIND of a boot with the units brought up. The readings that it rests on are the model's own: log entries
20, 42 and 65. -/
def Obligations.KilnMessagesBindAndReport : Prop :=
  (∀ (s : State) (m : SpdmMsg) (sid : Nat) (msg : List Byte) (x : Session), Waits s m sid msg 0xFE 3 → InSession s sid → (seen s sid).session sid = some x →
    let s1 := seen s sid
    (∀ mem rick link, KilnAsks msg 1 (mem ++ rick ++ link ++ List.replicate 32 0) → mem.length = 64 → rick.length = 64 → link.length = 32 → s1.bstate = Bind.unbound →
      s1.soon isUnbind = false → s1.fget Fld.klnState_DEBUG_OPEN = 0 → x.authed = true → weakKey mem = false → weakKey rick = false →
      let s2 : State := { s1 with kln := { s1.kln with rickKey := some rick, weightKey := none, linkKeys := [(0, link)], log := s1.kln.log.filter (fun e => decide (logKind e ≤ 2)) } }
      exec (.bind sid msg true) s =
        .next (kilnAnswered (((s2.tenantSet x.keyHash).bindReset mem).bstateSet Bind.binding) m sid 1 0 (keyId mem ++ keyId rick ++ keyId link)).settleErr) ∧
    (s1.bstate = Bind.bound → s1.tenantOf x = true →
      (∀ key, KilnAsks msg 2 (keyBody 2 0 key) → key.length = 64 → weakKey key = false → exec (.keySet sid msg true) s =
        .next (kilnAnswered { s1 with kln := { s1.kln with weightKey := some key } } m sid 2 0 (keyId key)).settleErr) ∧
      (∀ slot key, KilnAsks msg 2 (keyBody 3 slot (key ++ List.replicate 32 0)) → 1 ≤ slot → slot < 64 → key.length = 32 → exec (.keySet sid msg true) s =
        .next (kilnAnswered { s1 with kln := { s1.kln with linkKeys := tblPut s1.kln.linkKeys slot key } } m sid 2 0 (keyId key)).settleErr) ∧
      (KilnAsks msg 3 (keyBody 1 0 []) → exec (.keyDestroy sid msg true) s = .next (kilnAnswered { s1 with kln := { s1.kln with rickKey := none } } m sid 3 0 []).settleErr) ∧
      (KilnAsks msg 3 (keyBody 2 0 []) → exec (.keyDestroy sid msg true) s = .next (kilnAnswered s1.weightDestroy m sid 3 0 []).settleErr) ∧
      (∀ slot, KilnAsks msg 3 (keyBody 3 slot []) → slot < 64 → exec (.keyDestroy sid msg true) s =
        .next (kilnAnswered { s1 with kln := { s1.kln with linkKeys := tblDel s1.kln.linkKeys slot } } m sid 3 0 []).settleErr) ∧
      (s1.bound = true → KilnAsks msg 6 [] → exec (.unbind sid msg true) s = .next (kilnAnswered s1.unbindBegin m sid 6 0 []).settleErr) ∧
      (∀ i, s1.bound = true → i < 2 ^ 32 → KilnAsks msg 7 (bytesOfWords [BitVec.ofNat 64 i]) → exec (.logRead sid msg true) s =
        .next (kilnAnswered s1 m sid 7 0 (((s1.kln.refusals.drop i).take 64).flatMap bytesOfWords)).settleErr)) ∧
    (∀ nonce, KilnAsks msg 4 nonce → nonce.length = 32 → exec (.report sid msg true) s = .next (kilnAnswered (s1.drawBytes 96).2 m sid 4 0
      (s1.reportHeader nonce ++ s1.kln.log.flatMap bytesOfWords ++ (s1.drawBytes 96).1)).settleErr) ∧
    (KilnAsks msg 5 [] → exec (.status sid msg true) s = .next (kilnAnswered s1 m sid 5 0
      (bytesOfWords [BitVec.ofNat 64 (s1.bstate * 2 ^ 61 + s1.fget Fld.klnState_DEBUG_OPEN * 2 ^ 60)])).settleErr)) ∧
  (∀ s : State, s.bstate = Bind.binding → s.kln.clearAt + zeroFillCycles ≤ s.now →
    exec .bindResetComplete s = .next ((s.bindCleared.fsat Fld.klnErases_ERASES 0 0 1).bstateSet Bind.bound).relogAll) ∧
  (∀ s : State, s.bstate = Bind.unbinding → s.kln.clearAt + zeroFillCycles ≤ s.now →
    let s1 := ((s.bindCleared.fsat Fld.klnErases_ERASES 0 0 1).bstateSet Bind.unbound).tenantSet []
    let s2 := State.each s1.kln.unbinds (fun s t => s.completeTicket t Status.ok []) { s1 with kln := { s1.kln with refusals := [], unbinds := [] } }
    exec .unbindResetComplete s = .next (if s2.fget Fld.cmdBootW0_PHASE = 1 then s2.bootUnits else s2))

end

namespace Sys2Proof.Claims
open Sys2Proof Sys2Proof.Machine

/-- Thread `t` of core `k`, in a cluster whose domain is Active, has the turn for SPN_CLK cycle `c` (R227); its PC lies within the program, and the instruction there
is no reserved encoding. -/
def Issues (s : State) (k t c : Nat) : Prop :=
  k < 256 ∧ s.fget Fld.pwrDomW0_STATE (10 + k / 16) = 0 ∧ s.spnTurn k = some (t, c) ∧
    (s.thr (thrKey k t)).pc < s.fget Fld.spnProg_LEN (thrKey k t / 256) ∧ (s.fetch (thrKey k t)).ok = true

/-- The issue slot and, for its pipe cycles, the vector pipe of the core are taken, the thread is busy for the instruction's latency, and ISSUED counts it. -/
def issued (s : State) (k t c : Nat) : State := s.spnTake k t c (s.fetch (thrKey k t))

/-- The thread's instruction is operation `op` of class `cls`. -/
def At (s : State) (k t cls op : Nat) : Prop := (s.fetch (thrKey k t)).cls = cls ∧ (s.fetch (thrKey k t)).op = op

/-- The row of operation `op` of class `cls` answers `after` for the thread that issues it. -/
def Runs (s : State) (k t cls op : Nat) (row : Nat → Nat → Bool → Instr) (after : State) : Prop :=
  At s k t cls op → exec (row k t false) s = .next after.settleErr

/-- A row whose instruction executes as a whole or not at all by bit 0 of its predicate, and then the next one follows: where it is enabled it does `f`. -/
def RunsWhole (s : State) (k t c cls op : Nat) (row : Nat → Nat → Bool → Instr) (f : State → State) : Prop :=
  let q := thrKey k t
  let s1 := issued s k t c
  Runs s k t cls op row (if s1.enabled q (s.fetch q) 0 then (f s1).thrNext q else s1.thrNext q)

/-- A row whose instruction writes PC itself where it is enabled. -/
def RunsJump (s : State) (k t c cls op : Nat) (row : Nat → Nat → Bool → Instr) (f : State → State) : Prop :=
  let q := thrKey k t
  let s1 := issued s k t c
  Runs s k t cls op row (if s1.enabled q (s.fetch q) 0 then f s1 else s1.thrNext q)

/-- A row of a class 0x6 instruction. -/
def RunsRemote (s : State) (k t c op : Nat) (row : Nat → Nat → Bool → List Word → Instr) : Prop :=
  let q := thrKey k t
  let s1 := issued s k t c
  ∀ ext, At s k t 6 op → exec (row k t false ext) s =
    .next (if s1.enabled q (s.fetch q) 0 then (s1.thrGo q ThrSt.wait).remoteGo q (s.fetch q) ext else s1.thrNext q).settleErr

end Sys2Proof.Claims

section
open Sys2Proof Sys2Proof.Machine Sys2Proof.Claims

/-- R224, R227, R230, R231, of the scalar and control classes, for the thread whose turn it is: where bit 0 of the predicate is enabled, s[D] takes the result of
s[A] and s[B], or of s[A] and the sign-extended IMM, and PC moves by 8 in either case. A branch that is enabled moves PC by 8 times IMM, JR sets it to s[A] rounded down to
8, CALL also keeps the return address, HALT ends the thread with ERRCODE 0, and WAITC waits, or is a program error where its target context is not enabled; YIELD and
NOP only move PC. The readings that it rests on are the model's own: log entries 16, 39 and 59. -/
def Obligations.SpindleScalarAndControlInstructions : Prop :=
  ∀ (s : State) (k t c : Nat), Issues s k t c →
    let q := thrKey k t
    let i := s.fetch q
    let imm := BitVec.ofInt 64 i.simm
    let rr := fun (op : Nat) row (f : Word → Word → Word) => RunsWhole s k t c 0 op row (fun s => s.setS q i.d (f (s.sreg q i.a) (s.sreg q i.b)))
    let ri := fun (op : Nat) row (f : Word → Word → Word) => RunsWhole s k t c 1 op row (fun s => s.setS q i.d (f (s.sreg q i.a) imm))
    (rr 0x00 .add (· + ·) ∧ rr 0x01 .sub (· - ·) ∧ rr 0x02 .mul (· * ·) ∧ rr 0x03 .and (· &&& ·) ∧ rr 0x04 .or (· ||| ·) ∧ rr 0x05 .xor (· ^^^ ·) ∧
      rr 0x06 .shl (fun x y => x <<< (y.toNat % 64)) ∧ rr 0x07 .shr (fun x y => x >>> (y.toNat % 64)) ∧ rr 0x08 .sra (fun x y => x.sshiftRight (y.toNat % 64)) ∧
      rr 0x09 .min (fun x y => if x.toInt ≤ y.toInt then x else y) ∧ rr 0x0A .max (fun x y => if x.toInt ≤ y.toInt then y else x) ∧
      rr 0x0B .minu (fun x y => if x.toNat ≤ y.toNat then x else y) ∧ rr 0x0C .maxu (fun x y => if x.toNat ≤ y.toNat then y else x)) ∧
    (ri 0x00 .addi (· + ·) ∧ ri 0x03 .andi (· &&& ·) ∧ ri 0x04 .ori (· ||| ·) ∧ ri 0x05 .xori (· ^^^ ·) ∧ ri 0x06 .shli (fun x y => x <<< (y.toNat % 64)) ∧
      ri 0x07 .shri (fun x y => x >>> (y.toNat % 64)) ∧ ri 0x08 .srai (fun x y => x.sshiftRight (y.toNat % 64))) ∧
    (RunsWhole s k t c 1 0x20 .li (fun s => s.setS q i.d imm) ∧
      RunsWhole s k t c 1 0x21 .lui (fun s => s.setS q i.d (setBits (s.sreg q i.d) 63 32 i.imm)) ∧
      RunsWhole s k t c 1 0x22 .rdsys (fun s => s.setS q i.d (BitVec.ofNat 64 (if i.imm = 0 then q / 16 else if i.imm = 1 then q % 16 else if i.imm = 2 then
        s.thrGet Fld.spnThrW0_ROLE q else if i.imm = 3 then s.time else if i.imm = 4 then q / 256 else s.thrGet Fld.spnThrW0_LAST_STATUS q)))) ∧
    (let dest := fun (s : State) => wrapInt 64 (((s.thr q).pc : Int) + 8 * i.simm)
     RunsJump s k t c 8 0x00 .br (fun s => s.thrPc q (dest s)) ∧
      RunsJump s k t c 8 0x01 .jr (fun s => s.thrPc q ((s.sreg q i.a).toNat / 8 * 8)) ∧
      RunsJump s k t c 8 0x02 .call (fun s => (s.setS q i.d (BitVec.ofNat 64 ((s.thr q).pc + 8))).thrPc q (dest s)) ∧
      Runs s k t 8 0x0A .yield ((issued s k t c).thrNext q) ∧
      RunsJump s k t c 8 0x0F .halt (fun s => (s.thrEnd q).thrSet Fld.spnThrW0_ERRCODE q 0) ∧
      Runs s k t 8 0x10 .nopInstruction ((issued s k t c).thrNext q) ∧
      RunsJump s k t c 8 0x08 .waitc (fun s => if s.fget Fld.spnCtxW0_EN (q / 256) (i.imm % 64) = 0 then s.progError q 6 else s.thrGo q ThrSt.wait))

/-- R224, R227, R231, of the vector and predicate classes, for the thread whose turn it is: each enabled element of v[D] takes the element operation of its format
on v[A], v[B], v[C] or a scalar, and the enabled bits of p[D] take the comparison or the logic; other elements and bits keep their values. VEXT and VINS of an element
that does not exist give free values (log entry 17, the model's choice). The readings that it rests on are the model's own: log entries 17, 39 and 59. -/
def Obligations.SpindleVectorAndPredicateInstructions : Prop :=
  ∀ (s : State) (k t c : Nat), Issues s k t c →
    let q := thrKey k t
    let i := s.fetch q
    let s1 := issued s k t c
    let n := fmtBytes i.fmt
    let put := fun (l : List Nat) => (s1.setElems q i n l).thrNext q
    let va := s1.velems q i.a n
    let vb := s1.velems q i.b n
    let vc := s1.velems q i.c n
    let sb := s1.splat q i.b n
    let vv := fun (op : Nat) row (f : Nat → Nat → Nat → Nat) => Runs s k t 2 op row (put (List.zipWith (f i.fmt) va vb))
    let vs := fun (op : Nat) row (f : Nat → Nat → Nat → Nat) => Runs s k t 3 op row (put (List.zipWith (f i.fmt) va sb))
    let vw := fun (op : Nat) row (f : Nat → Nat → Nat) =>
      Runs s k t 2 op row ((s1.setElems q i 8 (List.zipWith f (s1.velems q i.a 8) (s1.velems q i.b 8))).thrNext q)
    let pv := fun (op : Nat) row (f : Nat → Nat → Nat → Bool) => Runs s k t 4 op row ((s1.setP q i.d (ofBits (fun j =>
      if s1.enabled q i (j / n * n) then (List.zipWith (f i.fmt) va vb).getD (j / n) false else (s1.preg q i.d).testBit j))).thrNext q)
    let pb := fun (op : Nat) row (f : Nat → Bool) => Runs s k t 4 op row ((s1.setP q i.d (ofBits (fun j =>
      if s1.enabled q i j then f j else (s1.preg q i.d).testBit j))).thrNext q)
    (vv 0x00 .vadd elemAdd ∧ vv 0x01 .vsub elemSub ∧ vv 0x02 .vmul elemMul ∧ vv 0x04 .vmin elemMin ∧ vv 0x05 .vmax elemMax ∧
      Runs s k t 2 0x03 .vfma (put (zip3 (elemFma i.fmt) va vb vc)) ∧
      vw 0x06 .vand (· &&& ·) ∧ vw 0x07 .vor (· ||| ·) ∧ vw 0x08 .vxor (· ^^^ ·) ∧
      Runs s k t 2 0x0A .vperm ((s1.setElems q i 8 (elems 8 32 ((s1.vreg q i.b).map (fun x => (s1.vreg q i.a).getD x.toNat 0)))).thrNext q) ∧
      Runs s k t 2 0x0B .vcvt (vecCvt q i s1)) ∧
    (vs 0x00 .vadds elemAdd ∧ vs 0x02 .vmuls elemMul ∧ vs 0x04 .vmins elemMin ∧ vs 0x05 .vmaxs elemMax ∧
      Runs s k t 3 0x03 .vfmas (put (zip3 (elemFma i.fmt) va sb vc)) ∧ Runs s k t 3 0x10 .vsplat (put sb) ∧
      ((s1.sreg q i.b).toNat < 256 / n → Runs s k t 3 0x11 .vext (if s1.enabled q i (n * (s1.sreg q i.b).toNat) then
        (s1.setS q i.d (BitVec.ofNat 64 (va.getD (s1.sreg q i.b).toNat 0))).thrNext q else s1.thrNext q)) ∧
      ((s1.sreg q i.b).toNat < 256 / n → Runs s k t 3 0x12 .vins ((s1.setV q i.d (mergeElems n
        (fun j => j == n * (s1.sreg q i.b).toNat && s1.enabled q i j) (s1.splat q i.a n) (s1.velems q i.d n))).thrNext q)) ∧
      (256 / n ≤ (s1.sreg q i.b).toNat → Runs s k t 3 0x11 .vext ((s1.draw.2.setS q i.d (BitVec.ofNat 64 s1.draw.1)).thrNext q) ∧
        Runs s k t 3 0x12 .vins (((s1.drawBytes 256).2.setV q i.d (s1.drawBytes 256).1).thrNext q))) ∧
    (pv 0x00 .peq elemEq ∧ pv 0x01 .pne (fun f x y => !elemEq f x y) ∧ pv 0x02 .plt elemLt ∧ pv 0x03 .ple (fun f x y => elemLt f x y || elemEq f x y) ∧
      pb 0x08 .pseq (fun _ => s1.sreg q i.a == s1.sreg q i.b) ∧ pb 0x09 .pslt (fun _ => decide ((s1.sreg q i.a).toInt < (s1.sreg q i.b).toInt)) ∧
      pb 0x0A .pult (fun _ => decide ((s1.sreg q i.a).toNat < (s1.sreg q i.b).toNat)) ∧
      pb 0x10 .pand (fun j => (s1.preg q i.a).testBit j && (s1.preg q i.b).testBit j) ∧ pb 0x11 .por (fun j => (s1.preg q i.a).testBit j || (s1.preg q i.b).testBit j) ∧
      pb 0x12 .pnot (fun j => !(s1.preg q i.a).testBit j) ∧ pb 0x13 .pall (fun _ => true))

/-- R224 to R228, R231, R232, R255 to R259, of the local store, exact and remote classes, for the thread whose turn it is and where its predicate enables it: an
aligned access within the thread's window loads or stores, one that is misaligned or outside it is a program error with ERRCODE 3 (R237); an exact instruction on a
granted accumulator adds, narrows, saves, restores or clears its lanes, on one that is not granted it is a program error with ERRCODE 4; XSEED sets the generator; a
remote instruction puts the thread in WAIT and goes on as `remoteGo`. The readings that it rests on are the model's own: log entries 39, 40, 58 and 59. -/
def Obligations.SpindleMemoryExactAndRemoteInstructions : Prop :=
  ∀ (s : State) (k t c : Nat), Issues s k t c →
    let q := thrKey k t
    let i := s.fetch q
    let s1 := issued s k t c
    let at_ := s1.localAddr q i
    let a := lsKey (q / 16) ((s1.thr q).lsBase * 1024 + at_)
    let by0 := fun (s' : State) => if s1.enabled q i 0 then s' else s1.thrNext q
    let inside := fun (n : Nat) => at_ % n = 0 ∧ at_ + n ≤ (s1.thr q).lsSize * 1024
    let merge := fun (new old : List Byte) => (List.range 256).map (fun j => if s1.enabled q i j then new.getD j 0 else old.getD j 0)
    let mask := s1.thrGet Fld.spnThrW0_XMASK q
    let x := (s1.sreg q i.a).toNat
    let ax := lsKey (q / 16) ((s1.thr q).lsBase * 1024 + x)
    let xin := x % 256 = 0 ∧ x + 2560 ≤ (s1.thr q).lsSize * 1024
    (inside 8 → Runs s k t 5 0x00 .lds (by0 ((s1.setS q i.d (BitVec.ofNat 64 (ofBytes (s1.load a 8)))).thrNext q)) ∧
      Runs s k t 5 0x01 .sts (by0 ((s1.store a (wordBytes (s1.sreg q i.d))).thrNext q))) ∧
    (inside 256 → Runs s k t 5 0x02 .ldv ((s1.setV q i.d (merge (s1.load a 256) (s1.vreg q i.d))).thrNext q) ∧
      Runs s k t 5 0x03 .stv ((s1.store a (merge (s1.vreg q i.d) (s1.load a 256))).thrNext q)) ∧
    (inside 32 → Runs s k t 5 0x04 .ldp (by0 ((s1.setP q i.d (ofBytes (s1.load a 32))).thrNext q)) ∧
      Runs s k t 5 0x05 .stp (by0 ((s1.store a (toBytes 32 (s1.preg q i.d))).thrNext q))) ∧
    ((¬ inside 8 → Runs s k t 5 0x00 .lds (by0 (s1.progError q 3)) ∧ Runs s k t 5 0x01 .sts (by0 (s1.progError q 3))) ∧
      (¬ inside 256 → Runs s k t 5 0x02 .ldv (s1.progError q 3) ∧ Runs s k t 5 0x03 .stv (s1.progError q 3)) ∧
      (¬ inside 32 → Runs s k t 5 0x04 .ldp (by0 (s1.progError q 3)) ∧ Runs s k t 5 0x05 .stp (by0 (s1.progError q 3)))) ∧
    (mask.testBit i.d = true →
      Runs s k t 7 0x00 .xclr (by0 ((s1.setAcc q i.d (List.replicate 64 {})).thrNext q)) ∧
      Runs s k t 7 0x01 .xacc (by0 ((s1.setAcc q i.d ((s1.acc q i.d).zipIdx.map (fun x => if s1.enabled q i (fmtBytes i.fmt * (64 * i.b + x.2)) then
        x.1.addNum (((fpOf i.fmt).getD fp32).decode ((s1.velems q i.a (fmtBytes i.fmt)).getD (64 * i.b + x.2) 0)) else x.1))).thrNext q)) ∧
      (xin → Runs s k t 7 0x04 .xsave (by0 ((s1.store ax (accBytes (s1.acc q i.d))).thrNext q)) ∧
        Runs s k t 7 0x05 .xrest (by0 ((s1.setAcc q i.d ((elems 40 64 (s1.load ax 2560)).map Lane.ofBits)).thrNext q))) ∧
      (¬ xin → Runs s k t 7 0x04 .xsave (by0 (s1.progError q 3)) ∧ Runs s k t 7 0x05 .xrest (by0 (s1.progError q 3)))) ∧
    (mask.testBit i.a = true → Runs s k t 7 0x02 .xnarr (by0 (xnarr q i s1))) ∧
    (mask.testBit i.d = false → Runs s k t 7 0x00 .xclr (by0 (s1.progError q 4)) ∧ Runs s k t 7 0x01 .xacc (by0 (s1.progError q 4)) ∧
      Runs s k t 7 0x04 .xsave (by0 (s1.progError q 4)) ∧ Runs s k t 7 0x05 .xrest (by0 (s1.progError q 4))) ∧
    (mask.testBit i.a = false → Runs s k t 7 0x02 .xnarr (by0 (s1.progError q 4))) ∧
    RunsWhole s k t c 7 0x03 .xseed (fun s => s.thrMod q (fun t => { t with gen := (s.sreg q i.a).toNat })) ∧
    (RunsRemote s k t c 0 .rlds ∧ RunsRemote s k t c 1 .rsts ∧ RunsRemote s k t c 2 .rldv ∧ RunsRemote s k t c 3 .rstv ∧ RunsRemote s k t c 4 .ratom ∧
      RunsRemote s k t c 5 .rred ∧ RunsRemote s k t c 6 .rmove ∧ RunsRemote s k t c 7 .rfetch ∧ RunsRemote s k t c 8 .rmcast)

/-- R227, R230, R237, of the thread whose turn it is: a PC at or beyond LEN, and a reserved encoding, are program errors with ERRCODE 2 and 1; an uncorrectable
error of its registers ends the thread with a record. R228, R236: an access that has ended makes a draining thread IDLE; a thread in WAIT takes its data, or the error
value at another status than OK, with LAST_STATUS, and goes on, or parks where the fault is restartable; an access held up is tried again; WAITC goes on once COUNT is
there. R233, R234: with its stacks and clusters served, a program load puts its image into every cluster named and completes, or ends with FAULT where the
image cannot be read, and LOADED is 0. R244: a write of a new ROLE of a target context clears COUNT. The readings that it rests on are the model's own: log
entries 16, 39, 40 and 59. -/
def Obligations.SpindleThreadsGoOnOrEnd : Prop :=
  (∀ (s : State) (k t c : Nat), k < 256 → s.fget Fld.pwrDomW0_STATE (10 + k / 16) = 0 → s.spnTurn k = some (t, c) →
    let q := thrKey k t
    (exec (.add k t true) s = .next ((s.thrEnd q).errLater 2 0x15 5 (q / 256) [k, t]).settleErr) ∧
    (s.fget Fld.spnProg_LEN (q / 256) ≤ (s.thr q).pc → exec (.add k t false) s = .next (s.progError q 2).settleErr) ∧
    ((s.thr q).pc < s.fget Fld.spnProg_LEN (q / 256) → (s.fetch q).ok = false → exec (.add k t false) s = .next ((issued s k t c).progError q 1).settleErr)) ∧
  (∀ (s : State) (k t : Nat), k < 256 → t < 16 →
    let q := thrKey k t
    let i := s.fetch q
    (∀ e es, tblGet [] s.spn.ends q = e :: es →
      let s1 : State := { s with spn := { s.spn with ends := tblDel s.spn.ends q } }
      (s.thrState q = ThrSt.drain → exec (.remoteAccessComplete k t) s = .next (s1.thrEnd q)) ∧
      (s.thrState q = ThrSt.wait → e.restart = none → exec (.remoteAccessComplete k t) s =
        .next ((((s1.remoteDest q i (if e.status = TStat.ok then e.data else s.remoteOnes q i) (e.poison || e.status != TStat.ok)).thrSet
          Fld.spnThrW0_LAST_STATUS q e.status).thrNext q).thrGo q ThrSt.ready)) ∧
      (∀ id, s.thrState q = ThrSt.wait → e.restart = some id → exec (.remoteAccessComplete k t) s =
        .next (s1.thrPark q (s.sreg q i.a).toNat e.gfa i.ty 0x0F 7 id))) ∧
    (∀ ext, tblGet [] s.spn.ends q = [] → tblFind s.spn.waits q = some ext → s.thrState q = ThrSt.wait → exec (.remoteAccessComplete k t) s =
      .next (({ s with spn := { s.spn with waits := tblDel s.spn.waits q } } : State).remoteGo q i ext)) ∧
    (s.thrState q = ThrSt.wait → At s k t 8 8 →
      (s.fget Fld.spnCtxW1_COUNT (q / 256) (i.imm % 64) + 2 ^ 32 - (s.sreg q i.b).toNat % 2 ^ 32) % 2 ^ 32 < 2 ^ 31 →
      exec (.waitcMet k t) s = .next ((s.thrNext q).thrGo q ThrSt.ready))) ∧
  (∀ (s : State) (l : ProgLoad), s.spn.loads.find? (fun x => x.ticket == l.ticket) = some l → s.loadWaits l = false →
    let cs := (List.range 16).filter (fun k => l.cmask.testBit k)
    let s1 := ({ s with spn := { s.spn with loads := s.spn.loads.filter (fun x => x.ticket != l.ticket) } } : State).poolTouch l.src l.len
    (s.poolBytes l.src l.len = none → exec (.progLoadDone l.ticket) s = .next ((State.each cs State.progNone s1).completeTicket l.ticket Status.fault [])) ∧
    (∀ b, s.poolBytes l.src l.len = some b → (∀ k ∈ cs, s.logFull 3 k (digestWords b) = false) → exec (.progLoadDone l.ticket) s =
      .next ((State.each cs (fun s k => s.progPut b (digestWords b) k) s1).completeTicket l.ticket Status.ok []))) ∧
  (∀ (s : State) (n m v : Nat), n < 16 → m < 64 →
    let w := setBits (s.rd .spnCtxW0 n m) 59 52 v
    (s.fget Fld.spnCtxW0_ROLE n m ≠ v % 256 → exec (.spnCtxRoleWrite n m v) s = .next (((s.fset Fld.spnCtxW1_COUNT n m 0).wr .spnCtxW0 n m w).spnShow n)) ∧
    (s.fget Fld.spnCtxW0_ROLE n m = v % 256 → exec (.spnCtxRoleWrite n m v) s = .next ((s.wr .spnCtxW0 n m w).spnShow n)))

end

namespace Sys2Proof.Claims
open Sys2Proof Sys2Proof.Machine

/-- A packet that waited at the port waits no more. -/
def left (s : State) (e : Nat) (p : Packet) : State := { s with delivered := delFirst (fun x => x == (e, p)) s.delivered }

/-- A request leaves the port for its target, and is a wake cause of the target's domain (R446). -/
def gone (s : State) (e : Nat) (p : Packet) : State := (left s e p).stir (targetDomain e)

/-- A request of type `ty` reaches port `e`, whose unit can take it. -/
def Arrives (s : State) (e : Nat) (p : Packet) (ty : Nat) : Prop := p.typ = ty ∧ isTarget e = true ∧ s.targetReady e = true ∧ s.stackFailed e = false

/-- The rows of a fabric request, by its TYPE (R23). -/
def reqRow (ty : Nat) (e : Nat) (p : Packet) (i : Instr) : Prop :=
  (ty = 0x01 ∧ i = .load e p false) ∨ (ty = 0x02 ∧ i = .store e p false) ∨ (ty = 0x03 ∧ i = .atomicAdd e p) ∨ (ty = 0x04 ∧ i = .atomicMin e p) ∨
  (ty = 0x05 ∧ i = .atomicMax e p) ∨ (ty = 0x06 ∧ i = .cas e p) ∨ (ty = 0x07 ∧ i = .reduceStore e p) ∨ (ty = 0x08 ∧ i = .acquire e p) ∨
  (ty = 0x09 ∧ i = .release e p) ∨ (ty = 0x0A ∧ i = .fence e p) ∨ (ty = 0x0B ∧ i = .doorbell e p)

end Sys2Proof.Claims

section
open Sys2Proof Sys2Proof.Machine Sys2Proof.Claims

/-- R26, R42, R46: a request waits while its target cannot take it, and is answered NACK with BAD_PARAM where the target does not accept its kind. R27, R251, R301,
at a pool port, on the bytes that it names: LOAD and ACQUIRE answer good data, or the error value with poison on a poisoned line; STORE and RELEASE write and are
acknowledged, a poisoned STORE poisons its lines; the atomics, CAS and REDUCE_STORE combine with good data and answer; a LOAD or ACQUIRE outside the ranges is
answered with a fault of CAUSE 0x14 (R294). A FENCE is acknowledged (R29). R238, R239, at a Spindle port with a matching context: a LOAD is checked for its role and RD
and performed, a STORE with its role and WR writes, counts and is acknowledged. R104: a LOAD at a host port's open window goes to PCI Express. R116, R117: a DOORBELL of the
right role and source sets the ring's TAIL; R118: a push STORE that the ring takes is acknowledged. The readings that it rests on are the model's own: log entries 30,
35 and 68. -/
def Obligations.FabricRequestsAtTheirTarget : Prop :=
  ∀ (s : State) (e : Nat) (p : Packet),
    let n := p.len + 1
    let s1 := gone s e p
    (∀ ty i, reqRow ty e p i → p.typ = ty → isTarget e = true → s.targetReady e = false → (e, p) ∉ s.delivered →
      let waits := ({ s with delivered := s.delivered ++ [(e, p)] } : State).stir (targetDomain e)
      (ty ≤ 2 → exec i s = .next waits.settleErr) ∧ (2 < ty → exec i s = .next waits)) ∧
    (∀ ty i, reqRow ty e p i → Arrives s e p ty → kindOk e p = false →
      (ty ≤ 2 → exec i s = .next (s1.targetNack e p TStat.badParam).settleErr) ∧ (2 < ty → exec i s = .next (s1.targetNack e p TStat.badParam))) ∧
    (∀ a, 112 ≤ e → e < 120 → s.poolKey (e - 112) (gfaOff p.addr) n = some a →
      let read := (s1.touch a n 0).respond p e Ty.loadRsp TStat.ok false (s.load a n)
      let ones := (s1.touch a n 0).respond p e Ty.loadRsp TStat.ok true (onesBytes n)
      let put := s1.storeLines a (p.payload.take n)
      let ack := fun (s : State) => s.respond p e Ty.ack TStat.ok false []
      let old := s.load a n
      let met := s1.touch a n 4
      let new := toBytes n (combine p.fmt (p.typ - 3) (ofBytes old) (ofBytes (p.payload.take n)))
      let csa := (met.store a (combineBytes p.fmt p.rop old (p.payload.take n))).fsat Fld.spnCsaElems_ELEMS (e - 112) 0 (n / fmtSize p.fmt)
      (s.view a n = .good → (Arrives s e p 0x01 → exec (.load e p false) s = .next read.settleErr) ∧ (Arrives s e p 0x08 → exec (.acquire e p) s = .next read)) ∧
      (s.view a n = .poison → (Arrives s e p 0x01 → exec (.load e p false) s = .next ones.settleErr) ∧ (Arrives s e p 0x08 → exec (.acquire e p) s = .next ones)) ∧
      (put.2 = true → p.poison = false → (Arrives s e p 0x02 → exec (.store e p false) s = .next (ack put.1).settleErr) ∧
        (Arrives s e p 0x09 → exec (.release e p) s = .next (ack put.1))) ∧
      (p.poison = true → Arrives s e p 0x02 → exec (.store e p false) s = .next (ack (s1.storePoison a n)).settleErr) ∧
      (s.view a n = .good →
        (Arrives s e p 0x03 → exec (.atomicAdd e p) s = .next ((met.store a new).respond p e Ty.atomicRsp TStat.ok false old)) ∧
        (Arrives s e p 0x04 → exec (.atomicMin e p) s = .next ((met.store a new).respond p e Ty.atomicRsp TStat.ok false old)) ∧
        (Arrives s e p 0x05 → exec (.atomicMax e p) s = .next ((met.store a new).respond p e Ty.atomicRsp TStat.ok false old)) ∧
        (Arrives s e p 0x06 → old = p.payload.take n → exec (.cas e p) s =
          .next ((met.store a ((p.payload.drop n).take n)).respond p e Ty.atomicRsp TStat.ok false old)) ∧
        (Arrives s e p 0x06 → old ≠ p.payload.take n → exec (.cas e p) s = .next (met.respond p e Ty.atomicRsp TStat.ok false old)) ∧
        (Arrives s e p 0x07 → p.poison = false → exec (.reduceStore e p) s = .next (ack csa)))) ∧
    (s.poolKey (e - 112) (gfaOff p.addr) n = none → 112 ≤ e → e < 120 →
      (Arrives s e p 0x01 → exec (.load e p false) s = .next (s1.targetFault e p 0x14 7 0 none 0).settleErr) ∧
      (Arrives s e p 0x08 → exec (.acquire e p) s = .next (s1.targetFault e p 0x14 7 0 none 0))) ∧
    (Arrives s e p 0x0A → 96 ≤ e → exec (.fence e p) s = .next (s1.respond p e Ty.ack TStat.ok false [])) ∧
    (∀ m, Arrives s e p 0x01 → 96 ≤ e → e < 112 → s.ctxOf (e - 96) p = some m →
      (s.fget Fld.spnCtxW0_ROLE (e - 96) m ≠ p.role → exec (.load e p false) s = .next (s1.targetNack e p TStat.staleRole).settleErr) ∧
      (s.fget Fld.spnCtxW0_ROLE (e - 96) m = p.role → s.fget Fld.spnCtxW0_RD (e - 96) m ≠ 1 → exec (.load e p false) s =
        .next (s1.targetFault e p 0x0C 7 m none 0).settleErr) ∧
      (s.fget Fld.spnCtxW0_ROLE (e - 96) m = p.role → s.fget Fld.spnCtxW0_RD (e - 96) m = 1 → exec (.load e p false) s =
        .next (s1.memLoad e p (scrKey ((e - 96) / 4) (gfaOff p.addr)) m).settleErr)) ∧
    (∀ m, Arrives s e p 0x02 → 96 ≤ e → e < 112 → s.ctxOf (e - 96) p = some m → s.fget Fld.spnCtxW0_ROLE (e - 96) m = p.role →
      s.fget Fld.spnCtxW0_WR (e - 96) m = 1 → p.poison = false →
      let put := s1.storeLines (scrKey ((e - 96) / 4) (gfaOff p.addr)) (p.payload.take n)
      put.2 = true → exec (.store e p false) s = .next ((put.1.fwrap Fld.spnCtxW1_COUNT (e - 96) m 1).respond p e Ty.ack TStat.ok false []).settleErr) ∧
    (∀ h, Arrives s e p 0x01 → e = 120 + h → h < 2 → s.fget Fld.lnkHwinWlim_EN h = 1 → gfaOff p.addr / 4096 ≤ s.fget Fld.lnkHwinWlim_WLIM h →
      exec (.load e p false) s = .next (({ s1 with host := { s1.host with nextId := s1.host.nextId + 1
                                                                          tgts := s1.host.tgts ++ [{ hp := h, id := s1.host.nextId, pkt := p }] } } : State).emit
        (.hostReq h ((s.fget Fld.lnkHwinWbase_WBASE h * 4096 + gfaOff p.addr) % 2 ^ 64) s1.host.nextId p)).settleErr) ∧
    (∀ r s2, Arrives s e p 0x0B → e < 64 → s.fget Fld.epbRole_ROLE_EPOCH e = p.role → gfaOff p.addr = doorbellPage + 0x40 * r → r < 64 →
      s.sourceOk (s.fget Fld.epbRingCfg_DB_SRC_MODE e r) (s.fget Fld.epbRingCfg_DB_SRC e r) p = true → ofBytes (p.payload.take 8) < 2 ^ 32 →
      s1.ringCommit e r (ofBytes (p.payload.take 8)) = some s2 → exec (.doorbell e p) s = .next (s2.respond p e Ty.ack TStat.ok false [])) ∧
    (∀ o, Arrives s e p 0x02 → e < 64 → s.fget Fld.epbRole_ROLE_EPOCH e = p.role → gfaOff p.addr = doorbellPage + 0x8000 + o → o % 8 = 0 → o < 64 * 0x200 →
      n % 8 = 0 → n ≤ 512 → o % 0x200 + n ≤ 0x200 →
      s.sourceOk (s.fget Fld.epbRingCfg_DB_SRC_MODE e (o / 0x200)) (s.fget Fld.epbRingCfg_DB_SRC e (o / 0x200)) p = true →
      let x := s1.ringPush e (o / 0x200) (p.payload.take n) p.poison
      x.1 = TStat.ok → exec (.pushStore e p) s = .next (x.2.respond p e Ty.ack TStat.ok false []))

/-- R34, R40: a response that matches an outstanding request of its unit completes it, and one that matches none is discarded, counted and recorded. R29: a FENCE's
answer is kept until the earlier requests have completed, and then completes it. R44, R38: the sweep completes with TIMEOUT each request whose age has reached its bound
and for which no response stands at its unit. R166, R172: at the end of an INC_PERIOD, with EN = 1, the RATEs of destinations that no mark came from rise; EN from
0 to 1 sets every RATE and the count of periods anew. R51: a write of the same ROLE_EPOCH does nothing, a new one ends what the EPB holds with one record. R48, R58: the
fence epoch is written. R144: INVAL, and RRC_EN from 1 to 0, invalidate the remote-read cache. The readings that it rests on are the model's own: log entries 30, 33, 53
and 55. -/
def Obligations.ResponsesAndEpochsReachTheIssuer : Prop :=
  (∀ (s : State) (u : Nat) (p : Packet) (ty : Nat) (i : Instr), isIssuer u = true → p.typ = ty →
    ((ty = 0x20 ∧ i = .loadRsp u p) ∨ (ty = 0x21 ∧ i = .ack u p) ∨ (ty = 0x22 ∧ i = .atomicRsp u p) ∨ (ty = 0x23 ∧ i = .fswRsp u p) ∨ (ty = 0x24 ∧ i = .nack u p)) →
    let s1 := left s u p
    let key := tagKey u (p.tag % 4096)
    (∀ t, s.matchTag u p = some t → t.hdr.typ ≠ 0x0A → exec i s = .next ((s1.echo u (16 * p.sy + p.sx) p.cmark).finishTag key (rspDone p))) ∧
    (∀ t, s.matchTag u p = some t → t.hdr.typ = 0x0A → ∃ s2, s2 = s1.echo u (16 * p.sy + p.sx) p.cmark ∧
      exec i s = .next { s2 with tags := tblPut s2.tags key { t with answered := some (rspDone p).status } }) ∧
    (s.matchTag u p = none → u < 64 → exec i s = .next ((s1.fsat Fld.epbLateRsp_LATE u 0 1).errRec 0 0x10 1 u [p.tag, p.addr / 2 ^ 45])) ∧
    (s.matchTag u p = none → 64 ≤ u → exec i s = .next (({ s1 with late := tblMod 0 s1.late u (fun k => satAdd 32 k 1) } : State).errRec 0 0x10
      (if u < 112 then 5 else 15) (if u < 112 then u - 96 else u - 120) [p.tag, p.addr / 2 ^ 45]))) ∧
  (∀ (s : State) (u i : Nat) (t : Tag), tblFind s.tags (tagKey u i) = some t → s.fenceReady u t = true →
    exec (.fenceComplete u i) s = .next (s.finishTag (tagKey u i) { status := t.answered.getD 0 })) ∧
  (∀ s : State, exec .deadBoundSweep s = .next (State.each (s.tags.filter (fun t => decide (t.2.deadline ≤ s.now) && !t.2.posted && t.2.answered.isNone && !s.responds t.1))
    (fun s t => s.finishTag t.1 { status := TStat.timeout }) s)) ∧
  (∀ (s : State) (n : Nat), n < 64 →
    let quiet := (List.range 256).filter (fun d => decide (s.fget Fld.epbCcRate_RATE n d < 1024) && !(tblGet ({} : Rate) (s.epbAt n).rates d).marked)
    let step := s.fget Fld.epbCcCtrl_INC_STEP n
    let nextPeriod := fun (u : State) => u.epbMod n (fun e =>
      { e with incAt := (s.epbAt n).incAt + us (s.epbAt n).incLen, incLen := s.fget Fld.epbCcCtrl_INC_PERIOD n })
    ((s.epbAt n).incAt + us (s.epbAt n).incLen ≤ s.now →
      (s.fget Fld.epbCcCtrl_EN n = 1 → exec (.rateIncrease n) s = .next (nextPeriod ((State.each quiet (fun s d => (s.creditAdd n d 0).fset Fld.epbCcRate_RATE n d
        (min 1024 (s.fget Fld.epbCcRate_RATE n d + step))) s).epbMod n (fun e => { e with rates := e.rates.map (fun x => (x.1, { x.2 with marked := false })) })))) ∧
      (s.fget Fld.epbCcCtrl_EN n ≠ 1 → exec (.rateIncrease n) s = .next (nextPeriod s))) ∧
    (s.fget Fld.epbCcCtrl_EN n ≠ 1 → exec (.ccEnable n) s = .next ((((s.fset Fld.epbCcCtrl_EN n 0 1).regsReset (regAddr .epbCcRate n 0)
      (regAddr .epbCcRate n 256)).epbMod n (fun e => { e with rates := [] })).incRestart n)) ∧
    (∀ v, s.fget Fld.epbRole_ROLE_EPOCH n = v % 256 → exec (.epbRoleWrite n v) s = .next s) ∧
    (∀ v, s.fget Fld.epbRole_ROLE_EPOCH n ≠ v % 256 →
      let e := s.epbAt n
      let count := (s.unitTags n).length + s.heldCount n + (e.niRun.length + (e.parks.filter (·.mover.ni)).length)
        + ((e.parks.filter (fun p => !p.mover.ni)).length + e.resumes.length)
      let s1 := (s.fset Fld.epbRole_ROLE_EPOCH n 0 v).dropTags n
      let s2 := ({ s1 with waitq := tblDel s1.waitq n }).epbMod n (fun e => { e with slots := e.slots.map freeEntry, wakes := [], zwait := [], zloads := [] })
      let s3 := ((((s2.epbMod n (fun e => rrcInvalidate e (fun _ => true))).slotsUsed n).staleEngines n).staleNi n).staleRings n
      let s4 := State.each (s3.epbAt n).resumes (fun s p => s.itemEnd n 0 p.mover TStat.staleRole p.mover.record false)
        (s3.epbMod n (fun e => { e with resumes := [] }))
      exec (.epbRoleWrite n v) s = .next (s4.fault n { cause := 0x10, status := TStat.staleRole, actor := 0, count := count })) ∧
    exec (.rrcInval n) s = .next (s.epbMod n (fun e => rrcInvalidate e (fun _ => true))) ∧
    (s.fget Fld.epbVisCtrl_RRC_EN n = 1 → exec (.rrcDisable n) s = .next ((s.fset Fld.epbVisCtrl_RRC_EN n 0 0).epbMod n (fun e => rrcInvalidate e (fun _ => true))))) ∧
  (∀ (s : State) (v : Nat), exec (.hubFenceWrite v) s = .next (s.wr .hubFence 0 0 (BitVec.ofNat 64 (v % 2 ^ 18))))

end

namespace Sys2Proof.Claims
open Sys2Proof Sys2Proof.Machine

/-- The rows of an accelerator request other than Z_LOAD, by ZTYPE (R61). -/
def zRow (ty n : Nat) (m : ZMsg) (i : Instr) : Prop :=
  (ty = 0x02 ∧ i = .zStore n m) ∨ (ty = 0x03 ∧ i = .zAtomicAdd n m) ∨ (ty = 0x04 ∧ i = .zAtomicMin n m) ∨ (ty = 0x05 ∧ i = .zAtomicMax n m) ∨
  (ty = 0x06 ∧ i = .zCas n m) ∨ (ty = 0x07 ∧ i = .zReduce n m) ∨ (ty = 0x08 ∧ i = .zAcquire n m) ∨ (ty = 0x09 ∧ i = .zRelease n m) ∨
  (ty = 0x0A ∧ i = .zFence n m) ∨ (ty = 0x0B ∧ i = .zDoorbell n m)

/-- The request is translated by leaf `leaf` of a page of `size` bytes, which grants its right, to a target that its type may name. -/
def ZGoes (m : ZMsg) (leaf : Word) (size : Nat) : Prop :=
  leafRight leaf m.ztype = true ∧ isTarget (gfaE (leafAddr leaf size m.addr)) = true ∧ endpointOk m.ztype (leafAddr leaf size m.addr) = true

/-- The request is counted where its leaf counts heat, and submitted as the fabric request of its type, under serial number `k`. -/
def zSubmitted (s : State) (n k : Nat) (m : ZMsg) (leaf : Word) (size : Nat) : State :=
  let gfa := leafAddr leaf size m.addr
  let s1 := if bit leaf 3 && decide (120 ≤ gfaE gfa) then s.heatCount n (gfa / 2 ^ 16) (gfaLines gfa (m.len + 1)).length m.fas else s
  s1.submit n (zReq m gfa (s.cacheableLoad n m leaf gfa) k)

/-- Steps 1 to 3 of R65 pass. -/
def ZChecked (s : State) (n : Nat) (m : ZMsg) : Prop :=
  (s.epbAt n).badVersion = false ∧ zHeaderOk m = true ∧ zOperandOk m = true ∧ fasRefuses (s.rd .epbFasW0 n m.fas) m.addr = false

/-- The request has taken its serial number, and its cached leaf counts as used. -/
def zHit (s : State) (n : Nat) (c : CacheEnt) : State := ({ s with serial := s.serial + 1 } : State).epbMod n (fun e => cacheUse n e c)

end Sys2Proof.Claims

section
open Sys2Proof Sys2Proof.Machine Sys2Proof.Claims

/-- R65: an accelerator request other than Z_LOAD. One of an accelerator of another version gets Z_RSP with BAD_PARAM; a bad header or operand is refused with BAD_PARAM
and a record of CAUSE 0x08; a FAS entry that is off, or an FVA outside its range, with FAULT and CAUSE 0x06; a cached leaf without the right with FAULT and CAUSE 0x05.
A cached leaf with the right counts as used, and the request is submitted to the fabric; without a cached leaf it waits, and a walk is started for it (R76). The
readings that it rests on are the model's own: log entries 9, 11 and 30. -/
def Obligations.AcceleratorRequestsAreCheckedAndSubmitted : Prop :=
  ∀ (s : State) (n : Nat) (m : ZMsg) (ty : Nat) (i : Instr), n < 64 → m.ztype = ty → zRow ty n m i →
    (∀ c, ZChecked s n m → cacheFind n (s.epbAt n) (.fas m.fas) m.addr = some c → ZGoes m c.leaf c.size →
      exec i s = .next (zSubmitted (zHit s n c) n s.serial m c.leaf c.size)) ∧
    (∀ c, ZChecked s n m → cacheFind n (s.epbAt n) (.fas m.fas) m.addr = some c → leafRight c.leaf ty = false →
      exec i s = .next ((zHit s n c).zrefuse n m 0x05 TStat.fault 7 0 (some (leafAddr c.leaf c.size m.addr)))) ∧
    (ZChecked s n m → cacheFind n (s.epbAt n) (.fas m.fas) m.addr = none →
      exec i s = .next ((({ s with serial := s.serial + 1 } : State).epbMod n (fun e => { e with zwait := e.zwait ++ [(s.serial, m)] })).walkStart n
        (.fas m.fas) m.addr (s.rd .epbFasW0 n m.fas))) ∧
    ((s.epbAt n).badVersion = false → (zHeaderOk m = false ∨ zOperandOk m = false) → exec i s = .next (s.zrefuse n m 0x08 TStat.badParam 7 0 none)) ∧
    ((s.epbAt n).badVersion = false → zHeaderOk m = true → zOperandOk m = true → fasRefuses (s.rd .epbFasW0 n m.fas) m.addr = true →
      exec i s = .next (s.zrefuse n m 0x06 TStat.fault 7 0 none)) ∧
    ((s.epbAt n).badVersion = true → exec i s = .next (s.zfail n m TStat.badParam))

/-- R65: a Z_LOAD whose cached leaf grants it is submitted; R429: one whose tag's state is lost gets Z_RSP with FAULT and a record. R62, R63: the first Z_IDENT
identifies the accelerator and sends the Z_WAKEs held for it, or is recorded for its version; later ones are counted. R67: a Z_RESUME frees the slot that its WTOKEN
names, and is counted where it names none. R68: the oldest waiting target request is sent. R69: an answer completes its target request, one that comes too late is
counted, and a request 1.5 µs old is answered NACK with FAULT. R61: a reserved ZTYPE is discarded and recorded. R105: at the end of a heat period every count is halved;
EN = 0 clears the table. R35, R211: a waiting request is issued once nothing holds it, and otherwise waits on. R76, R78: a walk that ends answers all that waited for its
page, and the waiting misses that no walk serves look again; a stale walk's result is dropped. R80, R81: a prefetch of the next page in order starts a walk and is counted;
one that finds no leaf stops the mover's prefetching at its page. The readings that it rests on are the model's own: log entries 3, 9, 30, 35 and 53. -/
def Obligations.EpbServesItsAccelerator : Prop :=
  ∀ (s : State) (n : Nat), n < 64 →
    (∀ m c, m.ztype = 0x01 → ZChecked s n m → cacheFind n (s.epbAt n) (.fas m.fas) m.addr = some c → ZGoes m c.leaf c.size →
      exec (.zLoad n m false) s = .next (zSubmitted (zHit s n c) n s.serial m c.leaf c.size).settleErr) ∧
    (∀ m, m.ztype = 0x01 → exec (.zLoad n m true) s = .next ((s.draw.2.zfail n m TStat.fault).errLater 2 0x14 1 n [0, s.draw.1 % 4096]).settleErr) ∧
    (∀ m, m.ztype = 0x3E → (s.epbAt n).identSeen = false →
      let w := BitVec.ofNat 64 (ofBytes (m.payload.take 8))
      (bits w 63 48 = 0x0100 → exec (.zIdent n m) s = .next (State.each (s.epbAt n).wakes (fun s w => s.zsend n w)
        (((s.epbMod n (fun e => { e with identSeen := true, badVersion := false, wakes := [] })).fset Fld.epbZarState_IDENT_OK n 0 1).fset
          Fld.epbZarState_TGT_MAX n 0 (bits w 47 36)))) ∧
      (bits w 63 48 ≠ 0x0100 → exec (.zIdent n m) s = .next ((s.epbMod n (fun e => { e with identSeen := true, badVersion := true })).errRec 3 0x06 2 n
        [bits w 63 48]))) ∧
    (∀ m, m.ztype = 0x3E → (s.epbAt n).identSeen = true → exec (.zIdent n m) s = .next (s.fsat Fld.epbZarStat_STALE_TOKEN n 0 1)) ∧
    (∀ m, m.ztype = 0x10 →
      let k := m.wtoken % 256
      let x := tblGet ({} : Slot) (s.epbAt n).slots k
      (x.st ≠ .free → m.wtoken = wtoken x.ctx x.gen k → exec (.zResume n m) s =
        .next ((s.epbMod n (fun e => { e with slots := tblPut e.slots k { x with st := .free } })).slotsUsed n)) ∧
      ((x.st = .free ∨ m.wtoken ≠ wtoken x.ctx x.gen k) → exec (.zResume n m) s = .next (s.fsat Fld.epbZarStat_STALE_TOKEN n 0 1))) ∧
    (∀ m j t, m.ztype = 0x11 → (s.epbAt n).tgts.findIdx? (fun t => t.ztag == some m.ztag) = some j → (s.epbAt n).tgts[j]? = some t →
      let data := if returnsData t.pkt.typ then (if m.poison then onesBytes (t.pkt.len + 1) else m.payload.take (t.pkt.len + 1)) else []
      let s1 := (s.tgtDrop n j).respond t.pkt n (rspType t.pkt.typ) TStat.ok m.poison data
      (m.status = TStat.ok → exec (.zTgtRsp n m) s = .next (if isWriteTy t.pkt.typ then s1.windowWrite n t.win else s1)) ∧
      (m.status ≠ TStat.ok → exec (.zTgtRsp n m) s = .next ((s.tgtDrop n j).targetFault n t.pkt 0x17 7 t.win (some t.rel) 0))) ∧
    (∀ m, m.ztype = 0x11 → (s.epbAt n).tgts.findIdx? (fun t => t.ztag == some m.ztag) = none → exec (.zTgtRsp n m) s =
      .next ((s.epbMod n (fun e => { e with lateTags := e.lateTags.filter (fun x => x.1 != m.ztag) })).fsat Fld.epbZarStat_LATE_TGT n 0 1)) ∧
    (∀ j t, s.fget Fld.epbZarState_IDENT_OK n = 1 → ((s.epbAt n).tgts.filter (fun t => t.ztag.isSome)).length < s.fget Fld.epbZarState_TGT_MAX n + 1 →
      (s.epbAt n).tgts.findIdx? (fun t => t.laddr.isSome && t.ztag.isNone) = some j → (s.epbAt n).tgts[j]? = some t →
      let z := freeZtag (s.epbAt n).tgts (s.epbAt n).lateTags
      exec (.zTgtSend n) s = .next ((s.epbMod n (fun e => { e with
        tgts := e.tgts.set j { t with ztag := some z }
        lateTags := e.lateTags.filter (fun x => x.1 != z) })).zsend n (tgtMsg t (t.laddr.getD 0) z))) ∧
    (∀ j t, (s.epbAt n).tgts[j]? = some t → t.arrived + 2400 ≤ s.now → exec (.tgtTimeout n j) s =
      .next (((s.tgtDrop n j).epbMod n (Epb.awaitLate t)).targetFault n t.pkt 0x0D 7 t.win (some t.rel) 0)) ∧
    (∀ m, isZSent m.ztype = false → exec (.zResume n m) s = .next (s.errRec 2 0x11 1 n [zWord0 m])) ∧
    ((s.epbAt n).heatAt + us (10 * (s.epbAt n).heatLen) ≤ s.now → exec (.heatPeriod n) s = .next (s.epbMod n (fun e => { e with
      heat := e.heat.map (fun x => (x.1, { x.2 with
        count := x.2.count / 2, flagged := if x.2.count / 2 < s.fget Fld.epbHeatCtrl_THRESH n / 2 then false else x.2.flagged }))
      heatAt := (s.epbAt n).heatAt + us (10 * (s.epbAt n).heatLen)
      heatLen := s.fget Fld.epbHeatCtrl_PERIOD n }))) ∧
    exec (.heatCtrlDisable n) s = .next ((s.fset Fld.epbHeatCtrl_EN n 0 0).epbMod n (fun e => { e with heat := [] })) ∧
    (∀ j w k, (tblGet [] s.waitq n)[j]? = some w → w.req.cacheable = false → s.heldBy n w.req = none →
      let s1 : State := { s with waitq := tblPut s.waitq n ((tblGet [] s.waitq n).eraseIdx j) }
      s1.heldBy n w.req = none → s1.freeTag n = some k →
      exec (.tagFreeIssue n j) s = .next (s1.issue n w.req k) ∧ exec (.admission n j) s = .next (s1.issue n w.req k)) ∧
    (∀ j w why, (tblGet [] s.waitq n)[j]? = some w → w.req.cacheable = false → s.heldBy n w.req = some why →
      exec (.admission n j) s = .next { s with waitq := tblPut s.waitq n ((tblGet [] s.waitq n).set j { w with why := why }) }) ∧
    (∀ j w ext, (s.epbAt n).walks[j]? = some w →
      let s1 := s.epbMod n (fun e => { e with walks := e.walks.eraseIdx j })
      let va := w.page * 2 ^ 16
      let r := s.walk w.space va w.root ext
      let s2 := ((s1.walked w.space va w.root ext).walkDone n w r).walksAgain n
      (w.stale = true → exec (.walkComplete n j ext) s = .next (s1.walksAgain n)) ∧
      (w.stale = false → r ≠ .waits → w.prefetch = none → exec (.walkComplete n j ext) s = .next s2) ∧
      (∀ size leaf, w.stale = false → r = .leaf size leaf → exec (.walkComplete n j ext) s = .next s2) ∧
      (∀ v, w.stale = false → r ≠ .waits → (∀ size leaf, r ≠ .leaf size leaf) → w.prefetch = some v →
        exec (.walkComplete n j ext) s = .next (s2.epbMod n (Epb.pfStop v)))) ∧
    (∀ e off dst m, s.mover n e = some m → s.prefetchOk n off dst m = true →
      exec (.prefetchStart n e off dst) s = .next ((s.epbMod n (fun x => { x with walks := x.walks ++
        [{ space := .fas m.fas, page := page64 (m.vaAt off dst), root := s.rd .epbFasW0 n m.fas,
           prefetch := some { mover := e, off := off, dst := dst } }] })).fsat Fld.epbXlatePf_PF n 0 1))

end

section
open Sys2Proof Sys2Proof.Machine Sys2Proof.Claims

/-- R175, at a crossbar ingress: a packet that its pair admits is written, and a posted STORE retires its tag (R32); one that it does not admit stays at its source. R48,
at an optical ingress outside a Coppice shadow: a response, or a request of an accepted fence epoch, is written, and any other request is answered NACK with FENCED.
R164, R176, R186: a waiting copy that its egress count admits is marked and joins its queue or the hold list of its link, or is freed where that list is full (PORT_DOWN)
or the link is DOWN (UNREACHABLE); one that it does not admit waits on. R185, R199, R201, R202: at a dispatch opportunity an egress takes its mode, and sends a held packet
first, then the scheduler's choice. R181: a copy that has been read out gives its cells back and, at a local unit, is delivered. R183: at the hold deadline the packets
of the link are freed and it is DOWN. R191: a burst takes up to four records of a die's FIFO and counts those that find no room; a burst that is done is in memory and
TAIL has advanced; R195: setting EN starts the ring at index 0. The readings that it rests on are the model's own: log entries 31, 32, 53 and 65. -/
def Obligations.SwitchSendsPacketsAndMirrorsRecords : Prop :=
  (∀ (s : State),
       (s.soon writesLimits = false → s.fget Fld.hubCoppiceCtrl_MODE ≠ 1 → ∀ k v i p, k < 128 → (tblGet [] s.inq k).findIdx? (fun p => p.vc == v) = some i → (tblGet [] s.inq k)[i]? = some p →
         (s.admits k v (cellsOf p.payload.length) = true → exec (.packetIngress k v) s =
           .next ((({ s with inq := tblPut s.inq k ((tblGet [] s.inq k).eraseIdx i) } : State).writePacket k v 0 false p).retirePosted k p)) ∧
         (s.admits k v (cellsOf p.payload.length) = false → exec (.packetIngress k v) s = .next s)) ∧
       (s.soon writesLimits = false → s.fget Fld.hubCoppiceCtrl_MODE ≠ 1 → ∀ k v p t, 128 ≤ k → tblGet [] s.inq k = p :: t →
         let s1 : State := { s with inq := tblPut s.inq k t }
         let a := 64 + (k - 128) / 32
         let fib := (k - 128) / 8 % 4
         (isRspTy p.typ = true → exec (.packetIngress k v) s = .next (s1.writePacket a ((k - 128) % 8) fib true p)) ∧
         (isRspTy p.typ = false → s.fget Fld.hubCoppiceCtrl_MODE ≠ 2 → s.fenceOk p.fence = true →
           exec (.packetIngress k v) s = .next (s1.writePacket a ((k - 128) % 8) fib true p)) ∧
         (isRspTy p.typ = false → s.fget Fld.hubCoppiceCtrl_MODE ≠ 2 → s.fenceOk p.fence = false →
           exec (.packetIngress k v) s = .next (s1.inject a (s1.switchNack (consumeHop p (mkHop a fib 0)) a TStat.fenced)))) ∧
       (∀ i c, s.sw.waiting[i]? = some c → s.coreOff (dieOf c.port) = false → (s.sw.waiting.take i).any (fun x => s.samePair x c) = false →
         let s1 : State := { s with sw := { s.sw with waiting := s.sw.waiting.eraseIdx i } }
         let c1 := if isRspTy c.pkt.typ then c else { c with pkt := { c.pkt with cmark := max c.pkt.cmark (s1.markOf c) } }
         let occ := s.fget Fld.hubEglim_OCC c.port c.pkt.tc
         (s.fget Fld.hubEglim_LIM_EG c.port c.pkt.tc ≤ occ → exec (.packetEnqueue i) s = .next s) ∧
         (occ < s.fget Fld.hubEglim_LIM_EG c.port c.pkt.tc →
           ((c.port < 64 ∨ 96 ≤ c.port) → exec (.packetEnqueue i) s = .next (s1.joinQueue c1)) ∧
           (64 ≤ c.port → c.port < 96 → s.holdOver c.link = false →
             (s.fget Fld.hubLink_STATE c.link = Hub.up → exec (.packetEnqueue i) s = .next (s1.joinQueue c1)) ∧
             (s.fget Fld.hubLink_STATE c.link = Hub.hold → s.fget Fld.hubLink_HELD c.link < s.fget Fld.hubHold_HOLD_LIM * 256 →
               exec (.packetEnqueue i) s = .next ((s1.egressCells c1 true).setHold c.link (s.holdList c.link ++ [c1]))) ∧
             (s.fget Fld.hubLink_STATE c.link = Hub.hold → s.fget Fld.hubHold_HOLD_LIM * 256 ≤ s.fget Fld.hubLink_HELD c.link →
               exec (.packetEnqueue i) s = .next (s1.freeCopy c1 3 TStat.portDown)) ∧
             (s.fget Fld.hubLink_STATE c.link ≠ Hub.up → s.fget Fld.hubLink_STATE c.link ≠ Hub.hold →
               exec (.packetEnqueue i) s = .next (s1.freeCopy c1 2 TStat.unreachable))))) ∧
       (∀ p ecc, p < 124 → s.egressFree p = true → s.coreOff (dieOf p) = false →
         let s1 := s.modesTake p
         let ready := s1.readySubs p
         (∀ l c, s1.heldHead p = some (l, c) → exec (.egressDispatch p ecc) s =
           .next (((s1.setHold l ((s1.holdList l).drop 1)).readOut c).queueSets p).settleErr) ∧
         (s1.heldHead p = none → s1.strict p = true → ∀ k u, leastBy (fun a b => strictLt a.1 b.1) ready = some (k, u) → exec (.egressDispatch p ecc) s =
           .next (s1.dispatchFrom p k 0 u ecc).settleErr) ∧
         (s1.heldHead p = none → s1.strict p = false → ∀ k u v, s1.fairChoice p ready = (some (k, u), v) → exec (.egressDispatch p ecc) s =
           .next (s1.dispatchFrom p k v u ecc).settleErr)) ∧
       (∀ i c, s.sw.sending[i]? = some c →
         let s1 := ((({ s with sw := { s.sw with sending := s.sw.sending.eraseIdx i } } : State).fwrap Fld.telPortW1_OUT_CELLS c.port 0 c.cells).unref c.id)
         let free := fun (s : State) => if s.egressFree c.port then s.modesTake c.port else s
         ((c.port < 64 ∨ 96 ≤ c.port) → exec (.packetTransmitDone i) s = .next (free { s1 with delivered := s1.delivered ++ [(c.port, c.pkt)] })) ∧
         (64 ≤ c.port → c.port < 96 → (s.lk (64 + c.link)).txq.any (fun f => f.copy == c.id) = false → exec (.packetTransmitDone i) s = .next (free s1))) ∧
       (∀ l, s.fget Fld.hubLink_STATE l = Hub.hold → (tblGet ({} : HoldTime) s.sw.holdT l).deadline ≤ s.now → s.soon (retrains l) = false →
         exec (.holdDeadline l) s = .next (((s.freeHold l 0).lkMod (64 + l) (Lnk.discard true)).hubSet l Hub.down))) ∧
  ((∀ (s : State) (die : Nat), tblGet [] s.sw.fifos die ≠ [] → s.fget Fld.hubMirringCtrl_EN ≠ 0 → s.sharedFree 1 ≠ 0 →
       let q := tblGet [] s.sw.fifos die
       let ok := s.mirAccept (q.take 4) s.sw.mirNext
       let sw : SwSt := { s.sw with
         fifos := tblPut s.sw.fifos die (q.drop 4)
         mirNext := (s.sw.mirNext + ok.length) % 2 ^ 32
         bursts := s.sw.bursts ++ (if ok.isEmpty then [] else [{ first := s.sw.mirNext, recs := ok }]) }
       let s1 : State := { s with sw := sw }
       exec (.mirrorBurstWrite die) s = .next ((if ok.isEmpty then s1 else s1.mirrorCell).fsat Fld.hubMirringLost_LOST 0 0 ((q.take 4).length - ok.length))) ∧
     (∀ (s : State) (b : MirBurst) (t : List MirBurst), s.sw.bursts = b :: t → exec .mirrorBurstDone s =
       .next (((({ s with sw := { s.sw with bursts := t } } : State).fdec Fld.hubBufstat_USED 1 0 1).mirStore b.first b.recs).fset Fld.hubMirringTail_TAIL 0 0 ((b.first + b.recs.length) % 2 ^ 32))) ∧
     (∀ (s : State) (size wrap : Nat), s.bound = false → size ≤ 14 → wrap < 2 → s.mirRingOk size = true → s.fget Fld.hubMirringCtrl_EN ≠ 1 →
       exec (.mirrorRingEnable (2 ^ 31 + wrap * 2 ^ 30 + size)) s =
         .next (((s.fset Fld.hubMirringCtrl_SIZE 0 0 size).fset Fld.hubMirringCtrl_WRAP 0 0 wrap).fset Fld.hubMirringCtrl_EN 0 0 1).mirRestart))


end

section
open Sys2Proof Sys2Proof.Machine Sys2Proof.Claims

/-- R116: a commit that the ring takes moves TAIL, and only one within its size; a refused one of the host is counted. R98, R110: a free engine resumes a released
descriptor first, else takes the item at the ring's head, claims its CRC channel (R126) and runs it where it passes R115, and otherwise fails it with BAD_PARAM and a
record of CAUSE 0x08. R96: a segment is issued, and what it leaves settled. R121, R122: an item whose segments are all done completes OK, and one with a final fault
with its status and record. R97: a descriptor with a restartable fault parks, and its ring is HELD. The readings that it rests on are the model's own: log entries 3, 11,
33 and 35. -/
def Obligations.RingsCommitStartParkAndComplete : Prop :=
  ∀ (s : State) (n : Nat),
    (∀ r tail bar s1, s.ringCommit n r tail = some s1 → exec (.ringCommit n r tail bar) s = .next s1) ∧
    (∀ r tail, s.ringCommit n r tail = none → exec (.ringCommit n r tail true) s = .next (s.fsat Fld.epbRingRej_REJ n 0 1)) ∧
    (∀ r tail s1, s.ringCommit n r tail = some s1 → s1 = s.fset Fld.epbRingTail_TAIL n r tail ∧
      (tail + 2 ^ 32 - s.ringTail n r) % 2 ^ 32 + (s.ringTail n r + 2 ^ 32 - s.ringLow n r) % 2 ^ 32 ≤ s.ringSize n r) ∧
    (∀ e r ext, (List.range 8).find? (fun e => (tblFind (s.epbAt n).engines e).isNone) = some e → s.nextRing n ext = some r →
      (∀ p, s.ringResumable n r = true → (s.epbAt n).resumes.find? (fun p => p.mover.ring == r && !p.mover.ni) = some p →
        let go := fun (x : Epb) => { x with engines := tblPut x.engines e p.restart, lastRing := r, resumes := delFirst (fun q => decide (q = p)) x.resumes }
        exec (.engineStart n ext false) s = .next (((s.epbMod n go).ringShow n r).settleErr)) ∧
      (∀ w, s.ringResumable n r = false → s.headItem n r ext = some (some w) →
        let idx := s.ringFetch n r
        let s1 := (s.internalTouch (s.itemGfa n r (64 * (idx % s.ringSize n r))) 64).fwrap Fld.epbRingFetch_FETCH n r 1
        let m : Mover := { ring := r, index := idx, fas := s.fget Fld.epbRingCfg_FAS n r, words := w,
                           posted := bit (s.rd .epbTileCompat n) r && (bits (wordAt w 0) 63 60 == 1 || bits (wordAt w 0) 63 60 == 2) }
        let put := fun (s : State) (m : Mover) => (s.epbMod n (fun x => { x with engines := tblPut x.engines e m, lastRing := r })).ringShow n r
        ∀ m2 s2, s1.moverClaim n m = (m2, s2) →
          (descOk m2 = true → exec (.engineStart n ext false) s = .next (put s2 m2).settleErr) ∧
          (∀ id s3, descOk m2 = false → s2.faultRec n { cause := 0x08, status := TStat.badParam, actor := 1, fas := m2.fas, context := m2.context e } = (id, s3) →
            exec (.engineStart n ext false) s = .next (put s3 { m2 with failed := some TStat.badParam, record := id }).settleErr))) ∧
    (∀ e xs xd, exec (.segmentIssue n e xs xd) s = .next ((s.segmentIssue n e xs xd).settle n e)) ∧
    (∀ e m, tblFind (s.epbAt n).engines e = some m →
      let free := fun (s : State) => (s.epbMod n (fun x => { x with engines := tblDel x.engines e })).ringShow n m.ring
      (m.toFail = false → m.allDone = true → m.crcLost = false → exec (.itemComplete n e) s = .next (free (s.itemEnd n e m TStat.ok 0 false))) ∧
      (∀ st id s1, m.toFail = true → s.moverFault n e m = (st, id, s1) → exec (.itemComplete n e) s = .next (free (s1.itemEnd n e m st id true))) ∧
      (∀ p s1, m.toPark = true → s.ringParks n m.ring < 8 → s.moverPark n e m = (p, s1) →
        let s2 := s1.epbMod n (fun x => { x with engines := tblDel x.engines e, parks := x.parks ++ [p] })
        exec (.descriptorPark n e) s =
          .next ((if s2.ringState n m.ring = RingSt.run then s2.fset Fld.epbRingStat_STATE n m.ring RingSt.held else s2).ringShow n m.ring)))

/-- R278, R287: ARM of an idle entry that passes its checks arms it, and it fires at once where its threshold is met; any other ARM is not applied. DISARM returns an ARMED,
QUEUED or FAILED entry to IDLE, and changes no other. R271: an addition moves a counter. R272, R273: an operation starts while fewer than NI_MAX run, resumed ones first;
a NOP completes at once. R274: it ends OK, fails, or parks. R277: its watchdog fails it with TIMEOUT and a record. The readings that it rests on are the model's own: log
entries 34, 35 and 68. -/
def Obligations.TriggeredOperationsArmRunAndEnd : Prop :=
  ∀ (s : State) (n i : Nat), n < 64 → i < 1024 →
    (s.toArmOk n i = true → exec (.toArm n i) s =
      .next (((s.fset Fld.epbToW7_STATE n i ToSt.armed).epbMod n (fun e => { e with wdStart := tblDel e.wdStart i })).toFire n i)) ∧
    (s.toArmOk n i = false → exec (.toArm n i) s = .next s) ∧
    ((s.toState n i = ToSt.armed ∨ s.toState n i = ToSt.queued) → exec (.toDisarm n i) s = .next (((s.fset Fld.epbToW7_STATE n i ToSt.idle).epbMod n
      (fun e => { e with fireq := e.fireq.filter (· != i), wdStart := tblDel e.wdStart i })).niStat n)) ∧
    (s.toState n i = ToSt.failed → exec (.toDisarm n i) s = .next ((((s.fdec Fld.epbNiStat_FAILED n 0 1).fset Fld.epbToW7_STATE n i ToSt.idle).epbMod n
      (fun e => { e with fireq := e.fireq.filter (· != i), wdStart := tblDel e.wdStart i })).niStat n)) ∧
    ((s.toState n i = ToSt.running ∨ s.toState n i = ToSt.parked ∨ s.toState n i = ToSt.idle) → exec (.toDisarm n i) s = .next s) ∧
    (∀ c v, c < 256 → exec (.nctrAdd n c v) s = .next (s.ctrAdd n c (v % 2 ^ 32))) ∧
    (∀ p, s.niRoom n = true → (s.epbAt n).resumes.find? (fun p => p.mover.ni) = some p → 
      let go := fun (e : Epb) => { e with niRun := tblPut e.niRun p.mover.index p.restart, resumes := delFirst (fun q => decide (q = p)) e.resumes }
      exec (.triggeredOpStart n false) s = .next (((s.epbMod n go).niStat n).settleErr)) ∧
    (∀ t, s.niRoom n = true → (s.epbAt n).resumes.find? (fun p => p.mover.ni) = none → (s.epbAt n).fireq = i :: t →
      let s1 := s.epbMod n (fun e => { e with fireq := t })
      let m := s1.toMover n i
      let s2 := (s1.fset Fld.epbToW7_STATE n i ToSt.running).fwrap Fld.epbToW6_FIRED n i 1
      (bits (s1.toWord n i 0) 63 60 = 0 → exec (.triggeredOpStart n false) s = .next (s2.toOk n i).settleErr) ∧
      (bits (s1.toWord n i 0) 63 60 ≠ 0 → m.mcr = none → exec (.triggeredOpStart n false) s =
        .next (((s2.epbMod n (fun e => { e with niRun := tblPut e.niRun i m })).niStat n).settleErr))) ∧
    (s.niRoom n = false → exec (.triggeredOpStart n false) s = .next s.settleErr) ∧
    (∀ m, tblFind (s.epbAt n).niRun i = some m →
      (∀ st id s1, m.toFail = true → s.moverFault n (i + 8) m = (st, id, s1) → exec (.triggeredOpComplete n i) s = .next (s1.toFail n i st)) ∧
      (m.toFail = false → m.allDone = true → exec (.triggeredOpComplete n i) s = .next (s.toOk n i)) ∧
      (∀ p s1, m.toFail = false → m.allDone = false → m.toPark = true → s.ringParks n m.ring < 8 → s.moverPark n (i + 8) m = (p, s1) →
        exec (.triggeredOpComplete n i) s = .next ((((s1.epbMod n (fun e => { e with niRun := tblDel e.niRun i, parks := e.parks ++ [p] })).fset
          Fld.epbToW7_STATE n i ToSt.parked).ringShow n m.ring).niStat n))) ∧
    (∀ t, s.toState n i = ToSt.armed → s.fget Fld.epbToW0_WD_EN n i = 1 → tblFind (s.epbAt n).wdStart i = some t →
      t + us (s.fget Fld.epbNiCtrl_WDOG n) ≤ s.now →
      let s1 := (s.stir (n / 8)).toFail n i TStat.timeout
      exec (.toWatchdog n i) s = .next (s1.errRec 2 0x12 14 (1024 * n + i)
        [s.fget Fld.epbNctrW0_COUNT n (s.fget Fld.epbToW4_WDC n i), s.fget Fld.epbToW1_THRESH n i]))

/-- R400: a PCI Express request of the host becomes a fabric request of its host port; R387: while a tenant is bound one outside its reach is refused, with CAUSE 0x05; one
for no target is refused with CAUSE 0x07 (R89). R104: Unsupported Request, Completer Abort and a Completion Timeout answer the fabric request they belong to NACK with FAULT
and CAUSE 0x12; R131: a good completion answers it. The readings that it rests on are the model's own: log entry 12. -/
def Obligations.HostPortsIssueAndAnswer : Prop :=
  ∀ (s : State) (h id : Nat), h < 2 →
    (∀ typ gfa len relaxed payload, s.hostUp h = true → (typ = 0x01 ∨ typ = 0x02 ∨ typ = 0x0B) →
      let r := hostFabricReq h id typ gfa len relaxed payload
      ((s.bound = false ∨ hostReachOk gfa = true) → isTarget (gfaE gfa) = true → operandOk typ (gfaOff gfa) len 0 0 0 payload.length = true →
        endpointOk typ gfa = true → exec (.hostPcieRequest h id typ gfa len relaxed payload) s = .next (s.submit (120 + h) r)) ∧
      (s.bound = true → hostReachOk gfa = false →
        exec (.hostPcieRequest h id typ gfa len relaxed payload) s = .next (s.refuseReq (120 + h) r 0x05 TStat.fault)) ∧
      ((s.bound = false ∨ hostReachOk gfa = true) → isTarget (gfaE gfa) = false →
        exec (.hostPcieRequest h id typ gfa len relaxed payload) s = .next (s.refuseReq (120 + h) r 0x07 TStat.fault))) ∧
    (∀ t, s.host.tgts.find? (fun t => t.hp == h && t.id == id) = some t →
      let s1 : State := { s with host := { s.host with tgts := delFirst (fun x => x == t) s.host.tgts } }
      let p := t.pkt
      (∀ poison data, exec (.hostCompletion h id false poison data) s = .next (s1.targetFault (120 + h) p 0x12 7 0 none 0)) ∧
      exec (.hostCompletionTimeout h id) s = .next (s1.targetFault (120 + h) p 0x12 7 0 none 0) ∧
      (∀ data, (p.typ = 0x01 ∨ p.typ = 0x08) → exec (.hostCompletion h id true false data) s =
        .next (s1.respond p (120 + h) Ty.loadRsp TStat.ok false (data.take (p.len + 1)))) ∧
      (∀ data, (p.typ = 0x02 ∨ p.typ = 0x09) → exec (.hostCompletion h id true false data) s = .next (s1.respond p (120 + h) Ty.ack TStat.ok false [])) ∧
      (∀ data, p.typ = 0x03 → exec (.hostCompletion h id true false data) s =
        .next (s1.respond p (120 + h) Ty.atomicRsp TStat.ok false (data.take (p.len + 1)))))

end

namespace Sys2Proof.Claims
open Sys2Proof Sys2Proof.Machine

/-- A packet as it crosses a link: its fields fit their widths, its payload has the length that its header gives, and it carries no mark of the model's own. -/
def OnTheWire (p : Packet) : Prop :=
  p.wf = true ∧ p.route < 2 ^ 60 ∧ p.payload.length = payloadLen p ∧ p.posted = false ∧ p.mute = false

end Sys2Proof.Claims

section
open Sys2Proof Sys2Proof.Machine Sys2Proof.Claims

/-- A step takes the command at the front of the queue and runs it with the queue's rest. On an empty queue, which is the model's choice (log entry 1), one
CORE_CLK cycle passes. -/
def Obligations.StepRunsTheFrontCommand : Prop :=
  (∀ (s : State) (c : Instr) (rest : List Instr), s.pending = c :: rest → step s = exec c { s with pending := rest }) ∧
  (∀ s : State, s.pending = [] → step s = .next s.tick ∧ s.tick.now = s.now + 1)

/-- R465, R506: the state after power is applied. Every register reads its Reset value, every byte of memory reads 0, no command waits, nothing has been put out, no tag
is outstanding, no packet stands at a unit, every line is good, PKG_RESET_N is asserted and no unit is held. Values that the spec does not give are the model's choice
(log entries 2, 4 and 5). -/
def Obligations.ResetHoldsTheResetValues : Prop :=
  (∀ (r : RegName) (i j : Nat), State.reset.rd r i j = regReset r i j) ∧ (∀ a n : Nat, State.reset.load a n = List.replicate n 0) ∧
    State.reset.pending = [] ∧ State.reset.out = [] ∧ State.reset.tags = [] ∧ State.reset.delivered = [] ∧ State.reset.lines = [] ∧
    State.reset.boot.inReset = true ∧ State.reset.boot.held = [] ∧ State.reset.Settled

/-- The only command at which the block stops is an open private JTAG instruction: every other one is answered by a next state, in every state, and so is that one where it is not open. -/
def Obligations.OnlyPrivateJtagStops : Prop :=
  ∀ (i : Instr) (s : State),
    (∀ code, i = .privateInstruction code → ¬ (s.fget Fld.klnState_DEBUG_OPEN = 1 ∧ 0x80 ≤ code ∧ code ≤ 0xFE)) → Outcome.goesOn (exec i s)

/-- Every step keeps the state settled: the memory stays in its canonical form and no record of an armable code is left waiting; and it takes exactly the front
command from the queue. -/
def Obligations.StepsKeepTheStateSettled : Prop :=
  ∀ s t : State, s.Settled → step s = .next t → t.Settled ∧ t.pending = s.pending.tail

/-- R20: the header words of a packet hold each field at its bits, and zeros in the reserved bits; and the bytes of its cells, padded as they may be, spell the
same packet at the far end of an optical link. -/
def Obligations.PacketHeadersHoldTheirFields : Prop :=
  ∀ p : Packet, OnTheWire p →
    (∃ w0 w1 w2 w3 : Sys2Proof.Word, headerWords p = [w0, w1, w2, w3] ∧
      bits w0 63 58 = p.typ ∧ bits w0 57 55 = p.vc ∧ bits w0 54 52 = p.tc ∧ bits w0 51 48 = p.flow ∧ bits w0 47 46 = p.dclass ∧ bits w0 45 44 = p.cmark ∧
      bit w0 43 = p.poison ∧ bit w0 42 = p.order ∧ bits w0 41 38 = p.status ∧ bits w0 37 32 = p.ksel ∧ bits w0 31 20 = p.fas ∧ bits w0 19 4 = p.tag ∧
      bits w0 3 0 = p.fmt ∧ w1.toNat = p.addr ∧ bits w2 63 60 = p.sx ∧ bits w2 59 56 = p.sy ∧ bits w2 55 52 = p.sp ∧ bits w2 51 45 = p.se ∧
      bits w2 44 29 = p.fence ∧ bits w2 28 21 = p.role ∧ bits w2 20 18 = p.hopidx ∧ bits w2 17 15 = p.hopcnt ∧ bits w2 14 13 = p.rop ∧
      bits w2 12 1 = p.len ∧ bit w2 0 = false ∧ bits w3 63 60 = 0 ∧ bits w3 59 0 = p.route) ∧
    ∀ pad : List Sys2Proof.Byte, packetOfBytes (bytesOfWords (headerWords p) ++ (p.payload ++ pad)) = p

end
end

