-- ==== Sys2Proof/Laws/Bytes.lean ====
section
/-! SUPPORT. Laws of byte strings and of bit fields: lengths, and what is read back of a number or of words laid out as bytes. -/

namespace Sys2Proof

@[simp] theorem toBytes_length (n v : Nat) : (toBytes n v).length = n := by
  induction n generalizing v with
  | zero => rfl
  | succ n ih => simp [toBytes, ih]

theorem ofBytes_toBytes (n v : Nat) : ofBytes (toBytes n v) = v % 256 ^ n := by
  induction n generalizing v with
  | zero => simp [toBytes, ofBytes, Nat.mod_one]
  | succ n ih =>
    have e : 256 ^ (n + 1) = 256 * 256 ^ n := by rw [Nat.pow_succ, Nat.mul_comm]
    simp only [toBytes, ofBytes, ih, BitVec.toNat_ofNat, Nat.reducePow]
    rw [e, Nat.mod_mul]

theorem ofBytes_toBytes_of_lt (n v : Nat) (h : v < 256 ^ n) : ofBytes (toBytes n v) = v := by rw [ofBytes_toBytes, Nat.mod_eq_of_lt h]

theorem toBytes_ofBytes (l : List Byte) : toBytes l.length (ofBytes l) = l := by
  induction l with
  | nil => rfl
  | cons b t ih =>
    have hb : b.toNat < 256 := b.isLt
    have h1 : (b.toNat + 256 * ofBytes t) / 256 = ofBytes t := by omega
    simp only [List.length_cons, toBytes, ofBytes, h1, ih]
    congr 1
    apply BitVec.eq_of_toNat_eq
    simp only [BitVec.toNat_ofNat]
    omega

theorem ofBytes_lt (l : List Byte) : ofBytes l < 256 ^ l.length := by
  induction l with
  | nil => simp [ofBytes]
  | cons b t ih =>
    have hb : b.toNat < 256 := b.isLt
    simp only [ofBytes, List.length_cons, Nat.pow_succ]
    omega

theorem ofBytes_append (l m : List Byte) : ofBytes (l ++ m) = ofBytes l + 256 ^ l.length * ofBytes m := by
  induction l with
  | nil => simp [ofBytes]
  | cons b t ih => simp only [List.cons_append, ofBytes, ih, List.length_cons, Nat.pow_succ, Nat.mul_add, Nat.mul_assoc, Nat.mul_comm]; omega

@[simp] theorem wordBytes_length (w : Word) : (wordBytes w).length = 8 := toBytes_length 8 _

@[simp] theorem bytesOfWords_length (l : List Word) : (bytesOfWords l).length = 8 * l.length := by
  induction l with
  | nil => rfl
  | cons w t ih =>
    have e : bytesOfWords (w :: t) = wordBytes w ++ bytesOfWords t := rfl
    rw [e, List.length_append, ih, wordBytes_length, List.length_cons]; omega

theorem bytesOfWords_cons (w : Word) (t : List Word) : bytesOfWords (w :: t) = wordBytes w ++ bytesOfWords t := rfl

/-- Words laid out as bytes are read back. -/
theorem wordsOf_bytesOfWords (l : List Word) (m : List Byte) : wordsOf l.length (bytesOfWords l ++ m) = l := by
  induction l with
  | nil => rfl
  | cons w t ih =>
    rw [bytesOfWords_cons, List.append_assoc, List.length_cons, wordsOf]
    have h : (wordBytes w).length = 8 := wordBytes_length w
    have e1 : (wordBytes w ++ (bytesOfWords t ++ m)).take 8 = wordBytes w := by rw [← h, List.take_left']; rfl
    have e2 : (wordBytes w ++ (bytesOfWords t ++ m)).drop 8 = bytesOfWords t ++ m := by rw [← h, List.drop_left']; rfl
    have e3 : ofBytes (wordBytes w) = w.toNat := ofBytes_toBytes_of_lt 8 w.toNat (by have := w.isLt; simpa using this)
    have e4 : BitVec.ofNat 64 w.toNat = w := by apply BitVec.eq_of_toNat_eq; simp
    rw [e1, e2, e3, e4, ih]

theorem drop_bytesOfWords (l : List Word) (m : List Byte) (n : Nat) (h : n = 8 * l.length) : (bytesOfWords l ++ m).drop n = m := by
  subst h; rw [← bytesOfWords_length l, List.drop_left']; rfl

/-- A field that lies between others of a sum. -/
theorem bits_ofNat (v hi lo : Nat) (h : v < 2 ^ 64) : bits (BitVec.ofNat 64 v) hi lo = v / 2 ^ lo % 2 ^ (hi + 1 - lo) := by
  rw [bits, BitVec.toNat_ofNat, Nat.mod_eq_of_lt h, Nat.shiftRight_eq_div_pow]

end Sys2Proof
end

