-- ==== Sys2Proof/Laws/Table.lean ====
section
/-! SUPPORT. Laws of sparse tables, of registers and their fields, and of memory: read after write, the canonical form. -/

namespace Sys2Proof.Machine
open Sys2Proof

/-! ### Tables -/

theorem tblFind_put_same {α : Type} (t : Tbl α) (q : Nat) (x : α) : tblFind (tblPut t q x) q = some x := by
  induction t with
  | nil => simp [tblPut, tblFind]
  | cons e t ih =>
    obtain ⟨k, v⟩ := e
    unfold tblPut
    split
    · simp [tblFind]
    · split
      · simp [tblFind]
      · simp [tblFind, *]

theorem tblFind_put_other {α : Type} (t : Tbl α) (q r : Nat) (x : α) (h : r ≠ q) : tblFind (tblPut t q x) r = tblFind t r := by
  induction t with
  | nil => simp [tblPut, tblFind, h]
  | cons e t ih =>
    obtain ⟨k, v⟩ := e
    unfold tblPut
    split
    · subst k; simp [tblFind, h]
    · split
      · simp [tblFind, h]
      · simp only [tblFind, ih]

/-- Reading a table after a write. -/
theorem tblFind_put {α : Type} (t : Tbl α) (q r : Nat) (x : α) : tblFind (tblPut t q x) r = if r = q then some x else tblFind t r := by
  by_cases h : r = q
  · subst h; simp [tblFind_put_same]
  · simp [tblFind_put_other _ _ _ _ h, h]

@[simp] theorem tblGet_put {α : Type} (d : α) (t : Tbl α) (q r : Nat) (x : α) :
    tblGet d (tblPut t q x) r = if r = q then x else tblGet d t r := by
  simp only [tblGet, tblFind_put]; split <;> rfl

@[simp] theorem tblGet_mod {α : Type} (d : α) (t : Tbl α) (q r : Nat) (f : α → α) :
    tblGet d (tblMod d t q f) r = if r = q then f (tblGet d t q) else tblGet d t r := by
  simp [tblMod]

theorem tblFind_del {α : Type} (t : Tbl α) (q r : Nat) : tblFind (tblDel t q) r = if r = q then none else tblFind t r := by
  unfold tblDel
  induction t with
  | nil => simp [tblFind]
  | cons e t ih =>
    obtain ⟨k, v⟩ := e
    simp only [List.filter_cons]
    by_cases hk : k = q
    · subst hk; simp [ih, tblFind]; split <;> simp_all
    · simp [hk, tblFind, ih]; split <;> simp_all

/-! ### Registers -/

/-- A register reads what was last written at its address. -/
@[simp] theorem State.rd_wr (s : State) (r q : RegName) (i j k l : Nat) (w : Word) :
    (s.wr r i j w).rd q k l = if regAddr q k l = regAddr r i j then w else s.rd q k l := by
  simp only [State.rd, State.wr, tblGet, tblFind_put]; split <;> rfl

/-- A field write writes its register with the field replaced. -/
theorem State.rd_fset (s : State) (f : Fld) (q : RegName) (i j k l v : Nat) :
    (s.fset f i j v).rd q k l = if regAddr q k l = regAddr f.reg i j then setBits (s.rd f.reg i j) f.hi f.lo v else s.rd q k l := by
  simp [State.fset]

/-- A field of a register at another address keeps its value. -/
theorem State.fget_fset_other (s : State) (f g : Fld) (i j k l v : Nat) (h : regAddr g.reg k l ≠ regAddr f.reg i j) :
    (s.fset f i j v).fget g k l = s.fget g k l := by
  simp [State.fget, State.rd_fset, h]

/-- The bits of a replaced field. -/
theorem bits_setBits_same (w : Word) (hi lo v : Nat) (h : lo ≤ hi) (h63 : hi < 64) : bits (setBits w hi lo v) hi lo = v % 2 ^ (hi + 1 - lo) := by
  have hw := w.isLt
  have hsum : hi + 1 = lo + (hi + 1 - lo) := by omega
  generalize hn : hi + 1 - lo = n at *
  have key : w.toNat - w.toNat / 2 ^ lo % 2 ^ n * 2 ^ lo + v % 2 ^ n * 2 ^ lo =
      (w.toNat / 2 ^ lo / 2 ^ n * 2 ^ n + v % 2 ^ n) * 2 ^ lo + w.toNat % 2 ^ lo := by
    have h1 := Nat.div_add_mod w.toNat (2 ^ lo)
    have h2 := Nat.div_add_mod (w.toNat / 2 ^ lo) (2 ^ n)
    generalize w.toNat / 2 ^ lo / 2 ^ n = a at *
    generalize w.toNat / 2 ^ lo % 2 ^ n = b at *
    generalize w.toNat % 2 ^ lo = c at *
    rw [← h1, ← h2]
    have e1 : 2 ^ lo * (2 ^ n * a + b) + c - b * 2 ^ lo = 2 ^ lo * (2 ^ n * a) + c := by
      rw [Nat.mul_add, Nat.mul_comm b]; omega
    rw [e1, Nat.add_mul, Nat.mul_comm (2 ^ lo), Nat.mul_comm a]
    omega
  have hlt : w.toNat - bits w hi lo * 2 ^ lo + v % 2 ^ (hi + 1 - lo) * 2 ^ lo < 2 ^ 64 := by
    have hm : v % 2 ^ n < 2 ^ n := Nat.mod_lt _ (Nat.two_pow_pos n)
    have hc : w.toNat % 2 ^ lo < 2 ^ lo := Nat.mod_lt _ (Nat.two_pow_pos lo)
    have ha : w.toNat / 2 ^ lo / 2 ^ n < 2 ^ (64 - lo - n) := by
      rw [Nat.div_div_eq_div_mul, ← Nat.pow_add]
      apply Nat.div_lt_of_lt_mul
      rw [← Nat.pow_add]
      have : lo + n + (64 - lo - n) = 64 := by omega
      rw [this]; exact hw
    simp only [bits, hn, Nat.shiftRight_eq_div_pow]
    rw [key]
    generalize w.toNat / 2 ^ lo / 2 ^ n = a at *
    have hp : (a * 2 ^ n + v % 2 ^ n) < 2 ^ (64 - lo) := by
      have e : 2 ^ (64 - lo) = 2 ^ (64 - lo - n) * 2 ^ n := by rw [← Nat.pow_add]; congr 1; omega
      rw [e]
      calc a * 2 ^ n + v % 2 ^ n < a * 2 ^ n + 2 ^ n := by omega
        _ = (a + 1) * 2 ^ n := by rw [Nat.add_mul]; omega
        _ ≤ _ := Nat.mul_le_mul_right _ ha
    have e : (2 : Nat) ^ 64 = 2 ^ (64 - lo) * 2 ^ lo := by rw [← Nat.pow_add]; congr 1; omega
    rw [e]
    calc (a * 2 ^ n + v % 2 ^ n) * 2 ^ lo + w.toNat % 2 ^ lo < (a * 2 ^ n + v % 2 ^ n) * 2 ^ lo + 2 ^ lo := by omega
      _ = (a * 2 ^ n + v % 2 ^ n + 1) * 2 ^ lo := by rw [Nat.add_mul _ 1]; omega
      _ ≤ _ := Nat.mul_le_mul_right _ hp
  have e2 : (setBits w hi lo v).toNat = w.toNat - bits w hi lo * 2 ^ lo + v % 2 ^ (hi + 1 - lo) * 2 ^ lo := by
    simp only [setBits, BitVec.toNat_ofNat]; exact Nat.mod_eq_of_lt hlt
  rw [bits, e2, hn]
  simp only [bits, hn, Nat.shiftRight_eq_div_pow]
  rw [key]
  have hc : w.toNat % 2 ^ lo < 2 ^ lo := Nat.mod_lt _ (Nat.two_pow_pos lo)
  rw [Nat.mul_comm _ (2 ^ lo), Nat.mul_add_div (Nat.two_pow_pos lo), Nat.div_eq_of_lt hc, Nat.add_zero, Nat.mul_comm _ (2 ^ n), Nat.mul_add_mod, Nat.mod_mod]

/-- A field reads what was last written to it, cut to its width. -/
theorem State.fget_fset_same (s : State) (f : Fld) (i j v : Nat) (h : f.lo ≤ f.hi) (h63 : f.hi < 64) :
    (s.fset f i j v).fget f i j = v % 2 ^ f.width := by
  simp [State.fget, State.rd_fset, bits_setBits_same _ _ _ _ h h63, Fld.width]

/-! ### Memory -/

theorem tblFind_below (m : List Host.Cell) (lo c : Nat) (h : memAbove lo m = true) (hc : c < lo) : tblFind m c = none := by
  induction m generalizing lo with
  | nil => rfl
  | cons e t ih =>
    obtain ⟨k, v⟩ := e
    simp only [memAbove, Bool.and_eq_true, decide_eq_true_eq] at h
    simp only [tblFind]
    rw [if_neg (by omega)]
    exact ih (k + 1) h.2 (by omega)

theorem memAbove_mono (m : List Host.Cell) (lo lo' : Nat) (h : memAbove lo m = true) (hl : lo' ≤ lo) : memAbove lo' m = true := by
  cases m with
  | nil => rfl
  | cons e t =>
    obtain ⟨k, v⟩ := e
    simp only [memAbove, Bool.and_eq_true, decide_eq_true_eq] at h ⊢
    exact ⟨⟨by omega, h.1.2⟩, h.2⟩

/-- Reading a byte after a write of one byte. -/
theorem memGet_put_of (m : List Host.Cell) (lo a b : Nat) (x : Byte) (h : memAbove lo m = true) :
    memGet (memPut m a x) b = if b = a then x else memGet m b := by
  induction m generalizing lo with
  | nil =>
    simp only [memPut, memGet, tblGet]
    by_cases hx : x = memDflt <;> by_cases hb : b = a <;> simp [tblFind, hx, hb]
  | cons e t ih =>
    obtain ⟨k, v⟩ := e
    simp only [memAbove, Bool.and_eq_true, decide_eq_true_eq] at h
    obtain ⟨⟨_, _⟩, h3⟩ := h
    have hn := tblFind_below t (k + 1) k h3 (by omega)
    have ih' := ih (k + 1) h3
    simp only [memGet, tblGet] at ih' ⊢
    unfold memPut
    by_cases hak : a = k
    · subst hak
      by_cases hx : x = memDflt
      · by_cases hb : b = a <;> simp [hx, hb, tblFind, hn]
      · by_cases hb : b = a <;> simp [hx, hb, tblFind]
    · by_cases hlt : a < k
      · have hnb := tblFind_below t (k + 1) a h3 (by omega)
        by_cases hx : x = memDflt
        · by_cases hb : b = a <;> simp [hak, hlt, hx, hb, tblFind, hnb]
        · by_cases hb : b = a <;> simp [hak, hlt, hx, hb, tblFind]
      · simp only [hak, hlt, if_false, tblFind]
        by_cases hbk : b = k
        · have : ¬ k = a := fun e => hak e.symm
          simp [hbk, this]
        · simp only [hbk, if_false]
          exact ih'

theorem memGet_put (m : List Host.Cell) (a b : Nat) (x : Byte) (h : Memory.wf m = true) :
    memGet (memPut m a x) b = if b = a then x else memGet m b := memGet_put_of m 0 a b x h

theorem memAbove_put (m : List Host.Cell) (lo a : Nat) (x : Byte) (h : memAbove lo m = true) (ha : lo ≤ a) : memAbove lo (memPut m a x) = true := by
  induction m generalizing lo with
  | nil =>
    unfold memPut
    split
    · rfl
    · simp [memAbove, *]
  | cons e t ih =>
    obtain ⟨k, v⟩ := e
    have h' := h
    simp only [memAbove, Bool.and_eq_true, decide_eq_true_eq] at h
    obtain ⟨⟨h1, h2⟩, h3⟩ := h
    unfold memPut
    by_cases hak : a = k
    · subst hak
      by_cases hx : x = memDflt
      · simp only [hx, if_true]; exact memAbove_mono t (a + 1) lo h3 (by omega)
      · simp [hx, memAbove, ha, h3]
    · by_cases hlt : a < k
      · by_cases hx : x = memDflt
        · simp [hak, hlt, hx, h']
        · simp only [hak, hlt, hx, if_true, if_false, memAbove, Bool.and_eq_true, decide_eq_true_eq]
          exact ⟨⟨ha, hx⟩, ⟨by omega, h2⟩, h3⟩
      · simp only [hak, hlt, if_false, memAbove, Bool.and_eq_true, decide_eq_true_eq]
        exact ⟨⟨h1, h2⟩, ih (k + 1) h3 (by omega)⟩

/-- A byte write keeps the canonical form. -/
theorem memPut_wf (m : List Host.Cell) (a : Nat) (x : Byte) (h : Memory.wf m = true) : Memory.wf (memPut m a x) = true :=
  memAbove_put m 0 a x h (Nat.zero_le _)

/-- A store keeps the canonical form. -/
theorem memWrite_wf (m : List Host.Cell) (a : Nat) (l : List Byte) (h : Memory.wf m = true) : Memory.wf (memWrite m a l) = true := by
  induction l generalizing m a with
  | nil => exact h
  | cons b t ih => exact ih (memPut m a b) (a + 1) (memPut_wf m a b h)

/-- A byte read after a store: the stored byte inside it, the earlier byte outside. -/
theorem memGet_write (m : List Host.Cell) (a b : Nat) (l : List Byte) (h : Memory.wf m = true) :
    memGet (memWrite m a l) b = if a ≤ b ∧ b < a + l.length then l.getD (b - a) 0 else memGet m b := by
  induction l generalizing m a with
  | nil => simp only [memWrite, List.length_nil]; rw [if_neg (by omega)]
  | cons x t ih =>
    simp only [memWrite, List.length_cons]
    rw [ih (memPut m a x) (a + 1) (memPut_wf m a x h), memGet_put m a b x h]
    by_cases hb : b = a
    · subst hb
      rw [if_neg (by omega), if_pos rfl, if_pos (by omega), Nat.sub_self]; rfl
    · by_cases hin : a + 1 ≤ b ∧ b < a + 1 + t.length
      · rw [if_pos hin, if_pos (by omega)]
        obtain ⟨k, hk⟩ : ∃ k, b - a = k + 1 := ⟨b - a - 1, by omega⟩
        have hk' : b - (a + 1) = k := by omega
        rw [hk, hk', List.getD_cons_succ]
      · rw [if_neg hin, if_neg hb, if_neg (by omega)]

theorem memAbove_filter (m : List Host.Cell) (lo : Nat) (p : Host.Cell → Bool) (h : memAbove lo m = true) : memAbove lo (m.filter p) = true := by
  induction m generalizing lo with
  | nil => rfl
  | cons e t ih =>
    obtain ⟨k, v⟩ := e
    simp only [memAbove, Bool.and_eq_true, decide_eq_true_eq] at h
    obtain ⟨⟨h1, h2⟩, h3⟩ := h
    simp only [List.filter_cons]
    split
    · simp only [memAbove, Bool.and_eq_true, decide_eq_true_eq]; exact ⟨⟨h1, h2⟩, ih (k + 1) h3⟩
    · exact ih lo (memAbove_mono t (k + 1) lo h3 (by omega))

/-- Zeroing a range keeps the canonical form. -/
theorem memClear_wf (m : List Host.Cell) (a n : Nat) (h : Memory.wf m = true) : Memory.wf (memClear m a n) = true := memAbove_filter m 0 _ h

/-- The memory after reset has the canonical form. -/
theorem reset_memory_wf : Memory.wf State.reset.mem = true := rfl

end Sys2Proof.Machine
end

