-- ==== Sys2Proof/Laws/Keeps.lean ====
section
/-! SUPPORT. What every operation keeps: the queue of waiting commands is unchanged, the memory stays canonical, and no record of an armable code is
left waiting. One lemma for each operation, used by the lemmas of those that call it. -/

namespace Sys2Proof.Machine
open Sys2Proof

/-- `t` has the queue of `s`, a canonical memory if `s` has one, and, where `q` holds, no waiting record if `s` has none. -/
def Keeps (q : Bool) (s t : State) : Prop := t.pending = s.pending ∧ (Memory.wf s.mem = true → Memory.wf t.mem = true) ∧ (q = true → s.err.later = [] → t.err.later = [])

/-- `Keeps` of the state of a pair, of an optional state, of an answer and of a result. -/
def KeepsR {α : Type} (q : Bool) (a : State) (p : α × State) : Prop := Keeps q a p.2
def KeepsL {α : Type} (q : Bool) (a : State) (p : State × α) : Prop := Keeps q a p.1
def KeepsRR {α β : Type} (q : Bool) (a : State) (p : α × β × State) : Prop := Keeps q a p.2.2
def KeepsO (q : Bool) (a : State) (o : Option State) : Prop := ∀ t, o = some t → Keeps q a t
def KeepsOR {α : Type} (q : Bool) (a : State) (o : Option (α × State)) : Prop := ∀ x t, o = some (x, t) → Keeps q a t
def KeepsA (q : Bool) (a : State) (r : Ans) : Prop :=
  Keeps q a r.st ∧ (∀ u, Keeps q a u → Keeps q a (r.after u)) ∧ ∀ f, r.later = some f → ∀ x u, Keeps q a u → Keeps q a (f x u)
def KeepsK (q : Bool) (a : State) (r : KAns) : Prop := Keeps q a r.st
def KeepsE (q : Bool) (a : State) (r : Emitted) : Prop := Keeps q a r.st
def KeepsRes (a : State) (r : Res) : Prop := ∀ t, r = .next t → Keeps true a t

/-- After the settling of a step no record waits. -/
theorem errSettle_later (n : Nat) : ∀ s : State, (s.errSettle n).err.later = [] := by
  induction n with
  | zero => intro s; rfl
  | succ n ih =>
    intro s; unfold State.errSettle; split
    · assumption
    · exact ih _

namespace Keeps
variable {q : Bool} {a s t : State}

theorem refl : Keeps q s s := ⟨rfl, id, fun _ h => h⟩
theorem weaken (h : Keeps true a s) : Keeps q a s := ⟨h.1, h.2.1, fun _ => h.2.2 rfl⟩
theorem ite {c : Prop} [Decidable c] (h : Keeps q a s) (k : Keeps q a t) : Keeps q a (if c then s else t) := by split <;> assumption
theorem elim {α : Type} {o : Option α} {f : α → State} (h : Keeps q a s) (k : ∀ x, Keeps q a (f x)) : Keeps q a (o.elim s f) := by
  cases o; exact h; exact k _
theorem getD {o : Option State} (h : KeepsO q a o) (k : Keeps q a s) : Keeps q a (o.getD s) := by
  cases o; exact k; exact h _ rfl
theorem foldl {α : Type} {f : State → α → State} (l : List α) (k : ∀ s x, Keeps q a s → Keeps q a (f s x)) :
    ∀ {s}, Keeps q a s → Keeps q a (l.foldl f s) := by
  induction l with
  | nil => intro s h; exact h
  | cons x l ih => intro s h; exact ih (k _ _ h)
theorem each {α : Type} {f : State → α → State} {l : List α} (h : Keeps q a s) (k : ∀ s x, Keeps q a s → Keeps q a (f s x)) :
    Keeps q a (State.each l f s) := foldl l k h
theorem ofEq (h : Keeps q a s) (hp : t.pending = s.pending) (hm : t.mem = s.mem) (hl : t.err.later = s.err.later) : Keeps q a t := by
  refine ⟨hp.trans h.1, ?_, ?_⟩
  · rw [hm]; exact h.2.1
  · rw [hl]; exact h.2.2
theorem record {now : Nat} {freeN : Nat} {regs : Tbl Word} {lines : Tbl LineSt} {out : List Out} {epb : Tbl Epb} {tags : Tbl Tag} {gens : Tbl Nat} {late : Tbl Nat} {waitq : Tbl (List
      Wait)} {serial : Nat} {fseq : Tbl Nat} {inq : Tbl (List Packet)} {delivered : List (Nat × Packet)} {cmd : CmdSt} {hbm : HbmSt} {xlat : XlatSt} {jtag :
      JtagSt} {kln : KlnSt} {lnk : LnkSt} {sw : SwSt} {opt : OptSt} {pwr : PwrSt} {sbd : SbdSt} {rick : RickSt} {rsv : RsvSt} {spn : SpnSt} {crc : CrcSt}
      {host : HostSt} {tel : TelSt} {boot : BootSt}  (h : Keeps q a s) :
    Keeps q a { now := now, freeN := freeN, regs := regs, mem := s.mem, lines := lines, out := out, epb := epb, tags := tags, gens := gens, late := late, waitq := waitq, serial := serial, fseq := fseq, inq := inq, delivered := delivered, cmd := cmd, err := s.err, hbm := hbm, xlat := xlat, jtag := jtag, kln := kln, lnk := lnk, sw := sw, opt := opt, pwr := pwr, sbd := sbd, rick := rick, rsv := rsv, spn := spn, crc := crc, host := host, tel := tel, boot := boot, pending := s.pending } := ⟨h.1, h.2.1, h.2.2⟩
theorem recordE {now : Nat} {freeN : Nat} {regs : Tbl Word} {lines : Tbl LineSt} {out : List Out} {epb : Tbl Epb} {tags : Tbl Tag} {gens : Tbl Nat} {late : Tbl Nat} {waitq : Tbl (List
      Wait)} {serial : Nat} {fseq : Tbl Nat} {inq : Tbl (List Packet)} {delivered : List (Nat × Packet)} {cmd : CmdSt} {hbm : HbmSt} {xlat : XlatSt} {jtag :
      JtagSt} {kln : KlnSt} {lnk : LnkSt} {sw : SwSt} {opt : OptSt} {pwr : PwrSt} {sbd : SbdSt} {rick : RickSt} {rsv : RsvSt} {spn : SpnSt} {crc : CrcSt}
      {host : HostSt} {tel : TelSt} {boot : BootSt} {fifos' : Tbl (List (List Word))} {seqs' : Tbl Nat} {windows' : List Window} {flaps' : Tbl (List Nat)} {destAt' : Tbl Nat} (h : Keeps q a s) :
    Keeps q a { now := now, freeN := freeN, regs := regs, mem := s.mem, lines := lines, out := out, epb := epb, tags := tags, gens := gens, late := late, waitq := waitq, serial := serial, fseq := fseq, inq := inq, delivered := delivered, cmd := cmd, err := { fifos := fifos', seqs := seqs', windows := windows', flaps := flaps', destAt := destAt', later := s.err.later }, hbm := hbm, xlat := xlat, jtag := jtag, kln := kln, lnk := lnk, sw := sw, opt := opt, pwr := pwr, sbd := sbd, rick := rick, rsv := rsv, spn := spn, crc := crc, host := host, tel := tel, boot := boot, pending := s.pending } := ⟨h.1, h.2.1, h.2.2⟩
theorem record0 {now : Nat} {freeN : Nat} {regs : Tbl Word} {lines : Tbl LineSt} {out : List Out} {epb : Tbl Epb} {tags : Tbl Tag} {gens : Tbl Nat} {late : Tbl Nat} {waitq : Tbl (List
      Wait)} {serial : Nat} {fseq : Tbl Nat} {inq : Tbl (List Packet)} {delivered : List (Nat × Packet)} {cmd : CmdSt} {hbm : HbmSt} {xlat : XlatSt} {jtag :
      JtagSt} {kln : KlnSt} {lnk : LnkSt} {sw : SwSt} {opt : OptSt} {pwr : PwrSt} {sbd : SbdSt} {rick : RickSt} {rsv : RsvSt} {spn : SpnSt} {crc : CrcSt}
      {host : HostSt} {tel : TelSt} {boot : BootSt} {fifos' : Tbl (List (List Word))} {seqs' : Tbl Nat} {windows' : List Window} {flaps' : Tbl (List Nat)} {destAt' : Tbl Nat} (h : Keeps q a s) :
    Keeps q a { now := now, freeN := freeN, regs := regs, mem := s.mem, lines := lines, out := out, epb := epb, tags := tags, gens := gens, late := late, waitq := waitq, serial := serial, fseq := fseq, inq := inq, delivered := delivered, cmd := cmd, err := { fifos := fifos', seqs := seqs', windows := windows', flaps := flaps', destAt := destAt', later := [] }, hbm := hbm, xlat := xlat, jtag := jtag, kln := kln, lnk := lnk, sw := sw, opt := opt, pwr := pwr, sbd := sbd, rick := rick, rsv := rsv, spn := spn, crc := crc, host := host, tel := tel, boot := boot, pending := s.pending } := ⟨h.1, h.2.1, fun _ _ => rfl⟩
theorem ofMem {m : List Host.Cell} (h : Keeps q a s) (hm : Memory.wf s.mem = true → Memory.wf m = true) : Keeps q a { s with mem := m } :=
  ⟨h.1, fun k => hm (h.2.1 k), h.2.2⟩
theorem settleErr (h : Keeps false a s) (k : ∀ n u, Keeps false a u → Keeps false a (State.errSettle n u)) : Keeps q a s.settleErr := by
  have := k 4096 s h
  exact ⟨this.1, this.2.1, fun _ _ => errSettle_later 4096 s⟩
end Keeps


namespace KeepsR
variable {α : Type} {q : Bool} {a s : State} {p r : α × State} {x : α}
theorem mk (h : Keeps q a s) : KeepsR q a (x, s) := h
theorem out (h : KeepsR q a p) : Keeps q a p.2 := h
theorem eq (e : p = (x, s)) (h : KeepsR q a p) : Keeps q a s := by subst e; exact h
theorem ite {c : Prop} [Decidable c] (h : KeepsR q a p) (k : KeepsR q a r) : KeepsR q a (if c then p else r) := by split <;> assumption
end KeepsR

namespace KeepsL
variable {α : Type} {q : Bool} {a s : State} {p r : State × α} {x : α}
theorem mk (h : Keeps q a s) : KeepsL q a (s, x) := h
theorem out (h : KeepsL q a p) : Keeps q a p.1 := h
theorem eq (e : p = (s, x)) (h : KeepsL q a p) : Keeps q a s := by subst e; exact h
theorem ite {c : Prop} [Decidable c] (h : KeepsL q a p) (k : KeepsL q a r) : KeepsL q a (if c then p else r) := by split <;> assumption
theorem foldl {β : Type} {f : State × α → β → State × α} (l : List β) (k : ∀ p x, KeepsL q a p → KeepsL q a (f p x)) :
    ∀ {p}, KeepsL q a p → KeepsL q a (l.foldl f p) := by
  induction l with
  | nil => intro p h; exact h
  | cons x l ih => intro p h; exact ih (k _ _ h)
end KeepsL

namespace KeepsRR
variable {α β : Type} {q : Bool} {a s : State} {p r : α × β × State} {x : α} {y : β}
theorem mk (h : Keeps q a s) : KeepsRR q a (x, y, s) := h
theorem out (h : KeepsRR q a p) : Keeps q a p.2.2 := h
theorem eq (e : p = (x, y, s)) (h : KeepsRR q a p) : Keeps q a s := by subst e; exact h
theorem ite {c : Prop} [Decidable c] (h : KeepsRR q a p) (k : KeepsRR q a r) : KeepsRR q a (if c then p else r) := by split <;> assumption
end KeepsRR

namespace KeepsO
variable {q : Bool} {a s : State} {o r : Option State}
theorem none : KeepsO q a none := fun _ h => by cases h
theorem some (h : Keeps q a s) : KeepsO q a (some s) := fun _ e => by cases e; exact h
theorem eq (e : o = .some s) (h : KeepsO q a o) : Keeps q a s := h _ e
theorem ite {c : Prop} [Decidable c] (h : KeepsO q a o) (k : KeepsO q a r) : KeepsO q a (if c then o else r) := by split <;> assumption
end KeepsO

namespace KeepsOR
variable {α : Type} {q : Bool} {a s : State} {o r : Option (α × State)} {x : α}
theorem none : KeepsOR q a (none : Option (α × State)) := fun _ _ h => by cases h
theorem some (h : Keeps q a s) : KeepsOR q a (some (x, s)) := fun _ _ e => by cases e; exact h
theorem eq (e : o = .some (x, s)) (h : KeepsOR q a o) : Keeps q a s := h _ _ e
theorem ite {c : Prop} [Decidable c] (h : KeepsOR q a o) (k : KeepsOR q a r) : KeepsOR q a (if c then o else r) := by split <;> assumption
end KeepsOR

namespace KeepsA
variable {q : Bool} {a s : State} {r v : Ans} {n t : Nat} {l : List Byte} {f : State → State}
theorem st (h : Keeps q a s) : KeepsA q a { st := s, status := n, results := l, ticket := t, after := id } := ⟨h, fun _ k => k, fun _ e => nomatch e⟩
theorem mk (h : Keeps q a s) (k : ∀ u, Keeps q a u → Keeps q a (f u)) : KeepsA q a { st := s, status := n, results := l, ticket := t, after := f } := ⟨h, k, fun _ e => nomatch e⟩
theorem mkLater {g : Reply → State → State} (h : Keeps q a s) (k : ∀ x u, Keeps q a u → Keeps q a (g x u)) :
    KeepsA q a { st := s, status := n, later := some g } := ⟨h, fun _ k => k, fun _ e => by cases e; exact k⟩
theorem out (h : KeepsA q a r) : Keeps q a r.st := h.1
theorem outAfter (h : KeepsA q a r) (k : Keeps q a s) : Keeps q a (r.after s) := h.2.1 s k
theorem withAfter {f : State → State} (h : KeepsA q a r) (k : ∀ u, Keeps q a u → Keeps q a (f u)) :
    KeepsA q a { st := r.st, status := r.status, results := r.results, ticket := r.ticket, after := f, later := r.later } := ⟨h.1, k, h.2.2⟩
theorem outLater {g : Reply → State → State} {x : Reply} (h : KeepsA q a r) (e : r.later = some g) (k : Keeps q a s) : Keeps q a (g x s) := h.2.2 g e x s k
theorem ite {c : Prop} [Decidable c] (h : KeepsA q a r) (k : KeepsA q a v) : KeepsA q a (if c then r else v) := by split <;> assumption
end KeepsA

namespace KeepsK
variable {q : Bool} {a s : State} {r v : KAns} {n : Nat} {l : List Byte}
theorem mk (h : Keeps q a s) : KeepsK q a { st := s, kstatus := n, body := l } := h
theorem out (h : KeepsK q a r) : Keeps q a r.st := h
theorem ite {c : Prop} [Decidable c] (h : KeepsK q a r) (k : KeepsK q a v) : KeepsK q a (if c then r else v) := by split <;> assumption
end KeepsK

namespace KeepsE
variable {q : Bool} {a s : State} {r : Emitted} {n : Nat} {l : List Byte} {b : Bool}
theorem mk (h : Keeps q a s) : KeepsE q a { st := s, stack := n, data := l, poison := b } := h
theorem out (h : KeepsE q a r) : Keeps q a r.st := h
theorem ite {c : Prop} [Decidable c] {v : Emitted} (h : KeepsE q a r) (k : KeepsE q a v) : KeepsE q a (if c then r else v) := by split <;> assumption
theorem elim {α : Type} {o : Option α} {f : α → Emitted} (h : KeepsE q a r) (k : ∀ x, KeepsE q a (f x)) : KeepsE q a (o.elim r f) := by
  cases o; exact h; exact k _
end KeepsE

namespace KeepsRes
variable {s t : State} {r v : Res}
theorem next (h : Keeps true s t) : KeepsRes s (.next t) := fun _ e => by cases e; exact h
theorem refused {x : Refusal} : KeepsRes s (.refused x) := fun _ e => by cases e
theorem ite {c : Prop} [Decidable c] (h : KeepsRes s r) (k : KeepsRes s v) : KeepsRes s (if c then r else v) := by split <;> assumption
end KeepsRes

end Sys2Proof.Machine
end

