-- ==== Sys2Proof/Laws/KeepsA.lean ====
section
/-! SUPPORT. What every operation keeps, part 1 of 4: the operations in the order in which they call each other. -/

namespace Sys2Proof.Machine
open Sys2Proof

theorem keeps_wr {q : Bool} {a s : State} {x1 : RegName} {x2 x3 : Nat} {x4 : Word} (h : Keeps q a s) : Keeps q a (State.wr s x1 x2 x3 x4) := by
  unfold State.wr; exact Keeps.record ‹_›

theorem keeps_fset {q : Bool} {a s : State} {x1 : Fld} {x2 x3 x4 : Nat} (h : Keeps q a s) : Keeps q a (State.fset s x1 x2 x3 x4) := by
  unfold State.fset; exact keeps_wr ‹_›

theorem keeps_phaseSet {q : Bool} {a s : State} {x1 : Nat} (h : Keeps q a s) : Keeps q a (State.phaseSet s x1) := by
  unfold State.phaseSet; exact keeps_fset ‹_›

theorem keeps_serviceStart {q : Bool} {a s : State} (h : Keeps q a s) : Keeps q a (State.serviceStart s) := by
  unfold State.serviceStart
  refine Keeps.ite ?_ ?_
  · exact keeps_phaseSet ‹_›
  · assumption

theorem keeps_cold {q : Bool} {a s : State} {x1 : Nat} (h : Keeps q a s) : Keeps q a (State.cold s x1) := by
  unfold State.cold
  refine keeps_fset (keeps_wr ?_)
  exact ⟨h.1, fun _ => rfl, fun _ _ => rfl⟩

theorem keeps_supplyApply {q : Bool} {a s : State} (h : Keeps q a s) : Keeps q a (State.supplyApply s) := by
  unfold State.supplyApply
  extract_lets +onlyGivenNames -merge z2
  have _ : Keeps q a z2 := by unfold z2; exact keeps_cold ‹_›
  try clear_value z2
  exact Keeps.record ‹_›

theorem keeps_brownout {q : Bool} {a s : State} (h : Keeps q a s) : Keeps q a (State.brownout s) := by
  unfold State.brownout
  extract_lets +onlyGivenNames -merge s1
  have _ : Keeps q a s1 := by unfold s1; exact keeps_cold ‹_›
  try clear_value s1
  exact Keeps.record ‹_›

theorem keeps_pkgReset {q : Bool} {a s : State} (h : Keeps q a s) : Keeps q a (State.pkgReset s) := by
  unfold State.pkgReset
  refine Keeps.ite ?_ ?_
  · exact Keeps.record ‹_›
  · extract_lets +onlyGivenNames -merge s1
    have _ : Keeps q a s1 := by unfold s1; exact keeps_cold ‹_›
    try clear_value s1
    exact Keeps.record ‹_›

theorem keeps_execSupplyApply {s : State} : KeepsRes s (execSupplyApply s) := by
  unfold execSupplyApply
  refine KeepsRes.next ?_
  refine keeps_supplyApply ?_
  first | exact Keeps.refl | assumption

theorem keeps_execSupplyBrownout {s : State} : KeepsRes s (execSupplyBrownout s) := by
  unfold execSupplyBrownout
  refine KeepsRes.next ?_
  refine keeps_brownout ?_
  first | exact Keeps.refl | assumption

theorem keeps_execColdReset {s : State} : KeepsRes s (execColdReset s) := by
  unfold execColdReset
  refine KeepsRes.next ?_
  refine keeps_pkgReset ?_
  first | exact Keeps.refl | assumption

theorem keeps_drawBytes {q : Bool} {a s : State} {x1 : Nat} (h : Keeps q a s) : KeepsR q a (State.drawBytes s x1) := by
  unfold State.drawBytes; exact KeepsR.mk (Keeps.record ‹_›)

theorem keeps_measure {q : Bool} {a s : State} {x1 x2 x3 : Nat} {x4 : List Word} (h : Keeps q a s) : Keeps q a (State.measure s x1 x2 x3 x4) := by
  unfold State.measure
  refine Keeps.ite ?_ ?_
  · extract_lets +onlyGivenNames -merge more; try clear_value more
    exact Keeps.record ‹_›
  · extract_lets +onlyGivenNames -merge n; try clear_value n
    extract_lets +onlyGivenNames -merge e; try clear_value e
    exact Keeps.record ‹_›

theorem keeps_firmware {q : Bool} {a s : State} {x1 x2 : Nat} (h : Keeps q a s) : Keeps q a (State.firmware s x1 x2) := by
  unfold State.firmware
  split
  · rename_i heq
    have := KeepsR.eq heq (show KeepsR q a _ from by
      exact keeps_drawBytes ‹_›
      )
    exact keeps_measure ‹_›

theorem keeps_kindled {q : Bool} {a s : State} {x1 : Nat} (h : Keeps q a s) : Keeps q a (State.kindled s x1) := by
  unfold State.kindled
  extract_lets +onlyGivenNames -merge v; try clear_value v
  exact keeps_firmware (keeps_firmware (keeps_fset ‹_›))

theorem keeps_rstHigh {q : Bool} {a s : State} (h : Keeps q a s) : Keeps q a (State.rstHigh s) := by
  unfold State.rstHigh; exact Keeps.record ‹_›

theorem keeps_recover {q : Bool} {a s : State} (h : Keeps q a s) : Keeps q a (State.recover s) := by
  unfold State.recover; exact Keeps.record ‹_›

theorem keeps_winExpire {q : Bool} {a s : State} (h : Keeps q a s) : Keeps q a (State.winExpire s) := by
  unfold State.winExpire
  extract_lets +onlyGivenNames -merge due; try clear_value due
  extract_lets +onlyGivenNames -merge s1
  have _ : Keeps q a s1 := by
    unfold s1
    refine Keeps.each ?_ (fun _ _ h => ?_)
    · assumption
    · exact keeps_wr (keeps_wr ‹_›)
  try clear_value s1
  exact Keeps.record ‹_›

theorem keeps_fsat {q : Bool} {a s : State} {x1 : Fld} {x2 x3 x4 : Nat} (h : Keeps q a s) : Keeps q a (State.fsat s x1 x2 x3 x4) := by
  unfold State.fsat; exact keeps_fset ‹_›

theorem keeps_winOpen {q : Bool} {a s : State} {x1 x2 : Nat} (h : Keeps q a s) : Keeps q a (State.winOpen s x1 x2) := by
  unfold State.winOpen
  extract_lets +onlyGivenNames -merge s'
  have _ : Keeps q a s' := by unfold s'; exact keeps_winExpire ‹_›
  try clear_value s'
  extract_lets +onlyGivenNames -merge free; try clear_value free
  extract_lets +onlyGivenNames -merge slot; try clear_value slot
  split
  · exact keeps_fsat ‹_›
  · extract_lets +onlyGivenNames -merge len; try clear_value len
    extract_lets +onlyGivenNames -merge w0; try clear_value w0
    extract_lets +onlyGivenNames -merge s1
    have _ : Keeps q a s1 := by unfold s1; exact keeps_wr (keeps_wr ‹_›)
    try clear_value s1
    exact Keeps.record ‹_›

theorem keeps_errWindow {q : Bool} {a s : State} {x1 x2 x3 : Nat} (h : Keeps q a s) : KeepsR q a (State.errWindow s x1 x2 x3) := by
  unfold State.errWindow
  refine KeepsR.ite ?_ ?_
  · split
    · exact KeepsR.mk (keeps_fset (keeps_fset ‹_›))
    · exact KeepsR.mk (keeps_winOpen ‹_›)
  · exact KeepsR.mk ‹_›

theorem keeps_capture {q : Bool} {a s : State} {x1 : Nat} {x2 : List Word} (h : Keeps q a s) : Keeps q a (State.capture s x1 x2) := by
  unfold State.capture
  refine Keeps.ite ?_ ?_
  · assumption
  · extract_lets +onlyGivenNames -merge s1
    have _ : Keeps q a s1 := by unfold s1; exact keeps_fset ‹_›
    try clear_value s1
    refine Keeps.each ?_ (fun _ _ h => ?_)
    · assumption
    · exact keeps_wr ‹_›

theorem keeps_emit {q : Bool} {a s : State} {x1 : Out} (h : Keeps q a s) : Keeps q a (State.emit s x1) := by
  unfold State.emit; exact Keeps.record ‹_›

theorem keeps_fwrap {q : Bool} {a s : State} {x1 : Fld} {x2 x3 x4 : Nat} (h : Keeps q a s) : Keeps q a (State.fwrap s x1 x2 x3 x4) := by
  unfold State.fwrap; exact keeps_fset ‹_›

theorem keeps_mboxWrite {q : Bool} {a s : State} {x1 : Reply} (h : Keeps q a s) : Keeps q a (State.mboxWrite s x1) := by
  unfold State.mboxWrite
  extract_lets +onlyGivenNames -merge size; try clear_value size
  extract_lets +onlyGivenNames -merge tail; try clear_value tail
  extract_lets +onlyGivenNames -merge hp; try clear_value hp
  extract_lets +onlyGivenNames -merge addr; try clear_value addr
  exact keeps_emit (keeps_fwrap (keeps_emit ‹_›))

theorem keeps_placeAt {q : Bool} {a s : State} {x1 : Reply} (h : Keeps q a s) : KeepsL q a (State.placeAt s x1) := by
  unfold State.placeAt
  refine KeepsL.ite ?_ ?_
  · refine KeepsL.ite ?_ ?_
    · exact KeepsL.mk (keeps_emit ‹_›)
    · exact KeepsL.mk (keeps_fsat ‹_›)
  · refine KeepsL.ite ?_ ?_
    · refine KeepsL.ite ?_ ?_
      · exact KeepsL.mk (keeps_fsat ‹_›)
      · refine KeepsL.ite ?_ ?_
        · refine KeepsL.ite ?_ ?_
          · exact KeepsL.mk (Keeps.record ‹_›)
          · exact KeepsL.mk (keeps_fsat ‹_›)
        · exact KeepsL.mk (keeps_mboxWrite ‹_›)
    · refine KeepsL.ite ?_ ?_
      · exact KeepsL.mk ‹_›
      · extract_lets +onlyGivenNames -merge _ s1
        have _ : Keeps q a s1 := by unfold s1; exact Keeps.record ‹_›
        try clear_value s1
        refine KeepsL.mk ?_
        refine Keeps.ite ?_ ?_
        · exact keeps_emit ‹_›
        · assumption

theorem keeps_eventTo {q : Bool} {a s : State} {x1 x2 : Nat} {x3 : List Byte} (h : Keeps q a s) : Keeps q a (State.eventTo s x1 x2 x3) := by
  unfold State.eventTo
  extract_lets +onlyGivenNames -merge n; try clear_value n
  extract_lets +onlyGivenNames -merge _ s1
  have _ : Keeps q a s1 := by unfold s1; exact Keeps.record ‹_›
  try clear_value s1
  extract_lets +onlyGivenNames -merge r; try clear_value r
  split
  · rename_i heq
    have := KeepsL.eq heq (show KeepsL q a _ from by
      exact keeps_placeAt ‹_›
      )
    assumption
  · rename_i heq
    have := KeepsL.eq heq (show KeepsL q a _ from by
      exact keeps_placeAt ‹_›
      )
    exact keeps_fsat ‹_›

theorem keeps_event {q : Bool} {a s : State} {x1 : Nat} {x2 : List Byte} (h : Keeps q a s) : Keeps q a (State.event s x1 x2) := by
  unfold State.event
  refine Keeps.each ?_ (fun _ _ h => ?_)
  · assumption
  · refine Keeps.ite ?_ ?_
    · exact keeps_eventTo ‹_›
    · assumption

theorem keeps_errPlace {q : Bool} {a s : State} {x1 x2 x3 : Nat} {x4 : List Word} (h : Keeps q a s) : Keeps q a (State.errPlace s x1 x2 x3 x4) := by
  unfold State.errPlace
  extract_lets +onlyGivenNames -merge s0
  have _ : Keeps q a s0 := by unfold s0; exact keeps_fsat ‹_›
  try clear_value s0
  extract_lets +onlyGivenNames -merge q'; try clear_value q'
  extract_lets +onlyGivenNames -merge _ s1
  have _ : Keeps q a s1 := by
    unfold s1
    refine Keeps.ite ?_ ?_
    · exact keeps_fset (Keeps.record ‹_›)
    · exact keeps_fsat ‹_›
  try clear_value s1
  extract_lets +onlyGivenNames -merge s2
  have _ : Keeps q a s2 := by unfold s2; exact keeps_capture ‹_›
  try clear_value s2
  extract_lets +onlyGivenNames -merge s3
  have _ : Keeps q a s3 := by
    unfold s3
    refine Keeps.ite ?_ ?_
    · exact keeps_fset ‹_›
    · assumption
  try clear_value s3
  refine Keeps.ite ?_ ?_
  · exact keeps_event ‹_›
  · assumption

theorem keeps_errWrite {q : Bool} {a s : State} {x1 x2 x3 x4 x5 : Nat} {x6 : List Nat} (h : Keeps q a s) : Keeps q a (State.errWrite s x1 x2 x3 x4 x5 x6) := by
  unfold State.errWrite
  extract_lets +onlyGivenNames -merge die; try clear_value die
  split
  · rename_i heq
    have := KeepsR.eq heq (show KeepsR q a _ from by
      exact keeps_errWindow ‹_›
      )
    extract_lets +onlyGivenNames -merge seq; try clear_value seq
    extract_lets +onlyGivenNames -merge _ s2
    have _ : Keeps q a s2 := by unfold s2; exact Keeps.record ‹_›
    try clear_value s2
    extract_lets +onlyGivenNames -merge s3
    have _ : Keeps q a s3 := by unfold s3; exact keeps_fset ‹_›
    try clear_value s3
    exact keeps_errPlace ‹_›

theorem keeps_errRec {q : Bool} {a s : State} {x1 x2 x3 x4 : Nat} {x5 : List Nat} (h : Keeps q a s) : Keeps q a (State.errRec s x1 x2 x3 x4 x5) := by
  unfold State.errRec; exact keeps_errWrite ‹_›

theorem keeps_pkgDeassert {q : Bool} {a s : State} {x1 x2 : Nat} (h : Keeps q a s) : Keeps q a (State.pkgDeassert s x1 x2) := by
  unfold State.pkgDeassert
  refine Keeps.ite ?_ ?_
  · exact keeps_rstHigh ‹_›
  · extract_lets +onlyGivenNames -merge s1
    have _ : Keeps q a s1 := by unfold s1; exact keeps_rstHigh ‹_›
    try clear_value s1
    extract_lets +onlyGivenNames -merge _ s2
    have _ : Keeps q a s2 := by unfold s2; exact keeps_recover (Keeps.record ‹_›)
    try clear_value s2
    refine Keeps.ite ?_ ?_
    · exact keeps_kindled ‹_›
    · refine Keeps.ite ?_ ?_
      · exact keeps_kindled (keeps_errRec ‹_›)
      · exact keeps_phaseSet ‹_›

theorem keeps_execPkgResetDeassert {s : State} {x0 x1 : Nat} : KeepsRes s (execPkgResetDeassert x0 x1 s) := by
  unfold execPkgResetDeassert
  refine KeepsRes.next ?_
  refine keeps_pkgDeassert ?_
  first | exact Keeps.refl | assumption

theorem keeps_trainShow {q : Bool} {a s : State} (h : Keeps q a s) : Keeps q a (State.trainShow s) := by
  unfold State.trainShow; exact keeps_fset ‹_›

theorem keeps_heldShow {q : Bool} {a s : State} (h : Keeps q a s) : Keeps q a (State.heldShow s) := by
  unfold State.heldShow
  extract_lets +onlyGivenNames -merge m; try clear_value m
  exact keeps_wr (keeps_wr ‹_›)

theorem keeps_bstateSet {q : Bool} {a s : State} {x1 : Nat} (h : Keeps q a s) : Keeps q a (State.bstateSet s x1) := by
  unfold State.bstateSet; exact keeps_fset ‹_›

theorem keeps_bootUnbind {q : Bool} {a s : State} {x1 : List (Nat × Nat)} (h : Keeps q a s) : Keeps q a (State.bootUnbind s x1) := by
  unfold State.bootUnbind
  extract_lets +onlyGivenNames -merge bad; try clear_value bad
  extract_lets +onlyGivenNames -merge s1
  have _ : Keeps q a s1 := by unfold s1; exact keeps_phaseSet ‹_›
  try clear_value s1
  extract_lets +onlyGivenNames -merge _ s2
  have _ : Keeps q a s2 := by unfold s2; exact Keeps.record ‹_›
  try clear_value s2
  extract_lets +onlyGivenNames -merge s3
  have _ : Keeps q a s3 := by
    unfold s3
    refine Keeps.each ?_ (fun _ _ h => ?_)
    · exact keeps_trainShow (keeps_heldShow ‹_›)
    · exact keeps_errRec ‹_›
  try clear_value s3
  split
  · rename_i heq
    have := KeepsR.eq heq (show KeepsR q a _ from by
      exact keeps_drawBytes ‹_›
      )
    exact keeps_bstateSet (Keeps.record ‹_›)

theorem keeps_optRingSet {q : Bool} {a s : State} {x1 x2 x3 x4 : Nat} (h : Keeps q a s) : Keeps q a (State.optRingSet s x1 x2 x3 x4) := by
  unfold State.optRingSet; exact keeps_fset ‹_›

theorem keeps_optHeat {q : Bool} {a s : State} {x1 x2 x3 x4 : Nat} (h : Keeps q a s) : Keeps q a (State.optHeat s x1 x2 x3 x4) := by
  unfold State.optHeat; exact keeps_fset ‹_›

theorem keeps_sweepRing {q : Bool} {a s : State} {x1 x2 : Nat} {x3 : BusSearch} (h : Keeps q a s) : Keeps q a (State.sweepRing s x1 x2 x3) := by
  unfold State.sweepRing; exact keeps_optRingSet (Keeps.record ‹_›)

theorem keeps_optOk {q : Bool} {a s : State} {x1 : Nat} (h : Keeps q a s) : Keeps q a (State.optOk s x1) := by
  unfold State.optOk
  extract_lets +onlyGivenNames -merge ok; try clear_value ok
  extract_lets +onlyGivenNames -merge v; try clear_value v
  exact keeps_fset ‹_›

theorem keeps_lkMod {q : Bool} {a s : State} {x1 : Nat} {x2 : Lnk → Lnk} (h : Keeps q a s) : Keeps q a (State.lkMod s x1 x2) := by
  unfold State.lkMod; exact Keeps.record ‹_›

theorem keeps_trainLane {q : Bool} {a s : State} {x1 x2 x3 : Nat} (h : Keeps q a s) : Keeps q a (State.trainLane s x1 x2 x3) := by
  unfold State.trainLane
  extract_lets +onlyGivenNames -merge l; try clear_value l
  extract_lets +onlyGivenNames -merge r; try clear_value r
  extract_lets +onlyGivenNames -merge tf; try clear_value tf
  split
  · exact keeps_lkMod (keeps_emit ‹_›)

theorem keeps_trainSlot {q : Bool} {a s : State} {x1 x2 : Nat} (h : Keeps q a s) : Keeps q a (State.trainSlot s x1 x2) := by
  unfold State.trainSlot
  refine keeps_lkMod ?_
  refine Keeps.each ?_ (fun _ _ h => ?_)
  · assumption
  · exact keeps_trainLane ‹_›

theorem keeps_lkEnter {q : Bool} {a s : State} {x1 x2 : Nat} (h : Keeps q a s) : Keeps q a (State.lkEnter s x1 x2) := by
  unfold State.lkEnter
  extract_lets +onlyGivenNames -merge s1
  have _ : Keeps q a s1 := by unfold s1; exact keeps_lkMod (keeps_fset ‹_›)
  try clear_value s1
  extract_lets +onlyGivenNames -merge s2
  have _ : Keeps q a s2 := by
    unfold s2
    refine Keeps.ite ?_ ?_
    · exact keeps_fset ‹_›
    · assumption
  try clear_value s2
  refine Keeps.ite ?_ ?_
  · exact keeps_trainSlot ‹_›
  · assumption

theorem keeps_lkRelease {q : Bool} {a s : State} {x1 : Nat} (h : Keeps q a s) : Keeps q a (State.lkRelease s x1) := by
  unfold State.lkRelease
  refine Keeps.ite ?_ ?_
  · exact keeps_lkEnter ‹_›
  · assumption

theorem keeps_busUpdate {q : Bool} {a s : State} {x1 x2 : Nat} (h : Keeps q a s) : Keeps q a (State.busUpdate s x1 x2) := by
  unfold State.busUpdate
  extract_lets +onlyGivenNames -merge ok; try clear_value ok
  extract_lets +onlyGivenNames -merge v; try clear_value v
  extract_lets +onlyGivenNames -merge s1
  have _ : Keeps q a s1 := by unfold s1; exact keeps_optOk (keeps_fset ‹_›)
  try clear_value s1
  refine Keeps.ite ?_ ?_
  · refine Keeps.each ?_ (fun _ _ h => ?_)
    · assumption
    · exact keeps_lkRelease ‹_›
  · assumption

theorem keeps_searchBus {q : Bool} {a s : State} {x1 x2 : Nat} {x3 : Bool} (h : Keeps q a s) : Keeps q a (State.searchBus s x1 x2 x3) := by
  unfold State.searchBus
  extract_lets +onlyGivenNames -merge s1
  have _ : Keeps q a s1 := by
    unfold s1
    refine Keeps.each ?_ (fun _ _ h => ?_)
    · assumption
    · extract_lets +onlyGivenNames -merge s'
      have _ : Keeps q a s' := by unfold s'; exact keeps_optRingSet (keeps_optHeat ‹_›)
      try clear_value s'
      exact Keeps.record ‹_›
  try clear_value s1
  exact keeps_sweepRing (keeps_fset (keeps_busUpdate ‹_›))

theorem keeps_autoSearch {q : Bool} {a s : State} {x1 : Nat} (h : Keeps q a s) : Keeps q a (State.autoSearch s x1) := by
  unfold State.autoSearch
  refine Keeps.each ?_ (fun _ _ h => ?_)
  · assumption
  · refine Keeps.ite ?_ ?_
    · refine Keeps.each ?_ (fun _ _ h => ?_)
      · assumption
      · refine Keeps.ite ?_ ?_
        · exact keeps_searchBus ‹_›
        · assumption
    · assumption

theorem keeps_bootUnits {q : Bool} {a s : State} (h : Keeps q a s) : Keeps q a (State.bootUnits s) := by
  unfold State.bootUnits
  extract_lets +onlyGivenNames -merge s1
  have _ : Keeps q a s1 := by unfold s1; exact keeps_fset (keeps_fset ‹_›)
  try clear_value s1
  extract_lets +onlyGivenNames -merge s2
  have _ : Keeps q a s2 := by
    unfold s2
    refine Keeps.each ?_ (fun _ _ h => ?_)
    · assumption
    · exact keeps_autoSearch ‹_›
  try clear_value s2
  refine Keeps.each ?_ (fun _ _ h => ?_)
  · assumption
  · exact keeps_lkRelease ‹_›

theorem keeps_mboxDrain {q : Bool} {a : State} (n : Nat) : ∀ {s : State}, Keeps q a s → Keeps q a (State.mboxDrain n s) := by
  induction n with
  | zero => intro s h; exact h
  | succ n ih =>
    intro s h; unfold State.mboxDrain; split
    · exact h
    · exact Keeps.ite h (ih (keeps_mboxWrite (Keeps.record h)))

theorem keeps_unitUp {q : Bool} {a s : State} {x1 : RUnit} (h : Keeps q a s) : Keeps q a (State.unitUp s x1) := by
  unfold State.unitUp
  split
  · refine Keeps.each ?_ (fun _ _ h => ?_)
    · assumption
    · exact keeps_lkRelease ‹_›
  · refine Keeps.each ?_ (fun _ _ h => ?_)
    · assumption
    · exact keeps_lkRelease ‹_›
  · exact keeps_autoSearch ‹_›
  · exact keeps_mboxDrain _ (Keeps.record ‹_›)
  · assumption

theorem keeps_winClear {q : Bool} {a s : State} {x1 x2 : Nat} (h : Keeps q a s) : Keeps q a (State.winClear s x1 x2) := by
  unfold State.winClear
  split
  · assumption
  · extract_lets +onlyGivenNames -merge s1
    have _ : Keeps q a s1 := by unfold s1; exact keeps_wr (keeps_wr ‹_›)
    try clear_value s1
    exact Keeps.record ‹_›

theorem keeps_completeTicket {q : Bool} {a s : State} {x1 x2 : Nat} {x3 : List Byte} (h : Keeps q a s) : Keeps q a (State.completeTicket s x1 x2 x3) := by
  unfold State.completeTicket
  extract_lets +onlyGivenNames -merge slot; try clear_value slot
  split
  · assumption
  · refine Keeps.ite ?_ ?_
    · assumption
    · extract_lets +onlyGivenNames -merge _ s1
      have _ : Keeps q a s1 := by unfold s1; exact Keeps.record ‹_›
      try clear_value s1
      extract_lets +onlyGivenNames -merge p; try clear_value p
      extract_lets +onlyGivenNames -merge r; try clear_value r
      split
      · rename_i heq
        have := KeepsL.eq heq (show KeepsL q a _ from by
          exact keeps_placeAt ‹_›
          )
        assumption
      · rename_i heq
        have := KeepsL.eq heq (show KeepsL q a _ from by
          exact keeps_placeAt ‹_›
          )
        exact keeps_fsat ‹_›

theorem keeps_unitOut {q : Bool} {a s : State} {x1 : RUnit} {x2 : Hold} (h : Keeps q a s) : Keeps q a (State.unitOut s x1 x2) := by
  unfold State.unitOut
  extract_lets +onlyGivenNames -merge _ s1
  have _ : Keeps q a s1 := by unfold s1; exact keeps_heldShow (Keeps.record ‹_›)
  try clear_value s1
  extract_lets +onlyGivenNames -merge s2
  have _ : Keeps q a s2 := by unfold s2; exact keeps_unitUp ‹_›
  try clear_value s2
  extract_lets +onlyGivenNames -merge s3
  have _ : Keeps q a s3 := by unfold s3; exact keeps_errRec ‹_›
  try clear_value s3
  extract_lets +onlyGivenNames -merge s4
  have _ : Keeps q a s4 := by
    unfold s4
    refine Keeps.ite ?_ ?_
    · split
      · refine Keeps.ite ?_ ?_
        · assumption
        · exact keeps_winOpen (keeps_winClear ‹_›)
      · exact keeps_winOpen ‹_›
    · assumption
  try clear_value s4
  split
  · exact keeps_completeTicket ‹_›
  · assumption

theorem keeps_bootWarm {q : Bool} {a s : State} (h : Keeps q a s) : Keeps q a (State.bootWarm s) := by
  unfold State.bootWarm
  extract_lets +onlyGivenNames -merge h'; try clear_value h'
  exact keeps_trainShow (keeps_bootUnits (keeps_unitOut ‹_›))

theorem keeps_cloentimStart {q : Bool} {a s : State} {x1 : List (Nat × Nat)} (h : Keeps q a s) : Keeps q a (State.cloentimStart s x1) := by
  unfold State.cloentimStart
  refine Keeps.ite ?_ ?_
  · assumption
  · refine Keeps.ite ?_ ?_
    · exact keeps_bootWarm ‹_›
    · exact keeps_bootUnbind ‹_›

theorem keeps_subSet {q : Bool} {a s : State} {x1 : Nat} {x2 : SubQ} (h : Keeps q a s) : Keeps q a (State.subSet s x1 x2) := by
  unfold State.subSet; exact Keeps.record ‹_›

theorem keeps_setHold {q : Bool} {a s : State} {x1 : Nat} {x2 : List Copy} (h : Keeps q a s) : Keeps q a (State.setHold s x1 x2) := by
  unfold State.setHold; exact keeps_fset (Keeps.record ‹_›)

theorem keeps_fdec {q : Bool} {a s : State} {x1 : Fld} {x2 x3 x4 : Nat} (h : Keeps q a s) : Keeps q a (State.fdec s x1 x2 x3 x4) := by
  unfold State.fdec; exact keeps_fset ‹_›

theorem keeps_queueCells {q : Bool} {a s : State} {x1 : Copy} {x2 : Bool} (h : Keeps q a s) : Keeps q a (State.queueCells s x1 x2) := by
  unfold State.queueCells
  extract_lets +onlyGivenNames -merge q'; try clear_value q'
  refine Keeps.ite ?_ ?_
  · exact keeps_fset ‹_›
  · exact keeps_fdec ‹_›

theorem keeps_toHold {q : Bool} {a s : State} {x1 : Nat} (h : Keeps q a s) : Keeps q a (State.toHold s x1) := by
  unfold State.toHold
  extract_lets +onlyGivenNames -merge port; try clear_value port
  extract_lets +onlyGivenNames -merge fib; try clear_value fib
  extract_lets +onlyGivenNames -merge mine; try clear_value mine
  extract_lets +onlyGivenNames -merge moved; try clear_value moved
  extract_lets +onlyGivenNames -merge s1
  have _ : Keeps q a s1 := by
    unfold s1
    refine Keeps.each ?_ (fun _ _ h => ?_)
    · assumption
    · extract_lets +onlyGivenNames -merge left; try clear_value left
      extract_lets +onlyGivenNames -merge _ u; try clear_value u
      extract_lets +onlyGivenNames -merge headLeft; try clear_value headLeft
      exact keeps_subSet ‹_›
  try clear_value s1
  refine keeps_setHold ?_
  refine Keeps.each ?_ (fun _ _ h => ?_)
  · assumption
  · exact keeps_queueCells ‹_›

theorem keeps_setBit {q : Bool} {a s : State} {x1 : RegName} {x2 x3 x4 : Nat} {x5 : Bool} (h : Keeps q a s) : Keeps q a (State.setBit s x1 x2 x3 x4 x5) := by
  unfold State.setBit; exact keeps_wr ‹_›

theorem keeps_destDownUpdate {q : Bool} {a s : State} (h : Keeps q a s) : Keeps q a (State.destDownUpdate s) := by
  unfold State.destDownUpdate
  refine Keeps.each ?_ (fun _ _ h => ?_)
  · assumption
  · extract_lets +onlyGivenNames -merge v; try clear_value v
    exact keeps_event (keeps_setBit ‹_›)

theorem keeps_hubSet {q : Bool} {a s : State} {x1 x2 : Nat} (h : Keeps q a s) : Keeps q a (State.hubSet s x1 x2) := by
  unfold State.hubSet; exact keeps_destDownUpdate (keeps_fset ‹_›)

theorem keeps_cellsFree {q : Bool} {a s : State} {x1 : Stored} (h : Keeps q a s) : Keeps q a (State.cellsFree s x1) := by
  unfold State.cellsFree; exact keeps_fdec (keeps_fdec ‹_›)

theorem keeps_unref {q : Bool} {a s : State} {x1 : Nat} (h : Keeps q a s) : Keeps q a (State.unref s x1) := by
  unfold State.unref
  split
  · assumption
  · refine Keeps.ite ?_ ?_
    · exact keeps_cellsFree (Keeps.record ‹_›)
    · exact Keeps.record ‹_›

theorem keeps_mirror {q : Bool} {a s : State} {x1 x2 x3 : Nat} {x4 : Nat → List Word} (h : Keeps q a s) : Keeps q a (State.mirror s x1 x2 x3 x4) := by
  unfold State.mirror
  refine Keeps.ite ?_ ?_
  · assumption
  · extract_lets +onlyGivenNames -merge k; try clear_value k
    extract_lets +onlyGivenNames -merge c; try clear_value c
    extract_lets +onlyGivenNames -merge _ s1
    have _ : Keeps q a s1 := by unfold s1; exact Keeps.record ‹_›
    try clear_value s1
    refine Keeps.ite ?_ ?_
    · assumption
    · extract_lets +onlyGivenNames -merge seq; try clear_value seq
      extract_lets +onlyGivenNames -merge q'; try clear_value q'
      extract_lets +onlyGivenNames -merge _ s2
      have _ : Keeps q a s2 := by unfold s2; exact Keeps.record ‹_›
      try clear_value s2
      refine Keeps.ite ?_ ?_
      · exact Keeps.record ‹_›
      · exact keeps_fsat ‹_›

theorem keeps_mirrorEgress {q : Bool} {a s : State} {x1 : Copy} {x2 : Nat} (h : Keeps q a s) : Keeps q a (State.mirrorEgress s x1 x2) := by
  unfold State.mirrorEgress
  split
  · assumption
  · extract_lets +onlyGivenNames -merge hdr; try clear_value hdr
    exact keeps_mirror ‹_›

theorem keeps_inject {q : Bool} {a s : State} {x1 : Nat} {x2 : Packet} (h : Keeps q a s) : Keeps q a (State.inject s x1 x2) := by
  unfold State.inject; exact Keeps.record ‹_›

theorem keeps_freeCopy {q : Bool} {a s : State} {x1 : Copy} {x2 x3 : Nat} (h : Keeps q a s) : Keeps q a (State.freeCopy s x1 x2 x3) := by
  unfold State.freeCopy
  extract_lets +onlyGivenNames -merge s1
  have _ : Keeps q a s1 := by unfold s1; exact keeps_unref (keeps_mirrorEgress ‹_›)
  try clear_value s1
  refine Keeps.ite ?_ ?_
  · exact keeps_fsat ‹_›
  · refine Keeps.ite ?_ ?_
    · exact keeps_fsat ‹_›
    · exact keeps_inject (keeps_fsat ‹_›)

theorem keeps_egressCells {q : Bool} {a s : State} {x1 : Copy} {x2 : Bool} (h : Keeps q a s) : Keeps q a (State.egressCells s x1 x2) := by
  unfold State.egressCells
  refine Keeps.ite ?_ ?_
  · exact keeps_fset ‹_›
  · exact keeps_fdec ‹_›

theorem keeps_freeHold {q : Bool} {a s : State} {x1 x2 : Nat} (h : Keeps q a s) : Keeps q a (State.freeHold s x1 x2) := by
  unfold State.freeHold
  extract_lets +onlyGivenNames -merge cs; try clear_value cs
  extract_lets +onlyGivenNames -merge mc; try clear_value mc
  extract_lets +onlyGivenNames -merge rsp; try clear_value rsp
  extract_lets +onlyGivenNames -merge s1
  have _ : Keeps q a s1 := by
    unfold s1
    refine Keeps.each ?_ (fun _ _ h => ?_)
    · exact keeps_setHold ‹_›
    · exact keeps_freeCopy (keeps_egressCells ‹_›)
  try clear_value s1
  exact keeps_errRec ‹_›

theorem keeps_lkAwake {q : Bool} {a s : State} {x1 : Nat} (h : Keeps q a s) : Keeps q a (State.lkAwake s x1) := by
  unfold State.lkAwake; exact keeps_lkMod (keeps_fset (keeps_fset ‹_›))

theorem keeps_adminSet {q : Bool} {a s : State} {x1 : Nat} (h : Keeps q a s) : Keeps q a (State.adminSet s x1) := by
  unfold State.adminSet
  refine Keeps.ite ?_ ?_
  · assumption
  · extract_lets +onlyGivenNames -merge s1
    have _ : Keeps q a s1 := by unfold s1; exact keeps_fset ‹_›
    try clear_value s1
    extract_lets +onlyGivenNames -merge s2
    have _ : Keeps q a s2 := by
      unfold s2
      refine Keeps.ite ?_ ?_
      · exact keeps_toHold ‹_›
      · assumption
    try clear_value s2
    extract_lets +onlyGivenNames -merge s3
    have _ : Keeps q a s3 := by unfold s3; exact keeps_lkMod (keeps_hubSet (keeps_freeHold ‹_›))
    try clear_value s3
    exact keeps_lkAwake (keeps_lkEnter ‹_›)

theorem keeps_errLater {a s : State} {x1 x2 x3 x4 : Nat} {x5 : List Nat} (h : Keeps false a s) : Keeps false a (State.errLater s x1 x2 x3 x4 x5) :=
  ⟨h.1, h.2.1, fun e => nomatch e⟩

theorem keeps_epbMod {q : Bool} {a s : State} {x1 : Nat} {x2 : Epb → Epb} (h : Keeps q a s) : Keeps q a (State.epbMod s x1 x2) := by
  unfold State.epbMod; exact Keeps.record ‹_›

theorem keeps_hostRing {q : Bool} {a s : State} {x1 x2 : Nat} {x3 x4 x5 x6 x7 x8 x9 : Fld} {x10 : List Byte} (h : Keeps q a s) : Keeps q a (State.hostRing s x1 x2 x3 x4 x5 x6 x7 x8 x9 x10) := by
  unfold State.hostRing
  extract_lets +onlyGivenNames -merge size; try clear_value size
  extract_lets +onlyGivenNames -merge t; try clear_value t
  refine Keeps.ite ?_ ?_
  · exact keeps_fsat ‹_›
  · exact keeps_emit (keeps_fset (keeps_emit ‹_›))

theorem keeps_faultRec {q : Bool} {a s : State} {x1 : Nat} {x2 : FaultRec} (h : Keeps q a s) : KeepsR q a (State.faultRec s x1 x2) := by
  unfold State.faultRec
  extract_lets +onlyGivenNames -merge seq; try clear_value seq
  extract_lets +onlyGivenNames -merge ident; try clear_value ident
  extract_lets +onlyGivenNames -merge s1
  have _ : Keeps q a s1 := by unfold s1; exact Keeps.record ‹_›
  try clear_value s1
  exact KeepsR.mk (keeps_hostRing ‹_›)

theorem keeps_fault {q : Bool} {a s : State} {x1 : Nat} {x2 : FaultRec} (h : Keeps q a s) : Keeps q a (State.fault s x1 x2) := by
  unfold State.fault; exact KeepsR.out (keeps_faultRec ‹_›)

theorem keeps_draw {q : Bool} {a s : State} (h : Keeps q a s) : KeepsR q a (State.draw s) := by
  unfold State.draw; exact KeepsR.mk (Keeps.record ‹_›)

theorem keeps_attachDown {q : Bool} {a s : State} {x1 : Nat} (h : Keeps q a s) : Keeps q a (State.attachDown s x1) := by
  unfold State.attachDown
  extract_lets +onlyGivenNames -merge e; try clear_value e
  extract_lets +onlyGivenNames -merge q'; try clear_value q'
  extract_lets +onlyGivenNames -merge isZ; try clear_value isZ
  extract_lets +onlyGivenNames -merge keep; try clear_value keep
  extract_lets +onlyGivenNames -merge count; try clear_value count
  extract_lets +onlyGivenNames -merge s1
  have _ : Keeps q a s1 := by unfold s1; exact keeps_epbMod (Keeps.record ‹_›)
  try clear_value s1
  extract_lets +onlyGivenNames -merge s2
  have _ : Keeps q a s2 := by unfold s2; exact keeps_fset ‹_›
  try clear_value s2
  refine Keeps.ite ?_ ?_
  · assumption
  · exact keeps_fault (KeepsR.out (keeps_draw ‹_›))

theorem keeps_flap {a s : State} {x1 : Nat} (h : Keeps false a s) : Keeps false a (State.flap s x1) := by
  unfold State.flap
  extract_lets +onlyGivenNames -merge win; try clear_value win
  extract_lets +onlyGivenNames -merge l; try clear_value l
  refine Keeps.ite ?_ ?_
  · exact keeps_errLater (Keeps.record ‹_›)
  · exact Keeps.record ‹_›

theorem keeps_hubFail {q : Bool} {a s : State} {x1 : Nat} (h : Keeps q a s) : Keeps q a (State.hubFail s x1) := by
  unfold State.hubFail
  refine Keeps.ite ?_ ?_
  · assumption
  · extract_lets +onlyGivenNames -merge t; try clear_value t
    extract_lets +onlyGivenNames -merge full; try clear_value full
    extract_lets +onlyGivenNames -merge start; try clear_value start
    extract_lets +onlyGivenNames -merge t1; try clear_value t1
    extract_lets +onlyGivenNames -merge _ s1
    have _ : Keeps q a s1 := by unfold s1; exact keeps_toHold (Keeps.record ‹_›)
    try clear_value s1
    refine Keeps.ite ?_ ?_
    · exact keeps_hubSet (keeps_freeHold ‹_›)
    · exact keeps_hubSet ‹_›

theorem keeps_aimAt {q : Bool} {a s : State} {x1 : Nat} (h : Keeps q a s) : Keeps q a (State.aimAt s x1) := by
  unfold State.aimAt
  refine Keeps.ite ?_ ?_
  · assumption
  · exact keeps_emit (Keeps.record ‹_›)

theorem keeps_putCodeword {q : Bool} {a s : State} {x1 : Nat} {x2 : List Byte} (h : Keeps q a s) : Keeps q a (State.putCodeword s x1 x2) := by
  unfold State.putCodeword
  refine Keeps.ite ?_ ?_
  · exact keeps_lkMod (keeps_emit ‹_›)
  · exact keeps_emit (keeps_aimAt ‹_›)

theorem keeps_sendCodeword {q : Bool} {a s : State} {x1 : Nat} {x2 : FlitHdr} {x3 : List Byte} {x4 : Option Nat} {x5 : Nat} (h : Keeps q a s) : Keeps q a (State.sendCodeword s x1 x2 x3 x4 x5) := by
  unfold State.sendCodeword
  extract_lets +onlyGivenNames -merge l; try clear_value l
  extract_lets +onlyGivenNames -merge h1; try clear_value h1
  extract_lets +onlyGivenNames -merge s1
  have _ : Keeps q a s1 := by unfold s1; exact keeps_putCodeword ‹_›
  try clear_value s1
  extract_lets +onlyGivenNames -merge s2
  have _ : Keeps q a s2 := by
    unfold s2
    refine Keeps.ite ?_ ?_
    · exact keeps_fsat ‹_›
    · assumption
  try clear_value s2
  exact keeps_lkMod ‹_›

theorem keeps_sendData {q : Bool} {a s : State} {x1 : Nat} {x2 : Flit} (h : Keeps q a s) : Keeps q a (State.sendData s x1 x2) := by
  unfold State.sendData
  split
  · exact keeps_sendCodeword ‹_›

theorem keeps_resendNow {q : Bool} {a s : State} {x1 : Nat} (h : Keeps q a s) : Keeps q a (State.resendNow s x1) := by
  unfold State.resendNow
  refine Keeps.each ?_ (fun _ _ h => ?_)
  · exact keeps_lkMod ‹_›
  · exact keeps_sendData ‹_›

theorem keeps_sendNext {q : Bool} {a s : State} {x1 : Nat} {x2 : Flit} (h : Keeps q a s) : Keeps q a (State.sendNext s x1 x2) := by
  unfold State.sendNext
  extract_lets +onlyGivenNames -merge l; try clear_value l
  extract_lets +onlyGivenNames -merge g; try clear_value g
  extract_lets +onlyGivenNames -merge s1
  have _ : Keeps q a s1 := by unfold s1; exact keeps_lkMod ‹_›
  try clear_value s1
  exact keeps_sendData ‹_›

theorem keeps_pumpOne {q : Bool} {a s : State} {n : Nat} (h : Keeps q a s) : Keeps q a (State.pumpOne s n) := by
  unfold State.pumpOne; dsimp only
  refine Keeps.ite (keeps_lkMod (KeepsL.out (KeepsL.foldl _ (fun p x k => ?_) (KeepsL.mk (Keeps.ite (keeps_resendNow h) h))))) h
  exact KeepsL.ite (KeepsL.mk k) (KeepsL.mk (keeps_sendNext k))

theorem keeps_linkPump {q : Bool} {a s : State} {x1 : Nat} (h : Keeps q a s) : Keeps q a (State.linkPump s x1) := by
  unfold State.linkPump
  refine Keeps.ite ?_ ?_
  · exact keeps_pumpOne ‹_›
  · refine Keeps.each ?_ (fun _ _ h => ?_)
    · assumption
    · exact keeps_pumpOne ‹_›

theorem keeps_linkQueue {q : Bool} {a s : State} {x1 : Nat} {x2 : List Flit} (h : Keeps q a s) : Keeps q a (State.linkQueue s x1 x2) := by
  unfold State.linkQueue; exact keeps_linkPump (keeps_lkMod ‹_›)

theorem keeps_abortThrough {q : Bool} {a s : State} {x1 : Nat} {x2 : List Byte} {x3 : Nat × Nat × Packet} (h : Keeps q a s) : Keeps q a (State.abortThrough s x1 x2 x3) := by
  unfold State.abortThrough
  extract_lets +onlyGivenNames -merge k; try clear_value k
  extract_lets +onlyGivenNames -merge cells; try clear_value cells
  extract_lets +onlyGivenNames -merge s1
  have _ : Keeps q a s1 := by unfold s1; exact keeps_fwrap ‹_›
  try clear_value s1
  refine Keeps.ite ?_ ?_
  · exact keeps_linkQueue (Keeps.record ‹_›)
  · assumption

theorem keeps_interrupt {q : Bool} {a s : State} {x1 : Nat} {x2 : Nat × List Byte} (h : Keeps q a s) : Keeps q a (State.interrupt s x1 x2) := by
  unfold State.interrupt
  extract_lets +onlyGivenNames -merge p; try clear_value p
  extract_lets +onlyGivenNames -merge a'; try clear_value a'
  extract_lets +onlyGivenNames -merge ways; try clear_value ways
  extract_lets +onlyGivenNames -merge chan; try clear_value chan
  extract_lets +onlyGivenNames -merge go; try clear_value go
  refine Keeps.ite ?_ ?_
  · assumption
  · extract_lets +onlyGivenNames -merge s1
    have _ : Keeps q a s1 := by unfold s1; exact keeps_lkMod (keeps_fwrap ‹_›)
    try clear_value s1
    refine Keeps.each ?_ (fun _ _ h => ?_)
    · assumption
    · exact keeps_abortThrough ‹_›

theorem keeps_linkFail {a s : State} {x1 x2 : Nat} (h : Keeps false a s) : Keeps false a (State.linkFail s x1 x2) := by
  unfold State.linkFail
  refine Keeps.ite ?_ ?_
  · assumption
  · extract_lets +onlyGivenNames -merge s1
    have _ : Keeps false a s1 := by unfold s1; exact keeps_errLater ‹_›
    try clear_value s1
    extract_lets +onlyGivenNames -merge s2
    have _ : Keeps false a s2 := by unfold s2; exact keeps_lkMod (keeps_lkAwake (keeps_lkEnter ‹_›))
    try clear_value s2
    refine Keeps.ite ?_ ?_
    · refine keeps_attachDown ?_
      refine Keeps.ite ?_ ?_
      · assumption
      · exact keeps_flap ‹_›
    · extract_lets +onlyGivenNames -merge s2
      have _ : Keeps false a s2 := by unfold s2; exact keeps_hubFail ‹_›
      try clear_value s2
      extract_lets +onlyGivenNames -merge s2
      have _ : Keeps false a s2 := by
        unfold s2
        refine Keeps.ite ?_ ?_
        · exact keeps_flap ‹_›
        · assumption
      try clear_value s2
      extract_lets +onlyGivenNames -merge s3
      have _ : Keeps false a s3 := by
        unfold s3
        refine Keeps.each ?_ (fun _ _ h => ?_)
        · assumption
        · exact keeps_interrupt ‹_›
      try clear_value s3
      refine Keeps.ite ?_ ?_
      · exact keeps_lkMod ‹_›
      · assumption

theorem keeps_linkOff {a s : State} {x1 : Nat} (h : Keeps false a s) : Keeps false a (State.linkOff s x1) := by
  unfold State.linkOff
  refine Keeps.ite ?_ ?_
  · exact keeps_linkFail ‹_›
  · exact keeps_lkEnter ‹_›

theorem keeps_enWrite {a s : State} {x1 x2 : Nat} (h : Keeps false a s) : Keeps false a (State.enWrite s x1 x2) := by
  unfold State.enWrite
  extract_lets +onlyGivenNames -merge s1
  have _ : Keeps false a s1 := by unfold s1; exact keeps_fset ‹_›
  try clear_value s1
  refine Keeps.ite ?_ ?_
  · refine Keeps.ite ?_ ?_
    · assumption
    · exact keeps_linkOff ‹_›
  · exact keeps_lkRelease ‹_›

theorem keeps_linkReset {a s : State} {x1 : Nat} (h : Keeps false a s) : Keeps false a (State.linkReset s x1) := by
  unfold State.linkReset; exact keeps_lkMod (keeps_lkAwake (keeps_linkOff ‹_›))

theorem keeps_dropPacket {q : Bool} {a s : State} {x1 : Nat} (h : Keeps q a s) : Keeps q a (State.dropPacket s x1) := by
  unfold State.dropPacket
  split
  · assumption
  · extract_lets +onlyGivenNames -merge gone; try clear_value gone
    extract_lets +onlyGivenNames -merge s1
    have _ : Keeps q a s1 := by
      unfold s1
      refine Keeps.each ?_ (fun _ _ h => ?_)
      · assumption
      · extract_lets +onlyGivenNames -merge out; try clear_value out
        refine Keeps.ite ?_ ?_
        · assumption
        · refine Keeps.each ?_ (fun _ _ h => ?_)
          · exact keeps_subSet ‹_›
          · exact keeps_egressCells (keeps_queueCells ‹_›)
    try clear_value s1
    extract_lets +onlyGivenNames -merge s2
    have _ : Keeps q a s2 := by
      unfold s2
      refine Keeps.each ?_ (fun _ _ h => ?_)
      · assumption
      · extract_lets +onlyGivenNames -merge out; try clear_value out
        refine Keeps.ite ?_ ?_
        · assumption
        · refine Keeps.each ?_ (fun _ _ h => ?_)
          · exact keeps_setHold ‹_›
          · exact keeps_egressCells ‹_›
    try clear_value s2
    exact keeps_cellsFree (Keeps.record ‹_›)

theorem keeps_schedReset {q : Bool} {a s : State} {x1 : Nat} (h : Keeps q a s) : Keeps q a (State.schedReset s x1) := by
  unfold State.schedReset
  extract_lets +onlyGivenNames -merge ps; try clear_value ps
  extract_lets +onlyGivenNames -merge _ s1
  have _ : Keeps q a s1 := by unfold s1; exact Keeps.record ‹_›
  try clear_value s1
  refine Keeps.each ?_ (fun _ _ h => ?_)
  · assumption
  · refine Keeps.ite ?_ ?_
    · exact keeps_setBit ‹_›
    · exact keeps_setBit ‹_›

theorem keeps_holdsEmpty {q : Bool} {a s : State} {x1 : Nat} (h : Keeps q a s) : Keeps q a (State.holdsEmpty s x1) := by
  unfold State.holdsEmpty
  refine Keeps.each ?_ (fun _ _ h => ?_)
  · assumption
  · refine Keeps.each ?_ (fun _ _ h => ?_)
    · exact keeps_setHold ‹_›
    · exact keeps_unref (keeps_egressCells ‹_›)

theorem keeps_queuesEmpty {q : Bool} {a s : State} {x1 : Nat} (h : Keeps q a s) : Keeps q a (State.queuesEmpty s x1) := by
  unfold State.queuesEmpty
  refine Keeps.each ?_ (fun _ _ h => ?_)
  · assumption
  · refine Keeps.each ?_ (fun _ _ h => ?_)
    · exact Keeps.record ‹_›
    · exact keeps_unref (keeps_egressCells (keeps_queueCells ‹_›))

theorem keeps_copiesDrop {q : Bool} {a s : State} {x1 : Nat} (h : Keeps q a s) : Keeps q a (State.copiesDrop s x1) := by
  unfold State.copiesDrop
  extract_lets +onlyGivenNames -merge out; try clear_value out
  extract_lets +onlyGivenNames -merge _ s1
  have _ : Keeps q a s1 := by unfold s1; exact Keeps.record ‹_›
  try clear_value s1
  refine Keeps.each ?_ (fun _ _ h => ?_)
  · assumption
  · exact keeps_unref ‹_›

theorem keeps_regsClear {q : Bool} {a s : State} {x1 : RegAt → Bool} (h : Keeps q a s) : Keeps q a (State.regsClear s x1) := by
  unfold State.regsClear; exact Keeps.record ‹_›

theorem keeps_crcRelease {q : Bool} {a s : State} {x1 : Nat} (h : Keeps q a s) : Keeps q a (State.crcRelease s x1) := by
  unfold State.crcRelease; exact keeps_fset (keeps_fset (keeps_fset ‹_›))

theorem keeps_holdEffUpdate {q : Bool} {a s : State} (h : Keeps q a s) : Keeps q a (State.holdEffUpdate s) := by
  unfold State.holdEffUpdate
  extract_lets +onlyGivenNames -merge d; try clear_value d
  exact keeps_fset ‹_›

theorem keeps_coreReset {a s : State} {x1 : Nat} (h : Keeps false a s) : Keeps false a (State.coreReset s x1) := by
  unfold State.coreReset
  extract_lets +onlyGivenNames -merge s1
  have _ : Keeps false a s1 := by
    unfold s1
    refine Keeps.each ?_ (fun _ _ h => ?_)
    · assumption
    · exact keeps_linkReset ‹_›
  try clear_value s1
  extract_lets +onlyGivenNames -merge mine; try clear_value mine
  extract_lets +onlyGivenNames -merge s2
  have _ : Keeps false a s2 := by
    unfold s2
    refine Keeps.each ?_ (fun _ _ h => ?_)
    · assumption
    · exact keeps_dropPacket ‹_›
  try clear_value s2
  extract_lets +onlyGivenNames -merge s3
  have _ : Keeps false a s3 := by unfold s3; exact keeps_schedReset (keeps_holdsEmpty (keeps_queuesEmpty (keeps_copiesDrop ‹_›)))
  try clear_value s3
  extract_lets +onlyGivenNames -merge _ s4
  have _ : Keeps false a s4 := by unfold s4; exact Keeps.record ‹_›
  try clear_value s4
  extract_lets +onlyGivenNames -merge s5
  have _ : Keeps false a s5 := by unfold s5; exact keeps_regsClear ‹_›
  try clear_value s5
  extract_lets +onlyGivenNames -merge s6
  have _ : Keeps false a s6 := by
    unfold s6
    refine Keeps.each ?_ (fun _ _ h => ?_)
    · assumption
    · exact keeps_fset ‹_›
  try clear_value s6
  extract_lets +onlyGivenNames -merge s7
  have _ : Keeps false a s7 := by
    unfold s7
    refine Keeps.ite ?_ ?_
    · exact keeps_crcRelease ‹_›
    · assumption
  try clear_value s7
  exact keeps_destDownUpdate (keeps_holdEffUpdate ‹_›)

theorem keeps_undeliver {q : Bool} {a s : State} {x1 : Nat} (h : Keeps q a s) : Keeps q a (State.undeliver s x1) := by
  unfold State.undeliver; exact Keeps.record ‹_›

theorem keeps_abandon {q : Bool} {a s : State} {x1 : Nat → Bool} (h : Keeps q a s) : Keeps q a (State.abandon s x1) := by
  unfold State.abandon
  extract_lets +onlyGivenNames -merge hit; try clear_value hit
  exact Keeps.record ‹_›

theorem keeps_epbReset {q : Bool} {a s : State} {n : Nat} (h : Keeps q a s) : Keeps q a (State.epbReset s n) := by
  unfold State.epbReset
  generalize State.each _ State.crcRelease s = s1, Keeps.each (l := (s.epbAt n).allMovers.filterMap Mover.claim) h (fun _ _ h => keeps_crcRelease h) = h1 at *
  exact keeps_regsClear (keeps_abandon (Keeps.record (s := s1.undeliver n) (keeps_undeliver h1)))

theorem keeps_hubDieReset {a s : State} {x1 : Nat} (h : Keeps false a s) : Keeps false a (State.hubDieReset s x1) := by
  unfold State.hubDieReset
  extract_lets +onlyGivenNames -merge ns; try clear_value ns
  refine keeps_coreReset ?_
  refine Keeps.each ?_ (fun _ _ h => ?_)
  · refine Keeps.each ?_ (fun _ _ h => ?_)
    · assumption
    · exact keeps_linkReset ‹_›
  · exact keeps_epbReset ‹_›

theorem keeps_hbmZero {q : Bool} {a s : State} {x1 x2 : Nat} (h : Keeps q a s) : Keeps q a (State.hbmZero s x1 x2) :=
  ⟨h.1, fun k => memClear_wf _ _ _ (h.2.1 k), h.2.2⟩

theorem keeps_rsvShow {q : Bool} {a s : State} (h : Keeps q a s) : Keeps q a (State.rsvShow s) := by
  unfold State.rsvShow
  extract_lets +onlyGivenNames -merge l; try clear_value l
  exact keeps_fset (keeps_fset (keeps_fset ‹_›))

theorem keeps_fillStart {q : Bool} {a s : State} {x1 x2 x3 : Nat} {x4 : Bool} (h : Keeps q a s) : Keeps q a (State.fillStart s x1 x2 x3 x4) := by
  unfold State.fillStart
  extract_lets +onlyGivenNames -merge _ s1
  have _ : Keeps q a s1 := by unfold s1; exact Keeps.record ‹_›
  try clear_value s1
  refine keeps_rsvShow ?_
  refine Keeps.ite ?_ ?_
  · exact keeps_fsat ‹_›
  · assumption

theorem keeps_unpin {q : Bool} {a s : State} {x1 : Pin → Bool} (h : Keeps q a s) : Keeps q a (State.unpin s x1) := by
  unfold State.unpin; exact keeps_rsvShow (Keeps.record ‹_›)

theorem keeps_rsvDemand {q : Bool} {a : State} {p : Pin} (n : Nat) : ∀ {s : State}, Keeps q a s → Keeps q a (State.rsvDemand s p n) := by
  induction n with
  | zero => intro s h; exact h
  | succ n ih =>
    intro s h; unfold State.rsvDemand
    refine Keeps.ite h ?_
    split
    · exact keeps_fillStart h
    · dsimp only
      refine Keeps.ite h ?_
      split
      · exact h
      · exact ih (keeps_unpin h)

theorem keeps_rsvRetry {q : Bool} {a s : State} (h : Keeps q a s) : Keeps q a (State.rsvRetry s) := by
  unfold State.rsvRetry
  refine Keeps.each ?_ (fun _ _ h => ?_)
  · assumption
  · refine Keeps.ite ?_ ?_
    · exact keeps_rsvDemand _ ‹_›
    · assumption

theorem keeps_rsvStored {q : Bool} {a s : State} {x1 x2 : Nat} (h : Keeps q a s) : Keeps q a (State.rsvStored s x1 x2) := by
  unfold State.rsvStored
  extract_lets +onlyGivenNames -merge st; try clear_value st
  split
  · assumption
  · extract_lets +onlyGivenNames -merge st'; try clear_value st'
    extract_lets +onlyGivenNames -merge _ s1
    have _ : Keeps q a s1 := by unfold s1; exact Keeps.record ‹_›
    try clear_value s1
    refine Keeps.ite ?_ ?_
    · exact keeps_rsvRetry (keeps_unpin ‹_›)
    · assumption

theorem keeps_spnShow {q : Bool} {a s : State} {x1 : Nat} (h : Keeps q a s) : Keeps q a (State.spnShow s x1) := by
  unfold State.spnShow; exact keeps_fset (keeps_fset ‹_›)

theorem keeps_clusterReset {q : Bool} {a s : State} {x1 : Nat} (h : Keeps q a s) : Keeps q a (State.clusterReset s x1) := by
  unfold State.clusterReset
  extract_lets +onlyGivenNames -merge core; try clear_value core
  extract_lets +onlyGivenNames -merge _ s1
  have _ : Keeps q a s1 := by unfold s1; exact Keeps.record ‹_›
  try clear_value s1
  extract_lets +onlyGivenNames -merge s2
  have _ : Keeps q a s2 := by unfold s2; exact keeps_undeliver (keeps_hbmZero (keeps_hbmZero ‹_›))
  try clear_value s2
  extract_lets +onlyGivenNames -merge s3
  have _ : Keeps q a s3 := by unfold s3; exact keeps_regsClear (keeps_abandon ‹_›)
  try clear_value s3
  refine Keeps.each ?_ (fun _ _ h => ?_)
  · exact keeps_spnShow ‹_›
  · exact keeps_rsvStored ‹_›

theorem keeps_hbmReset {q : Bool} {a s : State} {k : Nat} (h : Keeps q a s) : Keeps q a (State.hbmReset s k) := by
  unfold State.hbmReset
  have h0 : Keeps q a { (s.undeliver (112 + k)).hbmZero (hbmKey k 0) (384 * granuleBytes) with fseq := tblDel s.fseq (112 + k) } :=
    Keeps.record (keeps_hbmZero (keeps_undeliver h))
  exact keeps_regsClear (Keeps.ite h0 (Keeps.record h0))

theorem keeps_strmPut {q : Bool} {a s : State} {x1 : Nat} {x2 : Strm} (h : Keeps q a s) : Keeps q a (State.strmPut s x1 x2) := by
  unfold State.strmPut; exact Keeps.record ‹_›

theorem keeps_strmEnd {q : Bool} {a s : State} {x1 : Nat} (h : Keeps q a s) : Keeps q a (State.strmEnd s x1) := by
  unfold State.strmEnd; exact keeps_fset (keeps_unpin (keeps_strmPut ‹_›))

theorem keeps_spnDieReset {q : Bool} {a s : State} {x1 : Nat} (h : Keeps q a s) : Keeps q a (State.spnDieReset s x1) := by
  unfold State.spnDieReset
  extract_lets +onlyGivenNames -merge ends; try clear_value ends
  extract_lets +onlyGivenNames -merge s1
  have _ : Keeps q a s1 := by
    unfold s1
    refine Keeps.each ?_ (fun _ _ h => ?_)
    · assumption
    · exact keeps_clusterReset ‹_›
  try clear_value s1
  extract_lets +onlyGivenNames -merge s2
  have _ : Keeps q a s2 := by
    unfold s2
    refine Keeps.each ?_ (fun _ _ h => ?_)
    · assumption
    · exact keeps_hbmReset ‹_›
  try clear_value s2
  extract_lets +onlyGivenNames -merge s3
  have _ : Keeps q a s3 := by unfold s3; exact keeps_regsClear (keeps_hbmZero ‹_›)
  try clear_value s3
  refine keeps_rsvRetry ?_
  refine Keeps.each ?_ (fun _ _ h => ?_)
  · assumption
  · exact keeps_strmEnd ‹_›

theorem keeps_optCmdsDone {a s : State} {x1 : Nat} (h : Keeps false a s) : Keeps false a (State.optCmdsDone s x1) := by
  unfold State.optCmdsDone
  extract_lets +onlyGivenNames -merge ended; try clear_value ended
  refine Keeps.each ?_ (fun _ _ h => ?_)
  · assumption
  · extract_lets +onlyGivenNames -merge bs; try clear_value bs
    extract_lets +onlyGivenNames -merge _ s1
    have _ : Keeps false a s1 := by
      unfold s1
      refine Keeps.each ?_ (fun _ _ h => ?_)
      · exact Keeps.record ‹_›
      · exact keeps_enWrite ‹_›
    try clear_value s1
    exact keeps_completeTicket ‹_›

theorem keeps_chipletDown {a s : State} {x1 : Nat} (h : Keeps false a s) : Keeps false a (State.chipletDown s x1) := by
  unfold State.chipletDown
  extract_lets +onlyGivenNames -merge gs; try clear_value gs
  extract_lets +onlyGivenNames -merge s1
  have _ : Keeps false a s1 := by
    unfold s1
    refine Keeps.each ?_ (fun _ _ h => ?_)
    · assumption
    · exact keeps_linkReset ‹_›
  try clear_value s1
  extract_lets +onlyGivenNames -merge _ s2
  have _ : Keeps false a s2 := by unfold s2; exact Keeps.record ‹_›
  try clear_value s2
  extract_lets +onlyGivenNames -merge s3
  have _ : Keeps false a s3 := by
    unfold s3
    refine Keeps.each ?_ (fun _ _ h => ?_)
    · assumption
    · refine keeps_fset ?_
      refine Keeps.each ?_ (fun _ _ h => ?_)
      · assumption
      · refine keeps_busUpdate ?_
        refine Keeps.each ?_ (fun _ _ h => ?_)
        · assumption
        · exact keeps_optRingSet (keeps_optHeat ‹_›)
  try clear_value s3
  refine Keeps.each ?_ (fun _ _ h => ?_)
  · assumption
  · exact keeps_optCmdsDone ‹_›

theorem keeps_chipletReset {a s : State} {x1 : Nat} (h : Keeps false a s) : Keeps false a (State.chipletReset s x1) := by
  unfold State.chipletReset; exact keeps_optOk (keeps_regsClear (keeps_chipletDown ‹_›))

theorem keeps_abandonRsv {q : Bool} {a s : State} (h : Keeps q a s) : Keeps q a (State.abandonRsv s) := by
  unfold State.abandonRsv
  extract_lets +onlyGivenNames -merge hit; try clear_value hit
  exact Keeps.record ‹_›

theorem keeps_rsvReset {q : Bool} {a s : State} (h : Keeps q a s) : Keeps q a (State.rsvReset s) := by
  unfold State.rsvReset
  refine keeps_rsvShow ?_
  refine keeps_regsClear ?_
  extract_lets +onlyGivenNames -merge z2
  have _ : Keeps q a z2 := by unfold z2; exact keeps_abandonRsv ‹_›
  try clear_value z2
  exact Keeps.record ‹_›

theorem keeps_hostReset {a s : State} {x1 : Nat} (h : Keeps false a s) : Keeps false a (State.hostReset s x1) := by
  unfold State.hostReset
  have k : Keeps false a { s.abandon (· == 120 + x1) with
      host := { s.host with tgts := s.host.tgts.filter (fun t => t.hp != x1) }
      boot := { s.boot with d3hot := s.boot.d3hot.filter (· != x1), hostLinks := s.boot.hostLinks.filter (· != x1) } } :=
    Keeps.record (keeps_abandon h)
  exact Keeps.ite (keeps_fset (Keeps.record k)) k

theorem keeps_unitDown {a s : State} {x1 : RUnit} (h : Keeps false a s) : Keeps false a (State.unitDown s x1) := by
  unfold State.unitDown
  split
  · exact keeps_hubDieReset ‹_›
  · exact keeps_spnDieReset ‹_›
  · assumption
  · exact keeps_coreReset ‹_›
  · exact keeps_epbReset ‹_›
  · exact keeps_clusterReset ‹_›
  · exact keeps_hbmReset ‹_›
  · exact keeps_chipletReset ‹_›
  · exact keeps_rsvReset ‹_›
  · exact keeps_hostReset ‹_›

theorem keeps_unitReset {a s : State} {x1 : RUnit} {x2 : Nat} {x3 : Option Nat} (h : Keeps false a s) : Keeps false a (State.unitReset s x1 x2 x3) := by
  unfold State.unitReset
  extract_lets +onlyGivenNames -merge s1
  have _ : Keeps false a s1 := by unfold s1; exact keeps_unitDown ‹_›
  try clear_value s1
  exact keeps_heldShow (Keeps.record ‹_›)

theorem keeps_respondTo {a s : State} {x1 : Later} {x2 : Nat} (h : Keeps false a s) : Keeps false a (State.respondTo s x1 x2) := by
  unfold State.respondTo
  refine Keeps.ite ?_ ?_
  · refine Keeps.ite ?_ ?_
    · exact keeps_adminSet ‹_›
    · exact keeps_enWrite ‹_›
  · refine Keeps.ite ?_ ?_
    · split
      · refine Keeps.ite ?_ ?_
        · assumption
        · exact keeps_unitReset ‹_›
      · assumption
    · assumption

theorem keeps_errSettle1 {a s : State} {x1 : Later} (h : Keeps false a s) : Keeps false a (State.errSettle1 s x1) := by
  unfold State.errSettle1
  extract_lets +onlyGivenNames -merge a'; try clear_value a'
  exact keeps_errWrite (keeps_respondTo ‹_›)

theorem keeps_errRest {q : Bool} {a s : State} (h : Keeps q a s) : Keeps q a (State.errRest s) :=
  Keeps.record0 (Keeps.each h (fun _ _ h => keeps_errWrite h))

theorem keeps_errSettle {a : State} (n : Nat) : ∀ {s : State}, Keeps false a s → Keeps false a (State.errSettle n s) := by
  induction n with
  | zero => intro s h; exact keeps_errRest h
  | succ n ih =>
    intro s h; unfold State.errSettle; split
    · exact h
    · exact ih (keeps_errSettle1 ⟨h.1, h.2.1, fun e => nomatch e⟩)

theorem keeps_settleErr {q : Bool} {a s : State} (h : Keeps false a s) : Keeps q a (State.settleErr s) :=
  ⟨(keeps_errSettle 4096 h).1, (keeps_errSettle 4096 h).2.1, fun _ _ => errSettle_later 4096 s⟩

theorem keeps_settled {a s : State} (h : Keeps false a s) : KeepsRes a (State.settled s) := KeepsRes.next (keeps_settleErr h)

theorem keeps_execCloentimStart {s : State} {x0 : List (Nat × Nat)} : KeepsRes s (execCloentimStart x0 s) := by
  unfold execCloentimStart
  refine keeps_settled ?_
  refine keeps_cloentimStart ?_
  first | exact Keeps.refl | assumption

theorem keeps_unitsDone {q : Bool} {a s : State} (h : Keeps q a s) : Keeps q a (State.unitsDone s) := by
  unfold State.unitsDone
  refine Keeps.ite ?_ ?_
  · exact keeps_serviceStart (keeps_wr (keeps_phaseSet ‹_›))
  · assumption

theorem keeps_execBootUnitsDone {s : State} : KeepsRes s (execBootUnitsDone s) := by
  unfold execBootUnitsDone
  refine KeepsRes.next ?_
  refine keeps_unitsDone ?_
  first | exact Keeps.refl | assumption

theorem keeps_bootSlow {q : Bool} {a s : State} (h : Keeps q a s) : Keeps q a (State.bootSlow s) := by
  unfold State.bootSlow
  extract_lets +onlyGivenNames -merge p; try clear_value p
  refine Keeps.ite ?_ ?_
  · assumption
  · exact keeps_errRec (Keeps.record ‹_›)

theorem keeps_execBootSlow {s : State} : KeepsRes s (execBootSlow s) := by
  unfold execBootSlow
  refine KeepsRes.next ?_
  refine keeps_bootSlow ?_
  first | exact Keeps.refl | assumption

theorem keeps_cmdRestart {q : Bool} {a s : State} (h : Keeps q a s) : Keeps q a (State.cmdRestart s) := by
  unfold State.cmdRestart
  extract_lets +onlyGivenNames -merge e; try clear_value e
  extract_lets +onlyGivenNames -merge s1
  have _ : Keeps q a s1 := by unfold s1; exact keeps_regsClear ‹_›
  try clear_value s1
  exact keeps_fset (Keeps.record ‹_›)

theorem keeps_rickFlush {q : Bool} {a s : State} {x1 : RickCmd} (h : Keeps q a s) : Keeps q a (State.rickFlush s x1) := by
  unfold State.rickFlush
  extract_lets +onlyGivenNames -merge len; try clear_value len
  exact keeps_completeTicket ‹_›

theorem keeps_journalPut {q : Bool} {a s : State} (h : Keeps q a s) : Keeps q a (State.journalPut s) := by
  unfold State.journalPut
  extract_lets +onlyGivenNames -merge n; try clear_value n
  extract_lets +onlyGivenNames -merge j; try clear_value j
  extract_lets +onlyGivenNames -merge k; try clear_value k
  extract_lets +onlyGivenNames -merge _ _ r; try clear_value r
  exact keeps_fset (Keeps.record ‹_›)

theorem keeps_rickFlushAll {q : Bool} {a s : State} (h : Keeps q a s) : Keeps q a (State.rickFlushAll s) := by
  unfold State.rickFlushAll
  extract_lets +onlyGivenNames -merge s1
  have _ : Keeps q a s1 := by
    unfold s1
    refine Keeps.each ?_ (fun _ _ h => ?_)
    · assumption
    · exact keeps_rickFlush ‹_›
  try clear_value s1
  exact keeps_journalPut (Keeps.record ‹_›)

theorem keeps_sbdReset {q : Bool} {a s : State} (h : Keeps q a s) : Keeps q a (State.sbdReset s) := by
  unfold State.sbdReset
  extract_lets +onlyGivenNames -merge s1
  have _ : Keeps q a s1 := by
    unfold s1
    refine Keeps.each ?_ (fun _ _ h => ?_)
    · assumption
    · exact keeps_completeTicket ‹_›
  try clear_value s1
  extract_lets +onlyGivenNames -merge _ s2
  have _ : Keeps q a s2 := by unfold s2; exact Keeps.record ‹_›
  try clear_value s2
  exact keeps_recover (keeps_regsClear ‹_›)

theorem keeps_crcSet {q : Bool} {a s : State} {x1 x2 x3 : Nat} (h : Keeps q a s) : Keeps q a (State.crcSet s x1 x2 x3) := by
  unfold State.crcSet
  extract_lets +onlyGivenNames -merge _ s1
  have _ : Keeps q a s1 := by unfold s1; exact Keeps.record ‹_›
  try clear_value s1
  extract_lets +onlyGivenNames -merge v; try clear_value v
  exact keeps_fset (keeps_fset ‹_›)

theorem keeps_crcRestart {q : Bool} {a s : State} {x1 : Nat} (h : Keeps q a s) : Keeps q a (State.crcRestart s x1) := by
  unfold State.crcRestart; exact keeps_crcSet ‹_›

theorem keeps_crcTelReset {q : Bool} {a s : State} (h : Keeps q a s) : Keeps q a (State.crcTelReset s) := by
  unfold State.crcTelReset
  extract_lets +onlyGivenNames -merge park; try clear_value park
  extract_lets +onlyGivenNames -merge _ s1
  have _ : Keeps q a s1 := by unfold s1; exact Keeps.record ‹_›
  try clear_value s1
  extract_lets +onlyGivenNames -merge s2
  have _ : Keeps q a s2 := by
    unfold s2
    refine Keeps.each ?_ (fun _ _ h => ?_)
    · assumption
    · exact keeps_completeTicket ‹_›
  try clear_value s2
  extract_lets +onlyGivenNames -merge s3
  have _ : Keeps q a s3 := by
    unfold s3
    refine Keeps.each ?_ (fun _ _ h => ?_)
    · assumption
    · exact keeps_crcRestart (keeps_crcRelease ‹_›)
  try clear_value s3
  exact keeps_regsClear ‹_›

theorem keeps_fillsAbandon {q : Bool} {a s : State} (h : Keeps q a s) : Keeps q a (State.fillsAbandon s) := by
  unfold State.fillsAbandon; exact keeps_rsvShow (Keeps.record ‹_›)

theorem keeps_rickDown {q : Bool} {a s : State} {x1 : Nat} (h : Keeps q a s) : Keeps q a (State.rickDown s x1) := by
  unfold State.rickDown
  extract_lets +onlyGivenNames -merge s1
  have _ : Keeps q a s1 := by
    unfold s1
    refine Keeps.each ?_ (fun _ _ h => ?_)
    · assumption
    · exact keeps_completeTicket ‹_›
  try clear_value s1
  extract_lets +onlyGivenNames -merge _ s2
  have _ : Keeps q a s2 := by unfold s2; exact Keeps.record ‹_›
  try clear_value s2
  exact keeps_fillsAbandon (keeps_fset (keeps_regsClear ‹_›))

theorem keeps_warmUnits {a s : State} (h : Keeps false a s) : Keeps false a (State.warmUnits s) := by
  unfold State.warmUnits
  extract_lets +onlyGivenNames -merge us; try clear_value us
  extract_lets +onlyGivenNames -merge s1
  have _ : Keeps false a s1 := by
    unfold s1
    refine Keeps.each ?_ (fun _ _ h => ?_)
    · exact keeps_rickFlushAll ‹_›
    · exact keeps_unitDown ‹_›
  try clear_value s1
  exact keeps_sbdReset (keeps_crcTelReset (keeps_rickDown ‹_›))

theorem keeps_warmDown {a s : State} (h : Keeps false a s) : Keeps false a (State.warmDown s) := by
  unfold State.warmDown
  extract_lets +onlyGivenNames -merge links s0
  have h0 : Keeps false a s0 := keeps_warmUnits h
  clear_value s0 links
  extract_lets +onlyGivenNames -merge s1
  have h1 : Keeps false a s1 := keeps_cmdRestart (Keeps.record h0)
  clear_value s1
  extract_lets +onlyGivenNames -merge s2 s3
  have h2 : Keeps false a s2 := Keeps.each h1 (fun _ _ h => keeps_fset h)
  have h3 : Keeps false a s3 := Keeps.record h2
  exact keeps_fset (keeps_heldShow h3)

theorem keeps_warmReset {a s : State} (h : Keeps false a s) : Keeps false a (State.warmReset s) := by
  unfold State.warmReset; exact keeps_settleErr (keeps_warmDown ‹_›)

theorem keeps_hostPortReset {a s : State} {x1 : Nat} {x2 : Bool} (h : Keeps false a s) : Keeps false a (State.hostPortReset s x1 x2) := by
  unfold State.hostPortReset
  refine Keeps.ite ?_ ?_
  · assumption
  · refine Keeps.ite ?_ ?_
    · exact Keeps.record ‹_›
    · refine Keeps.ite ?_ ?_
      · assumption
      · refine Keeps.ite ?_ ?_
        · exact keeps_unitReset ‹_›
        · exact keeps_unitOut (keeps_unitReset ‹_›)

theorem keeps_execHostPortReset {s : State} {x0 : Nat} {x1 : Bool} : KeepsRes s (execHostPortReset x0 x1 s) := by
  unfold execHostPortReset
  refine KeepsRes.ite ?_ ?_
  · refine keeps_settled ?_
    refine keeps_hostPortReset ?_
    first | exact Keeps.refl | assumption
  · refine KeepsRes.next ?_
    first | exact Keeps.refl | assumption

theorem keeps_perstDeassert {q : Bool} {a s : State} {x1 : Nat} (h : Keeps q a s) : Keeps q a (State.perstDeassert s x1) := by
  unfold State.perstDeassert
  split
  · refine Keeps.ite ?_ ?_
    · exact keeps_unitOut ‹_›
    · assumption
  · assumption

theorem keeps_execHostPerstDeassert {s : State} {x0 : Nat} : KeepsRes s (execHostPerstDeassert x0 s) := by
  unfold execHostPerstDeassert
  refine KeepsRes.ite ?_ ?_
  · refine keeps_settled ?_
    refine keeps_perstDeassert ?_
    first | exact Keeps.refl | assumption
  · refine KeepsRes.next ?_
    first | exact Keeps.refl | assumption

theorem keeps_rootUnlock {q : Bool} {a s : State} {x1 : Nat} (h : Keeps q a s) : Keeps q a (State.rootUnlock s x1) := by
  unfold State.rootUnlock
  refine Keeps.ite ?_ ?_
  · assumption
  · exact keeps_errRec (Keeps.record ‹_›)

theorem keeps_rootRelock {q : Bool} {a s : State} (h : Keeps q a s) : Keeps q a (State.rootRelock s) := by
  unfold State.rootRelock
  split
  · exact keeps_errRec (Keeps.record ‹_›)
  · assumption

theorem keeps_execRootUnlock {s : State} {x0 : Nat} : KeepsRes s (execRootUnlock x0 s) := by
  unfold execRootUnlock
  refine keeps_settled ?_
  refine keeps_rootUnlock ?_
  first | exact Keeps.refl | assumption

theorem keeps_execRootRelock {s : State} : KeepsRes s (execRootRelock s) := by
  unfold execRootRelock
  refine keeps_settled ?_
  refine keeps_rootRelock ?_
  first | exact Keeps.refl | assumption

theorem keeps_resetStart {a s : State} {x1 : RUnit} {x2 : Nat} {x3 : Option Nat} (h : Keeps false a s) : Keeps false a (State.resetStart s x1 x2 x3) := by
  unfold State.resetStart; exact keeps_unitReset (keeps_winClear ‹_›)

theorem keeps_noAns {q : Bool} {a s : State} {x1 : Nat} (h : Keeps q a s) : KeepsA q a (State.noAns s x1) := by
  unfold State.noAns; exact KeepsA.st ‹_›

theorem keeps_ticketNew {q : Bool} {a s : State} {x1 : Nat} {x2 : Cmd} (h : Keeps q a s) : KeepsR q a (State.ticketNew s x1 x2) := by
  unfold State.ticketNew
  extract_lets +onlyGivenNames -merge _ s1
  have _ : Keeps q a s1 := by unfold s1; exact Keeps.record ‹_›
  try clear_value s1
  exact KeepsR.mk ‹_›

theorem keeps_defer {q : Bool} {a s : State} {x1 : Cmd} {x2 : Nat → State → State} (h : Keeps q a s) (k2 : ∀ y0 y1, Keeps q a y1 → Keeps q a (x2 y0 y1)) : KeepsA q a (State.defer s x1 x2) := by
  unfold State.defer
  split
  · exact keeps_noAns ‹_›
  · split
    · rename_i heq
      have := KeepsR.eq heq (show KeepsR q a _ from by
        exact keeps_ticketNew ‹_›
        )
      refine KeepsA.st ?_
      refine k2 _ _ ?_
      assumption

theorem keeps_cmdResetPulse {a s : State} {c : Cmd} {u : RUnit} (h : Keeps false a s) : KeepsA false a (State.cmdResetPulse s c u) := by
  unfold State.cmdResetPulse
  dsimp only
  refine KeepsA.ite (keeps_defer h (fun _ _ h => Keeps.record h)) (KeepsA.ite (keeps_noAns h) (KeepsA.ite ?_ (keeps_defer h (fun _ _ h => keeps_settleErr (keeps_resetStart h)))))
  exact KeepsA.withAfter (keeps_defer h (fun _ _ h => h)) (fun _ h => Keeps.ite (keeps_warmReset h) h)

theorem keeps_cmdResetAssert {a s : State} {c : Cmd} {u : RUnit} (h : Keeps false a s) : KeepsA false a (State.cmdResetAssert s c u) := by
  unfold State.cmdResetAssert
  dsimp only
  refine KeepsA.ite (keeps_noAns h) ?_
  exact KeepsA.withAfter (keeps_defer h (fun _ _ h => keeps_settleErr (keeps_resetStart h))) (fun _ h => Keeps.ite (keeps_completeTicket h) h)

theorem keeps_cmdResetRelease {q : Bool} {a s : State} {x1 : Cmd} {x2 : RUnit} (h : Keeps q a s) : KeepsA q a (State.cmdResetRelease s x1 x2) := by
  unfold State.cmdResetRelease
  refine KeepsA.ite ?_ ?_
  · exact keeps_noAns ‹_›
  · refine keeps_defer ?_ (fun _ _ h => ?_)
    · assumption
    · exact Keeps.record ‹_›

theorem keeps_cmdResetUnit {a s : State} {x1 : Cmd} (h : Keeps false a s) : KeepsA false a (State.cmdResetUnit s x1) := by
  unfold State.cmdResetUnit
  split
  · exact keeps_noAns ‹_›
  · refine KeepsA.ite ?_ ?_
    · exact keeps_noAns ‹_›
    · refine KeepsA.ite ?_ ?_
      · exact keeps_cmdResetPulse ‹_›
      · refine KeepsA.ite ?_ ?_
        · exact keeps_cmdResetAssert ‹_›
        · exact keeps_cmdResetRelease ‹_›

theorem keeps_unitLeaves {q : Bool} {a s : State} {x1 x2 : Nat} (h : Keeps q a s) : Keeps q a (State.unitLeaves s x1 x2) := by
  unfold State.unitLeaves
  split
  · assumption
  · refine Keeps.ite ?_ ?_
    · assumption
    · split
      · refine Keeps.ite ?_ ?_
        · exact keeps_unitOut ‹_›
        · assumption
      · assumption

theorem keeps_execUnitOutOfReset {s : State} {x0 x1 : Nat} : KeepsRes s (execUnitOutOfReset x0 x1 s) := by
  unfold execUnitOutOfReset
  refine keeps_settled ?_
  refine keeps_unitLeaves ?_
  first | exact Keeps.refl | assumption

theorem keeps_okAns {q : Bool} {a s : State} {x1 : List Word} (h : Keeps q a s) : KeepsA q a (State.okAns s x1) := by
  unfold State.okAns; exact KeepsA.st ‹_›

theorem keeps_cmdXlateInval {q : Bool} {a s : State} {c : Cmd} (h : Keeps q a s) : KeepsA q a (State.cmdXlateInval s c) := by
  unfold State.cmdXlateInval
  dsimp only
  refine KeepsA.ite (keeps_noAns h) (KeepsA.ite (keeps_defer h (fun _ _ h => ?_)) (keeps_okAns ?_))
  · exact Keeps.record (Keeps.each h (fun _ _ h => keeps_epbMod h))
  · exact Keeps.each h (fun _ _ h => keeps_epbMod h)

theorem keeps_xlateDrainDone {q : Bool} {a s : State} {x1 : Nat} (h : Keeps q a s) : Keeps q a (State.xlateDrainDone s x1) := by
  unfold State.xlateDrainDone
  split
  · assumption
  · refine Keeps.ite ?_ ?_
    · assumption
    · exact keeps_completeTicket (Keeps.record ‹_›)

theorem keeps_execXlateInvalDrainDone {s : State} {x0 : Nat} : KeepsRes s (execXlateInvalDrainDone x0 s) := by
  unfold execXlateInvalDrainDone
  refine KeepsRes.next ?_
  refine keeps_xlateDrainDone ?_
  first | exact Keeps.refl | assumption

theorem keeps_prefetchStart {q : Bool} {a s : State} {x1 x2 x3 : Nat} {x4 : Bool} (h : Keeps q a s) : Keeps q a (State.prefetchStart s x1 x2 x3 x4) := by
  unfold State.prefetchStart
  split
  · assumption
  · refine Keeps.ite ?_ ?_
    · extract_lets +onlyGivenNames -merge w; try clear_value w
      exact keeps_fsat (keeps_epbMod ‹_›)
    · assumption

theorem keeps_execPrefetchStart {s : State} {x0 x1 x2 : Nat} {x3 : Bool} : KeepsRes s (execPrefetchStart x0 x1 x2 x3 s) := by
  unfold execPrefetchStart
  refine KeepsRes.next ?_
  refine keeps_prefetchStart ?_
  first | exact Keeps.refl | assumption

theorem keeps_lowAdvance {q : Bool} {a : State} {n r : Nat} (k : Nat) : ∀ {s : State}, Keeps q a s → Keeps q a (State.lowAdvance n r k s) := by
  induction k with
  | zero => intro s h; exact h
  | succ k ih =>
    intro s h; unfold State.lowAdvance; dsimp only
    exact Keeps.ite (ih (keeps_epbMod (keeps_fwrap h))) h

theorem keeps_itemDone {q : Bool} {a s : State} {x1 x2 x3 : Nat} (h : Keeps q a s) : Keeps q a (State.itemDone s x1 x2 x3) := by
  unfold State.itemDone
  extract_lets +onlyGivenNames -merge s1
  have _ : Keeps q a s1 := by unfold s1; exact keeps_epbMod ‹_›
  try clear_value s1
  exact keeps_lowAdvance _ ‹_›

theorem keeps_setLine {q : Bool} {a s : State} {x1 : Nat} {x2 : LineSt} (h : Keeps q a s) : Keeps q a (State.setLine s x1 x2) := by
  unfold State.setLine; exact Keeps.record ‹_›

theorem keeps_hbmCe {q : Bool} {a s : State} {x1 : Nat} (h : Keeps q a s) : Keeps q a (State.hbmCe s x1) := by
  unfold State.hbmCe
  extract_lets +onlyGivenNames -merge k; try clear_value k
  extract_lets +onlyGivenNames -merge s1
  have _ : Keeps q a s1 := by unfold s1; exact keeps_setLine (keeps_fsat ‹_›)
  try clear_value s1
  extract_lets +onlyGivenNames -merge due; try clear_value due
  refine Keeps.ite ?_ ?_
  · exact keeps_errRec (Keeps.record ‹_›)
  · assumption

theorem keeps_lineCe {q : Bool} {a s : State} {x1 : Nat} (h : Keeps q a s) : Keeps q a (State.lineCe s x1) := by
  unfold State.lineCe
  refine Keeps.ite ?_ ?_
  · exact keeps_setLine ‹_›
  · exact keeps_hbmCe ‹_›

theorem keeps_store {q : Bool} {a s : State} {x1 : Nat} {x2 : List Byte} (h : Keeps q a s) : Keeps q a (State.store s x1 x2) :=
  ⟨h.1, fun k => memWrite_wf _ _ _ (h.2.1 k), h.2.2⟩

theorem keeps_hbmUe {q : Bool} {a s : State} {x1 x2 : Nat} (h : Keeps q a s) : Keeps q a (State.hbmUe s x1 x2) := by
  unfold State.hbmUe
  extract_lets +onlyGivenNames -merge k; try clear_value k
  extract_lets +onlyGivenNames -merge s1
  have _ : Keeps q a s1 := by unfold s1; exact keeps_fset (keeps_fsat ‹_›)
  try clear_value s1
  exact keeps_errRec (keeps_setLine ‹_›)

theorem keeps_lineUe {q : Bool} {a s : State} {x1 x2 : Nat} (h : Keeps q a s) : Keeps q a (State.lineUe s x1 x2) := by
  unfold State.lineUe
  refine Keeps.ite ?_ ?_
  · exact keeps_errRec (keeps_setLine ‹_›)
  · exact keeps_hbmUe ‹_›

theorem keeps_storeLines {q : Bool} {a s : State} {x1 : Nat} {x2 : List Byte} (h : Keeps q a s) : KeepsL q a (State.storeLines s x1 x2) := by
  unfold State.storeLines
  extract_lets +onlyGivenNames -merge n; try clear_value n
  extract_lets +onlyGivenNames -merge partBad; try clear_value partBad
  refine KeepsL.ite ?_ ?_
  · extract_lets +onlyGivenNames -merge s1
    have _ : Keeps q a s1 := by
      unfold s1
      refine Keeps.each ?_ (fun _ _ h => ?_)
      · assumption
      · refine Keeps.ite ?_ ?_
        · exact keeps_setLine ‹_›
        · refine Keeps.ite ?_ ?_
          · exact keeps_lineCe ‹_›
          · assumption
    try clear_value s1
    exact KeepsL.mk (keeps_store ‹_›)
  · refine KeepsL.mk ?_
    refine Keeps.each ?_ (fun _ _ h => ?_)
    · assumption
    · exact keeps_lineUe ‹_›

theorem keeps_internalWrite {q : Bool} {a s : State} {x1 : Nat} {x2 : List Byte} (h : Keeps q a s) : KeepsL q a (State.internalWrite s x1 x2) := by
  unfold State.internalWrite
  extract_lets +onlyGivenNames -merge e; try clear_value e
  refine KeepsL.ite ?_ ?_
  · refine KeepsL.ite ?_ ?_
    · exact KeepsL.mk ‹_›
    · split
      · exact keeps_storeLines ‹_›
      · exact KeepsL.mk ‹_›
  · refine KeepsL.ite ?_ ?_
    · extract_lets +onlyGivenNames -merge h'; try clear_value h'
      refine KeepsL.ite ?_ ?_
      · exact KeepsL.mk (keeps_emit ‹_›)
      · exact KeepsL.mk ‹_›
    · exact KeepsL.mk ‹_›

theorem keeps_ringRecord {q : Bool} {a s : State} {x1 x2 x3 x4 x5 x6 x7 x8 x9 : Nat} (h : Keeps q a s) : Keeps q a (State.ringRecord s x1 x2 x3 x4 x5 x6 x7 x8 x9) := by
  unfold State.ringRecord
  extract_lets +onlyGivenNames -merge q'; try clear_value q'
  extract_lets +onlyGivenNames -merge phase; try clear_value phase
  extract_lets +onlyGivenNames -merge w; try clear_value w
  extract_lets +onlyGivenNames -merge x'
  have _ : KeepsL q a x' := by unfold x'; exact keeps_internalWrite ‹_›
  try clear_value x'
  refine Keeps.ite ?_ ?_
  · exact KeepsL.out ‹_›
  · exact keeps_fault (KeepsL.out ‹_›)

theorem keeps_ringIrq {q : Bool} {a s : State} {x1 x2 : Nat} (h : Keeps q a s) : Keeps q a (State.ringIrq s x1 x2) := by
  unfold State.ringIrq; exact keeps_emit ‹_›

theorem keeps_itemHalt {q : Bool} {a s : State} {x1 x2 : Nat} {x3 : Bool} (h : Keeps q a s) : Keeps q a (State.itemHalt s x1 x2 x3) := by
  unfold State.itemHalt
  refine Keeps.ite ?_ ?_
  · exact keeps_fset ‹_›
  · assumption

theorem keeps_itemCrc {q : Bool} {a s : State} {x1 : Mover} (h : Keeps q a s) : Keeps q a (State.itemCrc s x1) := by
  unfold State.itemCrc
  split
  · refine Keeps.ite ?_ ?_
    · assumption
    · exact keeps_crcRelease ‹_›
  · assumption

theorem keeps_itemEnd {q : Bool} {a s : State} {x1 x2 : Nat} {x3 : Mover} {x4 x5 : Nat} {x6 : Bool} (h : Keeps q a s) : Keeps q a (State.itemEnd s x1 x2 x3 x4 x5 x6) := by
  unfold State.itemEnd
  extract_lets +onlyGivenNames -merge w; try clear_value w
  extract_lets +onlyGivenNames -merge s1
  have _ : Keeps q a s1 := by unfold s1; exact keeps_itemDone (keeps_ringRecord ‹_›)
  try clear_value s1
  extract_lets +onlyGivenNames -merge s2
  have _ : Keeps q a s2 := by
    unfold s2
    refine Keeps.ite ?_ ?_
    · exact keeps_ringIrq ‹_›
    · assumption
  try clear_value s2
  exact keeps_itemHalt (keeps_itemCrc ‹_›)

theorem keeps_ringShow {q : Bool} {a s : State} {x1 x2 : Nat} (h : Keeps q a s) : Keeps q a (State.ringShow s x1 x2) := by
  unfold State.ringShow
  extract_lets +onlyGivenNames -merge s1
  have _ : Keeps q a s1 := by unfold s1; exact keeps_fset (keeps_fset ‹_›)
  try clear_value s1
  extract_lets +onlyGivenNames -merge s2
  have _ : Keeps q a s2 := by unfold s2; exact keeps_fset ‹_›
  try clear_value s2
  exact keeps_setBit ‹_›

theorem keeps_cancelParks {q : Bool} {a s : State} {x1 x2 x3 : Nat} (h : Keeps q a s) : KeepsR q a (State.cancelParks s x1 x2 x3) := by
  unfold State.cancelParks
  extract_lets +onlyGivenNames -merge l; try clear_value l
  extract_lets +onlyGivenNames -merge s1
  have _ : Keeps q a s1 := by unfold s1; exact keeps_epbMod ‹_›
  try clear_value s1
  refine KeepsR.mk ?_
  refine Keeps.each ?_ (fun _ _ h => ?_)
  · exact keeps_ringShow ‹_›
  · exact keeps_itemEnd ‹_›

theorem keeps_touch {q : Bool} {a s : State} {x1 x2 x3 : Nat} (h : Keeps q a s) : Keeps q a (State.touch s x1 x2 x3) := by
  unfold State.touch
  refine Keeps.each ?_ (fun _ _ h => ?_)
  · assumption
  · split
    · exact keeps_lineCe ‹_›
    · exact keeps_lineUe ‹_›
    · assumption

theorem keeps_internalTouch {q : Bool} {a s : State} {x1 x2 : Nat} (h : Keeps q a s) : Keeps q a (State.internalTouch s x1 x2) := by
  unfold State.internalTouch
  extract_lets +onlyGivenNames -merge e; try clear_value e
  refine Keeps.ite ?_ ?_
  · refine Keeps.ite ?_ ?_
    · assumption
    · split
      · exact keeps_touch ‹_›
      · assumption
  · assumption

theorem keeps_itemWord0 {q : Bool} {a s : State} {x1 x2 x3 : Nat} (h : Keeps q a s) : KeepsR q a (State.itemWord0 s x1 x2 x3) := by
  unfold State.itemWord0
  extract_lets +onlyGivenNames -merge gfa; try clear_value gfa
  exact KeepsR.mk (keeps_internalTouch ‹_›)

theorem keeps_cancelItem {q : Bool} {a s : State} {n r c : Nat} (h : Keeps q a s) : Keeps q a (State.cancelItem s n r c) := by
  unfold State.cancelItem
  dsimp only
  have k := keeps_itemWord0 (x1 := n) (x2 := r) (x3 := s.ringFetch n r) h
  generalize s.itemWord0 n r (s.ringFetch n r) = w at k ⊢
  have k1 := keeps_itemDone (x1 := n) (x2 := r) (x3 := s.ringFetch n r) (keeps_ringRecord (x1 := n) (x2 := r) (x3 := 0) (x4 := s.ringFetch n r) (x5 := c) (x6 := 0)
    (x7 := bits w.1 31 0) (x8 := 0) (x9 := 0) (keeps_fwrap (x1 := Fld.epbRingFetch_FETCH) (x2 := n) (x3 := r) (x4 := 1) (KeepsR.out k)))
  exact Keeps.ite (keeps_ringIrq k1) k1

theorem keeps_cancelItems {q : Bool} {a : State} {n r c : Nat} (k : Nat) : ∀ {s : State}, Keeps q a s → Keeps q a (State.cancelItems s n r c k) := by
  induction k with
  | zero => intro s h; exact h
  | succ k ih =>
    intro s h; unfold State.cancelItems; exact ih (keeps_cancelItem h)

theorem keeps_ringFlush {q : Bool} {a s : State} {x1 x2 : Nat} {x3 : Bool} {x4 : Nat} (h : Keeps q a s) : KeepsRR q a (State.ringFlush s x1 x2 x3 x4) := by
  unfold State.ringFlush
  extract_lets +onlyGivenNames -merge tail; try clear_value tail
  extract_lets +onlyGivenNames -merge was; try clear_value was
  extract_lets +onlyGivenNames -merge words; try clear_value words
  extract_lets +onlyGivenNames -merge s1
  have _ : Keeps q a s1 := by
    unfold s1
    refine Keeps.ite ?_ ?_
    · assumption
    · exact keeps_fset ‹_›
  try clear_value s1
  extract_lets +onlyGivenNames -merge todo; try clear_value todo
  split
  · rename_i heq
    have := KeepsR.eq heq (show KeepsR q a _ from by
      refine KeepsR.ite ?_ ?_
      · exact keeps_cancelParks (keeps_cancelItems _ ‹_›)
      · exact KeepsR.mk ‹_›
      )
    extract_lets +onlyGivenNames -merge count; try clear_value count
    extract_lets +onlyGivenNames -merge s3
    have _ : Keeps q a s3 := by
      unfold s3
      refine Keeps.ite ?_ ?_
      · assumption
      · exact keeps_ringRecord (KeepsR.out (keeps_draw ‹_›))
    try clear_value s3
    exact KeepsRR.mk (keeps_ringShow (keeps_fset ‹_›))

theorem keeps_cmdRingFlush {q : Bool} {a s : State} {x1 : Cmd} (h : Keeps q a s) : KeepsA q a (State.cmdRingFlush s x1) := by
  unfold State.cmdRingFlush
  extract_lets +onlyGivenNames -merge w; try clear_value w
  extract_lets +onlyGivenNames -merge n; try clear_value n
  extract_lets +onlyGivenNames -merge r; try clear_value r
  refine KeepsA.ite ?_ ?_
  · exact keeps_noAns ‹_›
  · split
    · rename_i heq
      have := KeepsRR.eq heq (show KeepsRR q a _ from by
        exact keeps_ringFlush ‹_›
        )
      exact KeepsA.st ‹_›

theorem keeps_ringOpen {q : Bool} {a s : State} {x1 x2 : Nat} (h : Keeps q a s) : KeepsA q a (State.ringOpen s x1 x2) := by
  unfold State.ringOpen
  extract_lets +onlyGivenNames -merge st; try clear_value st
  refine KeepsA.ite ?_ ?_
  · exact keeps_noAns ‹_›
  · refine KeepsA.ite ?_ ?_
    · exact keeps_noAns ‹_›
    · refine KeepsA.ite ?_ ?_
      · exact keeps_noAns ‹_›
      · refine KeepsA.ite ?_ ?_
        · exact keeps_noAns ‹_›
        · refine KeepsA.ite ?_ ?_
          · extract_lets +onlyGivenNames -merge s1
            have _ : Keeps q a s1 := by unfold s1; exact keeps_fset (keeps_fset (keeps_fset (keeps_fset ‹_›)))
            try clear_value s1
            exact keeps_okAns (keeps_ringShow (keeps_fset (keeps_epbMod ‹_›)))
          · extract_lets +onlyGivenNames -merge s1
            have _ : Keeps q a s1 := by unfold s1; exact keeps_fset ‹_›
            try clear_value s1
            exact keeps_okAns (keeps_ringShow (keeps_fset ‹_›))

theorem keeps_ringRun {q : Bool} {a s : State} {x1 x2 : Nat} (h : Keeps q a s) : KeepsA q a (State.ringRun s x1 x2) := by
  unfold State.ringRun
  refine KeepsA.ite ?_ ?_
  · exact keeps_noAns ‹_›
  · exact keeps_okAns (keeps_fset ‹_›)

theorem keeps_ringClose {q : Bool} {a s : State} {x1 x2 : Nat} (h : Keeps q a s) : KeepsA q a (State.ringClose s x1 x2) := by
  unfold State.ringClose
  refine KeepsA.ite ?_ ?_
  · exact keeps_noAns ‹_›
  · refine KeepsA.ite ?_ ?_
    · exact keeps_noAns ‹_›
    · exact keeps_okAns (keeps_ringShow (keeps_fset ‹_›))

theorem keeps_cmdRingCtrl {q : Bool} {a s : State} {x1 : Cmd} (h : Keeps q a s) : KeepsA q a (State.cmdRingCtrl s x1) := by
  unfold State.cmdRingCtrl
  extract_lets +onlyGivenNames -merge w; try clear_value w
  extract_lets +onlyGivenNames -merge n; try clear_value n
  extract_lets +onlyGivenNames -merge r; try clear_value r
  refine KeepsA.ite ?_ ?_
  · exact keeps_noAns ‹_›
  · refine KeepsA.ite ?_ ?_
    · exact keeps_ringOpen ‹_›
    · refine KeepsA.ite ?_ ?_
      · exact keeps_ringRun ‹_›
      · refine KeepsA.ite ?_ ?_
        · exact keeps_ringClose ‹_›
        · exact keeps_noAns ‹_›

theorem keeps_setMode {q : Bool} {a s : State} {x1 : Nat} {x2 : Bool} (h : Keeps q a s) : Keeps q a (State.setMode s x1 x2) := by
  unfold State.setMode
  refine Keeps.ite ?_ ?_
  · assumption
  · extract_lets +onlyGivenNames -merge s1
    have _ : Keeps q a s1 := by
      unfold s1
      refine Keeps.ite ?_ ?_
      · exact keeps_setBit ‹_›
      · exact keeps_setBit ‹_›
    try clear_value s1
    refine Keeps.ite ?_ ?_
    · assumption
    · refine Keeps.each ?_ (fun _ _ h => ?_)
      · assumption
      · exact keeps_subSet ‹_›

theorem keeps_cmdSchedMode {q : Bool} {a s : State} {c : Cmd} (h : Keeps q a s) : KeepsA q a (State.cmdSchedMode s c) := by
  unfold State.cmdSchedMode
  dsimp only
  have k := Keeps.each (l := (setBitsOf (c.word 1) 64 ++ (setBitsOf (c.word 2) 60).map (· + 64)).filter s.egressFree) h
    (fun u p h => keeps_setMode (x1 := p) (x2 := bit (c.word 0) 0) h)
  exact KeepsA.ite (keeps_noAns h) (KeepsA.ite (keeps_okAns k) (KeepsA.mkLater k (fun _ _ h => Keeps.record h)))

theorem keeps_cmdQueueSet {q : Bool} {a s : State} {x1 : Cmd} (h : Keeps q a s) : KeepsA q a (State.cmdQueueSet s x1) := by
  unfold State.cmdQueueSet
  extract_lets +onlyGivenNames -merge w; try clear_value w
  extract_lets +onlyGivenNames -merge v; try clear_value v
  extract_lets +onlyGivenNames -merge q'; try clear_value q'
  extract_lets +onlyGivenNames -merge rate; try clear_value rate
  extract_lets +onlyGivenNames -merge burst; try clear_value burst
  refine KeepsA.ite ?_ ?_
  · exact keeps_noAns ‹_›
  · refine KeepsA.ite ?_ ?_
    · exact keeps_noAns ‹_›
    · extract_lets +onlyGivenNames -merge x'; try clear_value x'
      exact keeps_okAns (Keeps.record ‹_›)

theorem keeps_cmdNop {q : Bool} {a s : State} {x1 : Cmd} (h : Keeps q a s) : KeepsA q a (State.cmdNop s x1) := by
  unfold State.cmdNop; exact keeps_okAns ‹_›

theorem keeps_cmdIdent {q : Bool} {a s : State} {x1 : Cmd} (h : Keeps q a s) : KeepsA q a (State.cmdIdent s x1) := by
  unfold State.cmdIdent; exact keeps_okAns ‹_›

theorem keeps_cmdTicketQuery {q : Bool} {a s : State} {x1 : Cmd} (h : Keeps q a s) : KeepsA q a (State.cmdTicketQuery s x1) := by
  unfold State.cmdTicketQuery
  extract_lets +onlyGivenNames -merge n; try clear_value n
  split
  · exact keeps_noAns ‹_›
  · refine KeepsA.ite ?_ ?_
    · exact keeps_noAns ‹_›
    · exact KeepsA.st ‹_›

theorem keeps_domUp {q : Bool} {a s : State} {x1 x2 : Nat} (h : Keeps q a s) : Keeps q a (State.domUp s x1 x2) := by
  unfold State.domUp
  extract_lets +onlyGivenNames -merge s1
  have _ : Keeps q a s1 := by unfold s1; exact keeps_fset ‹_›
  try clear_value s1
  refine Keeps.ite ?_ ?_
  · exact keeps_fset ‹_›
  · refine Keeps.ite ?_ ?_
    · exact keeps_autoSearch ‹_›
    · refine Keeps.ite ?_ ?_
      · refine Keeps.each ?_ (fun _ _ h => ?_)
        · assumption
        · exact keeps_crcRestart ‹_›
      · refine Keeps.each ?_ (fun _ _ h => ?_)
        · assumption
        · exact keeps_lkRelease ‹_›

theorem keeps_damperShow {q : Bool} {a s : State} (h : Keeps q a s) : Keeps q a (State.damperShow s) := by
  unfold State.damperShow; exact keeps_fset ‹_›

theorem keeps_wake {q : Bool} {a s : State} {x1 : Nat} (h : Keeps q a s) : Keeps q a (State.wake s x1) := by
  unfold State.wake
  extract_lets +onlyGivenNames -merge _ s1
  have _ : Keeps q a s1 := by unfold s1; exact Keeps.record ‹_›
  try clear_value s1
  extract_lets +onlyGivenNames -merge st; try clear_value st
  refine Keeps.ite ?_ ?_
  · assumption
  · refine Keeps.ite ?_ ?_
    · exact keeps_domUp ‹_›
    · refine Keeps.ite ?_ ?_
      · assumption
      · extract_lets +onlyGivenNames -merge r; try clear_value r
        exact keeps_damperShow (Keeps.record ‹_›)

theorem keeps_cmdServiceStrict {q : Bool} {a s : State} {x1 : Cmd} (h : Keeps q a s) : KeepsA q a (State.cmdServiceStrict s x1) := by
  unfold State.cmdServiceStrict
  refine KeepsA.ite ?_ ?_
  · exact keeps_noAns ‹_›
  · extract_lets +onlyGivenNames -merge _ s1
    have _ : Keeps q a s1 := by unfold s1; exact keeps_fset (Keeps.record ‹_›)
    try clear_value s1
    extract_lets +onlyGivenNames -merge asleep; try clear_value asleep
    refine keeps_okAns ?_
    refine Keeps.ite ?_ ?_
    · refine Keeps.each ?_ (fun _ _ h => ?_)
      · exact keeps_phaseSet ‹_›
      · exact keeps_wake ‹_›
    · assumption

theorem keeps_cmdServiceRound {q : Bool} {a s : State} {x1 : Cmd} (h : Keeps q a s) : KeepsA q a (State.cmdServiceRound s x1) := by
  unfold State.cmdServiceRound
  refine KeepsA.ite ?_ ?_
  · exact keeps_noAns ‹_›
  · exact keeps_okAns (keeps_serviceStart (keeps_fset (Keeps.record ‹_›)))

theorem keeps_cmdService {q : Bool} {a s : State} {x1 : Cmd} (h : Keeps q a s) : KeepsA q a (State.cmdService s x1) := by
  unfold State.cmdService
  refine KeepsA.ite ?_ ?_
  · exact keeps_cmdServiceRound ‹_›
  · exact keeps_cmdServiceStrict ‹_›

theorem keeps_cmdBootStatus {q : Bool} {a s : State} {x1 : Cmd} (h : Keeps q a s) : KeepsA q a (State.cmdBootStatus s x1) := by
  unfold State.cmdBootStatus; exact keeps_okAns ‹_›

theorem keeps_searchLinkOff {a s : State} {x1 : Nat} (h : Keeps false a s) : Keeps false a (State.searchLinkOff s x1) := by
  unfold State.searchLinkOff
  extract_lets +onlyGivenNames -merge s1
  have _ : Keeps false a s1 := by unfold s1; exact keeps_enWrite ‹_›
  try clear_value s1
  extract_lets +onlyGivenNames -merge l; try clear_value l
  refine Keeps.ite ?_ ?_
  · assumption
  · exact keeps_fset (keeps_adminSet ‹_›)

theorem keeps_optSearch {a s : State} {x1 x2 x3 : Nat} (h : Keeps false a s) : Keeps false a (State.optSearch s x1 x2 x3) := by
  unfold State.optSearch
  extract_lets +onlyGivenNames -merge bs; try clear_value bs
  extract_lets +onlyGivenNames -merge s1
  have _ : Keeps false a s1 := by
    unfold s1
    refine Keeps.each ?_ (fun _ _ h => ?_)
    · assumption
    · exact keeps_searchLinkOff ‹_›
  try clear_value s1
  refine Keeps.each ?_ (fun _ _ h => ?_)
  · exact Keeps.record ‹_›
  · exact keeps_searchBus ‹_›

theorem keeps_cmdOptSearch {a s : State} {x1 : Cmd} (h : Keeps false a s) : KeepsA false a (State.cmdOptSearch s x1) := by
  unfold State.cmdOptSearch
  extract_lets +onlyGivenNames -merge w; try clear_value w
  extract_lets +onlyGivenNames -merge g; try clear_value g
  refine KeepsA.ite ?_ ?_
  · exact keeps_noAns ‹_›
  · refine KeepsA.ite ?_ ?_
    · exact keeps_noAns ‹_›
    · refine keeps_defer ?_ (fun _ _ h => ?_)
      · assumption
      · exact keeps_optSearch ‹_›

theorem keeps_thrSet {q : Bool} {a s : State} {x1 : Fld} {x2 x3 : Nat} (h : Keeps q a s) : Keeps q a (State.thrSet s x1 x2 x3) := by
  unfold State.thrSet; exact keeps_fset ‹_›

theorem keeps_thrGo {q : Bool} {a s : State} {x1 x2 : Nat} (h : Keeps q a s) : Keeps q a (State.thrGo s x1 x2) := by
  unfold State.thrGo; exact keeps_spnShow (keeps_thrSet ‹_›)

theorem keeps_thrMod {q : Bool} {a s : State} {x1 : Nat} {x2 : Thread → Thread} (h : Keeps q a s) : Keeps q a (State.thrMod s x1 x2) := by
  unfold State.thrMod; exact Keeps.record ‹_›

theorem keeps_thrStart {q : Bool} {a s : State} {x1 : Cmd} {x2 : Nat} (h : Keeps q a s) : Keeps q a (State.thrStart s x1 x2) := by
  unfold State.thrStart
  extract_lets +onlyGivenNames -merge w; try clear_value w
  extract_lets +onlyGivenNames -merge v; try clear_value v
  extract_lets +onlyGivenNames -merge t; try clear_value t
  extract_lets +onlyGivenNames -merge w0; try clear_value w0
  exact keeps_thrGo (keeps_wr (keeps_wr (keeps_thrMod ‹_›)))

theorem keeps_cmdThreadStart {q : Bool} {a s : State} {x1 : Cmd} (h : Keeps q a s) : KeepsA q a (State.cmdThreadStart s x1) := by
  unfold State.cmdThreadStart
  extract_lets +onlyGivenNames -merge a'; try clear_value a'
  extract_lets +onlyGivenNames -merge b; try clear_value b
  refine KeepsA.ite ?_ ?_
  · exact keeps_noAns ‹_›
  · refine KeepsA.ite ?_ ?_
    · exact keeps_noAns ‹_›
    · refine keeps_okAns ?_
      refine Keeps.each ?_ (fun _ _ h => ?_)
      · assumption
      · exact keeps_thrStart ‹_›

theorem keeps_thrEnd {q : Bool} {a s : State} {x1 : Nat} (h : Keeps q a s) : Keeps q a (State.thrEnd s x1) := by
  unfold State.thrEnd; exact keeps_thrGo (Keeps.record ‹_›)

theorem keeps_thrStop {q : Bool} {a s : State} {x1 : Nat} (h : Keeps q a s) : Keeps q a (State.thrStop s x1) := by
  unfold State.thrStop
  extract_lets +onlyGivenNames -merge u; try clear_value u
  extract_lets +onlyGivenNames -merge s1
  have _ : Keeps q a s1 := by unfold s1; exact Keeps.record ‹_›
  try clear_value s1
  extract_lets +onlyGivenNames -merge out; try clear_value out
  refine Keeps.ite ?_ ?_
  · assumption
  · refine Keeps.ite ?_ ?_
    · exact keeps_thrGo ‹_›
    · exact keeps_thrEnd ‹_›

theorem keeps_cmdThreadSetrole {q : Bool} {a s : State} {x1 : Cmd} (h : Keeps q a s) : KeepsA q a (State.cmdThreadSetrole s x1) := by
  unfold State.cmdThreadSetrole
  extract_lets +onlyGivenNames -merge a'; try clear_value a'
  refine KeepsA.ite ?_ ?_
  · exact keeps_noAns ‹_›
  · refine keeps_okAns ?_
    refine Keeps.each ?_ (fun _ _ h => ?_)
    · assumption
    · exact keeps_thrSet (keeps_thrStop ‹_›)

theorem keeps_cmdThreadStop {q : Bool} {a s : State} {x1 : Cmd} (h : Keeps q a s) : KeepsA q a (State.cmdThreadStop s x1) := by
  unfold State.cmdThreadStop
  extract_lets +onlyGivenNames -merge a'; try clear_value a'
  refine KeepsA.ite ?_ ?_
  · exact keeps_noAns ‹_›
  · refine keeps_okAns ?_
    refine Keeps.each ?_ (fun _ _ h => ?_)
    · assumption
    · exact keeps_thrStop ‹_›

theorem keeps_cmdThread {q : Bool} {a s : State} {x1 : Cmd} (h : Keeps q a s) : KeepsA q a (State.cmdThread s x1) := by
  unfold State.cmdThread
  refine KeepsA.ite ?_ ?_
  · exact keeps_cmdThreadStart ‹_›
  · refine KeepsA.ite ?_ ?_
    · exact keeps_cmdThreadSetrole ‹_›
    · exact keeps_cmdThreadStop ‹_›

theorem keeps_cmdStreamStart {q : Bool} {a s : State} {x1 : Cmd} (h : Keeps q a s) : KeepsA q a (State.cmdStreamStart s x1) := by
  unfold State.cmdStreamStart
  extract_lets +onlyGivenNames -merge i; try clear_value i
  extract_lets +onlyGivenNames -merge v; try clear_value v
  refine KeepsA.ite ?_ ?_
  · exact keeps_noAns ‹_›
  · refine KeepsA.ite ?_ ?_
    · exact keeps_noAns ‹_›
    · refine KeepsA.ite ?_ ?_
      · exact keeps_noAns ‹_›
      · refine KeepsA.ite ?_ ?_
        · exact keeps_noAns ‹_›
        · extract_lets +onlyGivenNames -merge x'; try clear_value x'
          extract_lets +onlyGivenNames -merge cfg; try clear_value cfg
          exact keeps_okAns (keeps_wr (keeps_wr (keeps_strmPut ‹_›)))

theorem keeps_streamStop {q : Bool} {a s : State} {x1 : Nat} (h : Keeps q a s) : Keeps q a (State.streamStop s x1) := by
  unfold State.streamStop
  refine Keeps.ite ?_ ?_
  · exact keeps_fset ‹_›
  · assumption

theorem keeps_cmdStreamStop {q : Bool} {a s : State} {x1 : Cmd} (h : Keeps q a s) : KeepsA q a (State.cmdStreamStop s x1) := by
  unfold State.cmdStreamStop
  extract_lets +onlyGivenNames -merge i; try clear_value i
  refine keeps_okAns ?_
  refine Keeps.ite ?_ ?_
  · exact keeps_rsvRetry (keeps_fset (keeps_unpin ‹_›))
  · exact keeps_streamStop ‹_›

theorem keeps_cmdStream {q : Bool} {a s : State} {x1 : Cmd} (h : Keeps q a s) : KeepsA q a (State.cmdStream s x1) := by
  unfold State.cmdStream
  refine KeepsA.ite ?_ ?_
  · exact keeps_cmdStreamStart ‹_›
  · refine KeepsA.ite ?_ ?_
    · exact keeps_cmdStreamStop ‹_›
    · exact keeps_noAns ‹_›

theorem keeps_logRefusal {q : Bool} {a s : State} {x1 : Nat} {x2 : Cmd} {x3 x4 : Nat} (h : Keeps q a s) : Keeps q a (State.logRefusal s x1 x2 x3 x4) := by
  unfold State.logRefusal
  extract_lets +onlyGivenNames -merge e; try clear_value e
  extract_lets +onlyGivenNames -merge l; try clear_value l
  exact Keeps.record ‹_›

theorem keeps_cachePut {q : Bool} {a s : State} {x1 : Nat} {x2 : CachedReply} (h : Keeps q a s) : Keeps q a (State.cachePut s x1 x2) := by
  unfold State.cachePut; exact Keeps.record ‹_›

theorem keeps_retarget {q : Bool} {a s : State} {x1 : Reply} {x2 : Nat} {x3 : Cmd} (h : Keeps q a s) : Keeps q a (State.retarget s x1 x2 x3) := by
  unfold State.retarget
  refine Keeps.ite ?_ ?_
  · assumption
  · split
    · refine Keeps.ite ?_ ?_
      · exact Keeps.record ‹_›
      · assumption
    · assumption

theorem keeps_refuseLater {q : Bool} {a s : State} {x1 : Reply} (h : Keeps q a s) : Keeps q a (State.refuseLater s x1) := by
  unfold State.refuseLater; exact Keeps.record ‹_›

theorem keeps_placeHeld {q : Bool} {a s : State} {x1 : Reply} (h : Keeps q a s) : Keeps q a (State.placeHeld s x1) := by
  unfold State.placeHeld
  extract_lets +onlyGivenNames -merge sp; try clear_value sp
  extract_lets +onlyGivenNames -merge mark; try clear_value mark
  exact KeepsL.out (keeps_placeAt (Keeps.record ‹_›))

theorem keeps_refusalReply {q : Bool} {a s : State} (h : Keeps q a s) : Keeps q a (State.refusalReply s) := by
  unfold State.refusalReply
  split
  · assumption
  · refine Keeps.ite ?_ ?_
    · assumption
    · exact keeps_placeHeld (Keeps.record ‹_›)

theorem keeps_handled {q : Bool} {a s : State} {x1 : Nat} {x2 : Cmd} {x3 : State → Cmd → Ans} (h : Keeps q a s) (k3 : ∀ y0 y1, Keeps q a y0 → KeepsA q a (x3 y0 y1)) : KeepsA q a (State.handled s x1 x2 x3) := by
  unfold State.handled
  refine KeepsA.ite ?_ ?_
  · exact keeps_noAns ‹_›
  · refine KeepsA.ite ?_ ?_
    · exact keeps_noAns ‹_›
    · refine KeepsA.ite ?_ ?_
      · exact keeps_noAns ‹_›
      · refine KeepsA.ite ?_ ?_
        · exact keeps_noAns ‹_›
        · refine k3 _ _ ?_
          assumption

theorem keeps_cmdWakes {q : Bool} {a s : State} {x1 : Cmd} {x2 : Nat} (h : Keeps q a s) : Keeps q a (State.cmdWakes s x1 x2) := by
  unfold State.cmdWakes
  refine Keeps.ite ?_ ?_
  · refine Keeps.each ?_ (fun _ _ h => ?_)
    · assumption
    · exact keeps_wake ‹_›
  · assumption

theorem keeps_handleNew {q : Bool} {a s : State} {x1 x2 : Nat} {x3 : Cmd} {x4 : State → Cmd → Ans} (h : Keeps q a s) (k4 : ∀ y0 y1, Keeps q a y0 → KeepsA q a (x4 y0 y1)) :
    Keeps q a (State.handleNew s x1 x2 x3 x4) := by
  unfold State.handleNew
  split
  · exact keeps_refuseLater (keeps_cachePut (keeps_logRefusal h))
  · have k : KeepsA q a (s.handled x1 x3 x4) := keeps_handled h (fun _ _ h => k4 _ _ h)
    dsimp only
    split
    · next e => exact KeepsA.outLater k e (keeps_cachePut (KeepsA.out k))
    · exact keeps_cmdWakes (KeepsA.outAfter k (KeepsL.out (keeps_placeAt (keeps_retarget (keeps_cachePut (KeepsA.out k))))))

theorem keeps_handle {q : Bool} {a s : State} {x1 x2 x3 : Nat} {x4 : Cmd} {x5 : State → Cmd → Ans} (h : Keeps q a s) (k5 : ∀ y0 y1, Keeps q a y0 → KeepsA q a (x5 y0 y1)) : Keeps q a (State.handle s x1 x2 x3 x4 x5) := by
  unfold State.handle
  extract_lets +onlyGivenNames -merge s1
  have _ : Keeps q a s1 := by
    unfold s1
    refine keeps_fsat ?_
    refine Keeps.each ?_ (fun _ _ h => ?_)
    · assumption
    · exact keeps_refusalReply ‹_›
  try clear_value s1
  split
  · refine Keeps.ite ?_ ?_
    · exact keeps_fsat ‹_›
    · refine Keeps.ite ?_ ?_
      · extract_lets +onlyGivenNames -merge r; try clear_value r
        extract_lets +onlyGivenNames -merge s2
        have _ : Keeps q a s2 := by unfold s2; exact keeps_retarget (keeps_fsat ‹_›)
        try clear_value s2
        refine Keeps.ite ?_ ?_
        · exact keeps_refuseLater ‹_›
        · exact KeepsL.out (keeps_placeAt ‹_›)
      · exact KeepsL.out (keeps_placeAt (keeps_fsat ‹_›))
  · split
    · extract_lets +onlyGivenNames -merge l; try clear_value l
      exact keeps_fsat (Keeps.record ‹_›)
    · refine keeps_handleNew ?_ (fun _ _ h => ?_)
      · assumption
      · refine k5 _ _ ?_
        assumption

theorem keeps_cmdRow {s : State} {x1 : Cmd} {x2 : Bool} {x3 : State → Cmd → Ans} (k3 : ∀ y0 y1, Keeps false s y0 → KeepsA false s (x3 y0 y1)) : KeepsRes s (State.cmdRow s x1 x2 x3) := by
  unfold State.cmdRow
  refine KeepsRes.ite ?_ ?_
  · refine KeepsRes.next ?_
    first | exact Keeps.refl | assumption
  · refine KeepsRes.ite ?_ ?_
    · refine KeepsRes.next ?_
      refine KeepsL.out ?_
      refine keeps_placeAt ?_
      first | exact Keeps.refl | assumption
    · refine keeps_settled ?_
      refine keeps_handle ?_ (fun _ _ h => ?_)
      · first | exact Keeps.refl | assumption
      · refine k3 _ _ ?_
        first | exact Keeps.refl | assumption

theorem keeps_cmdRegRead {q : Bool} {a s : State} {x1 : Cmd} (h : Keeps q a s) : KeepsA q a (State.cmdRegRead s x1) := by
  unfold State.cmdRegRead
  split
  · exact keeps_noAns ‹_›
  · exact KeepsA.st ‹_›

theorem keeps_regsAfter {q : Bool} {a s : State} {x1 : List (RegAt × Word)} (h : Keeps q a s) : Keeps q a (State.regsAfter s x1) := by
  unfold State.regsAfter
  refine Keeps.each ?_ (fun _ _ h => ?_)
  · assumption
  · exact keeps_wr ‹_›

theorem keeps_retire {q : Bool} {a s : State} {x1 : Nat} (h : Keeps q a s) : Keeps q a (State.retire s x1) := by
  unfold State.retire
  extract_lets +onlyGivenNames -merge s1
  have _ : Keeps q a s1 := by unfold s1; exact Keeps.record ‹_›
  try clear_value s1
  extract_lets +onlyGivenNames -merge u; try clear_value u
  refine Keeps.ite ?_ ?_
  · exact keeps_fset ‹_›
  · assumption

theorem keeps_dropTags {q : Bool} {a s : State} {x1 : Nat} (h : Keeps q a s) : Keeps q a (State.dropTags s x1) := by
  unfold State.dropTags
  refine Keeps.each ?_ (fun _ _ h => ?_)
  · assumption
  · exact keeps_retire ‹_›

theorem keeps_staleRings {q : Bool} {a s : State} {x1 : Nat} (h : Keeps q a s) : Keeps q a (State.staleRings s x1) := by
  unfold State.staleRings
  refine Keeps.each ?_ (fun _ _ h => ?_)
  · assumption
  · exact KeepsRR.out (keeps_ringFlush ‹_›)

theorem keeps_niStat {q : Bool} {a s : State} {x1 : Nat} (h : Keeps q a s) : Keeps q a (State.niStat s x1) := by
  unfold State.niStat
  extract_lets +onlyGivenNames -merge e; try clear_value e
  extract_lets +onlyGivenNames -merge s1
  have _ : Keeps q a s1 := by unfold s1; exact keeps_fset ‹_›
  try clear_value s1
  exact keeps_fset ‹_›

theorem keeps_staleNi {q : Bool} {a s : State} {x1 : Nat} (h : Keeps q a s) : Keeps q a (State.staleNi s x1) := by
  unfold State.staleNi
  extract_lets +onlyGivenNames -merge live; try clear_value live
  extract_lets +onlyGivenNames -merge s1
  have _ : Keeps q a s1 := by
    unfold s1
    refine Keeps.each ?_ (fun _ _ h => ?_)
    · assumption
    · exact keeps_fset ‹_›
  try clear_value s1
  extract_lets +onlyGivenNames -merge s2
  have _ : Keeps q a s2 := by
    unfold s2
    refine Keeps.each ?_ (fun _ _ h => ?_)
    · assumption
    · exact keeps_fset ‹_›
  try clear_value s2
  extract_lets +onlyGivenNames -merge s3
  have _ : Keeps q a s3 := by unfold s3; exact keeps_epbMod ‹_›
  try clear_value s3
  refine keeps_fset ?_
  refine Keeps.each ?_ (fun _ _ h => ?_)
  · exact keeps_niStat ‹_›
  · exact keeps_ringShow ‹_›

theorem keeps_staleEngines {q : Bool} {a s : State} {x1 : Nat} (h : Keeps q a s) : Keeps q a (State.staleEngines s x1) := by
  unfold State.staleEngines
  extract_lets +onlyGivenNames -merge l; try clear_value l
  extract_lets +onlyGivenNames -merge s1
  have _ : Keeps q a s1 := by unfold s1; exact keeps_epbMod ‹_›
  try clear_value s1
  refine Keeps.each ?_ (fun _ _ h => ?_)
  · assumption
  · exact keeps_ringShow (keeps_itemEnd ‹_›)

theorem keeps_slotsUsed {q : Bool} {a s : State} {x1 : Nat} (h : Keeps q a s) : Keeps q a (State.slotsUsed s x1) := by
  unfold State.slotsUsed; exact keeps_fset ‹_›

theorem keeps_roleWrite {q : Bool} {a s : State} {x1 x2 : Nat} (h : Keeps q a s) : Keeps q a (State.roleWrite s x1 x2) := by
  unfold State.roleWrite
  refine Keeps.ite ?_ ?_
  · assumption
  · extract_lets +onlyGivenNames -merge e; try clear_value e
    extract_lets +onlyGivenNames -merge nis; try clear_value nis
    extract_lets +onlyGivenNames -merge parks; try clear_value parks
    extract_lets +onlyGivenNames -merge count; try clear_value count
    extract_lets +onlyGivenNames -merge s1
    have _ : Keeps q a s1 := by unfold s1; exact keeps_dropTags (keeps_fset ‹_›)
    try clear_value s1
    extract_lets +onlyGivenNames -merge s2
    have _ : Keeps q a s2 := by unfold s2; exact Keeps.record ‹_›
    try clear_value s2
    extract_lets +onlyGivenNames -merge s3
    have _ : Keeps q a s3 := by unfold s3; exact keeps_epbMod (keeps_epbMod ‹_›)
    try clear_value s3
    extract_lets +onlyGivenNames -merge s4
    have _ : Keeps q a s4 := by unfold s4; exact keeps_staleRings (keeps_staleNi (keeps_staleEngines (keeps_slotsUsed ‹_›)))
    try clear_value s4
    extract_lets +onlyGivenNames -merge l; try clear_value l
    extract_lets +onlyGivenNames -merge s5
    have _ : Keeps q a s5 := by
      unfold s5
      refine Keeps.each ?_ (fun _ _ h => ?_)
      · exact keeps_epbMod ‹_›
      · exact keeps_itemEnd ‹_›
    try clear_value s5
    exact keeps_fault ‹_›

theorem keeps_heatOff {q : Bool} {a s : State} {x1 : Nat} (h : Keeps q a s) : Keeps q a (State.heatOff s x1) := by
  unfold State.heatOff; exact keeps_epbMod (keeps_fset ‹_›)

theorem keeps_rrcInval {q : Bool} {a s : State} {x1 : Nat} (h : Keeps q a s) : Keeps q a (State.rrcInval s x1) := by
  unfold State.rrcInval; exact keeps_epbMod ‹_›

theorem keeps_rrcDisable {q : Bool} {a s : State} {x1 : Nat} (h : Keeps q a s) : Keeps q a (State.rrcDisable s x1) := by
  unfold State.rrcDisable
  refine Keeps.ite ?_ ?_
  · exact keeps_rrcInval (keeps_fset ‹_›)
  · assumption

theorem keeps_incRestart {q : Bool} {a s : State} {x1 : Nat} (h : Keeps q a s) : Keeps q a (State.incRestart s x1) := by
  unfold State.incRestart; exact keeps_epbMod ‹_›

theorem keeps_regsReset {q : Bool} {a s : State} {x1 x2 : Nat} (h : Keeps q a s) : Keeps q a (State.regsReset s x1 x2) := by
  unfold State.regsReset; exact Keeps.record ‹_›

theorem keeps_ratesHold {q : Bool} {a s : State} {x1 : Nat} (h : Keeps q a s) : Keeps q a (State.ratesHold s x1) := by
  unfold State.ratesHold; exact keeps_epbMod (keeps_regsReset ‹_›)

theorem keeps_ccEnable {q : Bool} {a s : State} {x1 : Nat} (h : Keeps q a s) : Keeps q a (State.ccEnable s x1) := by
  unfold State.ccEnable
  refine Keeps.ite ?_ ?_
  · assumption
  · exact keeps_incRestart (keeps_ratesHold (keeps_fset ‹_›))

theorem keeps_ringCommit {q : Bool} {a s : State} {x1 x2 x3 : Nat} (h : Keeps q a s) : KeepsO q a (State.ringCommit s x1 x2 x3) := by
  unfold State.ringCommit
  extract_lets tail d u st
  exact KeepsO.ite (KeepsO.some (keeps_fset h)) KeepsO.none

theorem keeps_toFire {q : Bool} {a s : State} {x1 x2 : Nat} (h : Keeps q a s) : Keeps q a (State.toFire s x1 x2) := by
  unfold State.toFire
  refine Keeps.ite ?_ ?_
  · exact keeps_niStat (keeps_epbMod (keeps_fset ‹_›))
  · assumption

theorem keeps_toArm {q : Bool} {a s : State} {x1 x2 : Nat} (h : Keeps q a s) : Keeps q a (State.toArm s x1 x2) := by
  unfold State.toArm
  refine Keeps.ite ?_ ?_
  · exact keeps_toFire (keeps_epbMod (keeps_fset ‹_›))
  · assumption

theorem keeps_toDisarm {q : Bool} {a s : State} {x1 x2 : Nat} (h : Keeps q a s) : Keeps q a (State.toDisarm s x1 x2) := by
  unfold State.toDisarm
  extract_lets +onlyGivenNames -merge st; try clear_value st
  refine Keeps.ite ?_ ?_
  · extract_lets +onlyGivenNames -merge s1
    have _ : Keeps q a s1 := by
      unfold s1
      refine Keeps.ite ?_ ?_
      · exact keeps_fdec ‹_›
      · assumption
    try clear_value s1
    exact keeps_niStat (keeps_epbMod (keeps_fset ‹_›))
  · assumption

theorem keeps_fireDue {q : Bool} {a s : State} {x1 : Nat} {x2 : Nat → Bool} (h : Keeps q a s) : Keeps q a (State.fireDue s x1 x2) := by
  unfold State.fireDue
  refine Keeps.each ?_ (fun _ _ h => ?_)
  · assumption
  · exact keeps_toFire ‹_›

theorem keeps_wdogStart {q : Bool} {a s : State} {x1 x2 : Nat} (h : Keeps q a s) : Keeps q a (State.wdogStart s x1 x2) := by
  unfold State.wdogStart
  extract_lets +onlyGivenNames -merge l; try clear_value l
  exact keeps_epbMod ‹_›

theorem keeps_ctrBump {q : Bool} {a s : State} {x1 x2 x3 : Nat} (h : Keeps q a s) : Keeps q a (State.ctrBump s x1 x2 x3) := by
  unfold State.ctrBump
  refine Keeps.ite ?_ ?_
  · assumption
  · exact keeps_wdogStart (keeps_fwrap ‹_›)

theorem keeps_ctrAdd {q : Bool} {a s : State} {x1 x2 x3 : Nat} (h : Keeps q a s) : Keeps q a (State.ctrAdd s x1 x2 x3) := by
  unfold State.ctrAdd
  refine Keeps.ite ?_ ?_
  · assumption
  · exact keeps_fireDue (keeps_ctrBump ‹_›)

theorem keeps_applyEpb {q : Bool} {a s : State} {x1 : RegAt} {x2 : Word} (h : Keeps q a s) : Keeps q a (State.applyEpb s x1 x2) := by
  unfold State.applyEpb
  extract_lets +onlyGivenNames -merge n; try clear_value n
  extract_lets +onlyGivenNames -merge j; try clear_value j
  extract_lets +onlyGivenNames -merge s1
  have _ : Keeps q a s1 := by unfold s1; exact keeps_wr ‹_›
  try clear_value s1
  split
  · exact keeps_roleWrite ‹_›
  · exact keeps_holdEffUpdate ‹_›
  · refine Keeps.ite ?_ ?_
    · assumption
    · exact keeps_heatOff ‹_›
  · extract_lets +onlyGivenNames -merge s2
    have _ : Keeps q a s2 := by
      unfold s2
      refine Keeps.ite ?_ ?_
      · assumption
      · exact keeps_wr (keeps_rrcDisable ‹_›)
    try clear_value s2
    refine Keeps.ite ?_ ?_
    · exact keeps_rrcInval ‹_›
    · assumption
  · refine Keeps.ite ?_ ?_
    · exact keeps_wr (keeps_ccEnable ‹_›)
    · exact keeps_ratesHold ‹_›
  · refine Keeps.getD ?_ ?_
    · exact keeps_ringCommit ‹_›
    · assumption
  · extract_lets +onlyGivenNames -merge t; try clear_value t
    exact keeps_epbMod ‹_›
  · extract_lets +onlyGivenNames -merge s2
    have _ : Keeps q a s2 := by
      unfold s2
      refine Keeps.ite ?_ ?_
      · exact keeps_toArm ‹_›
      · assumption
    try clear_value s2
    refine Keeps.ite ?_ ?_
    · exact keeps_toDisarm ‹_›
    · assumption
  · exact keeps_ctrAdd ‹_›
  · assumption

theorem keeps_fenceWrite {q : Bool} {a s : State} {x1 : Nat} (h : Keeps q a s) : Keeps q a (State.fenceWrite s x1) := by
  unfold State.fenceWrite; exact keeps_wr ‹_›

theorem keeps_adminClear {q : Bool} {a s : State} {x1 : Nat} (h : Keeps q a s) : Keeps q a (State.adminClear s x1) := by
  unfold State.adminClear
  refine Keeps.ite ?_ ?_
  · assumption
  · exact keeps_lkRelease (keeps_fset ‹_›)

theorem keeps_mirRestart {q : Bool} {a s : State} (h : Keeps q a s) : Keeps q a (State.mirRestart s) := by
  unfold State.mirRestart; exact keeps_fset (keeps_fset (keeps_fdec (Keeps.record ‹_›)))

theorem keeps_applyHub {q : Bool} {a s : State} {x1 : RegAt} {x2 : Word} (h : Keeps q a s) : Keeps q a (State.applyHub s x1 x2) := by
  unfold State.applyHub
  extract_lets +onlyGivenNames -merge w; try clear_value w
  extract_lets +onlyGivenNames -merge s1
  have _ : Keeps q a s1 := by unfold s1; exact keeps_wr ‹_›
  try clear_value s1
  split
  · exact keeps_fenceWrite ‹_›
  · exact keeps_holdEffUpdate ‹_›
  · exact keeps_destDownUpdate ‹_›
  · exact keeps_destDownUpdate ‹_›
  · exact keeps_destDownUpdate ‹_›
  · refine Keeps.ite ?_ ?_
    · exact keeps_adminSet ‹_›
    · exact keeps_adminClear ‹_›
  · exact Keeps.record ‹_›
  · refine Keeps.ite ?_ ?_
    · exact keeps_mirRestart ‹_›
    · assumption
  · assumption

theorem keeps_ctxWrite {q : Bool} {a s : State} {x1 x2 : Nat} {x3 : Word} (h : Keeps q a s) : Keeps q a (State.ctxWrite s x1 x2 x3) := by
  unfold State.ctxWrite
  extract_lets +onlyGivenNames -merge s1
  have _ : Keeps q a s1 := by
    unfold s1
    refine Keeps.ite ?_ ?_
    · exact keeps_fset ‹_›
    · assumption
  try clear_value s1
  exact keeps_spnShow (keeps_wr ‹_›)

theorem keeps_failEvent {a s : State} {x1 x2 : Nat} (h : Keeps false a s) : Keeps false a (State.failEvent s x1 x2) := by
  unfold State.failEvent
  refine Keeps.ite ?_ ?_
  · exact keeps_linkFail ‹_›
  · assumption

theorem keeps_applyLink {a s : State} {x1 : Nat} {x2 : Word} (h : Keeps false a s) : Keeps false a (State.applyLink s x1 x2) := by
  unfold State.applyLink
  extract_lets +onlyGivenNames -merge en; try clear_value en
  extract_lets +onlyGivenNames -merge s1
  have _ : Keeps false a s1 := by unfold s1; exact keeps_fset (keeps_wr ‹_›)
  try clear_value s1
  extract_lets +onlyGivenNames -merge s2
  have _ : Keeps false a s2 := by
    unfold s2
    refine Keeps.ite ?_ ?_
    · assumption
    · exact keeps_enWrite ‹_›
  try clear_value s2
  refine Keeps.ite ?_ ?_
  · exact keeps_failEvent ‹_›
  · assumption

end Sys2Proof.Machine
end

