-- ==== Sys2Proof/Laws/KeepsB.lean ====
section
/-! SUPPORT. What every operation keeps, part 2 of 4: the operations in the order in which they call each other. -/

namespace Sys2Proof.Machine
open Sys2Proof

theorem keeps_captureArm {q : Bool} {a s : State} {x1 : Nat} (h : Keeps q a s) : Keeps q a (State.captureArm s x1) := by
  unfold State.captureArm
  refine Keeps.ite ?_ ?_
  · exact keeps_fset ‹_›
  · assumption

theorem keeps_winShow {q : Bool} {a s : State} (h : Keeps q a s) : Keeps q a (State.winShow s) := by
  unfold State.winShow; exact keeps_fset (keeps_fset ‹_›)

theorem keeps_winClose {q : Bool} {a s : State} {x1 : Nat} (h : Keeps q a s) : Keeps q a (State.winClose s x1) := by
  unfold State.winClose
  extract_lets +onlyGivenNames -merge s1
  have _ : Keeps q a s1 := by unfold s1; exact keeps_wr (keeps_wr ‹_›)
  try clear_value s1
  exact keeps_winShow (Keeps.record ‹_›)

theorem keeps_firClear {q : Bool} {a s : State} {x1 : Nat} (h : Keeps q a s) : Keeps q a (State.firClear s x1) := by
  unfold State.firClear
  refine Keeps.ite ?_ ?_
  · exact keeps_winClose ‹_›
  · assumption

theorem keeps_retrustWrite {q : Bool} {a s : State} (h : Keeps q a s) : Keeps q a (State.retrustWrite s) := by
  unfold State.retrustWrite; exact Keeps.record ‹_›

theorem keeps_reviveWrite {q : Bool} {a s : State} (h : Keeps q a s) : Keeps q a (State.reviveWrite s) := by
  unfold State.reviveWrite
  refine Keeps.ite ?_ ?_
  · exact Keeps.record ‹_›
  · refine Keeps.ite ?_ ?_
    · exact keeps_recover ‹_›
    · assumption

theorem keeps_crcCfgApply {q : Bool} {a s : State} {x1 x2 : Nat} {x3 : Word} (h : Keeps q a s) : Keeps q a (State.crcCfgApply s x1 x2 x3) := by
  unfold State.crcCfgApply
  refine Keeps.ite ?_ ?_
  · assumption
  · exact keeps_crcRestart (keeps_wr ‹_›)

theorem keeps_crcRestartWrite {q : Bool} {a s : State} {x1 : Nat} (h : Keeps q a s) : Keeps q a (State.crcRestartWrite s x1) := by
  unfold State.crcRestartWrite
  refine Keeps.ite ?_ ?_
  · exact keeps_crcRestart ‹_›
  · assumption

theorem keeps_snap {q : Bool} {a s : State} (h : Keeps q a s) : Keeps q a (State.snap s) := by
  unfold State.snap
  refine keeps_wr ?_
  refine Keeps.each ?_ (fun _ _ h => ?_)
  · assumption
  · exact keeps_wr (keeps_wr ‹_›)

theorem keeps_barDiscard {q : Bool} {a s : State} {x1 : Nat} (h : Keeps q a s) : Keeps q a (State.barDiscard s x1) := by
  unfold State.barDiscard; exact keeps_fsat ‹_›

theorem keeps_mboxCommit {q : Bool} {a s : State} {x1 x2 : Nat} (h : Keeps q a s) : Keeps q a (State.mboxCommit s x1 x2) := by
  unfold State.mboxCommit
  refine Keeps.ite ?_ ?_
  · exact keeps_fset ‹_›
  · exact keeps_barDiscard ‹_›

theorem keeps_mboxRspHead {q : Bool} {a s : State} {x1 : Nat} (h : Keeps q a s) : Keeps q a (State.mboxRspHead s x1) := by
  unfold State.mboxRspHead; exact keeps_mboxDrain _ (keeps_fset ‹_›)

theorem keeps_mboxCtrl {q : Bool} {a s : State} {x1 : Word} (h : Keeps q a s) : Keeps q a (State.mboxCtrl s x1) := by
  unfold State.mboxCtrl
  extract_lets +onlyGivenNames -merge s1
  have _ : Keeps q a s1 := by unfold s1; exact keeps_wr ‹_›
  try clear_value s1
  refine Keeps.ite ?_ ?_
  · exact keeps_mboxDrain _ (keeps_fset (keeps_fset (keeps_fset (keeps_fset ‹_›))))
  · assumption

theorem keeps_applyRest {a s : State} {x1 : RegAt} {x2 : Word} (h : Keeps false a s) : Keeps false a (State.applyRest s x1 x2) := by
  unfold State.applyRest
  extract_lets +onlyGivenNames -merge n; try clear_value n
  extract_lets +onlyGivenNames -merge w; try clear_value w
  extract_lets +onlyGivenNames -merge s1
  have _ : Keeps false a s1 := by unfold s1; exact keeps_wr ‹_›
  try clear_value s1
  split
  · exact keeps_ctxWrite ‹_›
  · exact keeps_applyLink ‹_›
  · refine Keeps.ite ?_ ?_
    · exact keeps_fset ‹_›
    · assumption
  · refine Keeps.ite ?_ ?_
    · exact keeps_captureArm ‹_›
    · assumption
  · refine Keeps.ite ?_ ?_
    · exact keeps_firClear ‹_›
    · assumption
  · refine Keeps.ite ?_ ?_
    · exact keeps_fset ‹_›
    · assumption
  · refine Keeps.ite ?_ ?_
    · exact keeps_retrustWrite ‹_›
    · assumption
  · refine Keeps.ite ?_ ?_
    · exact keeps_reviveWrite ‹_›
    · assumption
  · exact keeps_crcCfgApply ‹_›
  · exact keeps_crcCfgApply ‹_›
  · exact keeps_crcCfgApply ‹_›
  · refine Keeps.ite ?_ ?_
    · exact keeps_crcRestartWrite ‹_›
    · assumption
  · refine Keeps.ite ?_ ?_
    · exact keeps_snap ‹_›
    · assumption
  · exact keeps_mboxCommit ‹_›
  · exact keeps_mboxRspHead ‹_›
  · exact keeps_mboxCtrl ‹_›
  · assumption

theorem keeps_regApply {a s : State} {x1 : RegAt} {x2 : Word} (h : Keeps false a s) : Keeps false a (State.regApply s x1 x2) := by
  unfold State.regApply
  refine Keeps.ite ?_ ?_
  · exact keeps_wr ‹_›
  · refine Keeps.ite ?_ ?_
    · exact keeps_applyEpb ‹_›
    · refine Keeps.ite ?_ ?_
      · exact keeps_applyHub ‹_›
      · exact keeps_applyRest ‹_›

theorem keeps_regsApply {a s : State} {x1 : List (RegAt × Word)} (h : Keeps false a s) : Keeps false a (State.regsApply s x1) := by
  unfold State.regsApply
  refine Keeps.each ?_ (fun _ _ h => ?_)
  · assumption
  · exact keeps_regApply ‹_›

theorem keeps_cmdRegWrite {a s : State} {x1 : Cmd} (h : Keeps false a s) : KeepsA false a (State.cmdRegWrite s x1) := by
  unfold State.cmdRegWrite
  split
  · exact keeps_noAns ‹_›
  · split
    · exact KeepsA.st ‹_›
    · exact keeps_okAns (keeps_regsApply ‹_›)

theorem keeps_resumeAll {q : Bool} {a s : State} {α : Type} {x2 : Bool} {x3 : List α} {x4 : State → α → State} (h : Keeps q a s) (k4 : ∀ y0 y1, Keeps q a y0 → Keeps q a (x4 y0 y1)) : KeepsA q a (State.resumeAll s x2 x3 x4) := by
  unfold State.resumeAll
  refine KeepsA.ite ?_ ?_
  · exact keeps_noAns ‹_›
  · refine keeps_okAns ?_
    refine Keeps.each ?_ (fun _ _ h => ?_)
    · assumption
    · refine k4 _ _ ?_
      assumption

theorem keeps_zsend {q : Bool} {a s : State} {x1 : Nat} {x2 : ZMsg} (h : Keeps q a s) : Keeps q a (State.zsend s x1 x2) := by
  unfold State.zsend
  refine Keeps.ite ?_ ?_
  · exact keeps_linkQueue (keeps_emit ‹_›)
  · assumption

theorem keeps_zWake {q : Bool} {a s : State} {x1 x2 x3 x4 : Nat} (h : Keeps q a s) : Keeps q a (State.zWake s x1 x2 x3 x4) := by
  unfold State.zWake
  extract_lets +onlyGivenNames -merge m; try clear_value m
  refine Keeps.ite ?_ ?_
  · exact keeps_zsend ‹_›
  · exact keeps_epbMod ‹_›

theorem keeps_wakeSlot {q : Bool} {a s : State} {x1 x2 : Nat} {x3 : Bool} (h : Keeps q a s) : Keeps q a (State.wakeSlot s x1 x2 x3) := by
  unfold State.wakeSlot
  extract_lets +onlyGivenNames -merge x'; try clear_value x'
  exact keeps_zWake (keeps_epbMod ‹_›)

theorem keeps_toFail {q : Bool} {a s : State} {x1 x2 x3 : Nat} (h : Keeps q a s) : Keeps q a (State.toFail s x1 x2 x3) := by
  unfold State.toFail
  extract_lets +onlyGivenNames -merge s1
  have _ : Keeps q a s1 := by unfold s1; exact keeps_fsat (keeps_fset (keeps_fset ‹_›))
  try clear_value s1
  extract_lets +onlyGivenNames -merge s2
  have _ : Keeps q a s2 := by unfold s2; exact keeps_niStat (keeps_epbMod ‹_›)
  try clear_value s2
  refine Keeps.ite ?_ ?_
  · exact keeps_ctrAdd ‹_›
  · assumption

theorem keeps_niResume {q : Bool} {a s : State} {x1 : Nat} {x2 : Park} {x3 : Bool} (h : Keeps q a s) : Keeps q a (State.niResume s x1 x2 x3) := by
  unfold State.niResume
  extract_lets +onlyGivenNames -merge i; try clear_value i
  extract_lets +onlyGivenNames -merge s1
  have _ : Keeps q a s1 := by unfold s1; exact keeps_ringShow (keeps_epbMod ‹_›)
  try clear_value s1
  refine Keeps.ite ?_ ?_
  · exact keeps_toFail ‹_›
  · extract_lets +onlyGivenNames -merge s2
    have _ : Keeps q a s2 := by unfold s2; exact keeps_fset ‹_›
    try clear_value s2
    refine Keeps.ite ?_ ?_
    · exact keeps_niStat (keeps_epbMod ‹_›)
    · exact keeps_niStat (keeps_epbMod ‹_›)

theorem keeps_parkRelease {q : Bool} {a s : State} {x1 : Nat} {x2 : Park} (h : Keeps q a s) : Keeps q a (State.parkRelease s x1 x2) := by
  unfold State.parkRelease
  extract_lets +onlyGivenNames -merge r; try clear_value r
  extract_lets +onlyGivenNames -merge s1
  have _ : Keeps q a s1 := by unfold s1; exact keeps_epbMod ‹_›
  try clear_value s1
  extract_lets +onlyGivenNames -merge s2
  have _ : Keeps q a s2 := by
    unfold s2
    refine Keeps.ite ?_ ?_
    · exact keeps_fset ‹_›
    · assumption
  try clear_value s2
  exact keeps_ringShow ‹_›

theorem keeps_descResume {q : Bool} {a s : State} {x1 : Nat} {x2 : Park} {x3 : Bool} (h : Keeps q a s) : Keeps q a (State.descResume s x1 x2 x3) := by
  unfold State.descResume
  extract_lets +onlyGivenNames -merge s1
  have _ : Keeps q a s1 := by unfold s1; exact keeps_parkRelease ‹_›
  try clear_value s1
  refine Keeps.ite ?_ ?_
  · exact keeps_itemEnd ‹_›
  · exact keeps_epbMod ‹_›

theorem keeps_thrPc {q : Bool} {a s : State} {x1 x2 : Nat} (h : Keeps q a s) : Keeps q a (State.thrPc s x1 x2) := by
  unfold State.thrPc; exact keeps_thrSet (keeps_thrMod ‹_›)

theorem keeps_thrNext {q : Bool} {a s : State} {x1 : Nat} (h : Keeps q a s) : Keeps q a (State.thrNext s x1) := by
  unfold State.thrNext; exact keeps_thrPc ‹_›

theorem keeps_setS {q : Bool} {a s : State} {x1 x2 : Nat} {x3 : Word} (h : Keeps q a s) : Keeps q a (State.setS s x1 x2 x3) := by
  unfold State.setS; exact keeps_thrMod ‹_›

theorem keeps_setV {q : Bool} {a s : State} {x1 x2 : Nat} {x3 : List Byte} (h : Keeps q a s) : Keeps q a (State.setV s x1 x2 x3) := by
  unfold State.setV; exact keeps_thrMod ‹_›

theorem keeps_storePoison {q : Bool} {a s : State} {x1 x2 : Nat} (h : Keeps q a s) : Keeps q a (State.storePoison s x1 x2) := by
  unfold State.storePoison
  refine Keeps.each ?_ (fun _ _ h => ?_)
  · assumption
  · exact keeps_setLine ‹_›

theorem keeps_partsPoison {q : Bool} {a s : State} {x1 : List (Nat × Nat)} (h : Keeps q a s) : Keeps q a (State.partsPoison s x1) := by
  unfold State.partsPoison
  refine Keeps.each ?_ (fun _ _ h => ?_)
  · assumption
  · exact keeps_storePoison ‹_›

theorem keeps_partsWrite {q : Bool} {a : State} (l : List (Nat × Nat)) : ∀ {s : State} {d : List Byte}, Keeps q a s → Keeps q a (State.partsWrite s l d) := by
  induction l with
  | nil => intro s d h; exact h
  | cons x l ih => intro s d h; exact ih (KeepsL.out (keeps_storeLines h))

theorem keeps_remoteDest {q : Bool} {a s : State} {x1 : Nat} {x2 : SInstr} {x3 : List Byte} {x4 : Bool} (h : Keeps q a s) : Keeps q a (State.remoteDest s x1 x2 x3 x4) := by
  unfold State.remoteDest
  refine Keeps.ite ?_ ?_
  · exact keeps_setS ‹_›
  · refine Keeps.ite ?_ ?_
    · exact keeps_setV ‹_›
    · refine Keeps.ite ?_ ?_
      · split
        · refine Keeps.ite ?_ ?_
          · exact keeps_partsPoison ‹_›
          · exact keeps_partsWrite _ ‹_›
        · assumption
      · assumption

theorem keeps_remoteDone {q : Bool} {a s : State} {x1 x2 : Nat} {x3 : List Byte} {x4 : Bool} (h : Keeps q a s) : Keeps q a (State.remoteDone s x1 x2 x3 x4) := by
  unfold State.remoteDone
  extract_lets +onlyGivenNames -merge i; try clear_value i
  extract_lets +onlyGivenNames -merge d; try clear_value d
  exact keeps_thrGo (keeps_thrNext (keeps_thrSet (keeps_remoteDest ‹_›)))

theorem keeps_progError {q : Bool} {a s : State} {x1 x2 : Nat} (h : Keeps q a s) : Keeps q a (State.progError s x1 x2) := by
  unfold State.progError; exact keeps_errRec (keeps_thrSet (keeps_thrEnd ‹_›))

theorem keeps_partsRead {q : Bool} {a s : State} {x1 : List (Nat × Nat)} (h : Keeps q a s) : KeepsR q a (State.partsRead s x1) := by
  unfold State.partsRead
  extract_lets +onlyGivenNames -merge n; try clear_value n
  extract_lets +onlyGivenNames -merge d; try clear_value d
  refine KeepsR.mk ?_
  refine Keeps.each ?_ (fun _ _ h => ?_)
  · assumption
  · exact keeps_touch ‹_›

theorem keeps_remoteData {q : Bool} {a s : State} {x1 : Nat} {x2 : SInstr} {x3 : List (Nat × Nat)} (h : Keeps q a s) : KeepsR q a (State.remoteData s x1 x2 x3) := by
  unfold State.remoteData
  extract_lets +onlyGivenNames -merge n; try clear_value n
  refine KeepsR.ite ?_ ?_
  · exact KeepsR.mk ‹_›
  · refine KeepsR.ite ?_ ?_
    · exact KeepsR.mk ‹_›
    · refine KeepsR.ite ?_ ?_
      · extract_lets +onlyGivenNames -merge b; try clear_value b
        exact KeepsR.mk ‹_›
      · refine KeepsR.ite ?_ ?_
        · exact keeps_partsRead ‹_›
        · exact KeepsR.mk ‹_›

theorem keeps_remoteHold {q : Bool} {a s : State} {x1 : Nat} {x2 : List Word} (h : Keeps q a s) : Keeps q a (State.remoteHold s x1 x2) := by
  unfold State.remoteHold; exact Keeps.record ‹_›

theorem keeps_remoteEnd {q : Bool} {a s : State} {x1 : Nat} {x2 : RemoteEnd} (h : Keeps q a s) : Keeps q a (State.remoteEnd s x1 x2) := by
  unfold State.remoteEnd; exact Keeps.record ‹_›

theorem keeps_crcFeed {q : Bool} {a s : State} {x1 : Nat} {x2 : List Byte} (h : Keeps q a s) : Keeps q a (State.crcFeed s x1 x2) := by
  unfold State.crcFeed
  refine Keeps.ite ?_ ?_
  · assumption
  · exact keeps_crcSet ‹_›

theorem keeps_copAccess {q : Bool} {a s : State} {x1 x2 : Nat} {x3 : List Byte} (h : Keeps q a s) : Keeps q a (State.copAccess s x1 x2 x3) := by
  unfold State.copAccess
  refine Keeps.ite ?_ ?_
  · extract_lets +onlyGivenNames -merge ch; try clear_value ch
    extract_lets +onlyGivenNames -merge s1
    have _ : Keeps q a s1 := by unfold s1; exact keeps_crcFeed (keeps_crcRestart ‹_›)
    try clear_value s1
    exact keeps_wr (keeps_fsat ‹_›)
  · assumption

theorem keeps_remoteSuppressed {q : Bool} {a s : State} {x1 x2 : Nat} {x3 : SInstr} {x4 : List Byte} (h : Keeps q a s) : Keeps q a (State.remoteSuppressed s x1 x2 x3 x4) := by
  unfold State.remoteSuppressed
  refine Keeps.ite ?_ ?_
  · exact keeps_remoteEnd ‹_›
  · exact keeps_remoteEnd (keeps_copAccess ‹_›)

theorem keeps_remoteFail {q : Bool} {a s : State} {x1 x2 : Nat} {x3 : Option Nat} {x4 x5 x6 x7 x8 : Nat} (h : Keeps q a s) : Keeps q a (State.remoteFail s x1 x2 x3 x4 x5 x6 x7 x8) := by
  unfold State.remoteFail; exact keeps_remoteEnd (keeps_fault ‹_›)

theorem keeps_park {q : Bool} {a s : State} {x1 : Nat} {x2 : Req} {x3 : WaitFor} (h : Keeps q a s) : Keeps q a (State.park s x1 x2 x3) := by
  unfold State.park; exact Keeps.record ‹_›

theorem keeps_rrcLook {q : Bool} {a s : State} {x1 x2 : Nat} (h : Keeps q a s) : KeepsR q a (State.rrcLook s x1 x2) := by
  unfold State.rrcLook
  split
  · extract_lets +onlyGivenNames -merge key; try clear_value key
    refine KeepsR.ite ?_ ?_
    · exact KeepsR.mk (keeps_epbMod (keeps_touch ‹_›))
    · extract_lets +onlyGivenNames -merge s1
      have _ : Keeps q a s1 := by
        unfold s1
        refine Keeps.ite ?_ ?_
        · assumption
        · exact keeps_touch ‹_›
      try clear_value s1
      exact KeepsR.mk (keeps_errRec (keeps_epbMod ‹_›))
  · exact KeepsR.mk ‹_›

theorem keeps_rrcScan {q : Bool} {a : State} {u : Nat} (l : List Nat) : ∀ {s : State}, Keeps q a s → KeepsR q a (State.rrcScan s u l) := by
  induction l with
  | nil => intro s h; exact h
  | cons x l ih => intro s h; exact ih (KeepsR.out (keeps_rrcLook h))

theorem keeps_zfail {q : Bool} {a s : State} {x1 : Nat} {x2 : ZMsg} {x3 : Nat} (h : Keeps q a s) : Keeps q a (State.zfail s x1 x2 x3) := by
  unfold State.zfail
  extract_lets +onlyGivenNames -merge d; try clear_value d
  exact keeps_zsend ‹_›

theorem keeps_slotAlloc {q : Bool} {a s : State} {x1 x2 x3 : Nat} (h : Keeps q a s) : Keeps q a (State.slotAlloc s x1 x2 x3) := by
  unfold State.slotAlloc; exact keeps_slotsUsed (keeps_epbMod ‹_›)

theorem keeps_faultSwitch {q : Bool} {a s : State} {x1 : Nat} {x2 : ZMsg} {x3 : FaultRec} (h : Keeps q a s) : Keeps q a (State.faultSwitch s x1 x2 x3) := by
  unfold State.faultSwitch
  extract_lets +onlyGivenNames -merge e; try clear_value e
  extract_lets +onlyGivenNames -merge bound; try clear_value bound
  extract_lets +onlyGivenNames -merge pick; try clear_value pick
  split
  · exact keeps_zfail (keeps_fault ‹_›)
  · extract_lets +onlyGivenNames -merge s1
    have _ : Keeps q a s1 := by
      unfold s1
      refine Keeps.ite ?_ ?_
      · exact keeps_slotAlloc ‹_›
      · assumption
    try clear_value s1
    extract_lets +onlyGivenNames -merge g; try clear_value g
    extract_lets +onlyGivenNames -merge w; try clear_value w
    split
    · rename_i heq
      have := KeepsR.eq heq (show KeepsR q a _ from by
        exact keeps_faultRec ‹_›
        )
      exact keeps_zsend (KeepsR.out (keeps_draw ‹_›))

theorem keeps_zok {q : Bool} {a s : State} {x1 : Nat} {x2 : ZMsg} {x3 : Bool} {x4 : List Byte} (h : Keeps q a s) : Keeps q a (State.zok s x1 x2 x3 x4) := by
  unfold State.zok; exact keeps_zsend ‹_›

theorem keeps_zloadAnswer {q : Bool} {a s : State} {x1 : Nat} {x2 : ZLoad} (h : Keeps q a s) : Keeps q a (State.zloadAnswer s x1 x2) := by
  unfold State.zloadAnswer
  extract_lets +onlyGivenNames -merge bad; try clear_value bad
  split
  · exact keeps_zfail ‹_›
  · exact keeps_faultSwitch ‹_›
  · extract_lets +onlyGivenNames -merge data; try clear_value data
    exact keeps_zok ‹_›

theorem keeps_zloadsSettle {q : Bool} {a s : State} {x1 : Nat} (h : Keeps q a s) : Keeps q a (State.zloadsSettle s x1) := by
  unfold State.zloadsSettle
  extract_lets +onlyGivenNames -merge l; try clear_value l
  extract_lets +onlyGivenNames -merge done; try clear_value done
  extract_lets +onlyGivenNames -merge s1
  have _ : Keeps q a s1 := by unfold s1; exact keeps_epbMod ‹_›
  try clear_value s1
  refine Keeps.each ?_ (fun _ _ h => ?_)
  · assumption
  · exact keeps_zloadAnswer ‹_›

theorem keeps_rrcLookup {q : Bool} {a s : State} {x1 : Nat} {x2 : Req} {x3 : ZMsg} (h : Keeps q a s) : KeepsR q a (State.rrcLookup s x1 x2 x3) := by
  unfold State.rrcLookup
  split
  · rename_i heq
    have := KeepsR.eq heq (show KeepsR q a _ from by
      exact keeps_rrcScan _ ‹_›
      )
    extract_lets +onlyGivenNames -merge missing; try clear_value missing
    extract_lets +onlyGivenNames -merge z; try clear_value z
    extract_lets +onlyGivenNames -merge s2
    have _ : Keeps q a s2 := by unfold s2; exact keeps_epbMod ‹_›
    try clear_value s2
    extract_lets +onlyGivenNames -merge allHit; try clear_value allHit
    extract_lets +onlyGivenNames -merge s3
    have _ : Keeps q a s3 := by
      unfold s3
      refine Keeps.ite ?_ ?_
      · exact keeps_fsat ‹_›
      · exact keeps_fsat ‹_›
    try clear_value s3
    split
    · exact KeepsR.mk ‹_›
    · exact KeepsR.mk (keeps_zloadsSettle ‹_›)

theorem keeps_fillArrive {q : Bool} {a s : State} {x1 x2 : Nat} {x3 : Nat → LineSrc} (h : Keeps q a s) : Keeps q a (State.fillArrive s x1 x2 x3) := by
  unfold State.fillArrive; exact keeps_zloadsSettle (keeps_epbMod ‹_›)

theorem keeps_rrcInstall {q : Bool} {a s : State} {x1 x2 x3 : Nat} {x4 : List Byte} (h : Keeps q a s) : Keeps q a (State.rrcInstall s x1 x2 x3 x4) := by
  unfold State.rrcInstall
  extract_lets +onlyGivenNames -merge e; try clear_value e
  extract_lets +onlyGivenNames -merge set; try clear_value set
  refine Keeps.ite ?_ ?_
  · assumption
  · extract_lets +onlyGivenNames -merge w; try clear_value w
    extract_lets +onlyGivenNames -merge set'; try clear_value set'
    exact KeepsL.out (keeps_storeLines (keeps_epbMod ‹_›))

theorem keeps_deliver {q : Bool} {a s : State} {x1 x2 : Nat} {x3 : Tag} {x4 : Done} (h : Keeps q a s) : Keeps q a (State.deliver s x1 x2 x3 x4) := by
  unfold State.deliver
  split
  · split
    · exact keeps_faultSwitch ‹_›
    · extract_lets +onlyGivenNames -merge s1
      have _ : Keeps q a s1 := by
        unfold s1
        refine Keeps.ite ?_ ?_
        · exact keeps_epbMod ‹_›
        · assumption
      try clear_value s1
      refine Keeps.ite ?_ ?_
      · exact keeps_zok ‹_›
      · exact keeps_zfail ‹_›
  · split
    · exact keeps_fillArrive ‹_›
    · refine Keeps.ite ?_ ?_
      · extract_lets +onlyGivenNames -merge base; try clear_value base
        extract_lets +onlyGivenNames -merge slice; try clear_value slice
        extract_lets +onlyGivenNames -merge s1
        have _ : Keeps q a s1 := by
          unfold s1
          refine Keeps.ite ?_ ?_
          · assumption
          · refine Keeps.each ?_ (fun _ _ h => ?_)
            · assumption
            · exact keeps_rrcInstall ‹_›
        try clear_value s1
        exact keeps_fillArrive ‹_›
      · exact keeps_fillArrive ‹_›
  · exact keeps_epbMod ‹_›
  · exact keeps_epbMod ‹_›
  · extract_lets +onlyGivenNames -merge e; try clear_value e
    exact Keeps.record ‹_›
  · exact keeps_rsvStored ‹_›
  · refine Keeps.ite ?_ ?_
    · assumption
    · exact keeps_emit ‹_›

theorem keeps_refuseReq {q : Bool} {a s : State} {x1 : Nat} {x2 : Req} {x3 x4 : Nat} (h : Keeps q a s) : Keeps q a (State.refuseReq s x1 x2 x3 x4) := by
  unfold State.refuseReq
  refine keeps_deliver ?_
  split
  · exact h
  · exact h
  · exact keeps_epbMod (keeps_fault h)
  · exact keeps_fault h

theorem keeps_demote {q : Bool} {a s : State} {x1 : Nat} {x2 : Req} (h : Keeps q a s) : KeepsL q a (State.demote s x1 x2) := by
  unfold State.demote
  refine KeepsL.ite ?_ ?_
  · exact KeepsL.mk ‹_›
  · extract_lets +onlyGivenNames -merge count; try clear_value count
    refine KeepsL.mk ?_
    refine Keeps.ite ?_ ?_
    · exact keeps_fsat ‹_›
    · assumption

theorem keeps_ownWrite {q : Bool} {a s : State} {x1 : Nat} {x2 : Req} (h : Keeps q a s) : Keeps q a (State.ownWrite s x1 x2) := by
  unfold State.ownWrite
  split
  · refine Keeps.ite ?_ ?_
    · exact keeps_epbMod ‹_›
    · assumption
  · assumption

theorem keeps_creditAdd {q : Bool} {a s : State} {x1 x2 : Nat} {x3 : Int} (h : Keeps q a s) : Keeps q a (State.creditAdd s x1 x2 x3) := by
  unfold State.creditAdd
  extract_lets +onlyGivenNames -merge c; try clear_value c
  exact keeps_epbMod ‹_›

theorem keeps_charge {q : Bool} {a s : State} {x1 : Nat} {x2 : Req} (h : Keeps q a s) : Keeps q a (State.charge s x1 x2) := by
  unfold State.charge
  refine Keeps.ite ?_ ?_
  · extract_lets +onlyGivenNames -merge s1
    have _ : Keeps q a s1 := by
      unfold s1
      refine Keeps.ite ?_ ?_
      · exact keeps_creditAdd ‹_›
      · assumption
    try clear_value s1
    refine Keeps.ite ?_ ?_
    · extract_lets +onlyGivenNames -merge t; try clear_value t
      exact keeps_epbMod ‹_›
    · assumption
  · assumption

theorem keeps_sendFrom {q : Bool} {a s : State} {x1 : Nat} {x2 : Bool} {x3 : Packet} (h : Keeps q a s) : Keeps q a (State.sendFrom s x1 x2 x3) := by
  unfold State.sendFrom
  refine Keeps.ite ?_ ?_
  · exact Keeps.record ‹_›
  · exact keeps_inject ‹_›

theorem keeps_issue {q : Bool} {a s : State} {x1 : Nat} {x2 : Req} {x3 : Nat} (h : Keeps q a s) : Keeps q a (State.issue s x1 x2 x3) := by
  unfold State.issue
  extract_lets +onlyGivenNames -merge key; try clear_value key
  extract_lets +onlyGivenNames -merge addr; try clear_value addr
  extract_lets +onlyGivenNames -merge roleV; try clear_value roleV
  extract_lets +onlyGivenNames -merge p; try clear_value p
  extract_lets +onlyGivenNames -merge p; try clear_value p
  extract_lets +onlyGivenNames -merge s3
  have _ : Keeps q a s3 := by unfold s3; exact keeps_ownWrite (keeps_charge ‹_›)
  try clear_value s3
  extract_lets +onlyGivenNames -merge t; try clear_value t
  extract_lets +onlyGivenNames -merge s4
  have _ : Keeps q a s4 := by unfold s4; exact Keeps.record ‹_›
  try clear_value s4
  extract_lets +onlyGivenNames -merge s5
  have _ : Keeps q a s5 := by
    unfold s5
    refine Keeps.ite ?_ ?_
    · exact keeps_fset ‹_›
    · assumption
  try clear_value s5
  extract_lets +onlyGivenNames -merge s6
  have _ : Keeps q a s6 := by
    unfold s6
    split
    · exact keeps_epbMod ‹_›
    · assumption
  try clear_value s6
  extract_lets +onlyGivenNames -merge own; try clear_value own
  exact keeps_sendFrom ‹_›

theorem keeps_tryIssue {q : Bool} {a s : State} {x1 : Nat} {x2 : Req} (h : Keeps q a s) : Keeps q a (State.tryIssue s x1 x2) := by
  unfold State.tryIssue
  split
  · exact keeps_park ‹_›
  · split
    · exact keeps_issue ‹_›
    · exact keeps_park ‹_›

theorem keeps_formIssue {q : Bool} {a s : State} {x1 : Nat} {x2 : Req} (h : Keeps q a s) : Keeps q a (State.formIssue s x1 x2) := by
  unfold State.formIssue
  split
  · exact keeps_refuseReq ‹_›
  · split
    · rename_i heq
      have := KeepsL.eq heq (show KeepsL q a _ from by
        exact keeps_demote ‹_›
        )
      exact keeps_tryIssue ‹_›

theorem keeps_goIssue {q : Bool} {a s : State} {x1 : Nat} {x2 : Req} (h : Keeps q a s) : Keeps q a (State.goIssue s x1 x2) := by
  unfold State.goIssue
  split
  · refine Keeps.ite ?_ ?_
    · exact keeps_park ‹_›
    · refine Keeps.ite ?_ ?_
      · exact keeps_park ‹_›
      · split
        · rename_i heq
          have := KeepsR.eq heq (show KeepsR q a _ from by
            exact keeps_rrcLookup ‹_›
            )
          exact keeps_formIssue ‹_›
        · rename_i heq
          have := KeepsR.eq heq (show KeepsR q a _ from by
            exact keeps_rrcLookup ‹_›
            )
          assumption
  · exact keeps_formIssue ‹_›

theorem keeps_submit {q : Bool} {a s : State} {x1 : Nat} {x2 : Req} (h : Keeps q a s) : Keeps q a (State.submit s x1 x2) := by
  unfold State.submit
  refine Keeps.ite ?_ ?_
  · exact keeps_goIssue (Keeps.record ‹_›)
  · exact keeps_goIssue ‹_›

theorem keeps_tableTouch {q : Bool} {a s : State} {x1 : Nat} (h : Keeps q a s) : Keeps q a (State.tableTouch s x1) := by
  unfold State.tableTouch
  refine Keeps.ite ?_ ?_
  · assumption
  · exact keeps_internalTouch ‹_›

theorem keeps_walkStep {q : Bool} {a s : State} {x1 x2 x3 : Nat} {x4 : List Word} (h : Keeps q a s) : KeepsL q a (State.walkStep s x1 x2 x3 x4) := by
  unfold State.walkStep
  extract_lets +onlyGivenNames -merge gfa; try clear_value gfa
  exact KeepsL.mk (keeps_tableTouch ‹_›)

theorem keeps_walkTouch {q : Bool} {a : State} {va : Nat} (n : Nat) : ∀ {s : State} {t : Nat} {e : List Word}, Keeps q a s → Keeps q a (State.walkTouch s va n t e) := by
  induction n with
  | zero => intro s t e h; exact h
  | succ n ih => intro s t e h; exact Keeps.elim (KeepsL.out (keeps_walkStep h)) (fun _ => ih (KeepsL.out (keeps_walkStep h)))

theorem keeps_walked {q : Bool} {a s : State} {x1 : Space} {x2 : Nat} {x3 : Word} {x4 : List Word} (h : Keeps q a s) : Keeps q a (State.walked s x1 x2 x3 x4) := by
  unfold State.walked
  split
  · refine Keeps.ite ?_ ?_
    · assumption
    · exact keeps_walkTouch _ ‹_›
  · exact keeps_walkTouch _ ‹_›

theorem keeps_cacheInstall {q : Bool} {a s : State} {x1 : Nat} {x2 : CacheEnt} (h : Keeps q a s) : Keeps q a (State.cacheInstall s x1 x2) := by
  unfold State.cacheInstall
  extract_lets +onlyGivenNames -merge k; try clear_value k
  extract_lets +onlyGivenNames -merge set; try clear_value set
  refine Keeps.ite ?_ ?_
  · assumption
  · extract_lets +onlyGivenNames -merge w; try clear_value w
    exact keeps_epbMod ‹_›

theorem keeps_bulk {q : Bool} {a s : State} {x1 x2 x3 x4 : Nat} {x5 : List Word} (h : Keeps q a s) : KeepsR q a (State.bulk s x1 x2 x3 x4 x5) := by
  unfold State.bulk
  extract_lets +onlyGivenNames -merge root; try clear_value root
  refine KeepsR.ite ?_ ?_
  · exact KeepsR.mk ‹_›
  · split
    · exact KeepsR.mk (keeps_epbMod ‹_›)
    · refine KeepsR.ite ?_ ?_
      · exact KeepsR.mk ‹_›
      · extract_lets +onlyGivenNames -merge s1
        have _ : Keeps q a s1 := by
          unfold s1
          refine keeps_walked ?_
          refine Keeps.ite ?_ ?_
          · exact keeps_fsat ‹_›
          · assumption
        try clear_value s1
        split
        · exact KeepsR.mk (keeps_cacheInstall ‹_›)
        · exact KeepsR.mk ‹_›
        · exact KeepsR.mk ‹_›
        · exact KeepsR.mk ‹_›
        · exact KeepsR.mk ‹_›
        · exact KeepsR.mk ‹_›
        · exact KeepsR.mk ‹_›

theorem keeps_thrPark {q : Bool} {a s : State} {x1 x2 : Nat} {x3 : Option Nat} {x4 x5 x6 x7 : Nat} (h : Keeps q a s) : Keeps q a (State.thrPark s x1 x2 x3 x4 x5 x6 x7) := by
  unfold State.thrPark; exact keeps_thrGo (keeps_fault ‹_›)

theorem keeps_remoteFabric {q : Bool} {a s : State} {x1 x2 : Nat} {x3 : Bool} {x4 : RemoteReq} {x5 : List Word} (h : Keeps q a s) : Keeps q a (State.remoteFabric s x1 x2 x3 x4 x5) := by
  have go : ∀ {s : State} {g k : Nat}, Keeps q a s → Keeps q a
      (if x4.mcr.isNone && !isTarget (gfaE g) then s.remoteFail x1 x2 (some g) x4.typ 0x07 TStat.fault 7 0
       else if !operandOk (s.remoteReq x1 x2 g k x4).typ (gfaOff g) (s.remoteReq x1 x2 g k x4).len (s.remoteReq x1 x2 g k x4).fmt
          (s.remoteReq x1 x2 g k x4).rop (s.remoteReq x1 x2 g k x4).vc (s.remoteReq x1 x2 g k x4).payload.length
          || (x4.mcr.isSome && (s.remoteReq x1 x2 g k x4).vc != 2 && (s.remoteReq x1 x2 g k x4).vc != 3) then
         s.remoteFail x1 x2 (some g) x4.typ 0x08 TStat.badParam 7 0
       else (if x3 then s.copAccess (x1 / 256) x2 x4.payload else s).submit (96 + x1 / 256) (s.remoteReq x1 x2 g k x4)) := by
    intro s g k h
    exact Keeps.ite (keeps_remoteFail h) (Keeps.ite (keeps_remoteFail h) (keeps_submit (Keeps.ite (keeps_copAccess h) h)))
  unfold State.remoteFabric; dsimp only
  refine Keeps.ite (go h) ?_
  split <;> rename_i e
  · exact go (KeepsR.eq e (keeps_bulk h))
  · exact keeps_thrPark (KeepsR.eq e (keeps_bulk h))
  · exact keeps_remoteFail (KeepsR.eq e (keeps_bulk h))
  · exact keeps_remoteHold h

theorem keeps_remoteGo {q : Bool} {a s : State} {x1 : Nat} {x2 : SInstr} {x3 : List Word} (h : Keeps q a s) : Keeps q a (State.remoteGo s x1 x2 x3) := by
  unfold State.remoteGo
  extract_lets +onlyGivenNames -merge n; try clear_value n
  extract_lets +onlyGivenNames -merge addr; try clear_value addr
  extract_lets +onlyGivenNames -merge scr; try clear_value scr
  split
  · exact keeps_progError ‹_›
  · refine Keeps.ite ?_ ?_
    · split
      · rename_i heq
        have := KeepsR.eq heq (show KeepsR q a _ from by
          exact keeps_remoteData ‹_›
          )
        refine Keeps.ite ?_ ?_
        · exact keeps_remoteHold ‹_›
        · refine Keeps.ite ?_ ?_
          · exact keeps_remoteSuppressed ‹_›
          · extract_lets +onlyGivenNames -merge r; try clear_value r
            exact keeps_remoteFabric ‹_›
    · refine Keeps.ite ?_ ?_
      · exact keeps_progError ‹_›
      · split
        · exact keeps_progError ‹_›
        · extract_lets +onlyGivenNames -merge dead; try clear_value dead
          refine Keeps.ite ?_ ?_
          · exact keeps_remoteHold ‹_›
          · refine Keeps.ite ?_ ?_
            · split
              · rename_i heq
                have := KeepsR.eq heq (show KeepsR q a _ from by
                  refine KeepsR.ite ?_ ?_
                  · exact KeepsR.mk ‹_›
                  · exact keeps_partsRead ‹_›
                  )
                exact keeps_remoteEnd ‹_›
            · split
              · rename_i heq
                have := KeepsR.eq heq (show KeepsR q a _ from by
                  exact keeps_remoteData ‹_›
                  )
                refine keeps_remoteEnd ?_
                refine Keeps.ite ?_ ?_
                · assumption
                · refine Keeps.ite ?_ ?_
                  · exact keeps_partsPoison ‹_›
                  · exact keeps_partsWrite _ ‹_›

theorem keeps_thrResume {q : Bool} {a s : State} {x1 : Nat} {x2 : Bool} {x3 : List Word} (h : Keeps q a s) : Keeps q a (State.thrResume s x1 x2 x3) := by
  unfold State.thrResume
  refine Keeps.ite ?_ ?_
  · exact keeps_remoteDone ‹_›
  · exact keeps_remoteGo (keeps_thrGo ‹_›)

theorem keeps_cmdFaultResume {q : Bool} {a s : State} {x1 : Cmd} {x2 : List (List Word)} (h : Keeps q a s) : KeepsA q a (State.cmdFaultResume s x1 x2) := by
  unfold State.cmdFaultResume
  extract_lets +onlyGivenNames -merge w; try clear_value w
  extract_lets +onlyGivenNames -merge id; try clear_value id
  extract_lets +onlyGivenNames -merge all; try clear_value all
  extract_lets +onlyGivenNames -merge abort; try clear_value abort
  extract_lets +onlyGivenNames -merge u; try clear_value u
  extract_lets +onlyGivenNames -merge kind; try clear_value kind
  refine KeepsA.ite ?_ ?_
  · exact keeps_noAns ‹_›
  · refine KeepsA.ite ?_ ?_
    · extract_lets +onlyGivenNames -merge l; try clear_value l
      refine keeps_resumeAll ?_ (fun _ _ h => ?_)
      · assumption
      · exact keeps_wakeSlot ‹_›
    · refine KeepsA.ite ?_ ?_
      · extract_lets +onlyGivenNames -merge l; try clear_value l
        refine keeps_resumeAll ?_ (fun _ _ h => ?_)
        · assumption
        · refine Keeps.ite ?_ ?_
          · exact keeps_niResume ‹_›
          · exact keeps_descResume ‹_›
      · extract_lets +onlyGivenNames -merge l; try clear_value l
        refine keeps_resumeAll ?_ (fun _ _ h => ?_)
        · assumption
        · exact keeps_thrResume ‹_›

theorem keeps_cmdProgLoad {q : Bool} {a s : State} {x1 : Cmd} (h : Keeps q a s) : KeepsA q a (State.cmdProgLoad s x1) := by
  unfold State.cmdProgLoad
  extract_lets +onlyGivenNames -merge cs; try clear_value cs
  extract_lets +onlyGivenNames -merge src; try clear_value src
  extract_lets +onlyGivenNames -merge len; try clear_value len
  extract_lets +onlyGivenNames -merge inPool; try clear_value inPool
  refine KeepsA.ite ?_ ?_
  · exact keeps_noAns ‹_›
  · refine KeepsA.ite ?_ ?_
    · exact keeps_noAns ‹_›
    · refine keeps_defer ?_ (fun _ _ h => ?_)
      · assumption
      · exact Keeps.record ‹_›

theorem keeps_regionLower {q : Bool} {a s : State} {x1 x2 x3 : Nat} (h : Keeps q a s) : Keeps q a (State.regionLower s x1 x2 x3) := by
  unfold State.regionLower
  refine Keeps.ite ?_ ?_
  · assumption
  · extract_lets +onlyGivenNames -merge g; try clear_value g
    extract_lets +onlyGivenNames -merge _ h'; try clear_value h'
    exact keeps_fset (Keeps.record ‹_›)

theorem keeps_regionShow {q : Bool} {a s : State} {x1 : Nat} (h : Keeps q a s) : Keeps q a (State.regionShow s x1) := by
  unfold State.regionShow; exact keeps_fset (keeps_fset ‹_›)

theorem keeps_regionBegin {q : Bool} {a s : State} {x1 : List Nat} {x2 x3 : Nat} (h : Keeps q a s) : Keeps q a (State.regionBegin s x1 x2 x3) := by
  unfold State.regionBegin
  extract_lets +onlyGivenNames -merge s1
  have _ : Keeps q a s1 := by
    unfold s1
    refine Keeps.each ?_ (fun _ _ h => ?_)
    · assumption
    · exact keeps_regionLower ‹_›
  try clear_value s1
  extract_lets +onlyGivenNames -merge _ _ s2
  have _ : Keeps q a s2 := by unfold s2; exact Keeps.record ‹_›
  try clear_value s2
  exact keeps_rsvShow (keeps_regionShow ‹_›)

theorem keeps_regionRaise {q : Bool} {a s : State} {x1 x2 x3 : Nat} (h : Keeps q a s) : Keeps q a (State.regionRaise s x1 x2 x3) := by
  unfold State.regionRaise
  extract_lets +onlyGivenNames -merge old; try clear_value old
  refine Keeps.ite ?_ ?_
  · assumption
  · extract_lets +onlyGivenNames -merge take; try clear_value take
    exact keeps_fset (Keeps.record ‹_›)

theorem keeps_regionEnd {q : Bool} {a s : State} {x1 : Nat} (h : Keeps q a s) : Keeps q a (State.regionEnd s x1) := by
  unfold State.regionEnd
  split
  · assumption
  · extract_lets +onlyGivenNames -merge s1
    have _ : Keeps q a s1 := by
      unfold s1
      refine Keeps.each ?_ (fun _ _ h => ?_)
      · assumption
      · exact keeps_regionRaise ‹_›
    try clear_value s1
    extract_lets +onlyGivenNames -merge _ s2
    have _ : Keeps q a s2 := by unfold s2; exact keeps_rsvRetry (keeps_regionShow (Keeps.record ‹_›))
    try clear_value s2
    refine Keeps.ite ?_ ?_
    · assumption
    · exact keeps_completeTicket ‹_›

theorem keeps_regionTry {q : Bool} {a s : State} {x1 : Nat} (h : Keeps q a s) : Keeps q a (State.regionTry s x1) := by
  unfold State.regionTry
  refine Keeps.ite ?_ ?_
  · exact keeps_regionEnd ‹_›
  · assumption

theorem keeps_cmdRegionSet {q : Bool} {a s : State} {x1 : Cmd} (h : Keeps q a s) : KeepsA q a (State.cmdRegionSet s x1) := by
  unfold State.cmdRegionSet
  refine KeepsA.ite ?_ ?_
  · exact keeps_noAns ‹_›
  · refine KeepsA.ite ?_ ?_
    · exact keeps_noAns ‹_›
    · extract_lets +onlyGivenNames -merge a'
      have _ : KeepsA q a a' := by
        unfold a'
        refine keeps_defer ?_ (fun _ _ h => ?_)
        · assumption
        · refine Keeps.each ?_ (fun _ _ h => ?_)
          · assumption
          · exact keeps_regionBegin ‹_›
      try clear_value a'
      refine KeepsA.withAfter ?_ (fun _ h => ?_)
      · assumption
      · refine Keeps.ite ?_ ?_
        · refine Keeps.each ?_ (fun _ _ h => ?_)
          · assumption
          · exact keeps_regionTry ‹_›
        · assumption

theorem keeps_rickAnswer {q : Bool} {a s : State} {x1 : Cmd} {x2 x3 x4 : Bool} {x5 : State → State} (h : Keeps q a s) (k5 : ∀ y0, Keeps q a y0 → Keeps q a (x5 y0)) : KeepsA q a (State.rickAnswer s x1 x2 x3 x4 x5) := by
  unfold State.rickAnswer
  refine KeepsA.ite ?_ ?_
  · exact keeps_noAns ‹_›
  · refine KeepsA.ite ?_ ?_
    · exact keeps_noAns ‹_›
    · refine KeepsA.ite ?_ ?_
      · exact keeps_noAns ‹_›
      · refine KeepsA.ite ?_ ?_
        · exact keeps_noAns ‹_›
        · refine KeepsA.ite ?_ ?_
          · exact keeps_noAns ‹_›
          · refine KeepsA.ite ?_ ?_
            · exact keeps_noAns ‹_›
            · refine keeps_defer ?_ (fun _ _ h => ?_)
              · assumption
              · extract_lets +onlyGivenNames -merge x'; try clear_value x'
                exact k5 _ (Keeps.record ‹_›)

theorem keeps_objShow {q : Bool} {a s : State} {x1 : Nat} (h : Keeps q a s) : Keeps q a (State.objShow s x1) := by
  unfold State.objShow
  split
  · exact keeps_wr (keeps_wr ‹_›)
  · exact keeps_wr (keeps_wr ‹_›)

theorem keeps_objPut {q : Bool} {a s : State} {x1 : Nat} {x2 : RickObj} (h : Keeps q a s) : Keeps q a (State.objPut s x1 x2) := by
  unfold State.objPut; exact keeps_objShow (Keeps.record ‹_›)

theorem keeps_rickCreate {q : Bool} {a s : State} {x1 : Cmd} (h : Keeps q a s) : Keeps q a (State.rickCreate s x1) := by
  unfold State.rickCreate
  split
  · assumption
  · exact keeps_objPut ‹_›

theorem keeps_cmdRickWrite {q : Bool} {a s : State} {x1 : Cmd} (h : Keeps q a s) : KeepsA q a (State.cmdRickWrite s x1) := by
  unfold State.cmdRickWrite
  refine keeps_rickAnswer ?_ (fun _ h => ?_)
  · assumption
  · exact keeps_rickCreate ‹_›

theorem keeps_cmdRickSeal {q : Bool} {a s : State} {x1 : Cmd} (h : Keeps q a s) : KeepsA q a (State.cmdRickSeal s x1) := by
  unfold State.cmdRickSeal
  refine keeps_rickAnswer ?_ (fun _ h => ?_)
  · assumption
  · show Keeps _ _ _
    assumption

theorem keeps_cmdRickRead {q : Bool} {a s : State} {x1 : Cmd} (h : Keeps q a s) : KeepsA q a (State.cmdRickRead s x1) := by
  unfold State.cmdRickRead
  refine keeps_rickAnswer ?_ (fun _ h => ?_)
  · assumption
  · show Keeps _ _ _
    assumption

theorem keeps_objDeleting {q : Bool} {a s : State} {x1 : Nat} (h : Keeps q a s) : Keeps q a (State.objDeleting s x1) := by
  unfold State.objDeleting
  split
  · exact keeps_objPut ‹_›
  · assumption

theorem keeps_cmdRickDelete {q : Bool} {a s : State} {x1 : Cmd} (h : Keeps q a s) : KeepsA q a (State.cmdRickDelete s x1) := by
  unfold State.cmdRickDelete
  refine keeps_rickAnswer ?_ (fun _ h => ?_)
  · assumption
  · exact keeps_objDeleting ‹_›

theorem keeps_cmdKlnSpdm {q : Bool} {a s : State} {x1 : Cmd} (h : Keeps q a s) : KeepsA q a (State.cmdKlnSpdm s x1) := by
  unfold State.cmdKlnSpdm
  refine keeps_defer ?_ (fun _ _ h => ?_)
  · assumption
  · exact Keeps.record ‹_›

theorem keeps_copClear {q : Bool} {a s : State} (h : Keeps q a s) : Keeps q a (State.copClear s) := by
  unfold State.copClear; exact keeps_wr (keeps_wr (keeps_wr ‹_›))

theorem keeps_bindReset {a s : State} {x1 : List Byte} (h : Keeps false a s) : Keeps false a (State.bindReset s x1) := by
  unfold State.bindReset; dsimp only
  have k0 : Keeps false a (State.each (List.range 16) State.clusterReset (State.each (List.range 64) State.epbReset s)) :=
    Keeps.each (Keeps.each h (fun _ _ h => keeps_epbReset h)) (fun _ _ h => keeps_clusterReset h)
  have k := keeps_rickFlushAll (keeps_rsvReset (keeps_copClear (keeps_coreReset (x1 := 1) (keeps_coreReset (x1 := 0) k0))))
  exact ⟨k.1, fun _ => rfl, k.2.2⟩

theorem keeps_unbindBegin {a s : State} (h : Keeps false a s) : Keeps false a (State.unbindBegin s) := by
  unfold State.unbindBegin
  split
  · rename_i heq
    have := KeepsR.eq heq (show KeepsR false a _ from by
      exact keeps_drawBytes ‹_›
      )
    extract_lets +onlyGivenNames -merge _ s2
    have _ : Keeps false a s2 := by unfold s2; exact Keeps.record ‹_›
    try clear_value s2
    exact keeps_bstateSet (keeps_bindReset ‹_›)

theorem keeps_cmdKlnUnbind {a s : State} {x1 : Cmd} (h : Keeps false a s) : KeepsA false a (State.cmdKlnUnbind s x1) := by
  unfold State.cmdKlnUnbind
  refine keeps_defer ?_ (fun _ _ h => ?_)
  · assumption
  · extract_lets +onlyGivenNames -merge _ s1
    have _ : Keeps false a s1 := by unfold s1; exact Keeps.record ‹_›
    try clear_value s1
    refine Keeps.ite ?_ ?_
    · assumption
    · exact keeps_settleErr (keeps_unbindBegin ‹_›)

theorem keeps_cmdKlnDebug {q : Bool} {a s : State} {x1 : Cmd} (h : Keeps q a s) : KeepsA q a (State.cmdKlnDebug s x1) := by
  unfold State.cmdKlnDebug; exact keeps_okAns (keeps_fset ‹_›)

theorem keeps_cmdErrArm {q : Bool} {a s : State} {x1 : Cmd} (h : Keeps q a s) : KeepsA q a (State.cmdErrArm s x1) := by
  unfold State.cmdErrArm
  extract_lets +onlyGivenNames -merge w; try clear_value w
  extract_lets +onlyGivenNames -merge code; try clear_value code
  extract_lets +onlyGivenNames -merge act; try clear_value act
  refine KeepsA.ite ?_ ?_
  · exact keeps_noAns ‹_›
  · split
    · exact keeps_noAns ‹_›
    · refine KeepsA.ite ?_ ?_
      · exact keeps_noAns ‹_›
      · extract_lets +onlyGivenNames -merge j; try clear_value j
        extract_lets +onlyGivenNames -merge b; try clear_value b
        exact keeps_okAns (keeps_wr ‹_›)

theorem keeps_cmdErrFifoRead {q : Bool} {a s : State} {x1 : Cmd} (h : Keeps q a s) : KeepsA q a (State.cmdErrFifoRead s x1) := by
  unfold State.cmdErrFifoRead
  extract_lets +onlyGivenNames -merge w; try clear_value w
  extract_lets +onlyGivenNames -merge d; try clear_value d
  extract_lets +onlyGivenNames -merge max; try clear_value max
  refine KeepsA.ite ?_ ?_
  · exact keeps_noAns ‹_›
  · extract_lets +onlyGivenNames -merge q'; try clear_value q'
    extract_lets +onlyGivenNames -merge out; try clear_value out
    extract_lets +onlyGivenNames -merge rest; try clear_value rest
    extract_lets +onlyGivenNames -merge _ s1
    have _ : Keeps q a s1 := by
      unfold s1
      refine Keeps.ite ?_ ?_
      · exact keeps_fset (Keeps.record ‹_›)
      · assumption
    try clear_value s1
    extract_lets +onlyGivenNames -merge remain; try clear_value remain
    exact keeps_okAns ‹_›

theorem keeps_copMode {q : Bool} {a s : State} {x1 : Nat} (h : Keeps q a s) : Keeps q a (State.copMode s x1) := by
  unfold State.copMode; exact keeps_fset ‹_›

theorem keeps_copLeave {q : Bool} {a s : State} (h : Keeps q a s) : Keeps q a (State.copLeave s) := by
  unfold State.copLeave; exact keeps_crcRelease (keeps_copMode ‹_›)

theorem keeps_crcClaim {q : Bool} {a s : State} {x1 x2 x3 x4 : Nat} {x5 : Bool} (h : Keeps q a s) : Keeps q a (State.crcClaim s x1 x2 x3 x4 x5) := by
  unfold State.crcClaim
  extract_lets +onlyGivenNames -merge s1
  have _ : Keeps q a s1 := by unfold s1; exact keeps_fset (keeps_fset (keeps_fset ‹_›))
  try clear_value s1
  refine Keeps.ite ?_ ?_
  · assumption
  · exact keeps_crcRestart ‹_›

theorem keeps_copEnter {q : Bool} {a s : State} {x1 x2 x3 x4 : Nat} (h : Keeps q a s) : Keeps q a (State.copEnter s x1 x2 x3 x4) := by
  unfold State.copEnter; exact keeps_crcClaim (keeps_copMode (keeps_fset (keeps_fset (keeps_fset ‹_›))))

theorem keeps_copAct {q : Bool} {a s : State} {x1 x2 x3 x4 x5 x6 : Nat} (h : Keeps q a s) : Keeps q a (State.copAct s x1 x2 x3 x4 x5 x6) := by
  unfold State.copAct
  refine Keeps.ite ?_ ?_
  · extract_lets +onlyGivenNames -merge l; try clear_value l
    extract_lets +onlyGivenNames -merge s1
    have _ : Keeps q a s1 := by unfold s1; exact keeps_copLeave ‹_›
    try clear_value s1
    exact Keeps.record ‹_›
  · refine Keeps.ite ?_ ?_
    · assumption
    · refine Keeps.ite ?_ ?_
      · exact keeps_copEnter ‹_›
      · exact keeps_copLeave ‹_›

theorem keeps_cmdCoppice {q : Bool} {a s : State} {x1 : Cmd} (h : Keeps q a s) : KeepsA q a (State.cmdCoppice s x1) := by
  unfold State.cmdCoppice
  extract_lets +onlyGivenNames -merge w; try clear_value w
  extract_lets +onlyGivenNames -merge v; try clear_value v
  extract_lets +onlyGivenNames -merge a'; try clear_value a'
  extract_lets +onlyGivenNames -merge cmask; try clear_value cmask
  extract_lets +onlyGivenNames -merge ch; try clear_value ch
  extract_lets +onlyGivenNames -merge link; try clear_value link
  extract_lets +onlyGivenNames -merge m; try clear_value m
  refine KeepsA.ite ?_ ?_
  · exact keeps_noAns ‹_›
  · refine KeepsA.ite ?_ ?_
    · exact keeps_noAns ‹_›
    · refine KeepsA.ite ?_ ?_
      · exact keeps_noAns ‹_›
      · split
        · exact keeps_noAns ‹_›
        · split
          · rename_i heq
            have := KeepsR.eq heq (show KeepsR q a _ from by
              exact keeps_ticketNew ‹_›
              )
            extract_lets +onlyGivenNames -merge s2
            have _ : Keeps q a s2 := by
              unfold s2
              refine keeps_copAct ?_
              refine Keeps.ite ?_ ?_
              · exact keeps_copClear ‹_›
              · assumption
            try clear_value s2
            refine KeepsA.mk ?_ (fun _ h => ?_)
            · assumption
            · refine Keeps.ite ?_ ?_
              · assumption
              · exact keeps_completeTicket ‹_›

theorem keeps_bank {a s : State} {x1 : Nat} (h : Keeps false a s) : Keeps false a (State.bank s x1) := by
  unfold State.bank
  refine Keeps.ite ?_ ?_
  · refine Keeps.each ?_ (fun _ _ h => ?_)
    · refine Keeps.each ?_ (fun _ _ h => ?_)
      · assumption
      · exact keeps_linkReset ‹_›
    · exact keeps_epbReset ‹_›
  · refine Keeps.ite ?_ ?_
    · exact keeps_coreReset ‹_›
    · refine Keeps.ite ?_ ?_
      · exact keeps_clusterReset ‹_›
      · refine Keeps.ite ?_ ?_
        · exact keeps_hbmReset ‹_›
        · refine Keeps.ite ?_ ?_
          · exact keeps_chipletReset ‹_›
          · refine Keeps.ite ?_ ?_
            · exact keeps_hostReset (keeps_hostReset ‹_›)
            · refine Keeps.ite ?_ ?_
              · exact keeps_rickDown ‹_›
              · refine Keeps.ite ?_ ?_
                · exact keeps_crcTelReset ‹_›
                · refine Keeps.ite ?_ ?_
                  · exact keeps_rsvReset ‹_›
                  · assumption

theorem keeps_deepen {a s : State} {x1 x2 : Nat} (h : Keeps false a s) : Keeps false a (State.deepen s x1 x2) := by
  unfold State.deepen
  extract_lets +onlyGivenNames -merge s1
  have _ : Keeps false a s1 := by unfold s1; exact keeps_fset ‹_›
  try clear_value s1
  extract_lets +onlyGivenNames -merge s2
  have _ : Keeps false a s2 := by
    unfold s2
    refine Keeps.ite ?_ ?_
    · refine Keeps.each ?_ (fun _ _ h => ?_)
      · assumption
      · exact keeps_linkOff ‹_›
    · assumption
  try clear_value s2
  refine Keeps.ite ?_ ?_
  · exact keeps_bank ‹_›
  · assumption

theorem keeps_forceOne {a s : State} {x1 : Nat} (h : Keeps false a s) : Keeps false a (State.forceOne s x1) := by
  unfold State.forceOne
  extract_lets +onlyGivenNames -merge st; try clear_value st
  refine Keeps.ite ?_ ?_
  · extract_lets +onlyGivenNames -merge _ s1
    have _ : Keeps false a s1 := by unfold s1; exact Keeps.record ‹_›
    try clear_value s1
    refine Keeps.ite ?_ ?_
    · exact keeps_deepen ‹_›
    · assumption
  · assumption

theorem keeps_pwrSettle {q : Bool} {a s : State} (h : Keeps q a s) : Keeps q a (State.pwrSettle s) := by
  unfold State.pwrSettle
  extract_lets +onlyGivenNames -merge ok; try clear_value ok
  extract_lets +onlyGivenNames -merge _ s1
  have _ : Keeps q a s1 := by unfold s1; exact Keeps.record ‹_›
  try clear_value s1
  refine Keeps.each ?_ (fun _ _ h => ?_)
  · assumption
  · exact keeps_completeTicket ‹_›

theorem keeps_cmdPwrSet {a s : State} {x1 : Cmd} (h : Keeps false a s) : KeepsA false a (State.cmdPwrSet s x1) := by
  unfold State.cmdPwrSet
  extract_lets +onlyGivenNames -merge w; try clear_value w
  extract_lets +onlyGivenNames -merge v; try clear_value v
  extract_lets +onlyGivenNames -merge doms; try clear_value doms
  extract_lets +onlyGivenNames -merge deep; try clear_value deep
  refine KeepsA.ite ?_ ?_
  · exact keeps_noAns ‹_›
  · extract_lets +onlyGivenNames -merge a'
    have _ : KeepsA false a a' := by
      unfold a'
      refine keeps_defer ?_ (fun _ _ h => ?_)
      · assumption
      · extract_lets +onlyGivenNames -merge s1
        have _ : Keeps false a s1 := by
          unfold s1
          refine Keeps.each ?_ (fun _ _ h => ?_)
          · assumption
          · exact keeps_fset ‹_›
        try clear_value s1
        extract_lets +onlyGivenNames -merge _ s2
        have _ : Keeps false a s2 := by unfold s2; exact Keeps.record ‹_›
        try clear_value s2
        extract_lets +onlyGivenNames -merge s3
        have _ : Keeps false a s3 := by
          unfold s3
          refine Keeps.each ?_ (fun _ _ h => ?_)
          · assumption
          · exact keeps_wake ‹_›
        try clear_value s3
        refine Keeps.ite ?_ ?_
        · refine Keeps.each ?_ (fun _ _ h => ?_)
          · assumption
          · exact keeps_forceOne ‹_›
        · assumption
    try clear_value a'
    refine KeepsA.withAfter ?_ (fun _ h => ?_)
    · assumption
    · exact keeps_pwrSettle ‹_›

theorem keeps_cmdPwrTolerance {q : Bool} {a s : State} {x1 : Cmd} (h : Keeps q a s) : KeepsA q a (State.cmdPwrTolerance s x1) := by
  unfold State.cmdPwrTolerance
  extract_lets +onlyGivenNames -merge w; try clear_value w
  extract_lets +onlyGivenNames -merge f; try clear_value f
  refine KeepsA.ite ?_ ?_
  · exact keeps_noAns ‹_›
  · extract_lets +onlyGivenNames -merge s1
    have _ : Keeps q a s1 := by unfold s1; exact keeps_fset ‹_›
    try clear_value s1
    refine keeps_okAns ?_
    refine Keeps.each ?_ (fun _ _ h => ?_)
    · assumption
    · exact keeps_wake ‹_›

theorem keeps_cmdPwrCapArm {q : Bool} {a s : State} {x1 : Cmd} (h : Keeps q a s) : KeepsA q a (State.cmdPwrCapArm s x1) := by
  unfold State.cmdPwrCapArm
  extract_lets +onlyGivenNames -merge w; try clear_value w
  extract_lets +onlyGivenNames -merge cap; try clear_value cap
  refine KeepsA.ite ?_ ?_
  · exact keeps_noAns ‹_›
  · refine KeepsA.ite ?_ ?_
    · exact keeps_okAns (keeps_wr ‹_›)
    · refine KeepsA.ite ?_ ?_
      · exact keeps_noAns ‹_›
      · exact keeps_okAns (keeps_fset (keeps_fset (keeps_fset ‹_›)))

theorem keeps_windowsMove {q : Bool} {a s : State} {x1 : Int} (h : Keeps q a s) : Keeps q a (State.windowsMove s x1) := by
  unfold State.windowsMove
  refine Keeps.each ?_ (fun _ _ h => ?_)
  · assumption
  · exact keeps_wr ‹_›

theorem keeps_timeSet {q : Bool} {a s : State} {x1 : Word} (h : Keeps q a s) : Keeps q a (State.timeSet s x1) := by
  unfold State.timeSet; exact keeps_fset (keeps_wr (keeps_windowsMove ‹_›))

theorem keeps_timeStep {q : Bool} {a s : State} {x1 : Int} (h : Keeps q a s) : Keeps q a (State.timeStep s x1) := by
  unfold State.timeStep
  extract_lets +onlyGivenNames -merge s1
  have _ : Keeps q a s1 := by unfold s1; exact keeps_fset (keeps_windowsMove ‹_›)
  try clear_value s1
  refine Keeps.ite ?_ ?_
  · exact keeps_wr ‹_›
  · exact keeps_fset (Keeps.record ‹_›)

theorem keeps_cmdTimeAlign {q : Bool} {a s : State} {x1 : Cmd} (h : Keeps q a s) : KeepsA q a (State.cmdTimeAlign s x1) := by
  unfold State.cmdTimeAlign
  extract_lets +onlyGivenNames -merge w; try clear_value w
  extract_lets +onlyGivenNames -merge off; try clear_value off
  refine KeepsA.ite ?_ ?_
  · exact keeps_noAns ‹_›
  · refine KeepsA.ite ?_ ?_
    · exact keeps_noAns ‹_›
    · refine KeepsA.ite ?_ ?_
      · exact keeps_okAns (keeps_timeSet ‹_›)
      · exact keeps_okAns (keeps_timeStep ‹_›)

theorem keeps_cmdCrcFeed {q : Bool} {a s : State} {x1 : Cmd} (h : Keeps q a s) : KeepsA q a (State.cmdCrcFeed s x1) := by
  unfold State.cmdCrcFeed
  extract_lets +onlyGivenNames -merge w; try clear_value w
  extract_lets +onlyGivenNames -merge addr; try clear_value addr
  extract_lets +onlyGivenNames -merge len; try clear_value len
  extract_lets +onlyGivenNames -merge ch; try clear_value ch
  refine KeepsA.ite ?_ ?_
  · exact keeps_noAns ‹_›
  · refine KeepsA.ite ?_ ?_
    · exact keeps_noAns ‹_›
    · refine keeps_defer ?_ (fun _ _ h => ?_)
      · assumption
      · extract_lets +onlyGivenNames -merge s1
        have _ : Keeps q a s1 := by unfold s1; exact keeps_crcClaim ‹_›
        try clear_value s1
        exact Keeps.record ‹_›

theorem keeps_cmdSbdXfer {q : Bool} {a s : State} {x1 : Cmd} (h : Keeps q a s) : KeepsA q a (State.cmdSbdXfer s x1) := by
  unfold State.cmdSbdXfer
  extract_lets +onlyGivenNames -merge w; try clear_value w
  extract_lets +onlyGivenNames -merge wlen; try clear_value wlen
  extract_lets +onlyGivenNames -merge rlen; try clear_value rlen
  refine KeepsA.ite ?_ ?_
  · exact keeps_noAns ‹_›
  · refine KeepsA.ite ?_ ?_
    · exact keeps_noAns ‹_›
    · refine keeps_defer ?_ (fun _ _ h => ?_)
      · assumption
      · exact Keeps.record ‹_›

theorem keeps_runCmd {a s : State} {x0 : List (List Word)} {x2 : Cmd} (h : Keeps false a s) : KeepsA false a (runCmd x0 s x2) := by
  unfold runCmd
  split
  · exact keeps_cmdNop ‹_›
  · exact keeps_cmdIdent ‹_›
  · exact keeps_cmdTicketQuery ‹_›
  · exact keeps_cmdService ‹_›
  · exact keeps_cmdRegRead ‹_›
  · exact keeps_cmdRegWrite ‹_›
  · exact keeps_cmdResetUnit ‹_›
  · exact keeps_cmdBootStatus ‹_›
  · exact keeps_cmdXlateInval ‹_›
  · exact keeps_cmdFaultResume ‹_›
  · exact keeps_cmdRingFlush ‹_›
  · exact keeps_cmdRingCtrl ‹_›
  · exact keeps_cmdSchedMode ‹_›
  · exact keeps_cmdQueueSet ‹_›
  · exact keeps_cmdProgLoad ‹_›
  · exact keeps_cmdThread ‹_›
  · exact keeps_cmdRegionSet ‹_›
  · exact keeps_cmdRickWrite ‹_›
  · exact keeps_cmdRickSeal ‹_›
  · exact keeps_cmdRickRead ‹_›
  · exact keeps_cmdRickDelete ‹_›
  · exact keeps_cmdStream ‹_›
  · exact keeps_cmdOptSearch ‹_›
  · exact keeps_cmdKlnSpdm ‹_›
  · exact keeps_cmdKlnUnbind ‹_›
  · exact keeps_cmdKlnDebug ‹_›
  · exact keeps_cmdErrArm ‹_›
  · exact keeps_cmdErrFifoRead ‹_›
  · exact keeps_cmdCoppice ‹_›
  · exact keeps_cmdPwrSet ‹_›
  · exact keeps_cmdPwrTolerance ‹_›
  · exact keeps_cmdPwrCapArm ‹_›
  · exact keeps_cmdTimeAlign ‹_›
  · exact keeps_cmdCrcFeed ‹_›
  · exact keeps_cmdSbdXfer ‹_›
  · exact keeps_noAns ‹_›

theorem keeps_takeFrom {q : Bool} {a s : State} {x1 : Nat} {x2 : Cmd} (h : Keeps q a s) : KeepsOR q a (State.takeFrom s x1 x2) := by
  unfold State.takeFrom
  extract_lets +onlyGivenNames -merge _ s1
  have _ : Keeps q a s1 := by unfold s1; exact Keeps.record ‹_›
  try clear_value s1
  refine KeepsOR.ite ?_ ?_
  · exact KeepsOR.some (keeps_fwrap ‹_›)
  · split
    · exact KeepsOR.none
    · exact KeepsOR.some (Keeps.record ‹_›)

theorem keeps_takeNext {a s : State} {x1 : Cmd} {x2 : List (List Word)} (h : Keeps false a s) : Keeps false a (State.takeNext s x1 x2) := by
  unfold State.takeNext
  refine Keeps.ite ?_ ?_
  · assumption
  · split
    · assumption
    · split
      · assumption
      · rename_i heq
        have := KeepsOR.eq heq (show KeepsOR false a _ from by
          exact keeps_takeFrom ‹_›
          )
        refine keeps_handle ?_ (fun _ _ h => ?_)
        · assumption
        · exact keeps_runCmd ‹_›

theorem keeps_execCommandTake {s : State} {x0 : Cmd} {x1 : List (List Word)} : KeepsRes s (execCommandTake x0 x1 s) := by
  unfold execCommandTake
  refine keeps_settled ?_
  refine keeps_takeNext ?_
  first | exact Keeps.refl | assumption

theorem keeps_execRefusalReply {s : State} : KeepsRes s (execRefusalReply s) := by
  unfold execRefusalReply
  refine KeepsRes.next ?_
  refine keeps_refusalReply ?_
  first | exact Keeps.refl | assumption

theorem keeps_emberIn {q : Bool} {a s : State} {x1 : Nat} {x2 : Cmd} (h : Keeps q a s) : Keeps q a (State.emberIn s x1 x2) := by
  unfold State.emberIn
  refine Keeps.ite ?_ ?_
  · assumption
  · extract_lets +onlyGivenNames -merge was; try clear_value was
    extract_lets +onlyGivenNames -merge s1
    have _ : Keeps q a s1 := by unfold s1; exact keeps_fset (keeps_wr (keeps_wr ‹_›))
    try clear_value s1
    extract_lets +onlyGivenNames -merge _ s2
    have _ : Keeps q a s2 := by unfold s2; exact Keeps.record ‹_›
    try clear_value s2
    refine Keeps.ite ?_ ?_
    · refine Keeps.each ?_ (fun _ _ h => ?_)
      · assumption
      · exact keeps_eventTo ‹_›
    · assumption

theorem keeps_emberLost {q : Bool} {a s : State} {x1 : Nat} (h : Keeps q a s) : Keeps q a (State.emberLost s x1) := by
  unfold State.emberLost
  extract_lets +onlyGivenNames -merge s1
  have _ : Keeps q a s1 := by unfold s1; exact keeps_fsat (keeps_fset ‹_›)
  try clear_value s1
  extract_lets +onlyGivenNames -merge s2
  have _ : Keeps q a s2 := by
    unfold s2
    refine Keeps.each ?_ (fun _ _ h => ?_)
    · assumption
    · exact keeps_eventTo ‹_›
  try clear_value s2
  exact keeps_errRec ‹_›

theorem keeps_emberMiss {q : Bool} {a s : State} {x1 : Nat} {x2 : Bool} (h : Keeps q a s) : Keeps q a (State.emberMiss s x1 x2) := by
  unfold State.emberMiss
  extract_lets +onlyGivenNames -merge s1
  have _ : Keeps q a s1 := by
    unfold s1
    refine Keeps.ite ?_ ?_
    · exact keeps_fset ‹_›
    · assumption
  try clear_value s1
  extract_lets +onlyGivenNames -merge due; try clear_value due
  refine Keeps.ite ?_ ?_
  · exact keeps_emberLost ‹_›
  · assumption

theorem keeps_execEmber {s : State} {x0 : Nat} {x1 : Cmd} : KeepsRes s (execEmber x0 x1 s) := by
  unfold execEmber
  refine keeps_settled ?_
  refine Keeps.ite ?_ ?_
  · refine keeps_emberIn ?_
    first | exact Keeps.refl | assumption
  · first | exact Keeps.refl | assumption

theorem keeps_execEmberMiss {s : State} {x0 : Nat} {x1 : Bool} : KeepsRes s (execEmberMiss x0 x1 s) := by
  unfold execEmberMiss
  refine keeps_settled ?_
  refine Keeps.ite ?_ ?_
  · refine keeps_emberMiss ?_
    first | exact Keeps.refl | assumption
  · first | exact Keeps.refl | assumption

theorem keeps_execMgmtPortLinkUp {s : State} {x0 : Nat} : KeepsRes s (execMgmtPortLinkUp x0 s) := by
  unfold execMgmtPortLinkUp
  refine KeepsRes.next ?_
  refine Keeps.ite ?_ ?_
  · refine keeps_fset ?_
    first | exact Keeps.refl | assumption
  · first | exact Keeps.refl | assumption

theorem keeps_arrive {q : Bool} {a s : State} {x1 x2 : Nat} {x3 : Cmd} (h : Keeps q a s) : Keeps q a (State.arrive s x1 x2 x3) := by
  unfold State.arrive
  extract_lets +onlyGivenNames -merge q'; try clear_value q'
  refine Keeps.ite ?_ ?_
  · assumption
  · refine Keeps.ite ?_ ?_
    · exact KeepsL.out (keeps_placeAt ‹_›)
    · refine Keeps.ite ?_ ?_
      · exact KeepsL.out (keeps_placeAt (keeps_fsat ‹_›))
      · exact Keeps.record ‹_›

theorem keeps_mpArrive {q : Bool} {a s : State} {x1 : Nat} {x2 : Cmd} (h : Keeps q a s) : Keeps q a (State.mpArrive s x1 x2) := by
  unfold State.mpArrive
  refine Keeps.ite ?_ ?_
  · exact keeps_emberIn ‹_›
  · extract_lets +onlyGivenNames -merge s1
    have _ : Keeps q a s1 := by unfold s1; exact keeps_arrive ‹_›
    try clear_value s1
    refine Keeps.ite ?_ ?_
    · exact keeps_fsat ‹_›
    · assumption

theorem keeps_frame {q : Bool} {a s : State} {x1 x2 x3 x4 : Nat} {x5 : Cmd} (h : Keeps q a s) : Keeps q a (State.frame s x1 x2 x3 x4 x5) := by
  unfold State.frame
  refine Keeps.ite ?_ ?_
  · assumption
  · refine Keeps.ite ?_ ?_
    · exact keeps_mpArrive ‹_›
    · exact keeps_fsat ‹_›

theorem keeps_execMgmtFrameReceive {s : State} {x0 x1 x2 x3 x4 : Nat} {x5 : Cmd} : KeepsRes s (execMgmtFrameReceive x0 x1 x2 x3 x4 x5 s) := by
  unfold execMgmtFrameReceive
  refine keeps_settled ?_
  refine Keeps.ite ?_ ?_
  · refine keeps_frame ?_
    first | exact Keeps.refl | assumption
  · first | exact Keeps.refl | assumption

theorem keeps_execCommandArrive {s : State} {x0 : Nat} {x1 : Cmd} : KeepsRes s (execCommandArrive x0 x1 s) := by
  unfold execCommandArrive
  refine keeps_settled ?_
  refine Keeps.ite ?_ ?_
  · refine keeps_mpArrive ?_
    first | exact Keeps.refl | assumption
  · refine Keeps.ite ?_ ?_
    · refine keeps_arrive ?_
      first | exact Keeps.refl | assumption
    · first | exact Keeps.refl | assumption

theorem keeps_execNop {s : State} {x0 : Cmd} : KeepsRes s (execNop x0 s) := by
  unfold execNop
  refine keeps_cmdRow (fun _ _ h => ?_)
  refine keeps_cmdNop ?_
  first | exact Keeps.refl | assumption

theorem keeps_execIdent {s : State} {x0 : Cmd} : KeepsRes s (execIdent x0 s) := by
  unfold execIdent
  refine keeps_cmdRow (fun _ _ h => ?_)
  refine keeps_cmdIdent ?_
  first | exact Keeps.refl | assumption

theorem keeps_execTicketQuery {s : State} {x0 : Cmd} : KeepsRes s (execTicketQuery x0 s) := by
  unfold execTicketQuery
  refine keeps_cmdRow (fun _ _ h => ?_)
  refine keeps_cmdTicketQuery ?_
  first | exact Keeps.refl | assumption

theorem keeps_execCmdServiceStrict {s : State} {x0 : Cmd} : KeepsRes s (execCmdServiceStrict x0 s) := by
  unfold execCmdServiceStrict
  refine keeps_cmdRow (fun _ _ h => ?_)
  refine keeps_cmdServiceStrict ?_
  first | exact Keeps.refl | assumption

theorem keeps_execCmdServiceRoundRobin {s : State} {x0 : Cmd} : KeepsRes s (execCmdServiceRoundRobin x0 s) := by
  unfold execCmdServiceRoundRobin
  refine keeps_cmdRow (fun _ _ h => ?_)
  refine keeps_cmdServiceRound ?_
  first | exact Keeps.refl | assumption

theorem keeps_execRegRead {s : State} {x0 : Cmd} : KeepsRes s (execRegRead x0 s) := by
  unfold execRegRead
  refine keeps_cmdRow (fun _ _ h => ?_)
  refine keeps_cmdRegRead ?_
  first | exact Keeps.refl | assumption

theorem keeps_execRegWrite {s : State} {x0 : Cmd} : KeepsRes s (execRegWrite x0 s) := by
  unfold execRegWrite
  refine keeps_cmdRow (fun _ _ h => ?_)
  refine keeps_cmdRegWrite ?_
  first | exact Keeps.refl | assumption

theorem keeps_execResetUnitPulse {s : State} {x0 : Cmd} : KeepsRes s (execResetUnitPulse x0 s) := by
  unfold execResetUnitPulse
  refine keeps_cmdRow (fun _ _ h => ?_)
  refine keeps_cmdResetUnit ?_
  first | exact Keeps.refl | assumption

theorem keeps_execResetUnitAssert {s : State} {x0 : Cmd} : KeepsRes s (execResetUnitAssert x0 s) := by
  unfold execResetUnitAssert
  refine keeps_cmdRow (fun _ _ h => ?_)
  refine keeps_cmdResetUnit ?_
  first | exact Keeps.refl | assumption

theorem keeps_execResetUnitRelease {s : State} {x0 : Cmd} : KeepsRes s (execResetUnitRelease x0 s) := by
  unfold execResetUnitRelease
  refine keeps_cmdRow (fun _ _ h => ?_)
  refine keeps_cmdResetUnit ?_
  first | exact Keeps.refl | assumption

theorem keeps_execBootStatus {s : State} {x0 : Cmd} : KeepsRes s (execBootStatus x0 s) := by
  unfold execBootStatus
  refine keeps_cmdRow (fun _ _ h => ?_)
  refine keeps_cmdBootStatus ?_
  first | exact Keeps.refl | assumption

theorem keeps_execXlateInval {s : State} {x0 : Cmd} : KeepsRes s (execXlateInval x0 s) := by
  unfold execXlateInval
  refine keeps_cmdRow (fun _ _ h => ?_)
  refine keeps_cmdXlateInval ?_
  first | exact Keeps.refl | assumption

theorem keeps_execFaultResume {s : State} {x0 : Cmd} {x1 : List (List Word)} : KeepsRes s (execFaultResume x0 x1 s) := by
  unfold execFaultResume
  refine keeps_cmdRow (fun _ _ h => ?_)
  refine keeps_cmdFaultResume ?_
  first | exact Keeps.refl | assumption

theorem keeps_execRingFlush {s : State} {x0 : Cmd} : KeepsRes s (execRingFlush x0 s) := by
  unfold execRingFlush
  refine keeps_cmdRow (fun _ _ h => ?_)
  refine keeps_cmdRingFlush ?_
  first | exact Keeps.refl | assumption

theorem keeps_execRingCtrlOpen {s : State} {x0 : Cmd} : KeepsRes s (execRingCtrlOpen x0 s) := by
  unfold execRingCtrlOpen
  refine keeps_cmdRow (fun _ _ h => ?_)
  refine keeps_cmdRingCtrl ?_
  first | exact Keeps.refl | assumption

theorem keeps_execRingCtrlRun {s : State} {x0 : Cmd} : KeepsRes s (execRingCtrlRun x0 s) := by
  unfold execRingCtrlRun
  refine keeps_cmdRow (fun _ _ h => ?_)
  refine keeps_cmdRingCtrl ?_
  first | exact Keeps.refl | assumption

theorem keeps_execRingCtrlClose {s : State} {x0 : Cmd} : KeepsRes s (execRingCtrlClose x0 s) := by
  unfold execRingCtrlClose
  refine keeps_cmdRow (fun _ _ h => ?_)
  refine keeps_cmdRingCtrl ?_
  first | exact Keeps.refl | assumption

theorem keeps_execSchedModeNormal {s : State} {x0 : Cmd} : KeepsRes s (execSchedModeNormal x0 s) := by
  unfold execSchedModeNormal
  refine keeps_cmdRow (fun _ _ h => ?_)
  refine keeps_cmdSchedMode ?_
  first | exact Keeps.refl | assumption

theorem keeps_execSchedModeStrict {s : State} {x0 : Cmd} : KeepsRes s (execSchedModeStrict x0 s) := by
  unfold execSchedModeStrict
  refine keeps_cmdRow (fun _ _ h => ?_)
  refine keeps_cmdSchedMode ?_
  first | exact Keeps.refl | assumption

theorem keeps_execQueueSet {s : State} {x0 : Cmd} : KeepsRes s (execQueueSet x0 s) := by
  unfold execQueueSet
  refine keeps_cmdRow (fun _ _ h => ?_)
  refine keeps_cmdQueueSet ?_
  first | exact Keeps.refl | assumption

theorem keeps_execSpnProgLoad {s : State} {x0 : Cmd} : KeepsRes s (execSpnProgLoad x0 s) := by
  unfold execSpnProgLoad
  refine keeps_cmdRow (fun _ _ h => ?_)
  refine keeps_cmdProgLoad ?_
  first | exact Keeps.refl | assumption

theorem keeps_execSpnThreadStart {s : State} {x0 : Cmd} : KeepsRes s (execSpnThreadStart x0 s) := by
  unfold execSpnThreadStart
  refine keeps_cmdRow (fun _ _ h => ?_)
  refine keeps_cmdThreadStart ?_
  first | exact Keeps.refl | assumption

theorem keeps_execSpnThreadStop {s : State} {x0 : Cmd} : KeepsRes s (execSpnThreadStop x0 s) := by
  unfold execSpnThreadStop
  refine keeps_cmdRow (fun _ _ h => ?_)
  refine keeps_cmdThreadStop ?_
  first | exact Keeps.refl | assumption

theorem keeps_execSpnThreadSetrole {s : State} {x0 : Cmd} : KeepsRes s (execSpnThreadSetrole x0 s) := by
  unfold execSpnThreadSetrole
  refine keeps_cmdRow (fun _ _ h => ?_)
  refine keeps_cmdThreadSetrole ?_
  first | exact Keeps.refl | assumption

theorem keeps_execHbmRegionSet {s : State} {x0 : Cmd} : KeepsRes s (execHbmRegionSet x0 s) := by
  unfold execHbmRegionSet
  refine keeps_cmdRow (fun _ _ h => ?_)
  refine keeps_cmdRegionSet ?_
  first | exact Keeps.refl | assumption

theorem keeps_execRickWrite {s : State} {x0 : Cmd} : KeepsRes s (execRickWrite x0 s) := by
  unfold execRickWrite
  refine keeps_cmdRow (fun _ _ h => ?_)
  refine keeps_cmdRickWrite ?_
  first | exact Keeps.refl | assumption

theorem keeps_execRickSeal {s : State} {x0 : Cmd} : KeepsRes s (execRickSeal x0 s) := by
  unfold execRickSeal
  refine keeps_cmdRow (fun _ _ h => ?_)
  refine keeps_cmdRickSeal ?_
  first | exact Keeps.refl | assumption

theorem keeps_execRickRead {s : State} {x0 : Cmd} : KeepsRes s (execRickRead x0 s) := by
  unfold execRickRead
  refine keeps_cmdRow (fun _ _ h => ?_)
  refine keeps_cmdRickRead ?_
  first | exact Keeps.refl | assumption

theorem keeps_execRickDelete {s : State} {x0 : Cmd} : KeepsRes s (execRickDelete x0 s) := by
  unfold execRickDelete
  refine keeps_cmdRow (fun _ _ h => ?_)
  refine keeps_cmdRickDelete ?_
  first | exact Keeps.refl | assumption

theorem keeps_execRsvStreamStart {s : State} {x0 : Cmd} : KeepsRes s (execRsvStreamStart x0 s) := by
  unfold execRsvStreamStart
  refine keeps_cmdRow (fun _ _ h => ?_)
  refine keeps_cmdStreamStart ?_
  first | exact Keeps.refl | assumption

theorem keeps_execRsvStreamStop {s : State} {x0 : Cmd} : KeepsRes s (execRsvStreamStop x0 s) := by
  unfold execRsvStreamStop
  refine keeps_cmdRow (fun _ _ h => ?_)
  refine keeps_cmdStreamStop ?_
  first | exact Keeps.refl | assumption

theorem keeps_execOptSearch {s : State} {x0 : Cmd} : KeepsRes s (execOptSearch x0 s) := by
  unfold execOptSearch
  refine keeps_cmdRow (fun _ _ h => ?_)
  refine keeps_cmdOptSearch ?_
  first | exact Keeps.refl | assumption

theorem keeps_execKlnSpdm {s : State} {x0 : Cmd} : KeepsRes s (execKlnSpdm x0 s) := by
  unfold execKlnSpdm
  refine keeps_cmdRow (fun _ _ h => ?_)
  refine keeps_cmdKlnSpdm ?_
  first | exact Keeps.refl | assumption

theorem keeps_execKlnUnbind {s : State} {x0 : Cmd} : KeepsRes s (execKlnUnbind x0 s) := by
  unfold execKlnUnbind
  refine keeps_cmdRow (fun _ _ h => ?_)
  refine keeps_cmdKlnUnbind ?_
  first | exact Keeps.refl | assumption

theorem keeps_execKlnDebug {s : State} {x0 : Cmd} : KeepsRes s (execKlnDebug x0 s) := by
  unfold execKlnDebug
  refine keeps_cmdRow (fun _ _ h => ?_)
  refine keeps_cmdKlnDebug ?_
  first | exact Keeps.refl | assumption

theorem keeps_execErrArm {s : State} {x0 : Cmd} : KeepsRes s (execErrArm x0 s) := by
  unfold execErrArm
  refine keeps_cmdRow (fun _ _ h => ?_)
  refine keeps_cmdErrArm ?_
  first | exact Keeps.refl | assumption

theorem keeps_execErrFifoRead {s : State} {x0 : Cmd} : KeepsRes s (execErrFifoRead x0 s) := by
  unfold execErrFifoRead
  refine keeps_cmdRow (fun _ _ h => ?_)
  refine keeps_cmdErrFifoRead ?_
  first | exact Keeps.refl | assumption

theorem keeps_execPwrTolerance {s : State} {x0 : Cmd} : KeepsRes s (execPwrTolerance x0 s) := by
  unfold execPwrTolerance
  refine keeps_cmdRow (fun _ _ h => ?_)
  refine keeps_cmdPwrTolerance ?_
  first | exact Keeps.refl | assumption

theorem keeps_execPwrSet {s : State} {x0 : Cmd} : KeepsRes s (execPwrSet x0 s) := by
  unfold execPwrSet
  refine keeps_cmdRow (fun _ _ h => ?_)
  refine keeps_cmdPwrSet ?_
  first | exact Keeps.refl | assumption

theorem keeps_execPwrCapArm {s : State} {x0 : Cmd} : KeepsRes s (execPwrCapArm x0 s) := by
  unfold execPwrCapArm
  refine keeps_cmdRow (fun _ _ h => ?_)
  refine keeps_cmdPwrCapArm ?_
  first | exact Keeps.refl | assumption

theorem keeps_execPwrCapClear {s : State} {x0 : Cmd} : KeepsRes s (execPwrCapClear x0 s) := by
  unfold execPwrCapClear
  refine keeps_cmdRow (fun _ _ h => ?_)
  refine keeps_cmdPwrCapArm ?_
  first | exact Keeps.refl | assumption

theorem keeps_execSbdXfer {s : State} {x0 : Cmd} : KeepsRes s (execSbdXfer x0 s) := by
  unfold execSbdXfer
  refine keeps_cmdRow (fun _ _ h => ?_)
  refine keeps_cmdSbdXfer ?_
  first | exact Keeps.refl | assumption

theorem keeps_execCrcFeed {s : State} {x0 : Cmd} : KeepsRes s (execCrcFeed x0 s) := by
  unfold execCrcFeed
  refine keeps_cmdRow (fun _ _ h => ?_)
  refine keeps_cmdCrcFeed ?_
  first | exact Keeps.refl | assumption

theorem keeps_execTimeAlignSet {s : State} {x0 : Cmd} : KeepsRes s (execTimeAlignSet x0 s) := by
  unfold execTimeAlignSet
  refine keeps_cmdRow (fun _ _ h => ?_)
  refine keeps_cmdTimeAlign ?_
  first | exact Keeps.refl | assumption

theorem keeps_execTimeAlignStep {s : State} {x0 : Cmd} : KeepsRes s (execTimeAlignStep x0 s) := by
  unfold execTimeAlignStep
  refine keeps_cmdRow (fun _ _ h => ?_)
  refine keeps_cmdTimeAlign ?_
  first | exact Keeps.refl | assumption

theorem keeps_execCoppiceCtrlOff {s : State} {x0 : Cmd} : KeepsRes s (execCoppiceCtrlOff x0 s) := by
  unfold execCoppiceCtrlOff
  refine keeps_cmdRow (fun _ _ h => ?_)
  refine keeps_cmdCoppice ?_
  first | exact Keeps.refl | assumption

theorem keeps_execCoppiceCtrlSource {s : State} {x0 : Cmd} : KeepsRes s (execCoppiceCtrlSource x0 s) := by
  unfold execCoppiceCtrlSource
  refine keeps_cmdRow (fun _ _ h => ?_)
  refine keeps_cmdCoppice ?_
  first | exact Keeps.refl | assumption

theorem keeps_execCoppiceCtrlShadow {s : State} {x0 : Cmd} : KeepsRes s (execCoppiceCtrlShadow x0 s) := by
  unfold execCoppiceCtrlShadow
  refine keeps_cmdRow (fun _ _ h => ?_)
  refine keeps_cmdCoppice ?_
  first | exact Keeps.refl | assumption

theorem keeps_execCoppiceCtrlPromote {s : State} {x0 : Cmd} : KeepsRes s (execCoppiceCtrlPromote x0 s) := by
  unfold execCoppiceCtrlPromote
  refine keeps_cmdRow (fun _ _ h => ?_)
  refine keeps_cmdCoppice ?_
  first | exact Keeps.refl | assumption

theorem keeps_copDrained {q : Bool} {a s : State} (h : Keeps q a s) : Keeps q a (State.copDrained s) := by
  unfold State.copDrained
  refine Keeps.each ?_ (fun _ _ h => ?_)
  · assumption
  · exact keeps_completeTicket (Keeps.record ‹_›)

theorem keeps_execCoppiceOffDrained {s : State} : KeepsRes s (execCoppiceOffDrained s) := by
  unfold execCoppiceOffDrained
  refine KeepsRes.next ?_
  refine keeps_copDrained ?_
  first | exact Keeps.refl | assumption

theorem keeps_windowWrite {q : Bool} {a s : State} {x1 x2 : Nat} (h : Keeps q a s) : Keeps q a (State.windowWrite s x1 x2) := by
  unfold State.windowWrite
  extract_lets +onlyGivenNames -merge cs; try clear_value cs
  refine keeps_fireDue ?_
  refine Keeps.each ?_ (fun _ _ h => ?_)
  · assumption
  · exact keeps_ctrBump ‹_›

theorem keeps_toOk {q : Bool} {a s : State} {x1 x2 : Nat} (h : Keeps q a s) : Keeps q a (State.toOk s x1 x2) := by
  unfold State.toOk
  extract_lets +onlyGivenNames -merge s1
  have _ : Keeps q a s1 := by unfold s1; exact keeps_epbMod (keeps_fset ‹_›)
  try clear_value s1
  extract_lets +onlyGivenNames -merge cmpl; try clear_value cmpl
  extract_lets +onlyGivenNames -merge c; try clear_value c
  extract_lets +onlyGivenNames -merge s2
  have _ : Keeps q a s2 := by
    unfold s2
    refine Keeps.ite ?_ ?_
    · exact keeps_ctrBump ‹_›
    · assumption
  try clear_value s2
  extract_lets +onlyGivenNames -merge s3
  have _ : Keeps q a s3 := by
    unfold s3
    refine Keeps.ite ?_ ?_
    · exact keeps_fset (keeps_fwrap ‹_›)
    · exact keeps_fset ‹_›
  try clear_value s3
  exact keeps_fireDue (keeps_niStat ‹_›)

theorem keeps_jtagIr {q : Bool} {a s : State} {x1 : Nat} {x2 : Lands} (h : Keeps q a s) : Keeps q a (State.jtagIr s x1 x2) := by
  unfold State.jtagIr; exact Keeps.record ‹_›

theorem keeps_tapReset {q : Bool} {a s : State} (h : Keeps q a s) : Keeps q a (State.tapReset s) := by
  unfold State.tapReset; exact keeps_jtagIr ‹_›

theorem keeps_execTapReset {s : State} : KeepsRes s (execTapReset s) := by
  unfold execTapReset
  refine KeepsRes.next ?_
  refine keeps_tapReset ?_
  first | exact Keeps.refl | assumption

theorem keeps_barWrite {a s : State} {x1 x2 x3 x4 : Nat} (h : Keeps false a s) : Keeps false a (State.barWrite s x1 x2 x3 x4) := by
  unfold State.barWrite
  refine Keeps.ite ?_ ?_
  · assumption
  · split
    · refine Keeps.each ?_ (fun _ _ h => ?_)
      · assumption
      · refine Keeps.ite ?_ ?_
        · exact keeps_mboxCommit ‹_›
        · exact keeps_regApply ‹_›
    · extract_lets +onlyGivenNames -merge s1
      have _ : Keeps false a s1 := by unfold s1; exact keeps_barDiscard ‹_›
      try clear_value s1
      split
      · exact keeps_fsat ‹_›
      · assumption

theorem keeps_execRegisterWrite {s : State} {x0 x1 x2 x3 : Nat} : KeepsRes s (execRegisterWrite x0 x1 x2 x3 s) := by
  unfold execRegisterWrite
  refine keeps_settled ?_
  refine Keeps.ite ?_ ?_
  · refine keeps_barWrite ?_
    first | exact Keeps.refl | assumption
  · first | exact Keeps.refl | assumption

theorem keeps_execMboxCommit {s : State} {x0 x1 : Nat} : KeepsRes s (execMboxCommit x0 x1 s) := by
  unfold execMboxCommit
  refine KeepsRes.next ?_
  refine Keeps.ite ?_ ?_
  · refine keeps_mboxCommit ?_
    first | exact Keeps.refl | assumption
  · first | exact Keeps.refl | assumption

theorem keeps_execMboxRspHeadWrite {s : State} {x0 : Nat} : KeepsRes s (execMboxRspHeadWrite x0 s) := by
  unfold execMboxRspHeadWrite
  refine KeepsRes.next ?_
  refine keeps_mboxRspHead ?_
  first | exact Keeps.refl | assumption

theorem keeps_execMboxEnable {s : State} {x0 : Nat} : KeepsRes s (execMboxEnable x0 s) := by
  unfold execMboxEnable
  extract_lets +onlyGivenNames -merge raw; try clear_value raw
  extract_lets +onlyGivenNames -merge x'; try clear_value x'
  refine keeps_settled ?_
  refine Keeps.ite ?_ ?_
  · refine keeps_regApply ?_
    first | exact Keeps.refl | assumption
  · first | exact Keeps.refl | assumption

theorem keeps_zarBadType {q : Bool} {a s : State} {x1 : Nat} {x2 : ZMsg} (h : Keeps q a s) : Keeps q a (State.zarBadType s x1 x2) := by
  unfold State.zarBadType; exact keeps_errRec ‹_›

theorem keeps_zArrive {q : Bool} {a s : State} {x1 : Nat} {x2 : ZMsg} {x3 : Nat} {x4 : State → State} (h : Keeps q a s) (k4 : ∀ y0, Keeps q a y0 → Keeps q a (x4 y0)) : Keeps q a (State.zArrive s x1 x2 x3 x4) := by
  unfold State.zArrive
  refine Keeps.ite ?_ ?_
  · assumption
  · refine Keeps.ite ?_ ?_
    · exact keeps_zarBadType ‹_›
    · refine Keeps.ite ?_ ?_
      · exact k4 _ ‹_›
      · assumption

theorem keeps_zIdent {q : Bool} {a s : State} {x1 : Nat} {x2 : ZMsg} (h : Keeps q a s) : Keeps q a (State.zIdent s x1 x2) := by
  unfold State.zIdent
  extract_lets +onlyGivenNames -merge w0; try clear_value w0
  refine Keeps.ite ?_ ?_
  · exact keeps_fsat ‹_›
  · refine Keeps.ite ?_ ?_
    · extract_lets +onlyGivenNames -merge held; try clear_value held
      extract_lets +onlyGivenNames -merge s1
      have _ : Keeps q a s1 := by unfold s1; exact keeps_fset (keeps_fset (keeps_epbMod ‹_›))
      try clear_value s1
      refine Keeps.each ?_ (fun _ _ h => ?_)
      · assumption
      · exact keeps_zsend ‹_›
    · exact keeps_errRec (keeps_epbMod ‹_›)

theorem keeps_execZIdent {s : State} {x0 : Nat} {x1 : ZMsg} : KeepsRes s (execZIdent x0 x1 s) := by
  unfold execZIdent
  refine KeepsRes.next ?_
  refine keeps_zArrive ?_ (fun _ h => ?_)
  · first | exact Keeps.refl | assumption
  · refine keeps_zIdent ?_
    first | exact Keeps.refl | assumption

theorem keeps_zLoadLost {a s : State} {x1 : Nat} {x2 : ZMsg} (h : Keeps false a s) : Keeps false a (State.zLoadLost s x1 x2) := by
  unfold State.zLoadLost
  split
  · rename_i heq
    have := KeepsR.eq heq (show KeepsR false a _ from by
      exact keeps_draw ‹_›
      )
    exact keeps_errLater (keeps_zfail ‹_›)

theorem keeps_zrefuse {q : Bool} {a s : State} {x1 : Nat} {x2 : ZMsg} {x3 x4 x5 x6 : Nat} {x7 : Option Nat} (h : Keeps q a s) : Keeps q a (State.zrefuse s x1 x2 x3 x4 x5 x6 x7) := by
  unfold State.zrefuse; exact keeps_zfail (keeps_fault ‹_›)

theorem keeps_hotPage {q : Bool} {a s : State} {x1 x2 x3 x4 : Nat} (h : Keeps q a s) : Keeps q a (State.hotPage s x1 x2 x3 x4) := by
  unfold State.hotPage; exact keeps_hostRing ‹_›

theorem keeps_heatCount {q : Bool} {a s : State} {x1 x2 x3 x4 : Nat} (h : Keeps q a s) : Keeps q a (State.heatCount s x1 x2 x3 x4) := by
  unfold State.heatCount
  refine Keeps.ite ?_ ?_
  · assumption
  · extract_lets +onlyGivenNames -merge set; try clear_value set
    extract_lets +onlyGivenNames -merge t; try clear_value t
    split
    · extract_lets +onlyGivenNames -merge w0; try clear_value w0
      extract_lets +onlyGivenNames -merge c; try clear_value c
      extract_lets +onlyGivenNames -merge post; try clear_value post
      extract_lets +onlyGivenNames -merge s1
      have _ : Keeps q a s1 := by unfold s1; exact keeps_epbMod ‹_›
      try clear_value s1
      refine Keeps.ite ?_ ?_
      · exact keeps_hotPage ‹_›
      · assumption

theorem keeps_zTranslated {q : Bool} {a s : State} {x1 x2 : Nat} {x3 : ZMsg} {x4 : Word} {x5 : Nat} (h : Keeps q a s) : Keeps q a (State.zTranslated s x1 x2 x3 x4 x5) := by
  unfold State.zTranslated
  extract_lets +onlyGivenNames -merge gfa; try clear_value gfa
  refine Keeps.ite ?_ ?_
  · exact keeps_zrefuse ‹_›
  · refine Keeps.ite ?_ ?_
    · exact keeps_zrefuse ‹_›
    · refine Keeps.ite ?_ ?_
      · exact keeps_zrefuse ‹_›
      · extract_lets +onlyGivenNames -merge s1
        have _ : Keeps q a s1 := by
          unfold s1
          refine Keeps.ite ?_ ?_
          · exact keeps_heatCount ‹_›
          · assumption
        try clear_value s1
        exact keeps_submit ‹_›

theorem keeps_walkStart {q : Bool} {a s : State} {x1 : Nat} {x2 : Space} {x3 : Nat} {x4 : Word} (h : Keeps q a s) : Keeps q a (State.walkStart s x1 x2 x3 x4) := by
  unfold State.walkStart
  refine Keeps.ite ?_ ?_
  · assumption
  · refine Keeps.ite ?_ ?_
    · exact keeps_fsat (keeps_epbMod ‹_›)
    · assumption

theorem keeps_zTranslate {q : Bool} {a s : State} {x1 : Nat} {x2 : ZMsg} (h : Keeps q a s) : Keeps q a (State.zTranslate s x1 x2) := by
  unfold State.zTranslate
  extract_lets +onlyGivenNames -merge root; try clear_value root
  refine Keeps.ite ?_ ?_
  · exact keeps_zrefuse ‹_›
  · extract_lets +onlyGivenNames -merge s1
    have _ : Keeps q a s1 := by unfold s1; exact Keeps.record ‹_›
    try clear_value s1
    split
    · exact keeps_zTranslated (keeps_epbMod ‹_›)
    · exact keeps_walkStart (keeps_epbMod ‹_›)

theorem keeps_zRequest {q : Bool} {a s : State} {x1 : Nat} {x2 : ZMsg} (h : Keeps q a s) : Keeps q a (State.zRequest s x1 x2) := by
  unfold State.zRequest
  refine Keeps.ite ?_ ?_
  · exact keeps_zfail ‹_›
  · refine Keeps.ite ?_ ?_
    · exact keeps_zrefuse ‹_›
    · refine Keeps.ite ?_ ?_
      · exact keeps_zrefuse ‹_›
      · exact keeps_zTranslate ‹_›

theorem keeps_execZLoad {s : State} {x0 : Nat} {x1 : ZMsg} {x2 : Bool} : KeepsRes s (execZLoad x0 x1 x2 s) := by
  unfold execZLoad
  refine keeps_settled ?_
  refine keeps_zArrive ?_ (fun _ h => ?_)
  · first | exact Keeps.refl | assumption
  · refine Keeps.ite ?_ ?_
    · refine keeps_zLoadLost ?_
      first | exact Keeps.refl | assumption
    · refine keeps_zRequest ?_
      first | exact Keeps.refl | assumption

theorem keeps_execZStore {s : State} {x0 : Nat} {x1 : ZMsg} : KeepsRes s (execZStore x0 x1 s) := by
  unfold execZStore
  refine KeepsRes.next ?_
  refine keeps_zArrive ?_ (fun _ h => ?_)
  · first | exact Keeps.refl | assumption
  · refine keeps_zRequest ?_
    first | exact Keeps.refl | assumption

theorem keeps_execZAtomicAdd {s : State} {x0 : Nat} {x1 : ZMsg} : KeepsRes s (execZAtomicAdd x0 x1 s) := by
  unfold execZAtomicAdd
  refine KeepsRes.next ?_
  refine keeps_zArrive ?_ (fun _ h => ?_)
  · first | exact Keeps.refl | assumption
  · refine keeps_zRequest ?_
    first | exact Keeps.refl | assumption

theorem keeps_execZAtomicMin {s : State} {x0 : Nat} {x1 : ZMsg} : KeepsRes s (execZAtomicMin x0 x1 s) := by
  unfold execZAtomicMin
  refine KeepsRes.next ?_
  refine keeps_zArrive ?_ (fun _ h => ?_)
  · first | exact Keeps.refl | assumption
  · refine keeps_zRequest ?_
    first | exact Keeps.refl | assumption

theorem keeps_execZAtomicMax {s : State} {x0 : Nat} {x1 : ZMsg} : KeepsRes s (execZAtomicMax x0 x1 s) := by
  unfold execZAtomicMax
  refine KeepsRes.next ?_
  refine keeps_zArrive ?_ (fun _ h => ?_)
  · first | exact Keeps.refl | assumption
  · refine keeps_zRequest ?_
    first | exact Keeps.refl | assumption

theorem keeps_execZCas {s : State} {x0 : Nat} {x1 : ZMsg} : KeepsRes s (execZCas x0 x1 s) := by
  unfold execZCas
  refine KeepsRes.next ?_
  refine keeps_zArrive ?_ (fun _ h => ?_)
  · first | exact Keeps.refl | assumption
  · refine keeps_zRequest ?_
    first | exact Keeps.refl | assumption

theorem keeps_execZReduce {s : State} {x0 : Nat} {x1 : ZMsg} : KeepsRes s (execZReduce x0 x1 s) := by
  unfold execZReduce
  refine KeepsRes.next ?_
  refine keeps_zArrive ?_ (fun _ h => ?_)
  · first | exact Keeps.refl | assumption
  · refine keeps_zRequest ?_
    first | exact Keeps.refl | assumption

theorem keeps_execZAcquire {s : State} {x0 : Nat} {x1 : ZMsg} : KeepsRes s (execZAcquire x0 x1 s) := by
  unfold execZAcquire
  refine KeepsRes.next ?_
  refine keeps_zArrive ?_ (fun _ h => ?_)
  · first | exact Keeps.refl | assumption
  · refine keeps_zRequest ?_
    first | exact Keeps.refl | assumption

theorem keeps_execZRelease {s : State} {x0 : Nat} {x1 : ZMsg} : KeepsRes s (execZRelease x0 x1 s) := by
  unfold execZRelease
  refine KeepsRes.next ?_
  refine keeps_zArrive ?_ (fun _ h => ?_)
  · first | exact Keeps.refl | assumption
  · refine keeps_zRequest ?_
    first | exact Keeps.refl | assumption

theorem keeps_execZFence {s : State} {x0 : Nat} {x1 : ZMsg} : KeepsRes s (execZFence x0 x1 s) := by
  unfold execZFence
  refine KeepsRes.next ?_
  refine keeps_zArrive ?_ (fun _ h => ?_)
  · first | exact Keeps.refl | assumption
  · refine keeps_zRequest ?_
    first | exact Keeps.refl | assumption

theorem keeps_execZDoorbell {s : State} {x0 : Nat} {x1 : ZMsg} : KeepsRes s (execZDoorbell x0 x1 s) := by
  unfold execZDoorbell
  refine KeepsRes.next ?_
  refine keeps_zArrive ?_ (fun _ h => ?_)
  · first | exact Keeps.refl | assumption
  · refine keeps_zRequest ?_
    first | exact Keeps.refl | assumption

theorem keeps_zResume {q : Bool} {a s : State} {x1 : Nat} {x2 : ZMsg} (h : Keeps q a s) : Keeps q a (State.zResume s x1 x2) := by
  unfold State.zResume
  extract_lets +onlyGivenNames -merge k; try clear_value k
  extract_lets +onlyGivenNames -merge x'; try clear_value x'
  refine Keeps.ite ?_ ?_
  · exact keeps_slotsUsed (keeps_epbMod ‹_›)
  · exact keeps_fsat ‹_›

theorem keeps_execZResume {s : State} {x0 : Nat} {x1 : ZMsg} : KeepsRes s (execZResume x0 x1 s) := by
  unfold execZResume
  refine KeepsRes.next ?_
  refine keeps_zArrive ?_ (fun _ h => ?_)
  · first | exact Keeps.refl | assumption
  · refine keeps_zResume ?_
    first | exact Keeps.refl | assumption

theorem keeps_tgtDrop {q : Bool} {a s : State} {x1 x2 : Nat} (h : Keeps q a s) : Keeps q a (State.tgtDrop s x1 x2) := by
  unfold State.tgtDrop; exact keeps_epbMod ‹_›

theorem keeps_respond {q : Bool} {a s : State} {x1 : Packet} {x2 x3 x4 : Nat} {x5 : Bool} {x6 : List Byte} (h : Keeps q a s) : Keeps q a (State.respond s x1 x2 x3 x4 x5 x6) := by
  unfold State.respond
  refine Keeps.ite ?_ ?_
  · assumption
  · exact keeps_sendFrom ‹_›

theorem keeps_targetFault {q : Bool} {a s : State} {x1 : Nat} {x2 : Packet} {x3 x4 x5 : Nat} {x6 : Option Nat} {x7 : Nat} (h : Keeps q a s) : Keeps q a (State.targetFault s x1 x2 x3 x4 x5 x6 x7) := by
  unfold State.targetFault; exact keeps_respond (keeps_fault ‹_›)

theorem keeps_zTgtRsp {q : Bool} {a s : State} {x1 : Nat} {x2 : ZMsg} (h : Keeps q a s) : Keeps q a (State.zTgtRsp s x1 x2) := by
  unfold State.zTgtRsp
  split
  · exact keeps_fsat (keeps_epbMod ‹_›)
  · split
    · assumption
    · extract_lets +onlyGivenNames -merge s1
      have _ : Keeps q a s1 := by unfold s1; exact keeps_tgtDrop ‹_›
      try clear_value s1
      refine Keeps.ite ?_ ?_
      · extract_lets +onlyGivenNames -merge data; try clear_value data
        extract_lets +onlyGivenNames -merge s2
        have _ : Keeps q a s2 := by unfold s2; exact keeps_respond ‹_›
        try clear_value s2
        refine Keeps.ite ?_ ?_
        · exact keeps_windowWrite ‹_›
        · assumption
      · exact keeps_targetFault ‹_›

theorem keeps_execZTgtRsp {s : State} {x0 : Nat} {x1 : ZMsg} : KeepsRes s (execZTgtRsp x0 x1 s) := by
  unfold execZTgtRsp
  refine KeepsRes.next ?_
  refine keeps_zArrive ?_ (fun _ h => ?_)
  · first | exact Keeps.refl | assumption
  · refine keeps_zTgtRsp ?_
    first | exact Keeps.refl | assumption

theorem keeps_zTgtSend {q : Bool} {a s : State} {x1 : Nat} (h : Keeps q a s) : Keeps q a (State.zTgtSend s x1) := by
  unfold State.zTgtSend
  extract_lets +onlyGivenNames -merge l; try clear_value l
  extract_lets +onlyGivenNames -merge out; try clear_value out
  refine Keeps.ite ?_ ?_
  · split
    · assumption
    · split
      · extract_lets +onlyGivenNames -merge z; try clear_value z
        exact keeps_zsend (keeps_epbMod ‹_›)
      · assumption
  · assumption

theorem keeps_execZTgtSend {s : State} {x0 : Nat} : KeepsRes s (execZTgtSend x0 s) := by
  unfold execZTgtSend
  refine KeepsRes.next ?_
  refine keeps_zTgtSend ?_
  first | exact Keeps.refl | assumption

theorem keeps_tgtTimeout {q : Bool} {a s : State} {x1 x2 : Nat} (h : Keeps q a s) : Keeps q a (State.tgtTimeout s x1 x2) := by
  unfold State.tgtTimeout
  split
  · assumption
  · refine Keeps.ite ?_ ?_
    · exact keeps_targetFault (keeps_epbMod (keeps_tgtDrop ‹_›))
    · assumption

theorem keeps_execTgtTimeout {s : State} {x0 x1 : Nat} : KeepsRes s (execTgtTimeout x0 x1 s) := by
  unfold execTgtTimeout
  refine KeepsRes.next ?_
  refine keeps_tgtTimeout ?_
  first | exact Keeps.refl | assumption

theorem keeps_heatPeriod {q : Bool} {a s : State} {x1 : Nat} (h : Keeps q a s) : Keeps q a (State.heatPeriod s x1) := by
  unfold State.heatPeriod
  extract_lets +onlyGivenNames -merge e; try clear_value e
  refine Keeps.ite ?_ ?_
  · exact keeps_epbMod ‹_›
  · assumption

theorem keeps_execHeatPeriod {s : State} {x0 : Nat} : KeepsRes s (execHeatPeriod x0 s) := by
  unfold execHeatPeriod
  refine KeepsRes.next ?_
  refine keeps_heatPeriod ?_
  first | exact Keeps.refl | assumption

theorem keeps_execHeatCtrlDisable {s : State} {x0 : Nat} : KeepsRes s (execHeatCtrlDisable x0 s) := by
  unfold execHeatCtrlDisable
  refine KeepsRes.next ?_
  refine keeps_heatOff ?_
  first | exact Keeps.refl | assumption

theorem keeps_reissue {q : Bool} {a s : State} {x1 x2 : Nat} (h : Keeps q a s) : Keeps q a (State.reissue s x1 x2) := by
  unfold State.reissue
  extract_lets +onlyGivenNames -merge q'; try clear_value q'
  split
  · assumption
  · refine Keeps.ite ?_ ?_
    · refine Keeps.ite ?_ ?_
      · exact keeps_goIssue (Keeps.record ‹_›)
      · assumption
    · split
      · exact Keeps.record ‹_›
      · exact keeps_tryIssue (Keeps.record ‹_›)

theorem keeps_execTagFreeIssue {s : State} {x0 x1 : Nat} : KeepsRes s (execTagFreeIssue x0 x1 s) := by
  unfold execTagFreeIssue
  refine KeepsRes.next ?_
  refine keeps_reissue ?_
  first | exact Keeps.refl | assumption

theorem keeps_execAdmission {s : State} {x0 x1 : Nat} : KeepsRes s (execAdmission x0 x1 s) := by
  unfold execAdmission
  refine KeepsRes.next ?_
  refine keeps_reissue ?_
  first | exact Keeps.refl | assumption

theorem keeps_tgtTranslated {q : Bool} {a s : State} {x1 : Nat} {x2 : TgtReq} {x3 : Word} {x4 : Nat} (h : Keeps q a s) : Keeps q a (State.tgtTranslated s x1 x2 x3 x4) := by
  unfold State.tgtTranslated
  refine Keeps.ite ?_ ?_
  · exact keeps_targetFault ‹_›
  · extract_lets +onlyGivenNames -merge t'; try clear_value t'
    exact keeps_epbMod ‹_›

theorem keeps_tAgain {q : Bool} {a s : State} {x1 : Nat} {x2 : TgtReq} (h : Keeps q a s) : Keeps q a (State.tAgain s x1 x2) := by
  unfold State.tAgain
  refine Keeps.ite ?_ ?_
  · assumption
  · split
    · exact keeps_tgtTranslated (keeps_epbMod ‹_›)
    · exact keeps_walkStart ‹_›

theorem keeps_zAgain {q : Bool} {a s : State} {x1 : Nat} {x2 : Nat × ZMsg} (h : Keeps q a s) : Keeps q a (State.zAgain s x1 x2) := by
  unfold State.zAgain
  refine Keeps.ite ?_ ?_
  · assumption
  · split
    · exact keeps_zTranslated (keeps_epbMod ‹_›)
    · exact keeps_walkStart ‹_›

theorem keeps_walksAgain {q : Bool} {a s : State} {x1 : Nat} (h : Keeps q a s) : Keeps q a (State.walksAgain s x1) := by
  unfold State.walksAgain
  extract_lets +onlyGivenNames -merge x'; try clear_value x'
  refine Keeps.each ?_ (fun _ _ h => ?_)
  · refine Keeps.each ?_ (fun _ _ h => ?_)
    · assumption
    · exact keeps_zAgain ‹_›
  · exact keeps_tAgain ‹_›

theorem keeps_tgtWalked {q : Bool} {a s : State} {x1 : Nat} {x2 : TgtReq} {x3 : WalkEnd} (h : Keeps q a s) : Keeps q a (State.tgtWalked s x1 x2 x3) := by
  unfold State.tgtWalked
  split
  · exact keeps_tgtTranslated ‹_›
  · extract_lets +onlyGivenNames -merge f; try clear_value f
    split
    · rename_i heq
      have := KeepsR.eq heq (show KeepsR q a _ from by
        exact keeps_faultRec ‹_›
        )
      exact keeps_respond ‹_›
  · exact keeps_targetFault ‹_›
  · exact keeps_targetFault ‹_›
  · exact keeps_targetFault ‹_›
  · exact keeps_targetFault ‹_›
  · assumption

theorem keeps_zNoLeaf {q : Bool} {a s : State} {x1 x2 : Nat} {x3 : ZMsg} {x4 : WalkEnd} (h : Keeps q a s) : Keeps q a (State.zNoLeaf s x1 x2 x3 x4) := by
  unfold State.zNoLeaf
  split
  · exact keeps_zTranslated ‹_›
  · assumption
  · exact keeps_faultSwitch ‹_›
  · exact keeps_zrefuse ‹_›
  · exact keeps_zrefuse ‹_›
  · exact keeps_zrefuse ‹_›
  · exact keeps_zrefuse ‹_›

theorem keeps_walkDone {q : Bool} {a s : State} {x1 : Nat} {x2 : Walk} {x3 : WalkEnd} (h : Keeps q a s) : Keeps q a (State.walkDone s x1 x2 x3) := by
  unfold State.walkDone
  extract_lets +onlyGivenNames -merge x'; try clear_value x'
  extract_lets +onlyGivenNames -merge zs; try clear_value zs
  extract_lets +onlyGivenNames -merge ts; try clear_value ts
  extract_lets +onlyGivenNames -merge s1
  have _ : Keeps q a s1 := by unfold s1; exact keeps_epbMod ‹_›
  try clear_value s1
  extract_lets +onlyGivenNames -merge s2
  have _ : Keeps q a s2 := by
    unfold s2
    split
    · exact keeps_cacheInstall ‹_›
    · assumption
  try clear_value s2
  refine Keeps.each ?_ (fun _ _ h => ?_)
  · refine Keeps.each ?_ (fun _ _ h => ?_)
    · assumption
    · exact keeps_zNoLeaf ‹_›
  · exact keeps_tgtWalked ‹_›

theorem keeps_walkComplete {q : Bool} {a s : State} {x1 x2 : Nat} {x3 : List Word} (h : Keeps q a s) : Keeps q a (State.walkComplete s x1 x2 x3) := by
  unfold State.walkComplete
  split
  · assumption
  · extract_lets +onlyGivenNames -merge s1
    have _ : Keeps q a s1 := by unfold s1; exact keeps_epbMod ‹_›
    try clear_value s1
    refine Keeps.ite ?_ ?_
    · exact keeps_walksAgain ‹_›
    · extract_lets +onlyGivenNames -merge r; try clear_value r
      extract_lets +onlyGivenNames -merge s2
      have _ : Keeps q a s2 := by unfold s2; exact keeps_walksAgain (keeps_walkDone (keeps_walked ‹_›))
      try clear_value s2
      split
      · assumption
      · assumption
      · exact keeps_epbMod ‹_›
      · assumption

theorem keeps_execWalkComplete {s : State} {x0 x1 : Nat} {x2 : List Word} : KeepsRes s (execWalkComplete x0 x1 x2 s) := by
  unfold execWalkComplete
  refine KeepsRes.next ?_
  refine keeps_walkComplete ?_
  first | exact Keeps.refl | assumption

theorem keeps_setMover {q : Bool} {a s : State} {x1 x2 : Nat} {x3 : Mover} (h : Keeps q a s) : Keeps q a (State.setMover s x1 x2 x3) := by
  unfold State.setMover; exact keeps_epbMod ‹_›

theorem keeps_moverMod {q : Bool} {a s : State} {x1 x2 : Nat} {x3 : Mover → Mover} (h : Keeps q a s) : Keeps q a (State.moverMod s x1 x2 x3) := by
  unfold State.moverMod
  split
  · exact keeps_setMover ‹_›
  · assumption

theorem keeps_segSubmit {q : Bool} {a s : State} {x1 x2 : Nat} {x3 : Mover} {x4 : Seg} {x5 : Bool} (h : Keeps q a s) : Keeps q a (State.segSubmit s x1 x2 x3 x4 x5) := by
  unfold State.segSubmit; dsimp only
  exact Keeps.ite (keeps_moverMod h) (Keeps.ite (keeps_moverMod h) (keeps_submit h))

theorem keeps_segWrite {q : Bool} {a s : State} {x1 x2 x3 : Nat} (h : Keeps q a s) : Keeps q a (State.segWrite s x1 x2 x3) := by
  unfold State.segWrite
  split
  · assumption
  · split
    · assumption
    · extract_lets +onlyGivenNames -merge x'; try clear_value x'
      exact keeps_segSubmit (keeps_setMover ‹_›)

theorem keeps_settle {q : Bool} {a s : State} {x1 x2 : Nat} (h : Keeps q a s) : Keeps q a (State.settle s x1 x2) := by
  unfold State.settle
  split
  · assumption
  · extract_lets +onlyGivenNames -merge s1
    have _ : Keeps q a s1 := by
      unfold s1
      refine Keeps.each ?_ (fun _ _ h => ?_)
      · assumption
      · exact keeps_segWrite ‹_›
    try clear_value s1
    split
    · assumption
    · split
      · refine Keeps.ite ?_ ?_
        · exact keeps_setMover ‹_›
        · split
          · extract_lets +onlyGivenNames -merge s2
            have _ : Keeps q a s2 := by unfold s2; exact keeps_setMover ‹_›
            try clear_value s2
            split
            · refine Keeps.ite ?_ ?_
              · assumption
              · exact keeps_crcFeed ‹_›
            · assumption
      · split
        · extract_lets +onlyGivenNames -merge s2
          have _ : Keeps q a s2 := by unfold s2; exact keeps_setMover ‹_›
          try clear_value s2
          split
          · refine Keeps.ite ?_ ?_
            · assumption
            · exact keeps_crcFeed ‹_›
          · assumption

theorem keeps_pump {q : Bool} {a s : State} {x1 : Nat} (h : Keeps q a s) : Keeps q a (State.pump s x1) := by
  unfold State.pump
  refine Keeps.ite ?_ ?_
  · extract_lets +onlyGivenNames -merge e; try clear_value e
    refine Keeps.each ?_ (fun _ _ h => ?_)
    · assumption
    · exact keeps_settle ‹_›
  · assumption

theorem keeps_destStat {q : Bool} {a s : State} {x1 x2 : Nat} (h : Keeps q a s) : Keeps q a (State.destStat s x1 x2) := by
  unfold State.destStat
  extract_lets +onlyGivenNames -merge d; try clear_value d
  extract_lets +onlyGivenNames -merge was; try clear_value was
  refine Keeps.ite ?_ ?_
  · refine Keeps.ite ?_ ?_
    · exact keeps_setBit ‹_›
    · assumption
  · refine Keeps.ite ?_ ?_
    · extract_lets +onlyGivenNames -merge s1
      have _ : Keeps q a s1 := by unfold s1; exact keeps_setBit ‹_›
      try clear_value s1
      extract_lets +onlyGivenNames -merge due; try clear_value due
      refine Keeps.ite ?_ ?_
      · exact keeps_errRec (Keeps.record ‹_›)
      · assumption
    · assumption

theorem keeps_epochRej {q : Bool} {a s : State} {x1 x2 : Nat} (h : Keeps q a s) : Keeps q a (State.epochRej s x1 x2) := by
  unfold State.epochRej
  refine Keeps.ite ?_ ?_
  · exact keeps_fsat ‹_›
  · assumption

theorem keeps_complRecord {q : Bool} {a s : State} {x1 : Nat} {x2 : Tag} {x3 : Done} (h : Keeps q a s) : Keeps q a (State.complRecord s x1 x2 x3) := by
  unfold State.complRecord
  refine Keeps.ite ?_ ?_
  · assumption
  · refine Keeps.ite ?_ ?_
    · exact keeps_epochRej ‹_›
    · extract_lets +onlyGivenNames -merge s1
      have _ : Keeps q a s1 := by
        unfold s1
        split
        · exact keeps_epbMod ‹_›
        · assumption
      try clear_value s1
      split
      · assumption
      · assumption
      · exact keeps_fault ‹_›

theorem keeps_complete {q : Bool} {a s : State} {x1 : Nat} {x2 : Done} (h : Keeps q a s) : Keeps q a (State.complete s x1 x2) := by
  unfold State.complete
  split
  · assumption
  · extract_lets +onlyGivenNames -merge u; try clear_value u
    extract_lets +onlyGivenNames -merge s1
    have _ : Keeps q a s1 := by unfold s1; exact keeps_destStat (keeps_retire ‹_›)
    try clear_value s1
    exact keeps_deliver (keeps_complRecord ‹_›)

theorem keeps_finishTag {q : Bool} {a s : State} {x1 : Nat} {x2 : Done} (h : Keeps q a s) : Keeps q a (State.finishTag s x1 x2) := by
  unfold State.finishTag; exact keeps_pump (keeps_complete ‹_›)

theorem keeps_retirePosted {q : Bool} {a s : State} {x1 : Nat} {x2 : Packet} (h : Keeps q a s) : Keeps q a (State.retirePosted s x1 x2) := by
  unfold State.retirePosted
  extract_lets +onlyGivenNames -merge key; try clear_value key
  split
  · refine Keeps.ite ?_ ?_
    · exact keeps_finishTag ‹_›
    · assumption
  · assumption

theorem keeps_cellsIn {q : Bool} {a s : State} {x1 x2 x3 : Nat} (h : Keeps q a s) : Keeps q a (State.cellsIn s x1 x2 x3) := by
  unfold State.cellsIn
  extract_lets +onlyGivenNames -merge d; try clear_value d
  extract_lets +onlyGivenNames -merge used; try clear_value used
  extract_lets +onlyGivenNames -merge s1
  have _ : Keeps q a s1 := by unfold s1; exact keeps_fset (keeps_fset ‹_›)
  try clear_value s1
  exact keeps_fset ‹_›

theorem keeps_writePacket {q : Bool} {a s : State} {x1 x2 x3 : Nat} {x4 : Bool} {x5 : Packet} (h : Keeps q a s) : Keeps q a (State.writePacket s x1 x2 x3 x4 x5) := by
  unfold State.writePacket
  extract_lets +onlyGivenNames -merge n; try clear_value n
  extract_lets +onlyGivenNames -merge id; try clear_value id
  extract_lets +onlyGivenNames -merge ways; try clear_value ways
  extract_lets +onlyGivenNames -merge group; try clear_value group
  extract_lets +onlyGivenNames -merge mc; try clear_value mc
  extract_lets +onlyGivenNames -merge copies; try clear_value copies
  extract_lets +onlyGivenNames -merge link; try clear_value link
  extract_lets +onlyGivenNames -merge shadowed; try clear_value shadowed
  extract_lets +onlyGivenNames -merge want; try clear_value want
  extract_lets +onlyGivenNames -merge room; try clear_value room
  extract_lets +onlyGivenNames -merge extra; try clear_value extra
  extract_lets +onlyGivenNames -merge all; try clear_value all
  extract_lets +onlyGivenNames -merge s1
  have _ : Keeps q a s1 := by unfold s1; exact keeps_fwrap (keeps_cellsIn ‹_›)
  try clear_value s1
  extract_lets +onlyGivenNames -merge s2
  have _ : Keeps q a s2 := by
    unfold s2
    refine Keeps.ite ?_ ?_
    · exact keeps_fsat ‹_›
    · exact keeps_fsat ‹_›
  try clear_value s2
  extract_lets +onlyGivenNames -merge _ s3
  have _ : Keeps q a s3 := by unfold s3; exact Keeps.record ‹_›
  try clear_value s3
  extract_lets +onlyGivenNames -merge e; try clear_value e
  extract_lets +onlyGivenNames -merge s4
  have _ : Keeps q a s4 := by unfold s4; exact keeps_mirror ‹_›
  try clear_value s4
  refine Keeps.ite ?_ ?_
  · exact keeps_unref ‹_›
  · assumption

theorem keeps_shadowIngress {q : Bool} {a s : State} {x1 x2 x3 : Nat} {x4 : Packet} (h : Keeps q a s) : Keeps q a (State.shadowIngress s x1 x2 x3 x4) := by
  unfold State.shadowIngress
  extract_lets +onlyGivenNames -merge e; try clear_value e
  refine Keeps.ite ?_ ?_
  · exact keeps_writePacket (keeps_fsat ‹_›)
  · exact keeps_fsat ‹_›

theorem keeps_ingressOptical {q : Bool} {a s : State} {x1 x2 x3 : Nat} {x4 : Packet} (h : Keeps q a s) : Keeps q a (State.ingressOptical s x1 x2 x3 x4) := by
  unfold State.ingressOptical
  extract_lets +onlyGivenNames -merge link; try clear_value link
  extract_lets +onlyGivenNames -merge shadow; try clear_value shadow
  refine Keeps.ite ?_ ?_
  · refine Keeps.ite ?_ ?_
    · assumption
    · exact keeps_inject ‹_›
  · refine Keeps.ite ?_ ?_
    · exact keeps_shadowIngress ‹_›
    · exact keeps_writePacket ‹_›

theorem keeps_ingress {q : Bool} {a s : State} {x1 x2 : Nat} (h : Keeps q a s) : Keeps q a (State.ingress s x1 x2) := by
  unfold State.ingress
  extract_lets +onlyGivenNames -merge q'; try clear_value q'
  refine Keeps.ite ?_ ?_
  · assumption
  · refine Keeps.ite ?_ ?_
    · split
      · assumption
      · split
        · assumption
        · refine Keeps.ite ?_ ?_
          · exact keeps_retirePosted (keeps_writePacket (Keeps.record ‹_›))
          · assumption
    · split
      · assumption
      · exact keeps_ingressOptical (Keeps.record ‹_›)

theorem keeps_execPacketIngress {s : State} {x0 x1 : Nat} : KeepsRes s (execPacketIngress x0 x1 s) := by
  unfold execPacketIngress
  refine KeepsRes.next ?_
  refine keeps_ingress ?_
  first | exact Keeps.refl | assumption

theorem keeps_holdExpire {q : Bool} {a s : State} {x1 : Nat} (h : Keeps q a s) : Keeps q a (State.holdExpire s x1) := by
  unfold State.holdExpire
  refine Keeps.ite ?_ ?_
  · exact keeps_hubSet (keeps_lkMod (keeps_freeHold ‹_›))
  · assumption

theorem keeps_joinQueue {q : Bool} {a s : State} {x1 : Copy} (h : Keeps q a s) : Keeps q a (State.joinQueue s x1) := by
  unfold State.joinQueue
  extract_lets +onlyGivenNames -merge k; try clear_value k
  extract_lets +onlyGivenNames -merge u; try clear_value u
  extract_lets +onlyGivenNames -merge u1; try clear_value u1
  extract_lets +onlyGivenNames -merge u2; try clear_value u2
  exact keeps_egressCells (keeps_queueCells (keeps_subSet ‹_›))

theorem keeps_enqueue {q : Bool} {a s : State} {x1 : Copy} (h : Keeps q a s) : Keeps q a (State.enqueue s x1) := by
  unfold State.enqueue
  extract_lets +onlyGivenNames -merge s'
  have _ : Keeps q a s' := by
    unfold s'
    refine Keeps.ite ?_ ?_
    · exact keeps_holdExpire ‹_›
    · assumption
  try clear_value s'
  extract_lets +onlyGivenNames -merge _ c; try clear_value c
  refine Keeps.ite ?_ ?_
  · extract_lets +onlyGivenNames -merge l; try clear_value l
    extract_lets +onlyGivenNames -merge st; try clear_value st
    refine Keeps.ite ?_ ?_
    · exact keeps_joinQueue ‹_›
    · refine Keeps.ite ?_ ?_
      · refine Keeps.ite ?_ ?_
        · exact keeps_freeCopy ‹_›
        · exact keeps_setHold (keeps_egressCells ‹_›)
      · exact keeps_freeCopy ‹_›
  · exact keeps_joinQueue ‹_›

theorem keeps_packetEnqueue {q : Bool} {a s : State} {x1 : Nat} (h : Keeps q a s) : Keeps q a (State.packetEnqueue s x1) := by
  unfold State.packetEnqueue
  split
  · assumption
  · refine Keeps.ite ?_ ?_
    · assumption
    · refine Keeps.ite ?_ ?_
      · assumption
      · exact keeps_enqueue (Keeps.record ‹_›)

theorem keeps_execPacketEnqueue {s : State} {x0 : Nat} : KeepsRes s (execPacketEnqueue x0 s) := by
  unfold execPacketEnqueue
  refine KeepsRes.next ?_
  refine keeps_packetEnqueue ?_
  first | exact Keeps.refl | assumption

theorem keeps_modesTake {q : Bool} {a s : State} {x1 : Nat} (h : Keeps q a s) : Keeps q a (State.modesTake s x1) := by
  unfold State.modesTake
  extract_lets +onlyGivenNames -merge mine; try clear_value mine
  extract_lets +onlyGivenNames -merge s1
  have _ : Keeps q a s1 := by
    unfold s1
    refine Keeps.each ?_ (fun _ _ h => ?_)
    · assumption
    · exact keeps_setMode ‹_›
  try clear_value s1
  extract_lets +onlyGivenNames -merge left; try clear_value left
  refine Keeps.each ?_ (fun _ _ h => ?_)
  · exact Keeps.record ‹_›
  · exact keeps_placeHeld ‹_›

theorem keeps_shSet {q : Bool} {a s : State} {x1 : Nat} {x2 : Int} (h : Keeps q a s) : Keeps q a (State.shSet s x1 x2) := by
  unfold State.shSet; exact keeps_fset (Keeps.record ‹_›)

theorem keeps_queueApply {q : Bool} {a s : State} {x1 : Nat × Word} (h : Keeps q a s) : Keeps q a (State.queueApply s x1) := by
  unfold State.queueApply
  extract_lets +onlyGivenNames -merge old; try clear_value old
  extract_lets +onlyGivenNames -merge s1
  have _ : Keeps q a s1 := by unfold s1; exact keeps_wr ‹_›
  try clear_value s1
  refine Keeps.ite ?_ ?_
  · exact keeps_shSet ‹_›
  · assumption

theorem keeps_queueSets {q : Bool} {a s : State} {x1 : Nat} (h : Keeps q a s) : Keeps q a (State.queueSets s x1) := by
  unfold State.queueSets
  refine Keeps.each ?_ (fun _ _ h => ?_)
  · exact Keeps.record ‹_›
  · exact keeps_queueApply ‹_›

theorem keeps_boundCount {q : Bool} {a s : State} {x1 : Copy} (h : Keeps q a s) : Keeps q a (State.boundCount s x1) := by
  unfold State.boundCount
  split
  · assumption
  · refine Keeps.ite ?_ ?_
    · exact keeps_fsat ‹_›
    · assumption

theorem keeps_readOut {q : Bool} {a s : State} {x1 : Copy} (h : Keeps q a s) : Keeps q a (State.readOut s x1) := by
  unfold State.readOut
  extract_lets +onlyGivenNames -merge s1
  have _ : Keeps q a s1 := by unfold s1; exact keeps_mirrorEgress (keeps_boundCount (keeps_egressCells ‹_›))
  try clear_value s1
  extract_lets +onlyGivenNames -merge _ s2
  have _ : Keeps q a s2 := by unfold s2; exact Keeps.record ‹_›
  try clear_value s2
  refine Keeps.ite ?_ ?_
  · exact keeps_linkQueue ‹_›
  · assumption

theorem keeps_bufferEcc {a s : State} {x1 : Copy} {x2 : Nat} (h : Keeps false a s) : KeepsR false a (State.bufferEcc s x1 x2) := by
  unfold State.bufferEcc
  extract_lets +onlyGivenNames -merge die; try clear_value die
  refine KeepsR.ite ?_ ?_
  · exact KeepsR.mk (keeps_errRec ‹_›)
  · refine KeepsR.ite ?_ ?_
    · exact KeepsR.mk (keeps_errRec ‹_›)
    · refine KeepsR.ite ?_ ?_
      · exact KeepsR.mk (keeps_errLater (keeps_dropPacket ‹_›))
      · refine KeepsR.ite ?_ ?_
        · exact KeepsR.mk (keeps_errLater ‹_›)
        · exact KeepsR.mk ‹_›

theorem keeps_dispatchFrom {a s : State} {x1 x2 x3 : Nat} {x4 : SubQ} {x5 : Nat} (h : Keeps false a s) : Keeps false a (State.dispatchFrom s x1 x2 x3 x4 x5) := by
  unfold State.dispatchFrom
  split
  · assumption
  · extract_lets +onlyGivenNames -merge strict; try clear_value strict
    extract_lets +onlyGivenNames -merge n; try clear_value n
    extract_lets +onlyGivenNames -merge optical; try clear_value optical
    extract_lets +onlyGivenNames -merge steer; try clear_value steer
    extract_lets +onlyGivenNames -merge x'; try clear_value x'
    extract_lets +onlyGivenNames -merge f1; try clear_value f1
    extract_lets +onlyGivenNames -merge _ s1
    have _ : Keeps false a s1 := by
      unfold s1
      refine Keeps.ite ?_ ?_
      · exact Keeps.record ‹_›
      · assumption
    try clear_value s1
    extract_lets +onlyGivenNames -merge _ s2
    have _ : Keeps false a s2 := by
      unfold s2
      refine Keeps.ite ?_ ?_
      · assumption
      · exact Keeps.record ‹_›
    try clear_value s2
    extract_lets +onlyGivenNames -merge s3
    have _ : Keeps false a s3 := by
      unfold s3
      refine Keeps.ite ?_ ?_
      · exact keeps_shSet ‹_›
      · assumption
    try clear_value s3
    extract_lets +onlyGivenNames -merge s4
    have _ : Keeps false a s4 := by unfold s4; exact keeps_queueSets (keeps_queueCells (keeps_subSet ‹_›))
    try clear_value s4
    extract_lets +onlyGivenNames -merge s5
    have _ : Keeps false a s5 := by
      unfold s5
      refine Keeps.ite ?_ ?_
      · assumption
      · exact keeps_subSet ‹_›
    try clear_value s5
    split
    · rename_i heq
      have := KeepsR.eq heq (show KeepsR false a _ from by
        exact keeps_bufferEcc ‹_›
        )
      exact keeps_readOut ‹_›
    · rename_i heq
      have := KeepsR.eq heq (show KeepsR false a _ from by
        exact keeps_bufferEcc ‹_›
        )
      exact keeps_egressCells ‹_›

theorem keeps_egressDispatch {a s : State} {x1 x2 : Nat} (h : Keeps false a s) : Keeps false a (State.egressDispatch s x1 x2) := by
  unfold State.egressDispatch
  extract_lets +onlyGivenNames -merge s'
  have _ : Keeps false a s' := by unfold s'; exact keeps_modesTake ‹_›
  try clear_value s'
  refine Keeps.ite ?_ ?_
  · assumption
  · split
    · exact keeps_queueSets (keeps_readOut (keeps_setHold ‹_›))
    · extract_lets +onlyGivenNames -merge ready; try clear_value ready
      refine Keeps.ite ?_ ?_
      · split
        · exact keeps_dispatchFrom ‹_›
        · exact keeps_queueSets ‹_›
      · split
        · exact keeps_dispatchFrom ‹_›
        · exact keeps_queueSets ‹_›

theorem keeps_execEgressDispatch {s : State} {x0 x1 : Nat} : KeepsRes s (execEgressDispatch x0 x1 s) := by
  unfold execEgressDispatch
  refine keeps_settled ?_
  refine Keeps.ite ?_ ?_
  · refine keeps_egressDispatch ?_
    first | exact Keeps.refl | assumption
  · first | exact Keeps.refl | assumption

theorem keeps_transmitDone {q : Bool} {a s : State} {x1 : Nat} (h : Keeps q a s) : Keeps q a (State.transmitDone s x1) := by
  unfold State.transmitDone
  split
  · assumption
  · extract_lets +onlyGivenNames -merge optical; try clear_value optical
    refine Keeps.ite ?_ ?_
    · assumption
    · extract_lets +onlyGivenNames -merge _ s1
      have _ : Keeps q a s1 := by unfold s1; exact keeps_unref (keeps_fwrap (Keeps.record ‹_›))
      try clear_value s1
      extract_lets +onlyGivenNames -merge s2
      have _ : Keeps q a s2 := by
        unfold s2
        refine Keeps.ite ?_ ?_
        · assumption
        · exact Keeps.record ‹_›
      try clear_value s2
      refine Keeps.ite ?_ ?_
      · exact keeps_modesTake ‹_›
      · assumption

theorem keeps_execPacketTransmitDone {s : State} {x0 : Nat} : KeepsRes s (execPacketTransmitDone x0 s) := by
  unfold execPacketTransmitDone
  refine KeepsRes.next ?_
  refine keeps_transmitDone ?_
  first | exact Keeps.refl | assumption

end Sys2Proof.Machine
end

