-- ==== Sys2Proof/Laws/KeepsC.lean ====
section
/-! SUPPORT. What every operation keeps, part 3 of 4: the operations in the order in which they call each other. -/

namespace Sys2Proof.Machine
open Sys2Proof

theorem keeps_holdDeadline {q : Bool} {a s : State} {x1 : Nat} (h : Keeps q a s) : Keeps q a (State.holdDeadline s x1) := by
  unfold State.holdDeadline
  refine Keeps.ite ?_ ?_
  · assumption
  · exact keeps_holdExpire ‹_›

theorem keeps_execHoldDeadline {s : State} {x0 : Nat} : KeepsRes s (execHoldDeadline x0 s) := by
  unfold execHoldDeadline
  refine KeepsRes.next ?_
  refine keeps_holdDeadline ?_
  first | exact Keeps.refl | assumption

theorem keeps_atOptic {s : State} {x1 : Nat} {x2 : State → Nat → State} (k2 : ∀ y0 y1, Keeps false s y0 → Keeps false s (x2 y0 y1)) : KeepsRes s (State.atOptic s x1 x2) := by
  unfold State.atOptic
  refine KeepsRes.ite ?_ ?_
  · refine keeps_settled ?_
    refine k2 _ _ ?_
    first | exact Keeps.refl | assumption
  · refine KeepsRes.next ?_
    first | exact Keeps.refl | assumption

theorem keeps_execLinkAdminSet {s : State} {x0 : Nat} : KeepsRes s (execLinkAdminSet x0 s) := by
  unfold execLinkAdminSet
  refine keeps_atOptic (fun _ _ h => ?_)
  refine keeps_adminSet ?_
  first | exact Keeps.refl | assumption

theorem keeps_execLinkAdminClear {s : State} {x0 : Nat} : KeepsRes s (execLinkAdminClear x0 s) := by
  unfold execLinkAdminClear
  refine keeps_atOptic (fun _ _ h => ?_)
  refine keeps_adminClear ?_
  first | exact Keeps.refl | assumption

theorem keeps_mirrorCell {q : Bool} {a s : State} (h : Keeps q a s) : Keeps q a (State.mirrorCell s) := by
  unfold State.mirrorCell
  extract_lets +onlyGivenNames -merge used; try clear_value used
  exact keeps_fset (keeps_fset ‹_›)

theorem keeps_mirrorBurst {q : Bool} {a s : State} {x1 : Nat} (h : Keeps q a s) : Keeps q a (State.mirrorBurst s x1) := by
  unfold State.mirrorBurst
  extract_lets +onlyGivenNames -merge q'; try clear_value q'
  extract_lets +onlyGivenNames -merge take; try clear_value take
  refine Keeps.ite ?_ ?_
  · assumption
  · extract_lets +onlyGivenNames -merge ok; try clear_value ok
    extract_lets +onlyGivenNames -merge _ s1
    have _ : Keeps q a s1 := by unfold s1; exact Keeps.record ‹_›
    try clear_value s1
    refine keeps_fsat ?_
    refine Keeps.ite ?_ ?_
    · assumption
    · exact keeps_mirrorCell ‹_›

theorem keeps_execMirrorBurstWrite {s : State} {x0 : Nat} : KeepsRes s (execMirrorBurstWrite x0 s) := by
  unfold execMirrorBurstWrite
  refine KeepsRes.next ?_
  refine keeps_mirrorBurst ?_
  first | exact Keeps.refl | assumption

theorem keeps_mirStore {q : Bool} {a : State} (l : List (List Word)) : ∀ {s : State} {i : Nat}, Keeps q a s → Keeps q a (State.mirStore s i l) := by
  induction l with
  | nil => intro s i h; exact h
  | cons x l ih => intro s i h; exact ih (KeepsL.out (keeps_internalWrite h))

theorem keeps_mirrorDone {q : Bool} {a s : State} (h : Keeps q a s) : Keeps q a (State.mirrorDone s) := by
  unfold State.mirrorDone
  split
  · assumption
  · exact keeps_fset (keeps_mirStore _ (keeps_fdec (Keeps.record ‹_›)))

theorem keeps_execMirrorBurstDone {s : State} : KeepsRes s (execMirrorBurstDone s) := by
  unfold execMirrorBurstDone
  refine KeepsRes.next ?_
  refine keeps_mirrorDone ?_
  first | exact Keeps.refl | assumption

theorem keeps_mirrorEnable {q : Bool} {a s : State} {x1 : Nat} (h : Keeps q a s) : Keeps q a (State.mirrorEnable s x1) := by
  unfold State.mirrorEnable
  extract_lets +onlyGivenNames -merge w; try clear_value w
  refine Keeps.ite ?_ ?_
  · assumption
  · extract_lets +onlyGivenNames -merge s1
    have _ : Keeps q a s1 := by unfold s1; exact keeps_fset (keeps_fset (keeps_fset ‹_›))
    try clear_value s1
    refine Keeps.ite ?_ ?_
    · assumption
    · exact keeps_mirRestart ‹_›

theorem keeps_execMirrorRingEnable {s : State} {x0 : Nat} : KeepsRes s (execMirrorRingEnable x0 s) := by
  unfold execMirrorRingEnable
  refine KeepsRes.next ?_
  refine keeps_mirrorEnable ?_
  first | exact Keeps.refl | assumption

theorem keeps_stir {q : Bool} {a s : State} {x1 : Nat} (h : Keeps q a s) : Keeps q a (State.stir s x1) := by
  unfold State.stir; exact Keeps.record ‹_›

theorem keeps_targetNack {q : Bool} {a s : State} {x1 : Nat} {x2 : Packet} {x3 : Nat} (h : Keeps q a s) : Keeps q a (State.targetNack s x1 x2 x3) := by
  unfold State.targetNack; exact keeps_respond ‹_›

theorem keeps_atDoorbell {q : Bool} {a s : State} {x1 : Nat} {x2 : Packet} (h : Keeps q a s) : Keeps q a (State.atDoorbell s x1 x2) := by
  unfold State.atDoorbell
  extract_lets +onlyGivenNames -merge o; try clear_value o
  extract_lets +onlyGivenNames -merge r; try clear_value r
  refine Keeps.ite ?_ ?_
  · exact keeps_targetFault ‹_›
  · refine Keeps.ite ?_ ?_
    · exact keeps_targetFault ‹_›
    · extract_lets +onlyGivenNames -merge v; try clear_value v
      refine Keeps.ite ?_ ?_
      · exact keeps_targetNack ‹_›
      · split
        · rename_i heq
          have := KeepsO.eq heq (show KeepsO q a _ from by
            exact keeps_ringCommit ‹_›
            )
          exact keeps_respond ‹_›
        · exact keeps_targetNack ‹_›

theorem keeps_pushRun {q : Bool} {a s : State} {x1 x2 x3 : Nat} {x4 : Bool} {x5 : List Byte} (h : Keeps q a s) : KeepsL q a (State.pushRun s x1 x2 x3 x4 x5) := by
  unfold State.pushRun
  extract_lets +onlyGivenNames -merge gfa; try clear_value gfa
  refine KeepsL.ite ?_ ?_
  · exact KeepsL.mk ‹_›
  · refine KeepsL.ite ?_ ?_
    · refine KeepsL.ite ?_ ?_
      · exact KeepsL.mk ‹_›
      · split
        · exact KeepsL.mk (keeps_storePoison ‹_›)
        · exact KeepsL.mk ‹_›
    · exact keeps_internalWrite ‹_›

theorem keeps_pushBytes {q : Bool} {a s : State} {x1 x2 x3 : Nat} {x4 : Bool} {x5 : List Byte} (h : Keeps q a s) : KeepsL q a (State.pushBytes s x1 x2 x3 x4 x5) := by
  unfold State.pushBytes
  extract_lets +onlyGivenNames -merge size; try clear_value size
  extract_lets +onlyGivenNames -merge x'
  have _ : KeepsL q a x' := by unfold x'; exact keeps_pushRun ‹_›
  try clear_value x'
  extract_lets +onlyGivenNames -merge y
  have _ : KeepsL q a y := by unfold y; exact keeps_pushRun (KeepsL.out ‹_›)
  try clear_value y
  exact KeepsL.mk (KeepsL.out ‹_›)

theorem keeps_ringPush {q : Bool} {a s : State} {x1 x2 : Nat} {x3 : List Byte} {x4 : Bool} (h : Keeps q a s) : KeepsR q a (State.ringPush s x1 x2 x3 x4) := by
  unfold State.ringPush
  extract_lets +onlyGivenNames -merge k; try clear_value k
  extract_lets +onlyGivenNames -merge fill'; try clear_value fill'
  extract_lets +onlyGivenNames -merge lim; try clear_value lim
  extract_lets +onlyGivenNames -merge st; try clear_value st
  refine KeepsR.ite ?_ ?_
  · exact KeepsR.mk ‹_›
  · split
    · rename_i heq
      have := KeepsL.eq heq (show KeepsL q a _ from by
        exact keeps_pushBytes ‹_›
        )
      exact KeepsR.mk (keeps_fset ‹_›)

theorem keeps_atPush {q : Bool} {a s : State} {x1 : Nat} {x2 : Packet} (h : Keeps q a s) : Keeps q a (State.atPush s x1 x2) := by
  unfold State.atPush
  extract_lets +onlyGivenNames -merge o; try clear_value o
  extract_lets +onlyGivenNames -merge r; try clear_value r
  extract_lets +onlyGivenNames -merge len; try clear_value len
  refine Keeps.ite ?_ ?_
  · exact keeps_targetFault ‹_›
  · refine Keeps.ite ?_ ?_
    · exact keeps_targetFault ‹_›
    · split
      · rename_i heq
        have := KeepsR.eq heq (show KeepsR q a _ from by
          exact keeps_ringPush ‹_›
          )
        exact keeps_respond ‹_›
      · rename_i heq
        have := KeepsR.eq heq (show KeepsR q a _ from by
          exact keeps_ringPush ‹_›
          )
        exact keeps_targetFault ‹_›
      · rename_i heq
        have := KeepsR.eq heq (show KeepsR q a _ from by
          exact keeps_ringPush ‹_›
          )
        exact keeps_targetNack ‹_›

theorem keeps_atWindow {q : Bool} {a s : State} {x1 : Nat} {x2 : Packet} (h : Keeps q a s) : Keeps q a (State.atWindow s x1 x2) := by
  unfold State.atWindow
  extract_lets +onlyGivenNames -merge off; try clear_value off
  refine Keeps.ite ?_ ?_
  · exact keeps_targetFault ‹_›
  · split
    · exact keeps_targetFault ‹_›
    · extract_lets +onlyGivenNames -merge rel; try clear_value rel
      extract_lets +onlyGivenNames -merge req; try clear_value req
      refine Keeps.ite ?_ ?_
      · exact keeps_targetFault ‹_›
      · refine Keeps.ite ?_ ?_
        · exact keeps_targetFault ‹_›
        · extract_lets +onlyGivenNames -merge t; try clear_value t
          split
          · exact keeps_tgtTranslated (keeps_epbMod ‹_›)
          · exact keeps_walkStart (keeps_epbMod ‹_›)

theorem keeps_atEpb {q : Bool} {a s : State} {x1 : Nat} {x2 : Packet} (h : Keeps q a s) : Keeps q a (State.atEpb s x1 x2) := by
  unfold State.atEpb
  refine Keeps.ite ?_ ?_
  · exact keeps_targetNack ‹_›
  · refine Keeps.ite ?_ ?_
    · exact keeps_respond ‹_›
    · refine Keeps.ite ?_ ?_
      · exact keeps_atDoorbell ‹_›
      · refine Keeps.ite ?_ ?_
        · refine Keeps.ite ?_ ?_
          · exact keeps_atPush ‹_›
          · exact keeps_targetFault ‹_›
        · exact keeps_atWindow ‹_›

theorem keeps_memLoad {q : Bool} {a s : State} {x1 : Nat} {x2 : Packet} {x3 x4 : Nat} (h : Keeps q a s) : Keeps q a (State.memLoad s x1 x2 x3 x4) := by
  unfold State.memLoad
  extract_lets +onlyGivenNames -merge n; try clear_value n
  split
  · exact keeps_respond (keeps_touch ‹_›)
  · exact keeps_respond (keeps_touch ‹_›)
  · extract_lets +onlyGivenNames -merge f; try clear_value f
    exact keeps_respond (keeps_fault (keeps_touch ‹_›))

theorem keeps_memStore {q : Bool} {a s : State} {x1 : Packet} {x2 : Nat} (h : Keeps q a s) : KeepsL q a (State.memStore s x1 x2) := by
  unfold State.memStore
  refine KeepsL.ite ?_ ?_
  · exact KeepsL.mk (keeps_storePoison ‹_›)
  · exact keeps_storeLines ‹_›

theorem keeps_memFault {q : Bool} {a s : State} {x1 : Nat} {x2 : Packet} {x3 : Nat} (h : Keeps q a s) : Keeps q a (State.memFault s x1 x2 x3) := by
  unfold State.memFault; exact keeps_targetFault ‹_›

theorem keeps_memReduce {q : Bool} {a s : State} {x1 : Packet} {x2 : Nat} (h : Keeps q a s) : Keeps q a (State.memReduce s x1 x2) := by
  unfold State.memReduce
  extract_lets +onlyGivenNames -merge n; try clear_value n
  exact keeps_store (keeps_touch ‹_›)

theorem keeps_memAtomic {q : Bool} {a s : State} {x1 : Packet} {x2 : Nat} (h : Keeps q a s) : KeepsR q a (State.memAtomic s x1 x2) := by
  unfold State.memAtomic
  extract_lets +onlyGivenNames -merge old; try clear_value old
  extract_lets +onlyGivenNames -merge s1
  have _ : Keeps q a s1 := by unfold s1; exact keeps_touch ‹_›
  try clear_value s1
  refine KeepsR.mk ?_
  split
  · exact keeps_store ‹_›
  · assumption

theorem keeps_memOp {q : Bool} {a s : State} {x1 : Nat} {x2 : Packet} {x3 x4 : Nat} {x5 x6 : State → State} (h : Keeps q a s) (k5 : ∀ y0, Keeps q a y0 → Keeps q a (x5 y0)) (k6 : ∀ y0, Keeps q a y0 → Keeps q a (x6 y0)) : Keeps q a (State.memOp s x1 x2 x3 x4 x5 x6) := by
  unfold State.memOp
  refine Keeps.ite ?_ ?_
  · exact keeps_memLoad ‹_›
  · refine Keeps.ite ?_ ?_
    · split
      · rename_i heq
        have := KeepsL.eq heq (show KeepsL q a _ from by
          exact keeps_memStore ‹_›
          )
        exact keeps_respond (k5 _ ‹_›)
      · rename_i heq
        have := KeepsL.eq heq (show KeepsL q a _ from by
          exact keeps_memStore ‹_›
          )
        exact keeps_memFault ‹_›
    · refine Keeps.ite ?_ ?_
      · exact keeps_respond (k5 _ (keeps_storePoison ‹_›))
      · refine Keeps.ite ?_ ?_
        · exact keeps_memFault (k6 _ (keeps_touch ‹_›))
        · refine Keeps.ite ?_ ?_
          · exact keeps_respond (k5 _ (keeps_memReduce ‹_›))
          · split
            · rename_i heq
              have := KeepsR.eq heq (show KeepsR q a _ from by
                exact keeps_memAtomic ‹_›
                )
              exact keeps_respond (k5 _ ‹_›)

theorem keeps_atSpindle {q : Bool} {a s : State} {x1 : Nat} {x2 : Packet} (h : Keeps q a s) : Keeps q a (State.atSpindle s x1 x2) := by
  unfold State.atSpindle
  extract_lets +onlyGivenNames -merge c; try clear_value c
  refine Keeps.ite ?_ ?_
  · exact keeps_respond ‹_›
  · split
    · exact keeps_targetFault ‹_›
    · refine Keeps.ite ?_ ?_
      · exact keeps_targetNack ‹_›
      · refine Keeps.ite ?_ ?_
        · exact keeps_targetFault ‹_›
        · refine keeps_memOp ?_ (fun _ h => ?_) (fun _ h => ?_)
          · assumption
          · exact keeps_fwrap ‹_›
          · show Keeps _ _ _
            assumption

theorem keeps_atPool {q : Bool} {a s : State} {x1 : Nat} {x2 : Packet} (h : Keeps q a s) : Keeps q a (State.atPool s x1 x2) := by
  unfold State.atPool
  refine Keeps.ite ?_ ?_
  · exact keeps_respond ‹_›
  · split
    · exact keeps_targetFault ‹_›
    · refine keeps_memOp ?_ (fun _ h => ?_) (fun _ h => ?_)
      · assumption
      · refine Keeps.ite ?_ ?_
        · exact keeps_fsat ‹_›
        · assumption
      · refine Keeps.ite ?_ ?_
        · exact keeps_fsat ‹_›
        · assumption

theorem keeps_emits {q : Bool} {a s : State} {x1 : List Out} (h : Keeps q a s) : Keeps q a (State.emits s x1) := by
  unfold State.emits; exact Keeps.record ‹_›

theorem keeps_toHost {q : Bool} {a s : State} {x1 x2 : Nat} {x3 : Packet} (h : Keeps q a s) : Keeps q a (State.toHost s x1 x2 x3) := by
  unfold State.toHost
  extract_lets +onlyGivenNames -merge a'; try clear_value a'
  refine Keeps.ite ?_ ?_
  · exact keeps_emit (keeps_emits ‹_›)
  · exact keeps_emit ‹_›

theorem keeps_atHost {q : Bool} {a s : State} {x1 : Nat} {x2 : Packet} (h : Keeps q a s) : Keeps q a (State.atHost s x1 x2) := by
  unfold State.atHost
  extract_lets +onlyGivenNames -merge h'; try clear_value h'
  refine Keeps.ite ?_ ?_
  · exact keeps_respond ‹_›
  · refine Keeps.ite ?_ ?_
    · exact keeps_targetFault ‹_›
    · refine Keeps.ite ?_ ?_
      · exact keeps_targetFault ‹_›
      · refine Keeps.ite ?_ ?_
        · exact keeps_targetFault ‹_›
        · extract_lets +onlyGivenNames -merge id; try clear_value id
          extract_lets +onlyGivenNames -merge t; try clear_value t
          extract_lets +onlyGivenNames -merge _ s1
          have _ : Keeps q a s1 := by unfold s1; exact Keeps.record ‹_›
          try clear_value s1
          exact keeps_toHost ‹_›

theorem keeps_atTarget {q : Bool} {a s : State} {x1 : Nat} {x2 : Packet} (h : Keeps q a s) : Keeps q a (State.atTarget s x1 x2) := by
  unfold State.atTarget
  refine Keeps.ite ?_ ?_
  · exact keeps_targetFault ‹_›
  · refine Keeps.ite ?_ ?_
    · exact keeps_targetNack ‹_›
    · refine Keeps.ite ?_ ?_
      · exact keeps_atEpb ‹_›
      · refine Keeps.ite ?_ ?_
        · exact keeps_atSpindle ‹_›
        · refine Keeps.ite ?_ ?_
          · exact keeps_atPool ‹_›
          · exact keeps_atHost ‹_›

theorem keeps_arriveReq {q : Bool} {a s : State} {x1 : Nat} {x2 : Packet} {x3 : Nat} (h : Keeps q a s) : Keeps q a (State.arriveReq s x1 x2 x3) := by
  unfold State.arriveReq
  refine Keeps.ite ?_ ?_
  · assumption
  · refine Keeps.ite ?_ ?_
    · exact keeps_errRec (Keeps.record ‹_›)
    · refine Keeps.ite ?_ ?_
      · assumption
      · refine Keeps.ite ?_ ?_
        · refine Keeps.ite ?_ ?_
          · assumption
          · exact keeps_stir (Keeps.record ‹_›)
        · exact keeps_atTarget (keeps_stir (Keeps.record ‹_›))

theorem keeps_hbmCtrlLost {a s : State} {x1 : Nat} {x2 : Packet} (h : Keeps false a s) : Keeps false a (State.hbmCtrlLost s x1 x2) := by
  unfold State.hbmCtrlLost
  extract_lets +onlyGivenNames -merge mine; try clear_value mine
  extract_lets +onlyGivenNames -merge l; try clear_value l
  extract_lets +onlyGivenNames -merge s1
  have _ : Keeps false a s1 := by unfold s1; exact Keeps.record ‹_›
  try clear_value s1
  refine keeps_errLater ?_
  refine Keeps.each ?_ (fun _ _ h => ?_)
  · assumption
  · exact keeps_targetFault ‹_›

theorem keeps_windowLost {a s : State} {x1 : Nat} {x2 : Packet} {x3 : Nat} (h : Keeps false a s) : Keeps false a (State.windowLost s x1 x2 x3) := by
  unfold State.windowLost; exact keeps_errLater (keeps_targetFault (Keeps.record ‹_›))

theorem keeps_arriveUe {a s : State} {x1 : Nat} {x2 : Packet} {x3 : Nat} {x4 : Bool} (h : Keeps false a s) : Keeps false a (State.arriveUe s x1 x2 x3 x4) := by
  unfold State.arriveUe
  refine Keeps.ite ?_ ?_
  · exact keeps_arriveReq ‹_›
  · refine Keeps.ite ?_ ?_
    · exact keeps_hbmCtrlLost ‹_›
    · refine Keeps.ite ?_ ?_
      · split
        · exact keeps_windowLost ‹_›
        · exact keeps_arriveReq ‹_›
      · exact keeps_arriveReq ‹_›

theorem keeps_execLoad {s : State} {x0 : Nat} {x1 : Packet} {x2 : Bool} : KeepsRes s (execLoad x0 x1 x2 s) := by
  unfold execLoad
  refine keeps_settled ?_
  refine keeps_arriveUe ?_
  first | exact Keeps.refl | assumption

theorem keeps_execStore {s : State} {x0 : Nat} {x1 : Packet} {x2 : Bool} : KeepsRes s (execStore x0 x1 x2 s) := by
  unfold execStore
  refine keeps_settled ?_
  refine keeps_arriveUe ?_
  first | exact Keeps.refl | assumption

theorem keeps_execAtomicAdd {s : State} {x0 : Nat} {x1 : Packet} : KeepsRes s (execAtomicAdd x0 x1 s) := by
  unfold execAtomicAdd
  refine KeepsRes.next ?_
  refine keeps_arriveReq ?_
  first | exact Keeps.refl | assumption

theorem keeps_execAtomicMin {s : State} {x0 : Nat} {x1 : Packet} : KeepsRes s (execAtomicMin x0 x1 s) := by
  unfold execAtomicMin
  refine KeepsRes.next ?_
  refine keeps_arriveReq ?_
  first | exact Keeps.refl | assumption

theorem keeps_execAtomicMax {s : State} {x0 : Nat} {x1 : Packet} : KeepsRes s (execAtomicMax x0 x1 s) := by
  unfold execAtomicMax
  refine KeepsRes.next ?_
  refine keeps_arriveReq ?_
  first | exact Keeps.refl | assumption

theorem keeps_execCas {s : State} {x0 : Nat} {x1 : Packet} : KeepsRes s (execCas x0 x1 s) := by
  unfold execCas
  refine KeepsRes.next ?_
  refine keeps_arriveReq ?_
  first | exact Keeps.refl | assumption

theorem keeps_execReduceStore {s : State} {x0 : Nat} {x1 : Packet} : KeepsRes s (execReduceStore x0 x1 s) := by
  unfold execReduceStore
  refine KeepsRes.next ?_
  refine keeps_arriveReq ?_
  first | exact Keeps.refl | assumption

theorem keeps_execAcquire {s : State} {x0 : Nat} {x1 : Packet} : KeepsRes s (execAcquire x0 x1 s) := by
  unfold execAcquire
  refine KeepsRes.next ?_
  refine keeps_arriveReq ?_
  first | exact Keeps.refl | assumption

theorem keeps_execRelease {s : State} {x0 : Nat} {x1 : Packet} : KeepsRes s (execRelease x0 x1 s) := by
  unfold execRelease
  refine KeepsRes.next ?_
  refine keeps_arriveReq ?_
  first | exact Keeps.refl | assumption

theorem keeps_execFence {s : State} {x0 : Nat} {x1 : Packet} : KeepsRes s (execFence x0 x1 s) := by
  unfold execFence
  refine KeepsRes.next ?_
  refine keeps_arriveReq ?_
  first | exact Keeps.refl | assumption

theorem keeps_execDoorbell {s : State} {x0 : Nat} {x1 : Packet} : KeepsRes s (execDoorbell x0 x1 s) := by
  unfold execDoorbell
  refine KeepsRes.next ?_
  refine keeps_arriveReq ?_
  first | exact Keeps.refl | assumption

theorem keeps_lateRsp {q : Bool} {a s : State} {x1 : Nat} {x2 : Packet} (h : Keeps q a s) : Keeps q a (State.lateRsp s x1 x2) := by
  unfold State.lateRsp
  extract_lets +onlyGivenNames -merge s1
  have _ : Keeps q a s1 := by
    unfold s1
    refine Keeps.ite ?_ ?_
    · exact keeps_fsat ‹_›
    · exact Keeps.record ‹_›
  try clear_value s1
  split
  · exact keeps_errRec ‹_›

theorem keeps_rateSet {q : Bool} {a s : State} {x1 x2 x3 : Nat} (h : Keeps q a s) : Keeps q a (State.rateSet s x1 x2 x3) := by
  unfold State.rateSet; exact keeps_fset (keeps_creditAdd ‹_›)

theorem keeps_echo {q : Bool} {a s : State} {x1 x2 x3 : Nat} (h : Keeps q a s) : Keeps q a (State.echo s x1 x2 x3) := by
  unfold State.echo
  refine Keeps.ite ?_ ?_
  · assumption
  · extract_lets +onlyGivenNames -merge r; try clear_value r
    extract_lets +onlyGivenNames -merge s1
    have _ : Keeps q a s1 := by unfold s1; exact keeps_epbMod ‹_›
    try clear_value s1
    extract_lets +onlyGivenNames -merge due; try clear_value due
    refine Keeps.ite ?_ ?_
    · extract_lets +onlyGivenNames -merge v; try clear_value v
      extract_lets +onlyGivenNames -merge v'; try clear_value v'
      exact keeps_epbMod (keeps_rateSet ‹_›)
    · assumption

theorem keeps_arriveRsp {q : Bool} {a s : State} {x1 : Nat} {x2 : Packet} {x3 : Nat} (h : Keeps q a s) : Keeps q a (State.arriveRsp s x1 x2 x3) := by
  unfold State.arriveRsp
  refine Keeps.ite ?_ ?_
  · assumption
  · extract_lets +onlyGivenNames -merge s0
    have _ : Keeps q a s0 := by unfold s0; exact Keeps.record ‹_›
    try clear_value s0
    split
    · exact keeps_lateRsp ‹_›
    · extract_lets +onlyGivenNames -merge key; try clear_value key
      extract_lets +onlyGivenNames -merge s1
      have _ : Keeps q a s1 := by unfold s1; exact keeps_echo ‹_›
      try clear_value s1
      refine Keeps.ite ?_ ?_
      · exact Keeps.record ‹_›
      · exact keeps_finishTag ‹_›

theorem keeps_execLoadRsp {s : State} {x0 : Nat} {x1 : Packet} : KeepsRes s (execLoadRsp x0 x1 s) := by
  unfold execLoadRsp
  refine KeepsRes.next ?_
  refine keeps_arriveRsp ?_
  first | exact Keeps.refl | assumption

theorem keeps_execAck {s : State} {x0 : Nat} {x1 : Packet} : KeepsRes s (execAck x0 x1 s) := by
  unfold execAck
  refine KeepsRes.next ?_
  refine keeps_arriveRsp ?_
  first | exact Keeps.refl | assumption

theorem keeps_execAtomicRsp {s : State} {x0 : Nat} {x1 : Packet} : KeepsRes s (execAtomicRsp x0 x1 s) := by
  unfold execAtomicRsp
  refine KeepsRes.next ?_
  refine keeps_arriveRsp ?_
  first | exact Keeps.refl | assumption

theorem keeps_execFswRsp {s : State} {x0 : Nat} {x1 : Packet} : KeepsRes s (execFswRsp x0 x1 s) := by
  unfold execFswRsp
  refine KeepsRes.next ?_
  refine keeps_arriveRsp ?_
  first | exact Keeps.refl | assumption

theorem keeps_execNack {s : State} {x0 : Nat} {x1 : Packet} : KeepsRes s (execNack x0 x1 s) := by
  unfold execNack
  refine KeepsRes.next ?_
  refine keeps_arriveRsp ?_
  first | exact Keeps.refl | assumption

theorem keeps_fenceComplete {q : Bool} {a s : State} {x1 x2 : Nat} (h : Keeps q a s) : Keeps q a (State.fenceComplete s x1 x2) := by
  unfold State.fenceComplete
  split
  · assumption
  · refine Keeps.ite ?_ ?_
    · exact keeps_finishTag ‹_›
    · assumption

theorem keeps_execFenceComplete {s : State} {x0 x1 : Nat} : KeepsRes s (execFenceComplete x0 x1 s) := by
  unfold execFenceComplete
  refine KeepsRes.next ?_
  refine keeps_fenceComplete ?_
  first | exact Keeps.refl | assumption

theorem keeps_sweep {q : Bool} {a s : State} (h : Keeps q a s) : Keeps q a (State.sweep s) := by
  unfold State.sweep
  extract_lets +onlyGivenNames -merge due; try clear_value due
  refine Keeps.each ?_ (fun _ _ h => ?_)
  · assumption
  · exact keeps_finishTag ‹_›

theorem keeps_execDeadBoundSweep {s : State} : KeepsRes s (execDeadBoundSweep s) := by
  unfold execDeadBoundSweep
  refine KeepsRes.next ?_
  refine keeps_sweep ?_
  first | exact Keeps.refl | assumption

theorem keeps_rateIncrease {q : Bool} {a s : State} {x1 : Nat} (h : Keeps q a s) : Keeps q a (State.rateIncrease s x1) := by
  unfold State.rateIncrease
  extract_lets +onlyGivenNames -merge step; try clear_value step
  extract_lets +onlyGivenNames -merge quiet; try clear_value quiet
  extract_lets +onlyGivenNames -merge s1
  have _ : Keeps q a s1 := by
    unfold s1
    refine Keeps.each ?_ (fun _ _ h => ?_)
    · assumption
    · exact keeps_rateSet ‹_›
  try clear_value s1
  exact keeps_epbMod ‹_›

theorem keeps_incPeriod {q : Bool} {a s : State} {x1 : Nat} (h : Keeps q a s) : Keeps q a (State.incPeriod s x1) := by
  unfold State.incPeriod
  extract_lets +onlyGivenNames -merge e; try clear_value e
  refine Keeps.ite ?_ ?_
  · refine keeps_epbMod ?_
    refine Keeps.ite ?_ ?_
    · exact keeps_rateIncrease ‹_›
    · assumption
  · assumption

theorem keeps_execRateIncrease {s : State} {x0 : Nat} : KeepsRes s (execRateIncrease x0 s) := by
  unfold execRateIncrease
  refine KeepsRes.next ?_
  refine keeps_incPeriod ?_
  first | exact Keeps.refl | assumption

theorem keeps_execCcEnable {s : State} {x0 : Nat} : KeepsRes s (execCcEnable x0 s) := by
  unfold execCcEnable
  refine KeepsRes.next ?_
  refine keeps_ccEnable ?_
  first | exact Keeps.refl | assumption

theorem keeps_execEpbRoleWrite {s : State} {x0 x1 : Nat} : KeepsRes s (execEpbRoleWrite x0 x1 s) := by
  unfold execEpbRoleWrite
  refine KeepsRes.next ?_
  refine keeps_roleWrite ?_
  first | exact Keeps.refl | assumption

theorem keeps_execHubFenceWrite {s : State} {x0 : Nat} : KeepsRes s (execHubFenceWrite x0 s) := by
  unfold execHubFenceWrite
  refine KeepsRes.next ?_
  refine keeps_fenceWrite ?_
  first | exact Keeps.refl | assumption

theorem keeps_execRrcInval {s : State} {x0 : Nat} : KeepsRes s (execRrcInval x0 s) := by
  unfold execRrcInval
  refine KeepsRes.next ?_
  refine keeps_rrcInval ?_
  first | exact Keeps.refl | assumption

theorem keeps_execRrcDisable {s : State} {x0 : Nat} : KeepsRes s (execRrcDisable x0 s) := by
  unfold execRrcDisable
  refine KeepsRes.next ?_
  refine keeps_rrcDisable ?_
  first | exact Keeps.refl | assumption

theorem keeps_execRingCommit {s : State} {x0 x1 x2 : Nat} {x3 : Bool} : KeepsRes s (execRingCommit x0 x1 x2 x3 s) := by
  unfold execRingCommit
  refine KeepsRes.next ?_
  split
  · rename_i heq
    have := KeepsO.eq heq (show KeepsO true s _ from by
      refine keeps_ringCommit ?_
      first | exact Keeps.refl | assumption
      )
    first | exact Keeps.refl | assumption
  · refine Keeps.ite ?_ ?_
    · refine keeps_fsat ?_
      first | exact Keeps.refl | assumption
    · first | exact Keeps.refl | assumption

theorem keeps_execPushStore {s : State} {x0 : Nat} {x1 : Packet} : KeepsRes s (execPushStore x0 x1 s) := by
  unfold execPushStore
  refine KeepsRes.next ?_
  refine Keeps.ite ?_ ?_
  · refine keeps_arriveReq ?_
    first | exact Keeps.refl | assumption
  · first | exact Keeps.refl | assumption

theorem keeps_itemLost {a s : State} {s2 : State} {x2 : Nat} (h : Keeps false a s) (h2 : Keeps false a s2) : Keeps false a (State.itemLost s s2 x2) := by
  unfold State.itemLost
  extract_lets +onlyGivenNames -merge fresh; try clear_value fresh
  refine Keeps.each ?_ (fun _ _ h => ?_)
  · assumption
  · exact keeps_errLater (keeps_epbMod ‹_›)

theorem keeps_moverClaim {q : Bool} {a s : State} {x1 : Nat} {x2 : Mover} (h : Keeps q a s) : KeepsR q a (State.moverClaim s x1 x2) := by
  unfold State.moverClaim
  extract_lets +onlyGivenNames -merge w0; try clear_value w0
  refine KeepsR.ite ?_ ?_
  · extract_lets +onlyGivenNames -merge c; try clear_value c
    exact KeepsR.mk (keeps_crcClaim ‹_›)
  · exact KeepsR.mk ‹_›

theorem keeps_itemStartWith {q : Bool} {a s : State} {x1 x2 x3 : Nat} {x4 : Option (Option (List Word))} (h : Keeps q a s) : Keeps q a (State.itemStartWith s x1 x2 x3 x4) := by
  unfold State.itemStartWith; dsimp only
  have k : ∀ {s : State}, Keeps q a s → Keeps q a (s.fwrap Fld.epbRingFetch_FETCH x1 x2 1) := fun h => keeps_fwrap h
  split
  · exact Keeps.ite (keeps_ringShow (keeps_epbMod (KeepsR.out (keeps_moverClaim (k (keeps_internalTouch h))))))
      (keeps_ringShow (keeps_epbMod (KeepsR.out (keeps_faultRec (KeepsR.out (keeps_moverClaim (k (keeps_internalTouch h))))))))
  · exact keeps_ringShow (keeps_epbMod (KeepsR.out (keeps_faultRec (k (keeps_internalTouch h)))))

theorem keeps_itemStart {q : Bool} {a s : State} {x1 x2 x3 : Nat} {x4 : List (Nat × List Word)} (h : Keeps q a s) : Keeps q a (State.itemStart s x1 x2 x3 x4) := by
  unfold State.itemStart; exact keeps_itemStartWith ‹_›

theorem keeps_engineStart {q : Bool} {a s : State} {x1 : Nat} {x2 : List (Nat × List Word)} (h : Keeps q a s) : Keeps q a (State.engineStart s x1 x2) := by
  unfold State.engineStart
  split
  · refine Keeps.ite ?_ ?_
    · split
      · exact keeps_ringShow (keeps_epbMod ‹_›)
      · assumption
    · exact keeps_itemStart ‹_›
  · assumption

theorem keeps_execEngineStart {s : State} {x0 : Nat} {x1 : List (Nat × List Word)} {x2 : Bool} : KeepsRes s (execEngineStart x0 x1 x2 s) := by
  unfold execEngineStart
  refine keeps_settled ?_
  refine Keeps.ite ?_ ?_
  · refine keeps_itemLost ?_ ?_
    · first | exact Keeps.refl | assumption
    · refine keeps_engineStart ?_
      first | exact Keeps.refl | assumption
  · refine keeps_engineStart ?_
    first | exact Keeps.refl | assumption

theorem keeps_lenIssue {q : Bool} {a s : State} {x1 x2 : Nat} {x3 : Mover} {x4 : Nat} {x5 : List Word} (h : Keeps q a s) : Keeps q a (State.lenIssue s x1 x2 x3 x4 x5) := by
  unfold State.lenIssue; dsimp only
  refine Keeps.ite (keeps_moverMod h) ?_
  split <;> rename_i e
  · exact keeps_segSubmit (keeps_moverMod (KeepsR.eq e (keeps_bulk h)))
  · exact KeepsR.eq e (keeps_bulk h)
  · exact keeps_moverMod (KeepsR.eq e (keeps_bulk h))

theorem keeps_addSeg {q : Bool} {a s : State} {x1 x2 : Nat} {x3 : Seg} {x4 : Bool} (h : Keeps q a s) : Keeps q a (State.addSeg s x1 x2 x3 x4) := by
  unfold State.addSeg; exact keeps_moverMod (Keeps.record ‹_›)

theorem keeps_startSeg {q : Bool} {a s : State} {x1 x2 : Nat} {x3 : Mover} {x4 : Seg} (h : Keeps q a s) : Keeps q a (State.startSeg s x1 x2 x3 x4) := by
  unfold State.startSeg
  refine Keeps.ite ?_ ?_
  · refine Keeps.ite ?_ ?_
    · exact keeps_addSeg ‹_›
    · exact keeps_segSubmit (keeps_addSeg ‹_›)
  · extract_lets +onlyGivenNames -merge y; try clear_value y
    refine Keeps.ite ?_ ?_
    · exact keeps_addSeg ‹_›
    · exact keeps_segSubmit (keeps_addSeg ‹_›)

theorem keeps_segmentIssue {q : Bool} {a s : State} {x1 x2 : Nat} {x3 x4 : List Word} (h : Keeps q a s) : Keeps q a (State.segmentIssue s x1 x2 x3 x4) := by
  unfold State.segmentIssue
  split
  · assumption
  · refine Keeps.ite ?_ ?_
    · assumption
    · split
      · refine Keeps.ite ?_ ?_
        · exact keeps_lenIssue ‹_›
        · assumption
      · refine Keeps.ite ?_ ?_
        · assumption
        · refine Keeps.ite ?_ ?_
          · exact keeps_addSeg ‹_›
          · extract_lets +onlyGivenNames -merge x'; try clear_value x'
            split
            · rename_i heq
              have := KeepsR.eq heq (show KeepsR q a _ from by
                refine KeepsR.ite ?_ ?_
                · exact keeps_bulk ‹_›
                · exact KeepsR.mk ‹_›
                )
              split
              · extract_lets +onlyGivenNames -merge y; try clear_value y
                split
                · exact keeps_startSeg ‹_›
                · refine Keeps.ite ?_ ?_
                  · split
                    · rename_i heq
                      have := KeepsR.eq heq (show KeepsR q a _ from by
                        exact keeps_bulk ‹_›
                        )
                      exact keeps_startSeg ‹_›
                    · rename_i heq
                      have := KeepsR.eq heq (show KeepsR q a _ from by
                        exact keeps_bulk ‹_›
                        )
                      assumption
                    · rename_i heq
                      have := KeepsR.eq heq (show KeepsR q a _ from by
                        exact keeps_bulk ‹_›
                        )
                      exact keeps_addSeg ‹_›
                  · exact keeps_startSeg ‹_›
              · assumption
              · exact keeps_addSeg ‹_›

theorem keeps_execSegmentIssue {s : State} {x0 x1 : Nat} {x2 x3 : List Word} : KeepsRes s (execSegmentIssue x0 x1 x2 x3 s) := by
  unfold execSegmentIssue
  refine KeepsRes.next ?_
  refine keeps_settle ?_
  refine keeps_segmentIssue ?_
  first | exact Keeps.refl | assumption

theorem keeps_moverPark {q : Bool} {a s : State} {x1 x2 : Nat} {x3 : Mover} (h : Keeps q a s) : KeepsR q a (State.moverPark s x1 x2 x3) := by
  unfold State.moverPark
  split
  · exact KeepsR.mk ‹_›
  · extract_lets +onlyGivenNames -merge cause; try clear_value cause
    extract_lets +onlyGivenNames -merge mask; try clear_value mask
    extract_lets +onlyGivenNames -merge seg; try clear_value seg
    split
    · rename_i heq
      have := KeepsR.eq heq (show KeepsR q a _ from by
        exact keeps_faultRec ‹_›
        )
      exact KeepsR.mk ‹_›

theorem keeps_descriptorPark {q : Bool} {a s : State} {x1 x2 : Nat} (h : Keeps q a s) : Keeps q a (State.descriptorPark s x1 x2) := by
  unfold State.descriptorPark
  split
  · assumption
  · refine Keeps.ite ?_ ?_
    · split
      · rename_i heq
        have := KeepsR.eq heq (show KeepsR q a _ from by
          exact keeps_moverPark ‹_›
          )
        extract_lets +onlyGivenNames -merge s2
        have _ : Keeps q a s2 := by unfold s2; exact keeps_epbMod ‹_›
        try clear_value s2
        extract_lets +onlyGivenNames -merge s3
        have _ : Keeps q a s3 := by
          unfold s3
          refine Keeps.ite ?_ ?_
          · exact keeps_fset ‹_›
          · assumption
        try clear_value s3
        exact keeps_ringShow ‹_›
    · assumption

theorem keeps_execDescriptorPark {s : State} {x0 x1 : Nat} : KeepsRes s (execDescriptorPark x0 x1 s) := by
  unfold execDescriptorPark
  refine KeepsRes.next ?_
  refine keeps_descriptorPark ?_
  first | exact Keeps.refl | assumption

theorem keeps_moverFault {q : Bool} {a s : State} {x1 x2 : Nat} {x3 : Mover} (h : Keeps q a s) : KeepsRR q a (State.moverFault s x1 x2 x3) := by
  unfold State.moverFault
  split
  · exact KeepsRR.mk ‹_›
  · split
    · exact KeepsRR.mk ‹_›
    · extract_lets +onlyGivenNames -merge status; try clear_value status
      split
      · exact KeepsRR.mk ‹_›
      · split
        · split
          · rename_i heq
            have := KeepsR.eq heq (show KeepsR q a _ from by
              exact keeps_faultRec ‹_›
              )
            exact KeepsRR.mk ‹_›

theorem keeps_itemComplete {q : Bool} {a s : State} {x1 x2 : Nat} (h : Keeps q a s) : Keeps q a (State.itemComplete s x1 x2) := by
  unfold State.itemComplete; dsimp only
  split
  · exact h
  · refine Keeps.ite (keeps_ringShow (keeps_epbMod (keeps_itemEnd (KeepsRR.out (keeps_moverFault h))))) (Keeps.ite (Keeps.ite ?_ ?_) h)
    · exact keeps_ringShow (keeps_epbMod (keeps_itemEnd (KeepsR.out (keeps_faultRec h))))
    · exact keeps_ringShow (keeps_epbMod (keeps_itemEnd h))

theorem keeps_execItemComplete {s : State} {x0 x1 : Nat} : KeepsRes s (execItemComplete x0 x1 s) := by
  unfold execItemComplete
  refine KeepsRes.next ?_
  refine keeps_itemComplete ?_
  first | exact Keeps.refl | assumption

theorem keeps_hostRequest {q : Bool} {a s : State} {x1 x2 x3 x4 x5 : Nat} {x6 : Bool} {x7 : List Byte} (h : Keeps q a s) : Keeps q a (State.hostRequest s x1 x2 x3 x4 x5 x6 x7) := by
  unfold State.hostRequest
  extract_lets +onlyGivenNames -merge r; try clear_value r
  refine Keeps.ite ?_ ?_
  · assumption
  · refine Keeps.ite ?_ ?_
    · exact keeps_emit ‹_›
    · refine Keeps.ite ?_ ?_
      · exact keeps_refuseReq ‹_›
      · refine Keeps.ite ?_ ?_
        · exact keeps_refuseReq ‹_›
        · refine Keeps.ite ?_ ?_
          · exact keeps_refuseReq ‹_›
          · exact keeps_submit ‹_›

theorem keeps_execHostPcieRequest {s : State} {x0 x1 x2 x3 x4 : Nat} {x5 : Bool} {x6 : List Byte} : KeepsRes s (execHostPcieRequest x0 x1 x2 x3 x4 x5 x6 s) := by
  unfold execHostPcieRequest
  refine KeepsRes.next ?_
  refine keeps_hostRequest ?_
  first | exact Keeps.refl | assumption

theorem keeps_hostTake {q : Bool} {a s : State} {x1 x2 : Nat} (h : Keeps q a s) : KeepsOR q a (State.hostTake s x1 x2) := by
  unfold State.hostTake
  split
  · exact KeepsOR.none
  · exact KeepsOR.some (Keeps.record ‹_›)

theorem keeps_hostCompletion {q : Bool} {a s : State} {x1 x2 : Nat} {x3 x4 : Bool} {x5 : List Byte} (h : Keeps q a s) : Keeps q a (State.hostCompletion s x1 x2 x3 x4 x5) := by
  unfold State.hostCompletion
  split
  · assumption
  · rename_i heq
    have := KeepsOR.eq heq (show KeepsOR q a _ from by
      exact keeps_hostTake ‹_›
      )
    extract_lets +onlyGivenNames -merge e; try clear_value e
    refine Keeps.ite ?_ ?_
    · exact keeps_targetFault ‹_›
    · refine Keeps.ite ?_ ?_
      · refine Keeps.ite ?_ ?_
        · extract_lets +onlyGivenNames -merge f; try clear_value f
          exact keeps_respond (keeps_fault ‹_›)
        · exact keeps_respond ‹_›
      · refine Keeps.ite ?_ ?_
        · exact keeps_targetFault ‹_›
        · refine Keeps.ite ?_ ?_
          · exact keeps_respond ‹_›
          · exact keeps_respond ‹_›

theorem keeps_execHostCompletion {s : State} {x0 x1 : Nat} {x2 x3 : Bool} {x4 : List Byte} : KeepsRes s (execHostCompletion x0 x1 x2 x3 x4 s) := by
  unfold execHostCompletion
  refine KeepsRes.next ?_
  refine keeps_hostCompletion ?_
  first | exact Keeps.refl | assumption

theorem keeps_hostTimeout {q : Bool} {a s : State} {x1 x2 : Nat} (h : Keeps q a s) : Keeps q a (State.hostTimeout s x1 x2) := by
  unfold State.hostTimeout
  split
  · assumption
  · rename_i heq
    have := KeepsOR.eq heq (show KeepsOR q a _ from by
      exact keeps_hostTake ‹_›
      )
    exact keeps_targetFault ‹_›

theorem keeps_execHostCompletionTimeout {s : State} {x0 x1 : Nat} : KeepsRes s (execHostCompletionTimeout x0 x1 s) := by
  unfold execHostCompletionTimeout
  refine KeepsRes.next ?_
  refine keeps_hostTimeout ?_
  first | exact Keeps.refl | assumption

theorem keeps_execHostD3hot {s : State} {x0 : Nat} : KeepsRes s (execHostD3hot x0 s) := by
  unfold execHostD3hot
  refine KeepsRes.next ?_
  refine Keeps.ite ?_ ?_
  · refine Keeps.record ?_
    first | exact Keeps.refl | assumption
  · first | exact Keeps.refl | assumption

theorem keeps_execHostD0 {s : State} {x0 : Nat} : KeepsRes s (execHostD0 x0 s) := by
  unfold execHostD0
  refine KeepsRes.ite ?_ ?_
  · refine keeps_settled ?_
    refine keeps_pwrSettle ?_
    refine keeps_wake ?_
    refine keeps_mboxDrain _ ?_
    refine Keeps.record ?_
    first | exact Keeps.refl | assumption
  · refine KeepsRes.next ?_
    first | exact Keeps.refl | assumption

theorem keeps_poolTouch {q : Bool} {a s : State} {x1 x2 : Nat} (h : Keeps q a s) : Keeps q a (State.poolTouch s x1 x2) := by
  unfold State.poolTouch
  refine Keeps.each ?_ (fun _ _ h => ?_)
  · assumption
  · exact keeps_internalTouch ‹_›

theorem keeps_progNone {q : Bool} {a s : State} {x1 : Nat} (h : Keeps q a s) : Keeps q a (State.progNone s x1) := by
  unfold State.progNone; exact keeps_fset (keeps_fset ‹_›)

theorem keeps_progPut {q : Bool} {a s : State} {x1 : List Byte} {x2 : List Word} {x3 : Nat} (h : Keeps q a s) : Keeps q a (State.progPut s x1 x2 x3) :=
  keeps_measure (Keeps.each (keeps_fset (keeps_fset (keeps_store (s := { s with mem := memClear s.mem (imemKey x3 0) (2 ^ 18) })
    ⟨h.1, fun k => memClear_wf _ _ _ (h.2.1 k), h.2.2⟩))) (fun _ _ h => keeps_wr h))

theorem keeps_progLoadDone {q : Bool} {a s : State} {x1 : Nat} (h : Keeps q a s) : Keeps q a (State.progLoadDone s x1) := by
  unfold State.progLoadDone
  split
  · assumption
  · refine Keeps.ite ?_ ?_
    · assumption
    · extract_lets +onlyGivenNames -merge cs; try clear_value cs
      extract_lets +onlyGivenNames -merge _ s1
      have _ : Keeps q a s1 := by unfold s1; exact Keeps.record ‹_›
      try clear_value s1
      extract_lets +onlyGivenNames -merge s2
      have _ : Keeps q a s2 := by unfold s2; exact keeps_poolTouch ‹_›
      try clear_value s2
      split
      · refine keeps_completeTicket ?_
        refine Keeps.each ?_ (fun _ _ h => ?_)
        · assumption
        · exact keeps_progNone ‹_›
      · extract_lets +onlyGivenNames -merge d; try clear_value d
        refine Keeps.ite ?_ ?_
        · refine keeps_completeTicket ?_
          refine Keeps.each ?_ (fun _ _ h => ?_)
          · assumption
          · exact keeps_progNone ‹_›
        · refine keeps_completeTicket ?_
          refine Keeps.each ?_ (fun _ _ h => ?_)
          · assumption
          · exact keeps_progPut ‹_›

theorem keeps_execProgLoadDone {s : State} {x0 : Nat} : KeepsRes s (execProgLoadDone x0 s) := by
  unfold execProgLoadDone
  refine KeepsRes.next ?_
  refine keeps_progLoadDone ?_
  first | exact Keeps.refl | assumption

theorem keeps_ctxRole {q : Bool} {a s : State} {x1 x2 x3 : Nat} (h : Keeps q a s) : Keeps q a (State.ctxRole s x1 x2 x3) := by
  unfold State.ctxRole; exact keeps_ctxWrite ‹_›

theorem keeps_execSpnCtxRoleWrite {s : State} {x0 x1 x2 : Nat} : KeepsRes s (execSpnCtxRoleWrite x0 x1 x2 s) := by
  unfold execSpnCtxRoleWrite
  refine KeepsRes.next ?_
  refine Keeps.ite ?_ ?_
  · refine keeps_ctxRole ?_
    first | exact Keeps.refl | assumption
  · first | exact Keeps.refl | assumption

theorem keeps_remoteComplete {q : Bool} {a s : State} {x1 : Nat} (h : Keeps q a s) : Keeps q a (State.remoteComplete s x1) := by
  unfold State.remoteComplete
  split
  · split
    · refine Keeps.ite ?_ ?_
      · exact keeps_remoteGo (Keeps.record ‹_›)
      · assumption
    · assumption
  · extract_lets +onlyGivenNames -merge _ s1
    have _ : Keeps q a s1 := by unfold s1; exact Keeps.record ‹_›
    try clear_value s1
    refine Keeps.ite ?_ ?_
    · exact keeps_thrEnd ‹_›
    · refine Keeps.ite ?_ ?_
      · assumption
      · split
        · extract_lets +onlyGivenNames -merge i; try clear_value i
          exact keeps_thrPark ‹_›
        · exact keeps_remoteDone ‹_›

theorem keeps_execRemoteAccessComplete {s : State} {x0 x1 : Nat} : KeepsRes s (execRemoteAccessComplete x0 x1 s) := by
  unfold execRemoteAccessComplete
  refine KeepsRes.next ?_
  refine Keeps.ite ?_ ?_
  · refine keeps_remoteComplete ?_
    first | exact Keeps.refl | assumption
  · first | exact Keeps.refl | assumption

theorem keeps_waitcGo {q : Bool} {a s : State} {x1 : Nat} (h : Keeps q a s) : Keeps q a (State.waitcGo s x1) := by
  unfold State.waitcGo
  extract_lets +onlyGivenNames -merge i; try clear_value i
  refine Keeps.ite ?_ ?_
  · exact keeps_thrGo (keeps_thrNext ‹_›)
  · assumption

theorem keeps_execWaitcMet {s : State} {x0 x1 : Nat} : KeepsRes s (execWaitcMet x0 x1 s) := by
  unfold execWaitcMet
  refine KeepsRes.next ?_
  refine Keeps.ite ?_ ?_
  · refine keeps_waitcGo ?_
    first | exact Keeps.refl | assumption
  · first | exact Keeps.refl | assumption

theorem keeps_spnTake {q : Bool} {a s : State} {x1 x2 x3 : Nat} {x4 : SInstr} (h : Keeps q a s) : Keeps q a (State.spnTake s x1 x2 x3 x4) := by
  unfold State.spnTake
  extract_lets +onlyGivenNames -merge q'; try clear_value q'
  extract_lets +onlyGivenNames -merge core; try clear_value core
  exact keeps_fwrap (keeps_thrMod (Keeps.record ‹_›))

theorem keeps_spnIssue {a s : State} {x1 x2 x3 x4 : Nat} {x5 : Bool} {x6 : Nat → SInstr → State → State} (h : Keeps false a s) (k6 : ∀ y0 y1 y2, Keeps false a y2 → Keeps false a (x6 y0 y1 y2)) : Keeps false a (State.spnIssue s x1 x2 x3 x4 x5 x6) := by
  unfold State.spnIssue
  extract_lets +onlyGivenNames -merge q'; try clear_value q'
  refine Keeps.ite ?_ ?_
  · assumption
  · split
    · assumption
    · refine Keeps.ite ?_ ?_
      · assumption
      · refine Keeps.ite ?_ ?_
        · exact keeps_errLater (keeps_thrEnd ‹_›)
        · refine Keeps.ite ?_ ?_
          · exact keeps_progError ‹_›
          · extract_lets +onlyGivenNames -merge i; try clear_value i
            extract_lets +onlyGivenNames -merge s1
            have _ : Keeps false a s1 := by unfold s1; exact keeps_spnTake ‹_›
            try clear_value s1
            refine Keeps.ite ?_ ?_
            · exact keeps_progError ‹_›
            · refine Keeps.ite ?_ ?_
              · assumption
              · refine k6 _ _ _ ?_
                assumption

theorem keeps_spnRun {s : State} {x1 x2 x3 x4 : Nat} {x5 : Bool} {x6 : Nat → SInstr → State → State} (k6 : ∀ y0 y1 y2, Keeps false s y2 → Keeps false s (x6 y0 y1 y2)) : KeepsRes s (State.spnRun s x1 x2 x3 x4 x5 x6) := by
  unfold State.spnRun
  refine keeps_settled ?_
  refine keeps_spnIssue ?_ (fun _ _ _ h => ?_)
  · first | exact Keeps.refl | assumption
  · refine k6 _ _ _ ?_
    first | exact Keeps.refl | assumption

theorem keeps_whole {q : Bool} {a s : State} {x0 : Nat → SInstr → State → State} {x1 : Nat} {x2 : SInstr} (k0 : ∀ y0 y1 y2, Keeps q a y2 → Keeps q a (x0 y0 y1 y2)) (h : Keeps q a s) : Keeps q a (whole x0 x1 x2 s) := by
  unfold whole
  refine Keeps.ite ?_ ?_
  · refine keeps_thrNext ?_
    refine k0 _ _ _ ?_
    assumption
  · exact keeps_thrNext ‹_›

theorem keeps_aluRR {q : Bool} {a s : State} {x0 : Word → Word → Word} {x1 : Nat} {x2 : SInstr} (h : Keeps q a s) : Keeps q a (aluRR x0 x1 x2 s) := by
  unfold aluRR; exact keeps_setS ‹_›

theorem keeps_execAdd {s : State} {x0 x1 : Nat} {x2 : Bool} : KeepsRes s (execAdd x0 x1 x2 s) := by
  unfold execAdd
  refine keeps_spnRun (fun _ _ _ h => ?_)
  refine keeps_whole (fun _ _ _ h => ?_) ?_
  · refine keeps_aluRR ?_
    first | exact Keeps.refl | assumption
  · first | exact Keeps.refl | assumption

theorem keeps_execSub {s : State} {x0 x1 : Nat} {x2 : Bool} : KeepsRes s (execSub x0 x1 x2 s) := by
  unfold execSub
  refine keeps_spnRun (fun _ _ _ h => ?_)
  refine keeps_whole (fun _ _ _ h => ?_) ?_
  · refine keeps_aluRR ?_
    first | exact Keeps.refl | assumption
  · first | exact Keeps.refl | assumption

theorem keeps_execMul {s : State} {x0 x1 : Nat} {x2 : Bool} : KeepsRes s (execMul x0 x1 x2 s) := by
  unfold execMul
  refine keeps_spnRun (fun _ _ _ h => ?_)
  refine keeps_whole (fun _ _ _ h => ?_) ?_
  · refine keeps_aluRR ?_
    first | exact Keeps.refl | assumption
  · first | exact Keeps.refl | assumption

theorem keeps_execAnd {s : State} {x0 x1 : Nat} {x2 : Bool} : KeepsRes s (execAnd x0 x1 x2 s) := by
  unfold execAnd
  refine keeps_spnRun (fun _ _ _ h => ?_)
  refine keeps_whole (fun _ _ _ h => ?_) ?_
  · refine keeps_aluRR ?_
    first | exact Keeps.refl | assumption
  · first | exact Keeps.refl | assumption

theorem keeps_execOr {s : State} {x0 x1 : Nat} {x2 : Bool} : KeepsRes s (execOr x0 x1 x2 s) := by
  unfold execOr
  refine keeps_spnRun (fun _ _ _ h => ?_)
  refine keeps_whole (fun _ _ _ h => ?_) ?_
  · refine keeps_aluRR ?_
    first | exact Keeps.refl | assumption
  · first | exact Keeps.refl | assumption

theorem keeps_execXor {s : State} {x0 x1 : Nat} {x2 : Bool} : KeepsRes s (execXor x0 x1 x2 s) := by
  unfold execXor
  refine keeps_spnRun (fun _ _ _ h => ?_)
  refine keeps_whole (fun _ _ _ h => ?_) ?_
  · refine keeps_aluRR ?_
    first | exact Keeps.refl | assumption
  · first | exact Keeps.refl | assumption

theorem keeps_execShl {s : State} {x0 x1 : Nat} {x2 : Bool} : KeepsRes s (execShl x0 x1 x2 s) := by
  unfold execShl
  refine keeps_spnRun (fun _ _ _ h => ?_)
  refine keeps_whole (fun _ _ _ h => ?_) ?_
  · refine keeps_aluRR ?_
    first | exact Keeps.refl | assumption
  · first | exact Keeps.refl | assumption

theorem keeps_execShr {s : State} {x0 x1 : Nat} {x2 : Bool} : KeepsRes s (execShr x0 x1 x2 s) := by
  unfold execShr
  refine keeps_spnRun (fun _ _ _ h => ?_)
  refine keeps_whole (fun _ _ _ h => ?_) ?_
  · refine keeps_aluRR ?_
    first | exact Keeps.refl | assumption
  · first | exact Keeps.refl | assumption

theorem keeps_execSra {s : State} {x0 x1 : Nat} {x2 : Bool} : KeepsRes s (execSra x0 x1 x2 s) := by
  unfold execSra
  refine keeps_spnRun (fun _ _ _ h => ?_)
  refine keeps_whole (fun _ _ _ h => ?_) ?_
  · refine keeps_aluRR ?_
    first | exact Keeps.refl | assumption
  · first | exact Keeps.refl | assumption

theorem keeps_execMin {s : State} {x0 x1 : Nat} {x2 : Bool} : KeepsRes s (execMin x0 x1 x2 s) := by
  unfold execMin
  refine keeps_spnRun (fun _ _ _ h => ?_)
  refine keeps_whole (fun _ _ _ h => ?_) ?_
  · refine keeps_aluRR ?_
    first | exact Keeps.refl | assumption
  · first | exact Keeps.refl | assumption

theorem keeps_execMax {s : State} {x0 x1 : Nat} {x2 : Bool} : KeepsRes s (execMax x0 x1 x2 s) := by
  unfold execMax
  refine keeps_spnRun (fun _ _ _ h => ?_)
  refine keeps_whole (fun _ _ _ h => ?_) ?_
  · refine keeps_aluRR ?_
    first | exact Keeps.refl | assumption
  · first | exact Keeps.refl | assumption

theorem keeps_execMinu {s : State} {x0 x1 : Nat} {x2 : Bool} : KeepsRes s (execMinu x0 x1 x2 s) := by
  unfold execMinu
  refine keeps_spnRun (fun _ _ _ h => ?_)
  refine keeps_whole (fun _ _ _ h => ?_) ?_
  · refine keeps_aluRR ?_
    first | exact Keeps.refl | assumption
  · first | exact Keeps.refl | assumption

theorem keeps_execMaxu {s : State} {x0 x1 : Nat} {x2 : Bool} : KeepsRes s (execMaxu x0 x1 x2 s) := by
  unfold execMaxu
  refine keeps_spnRun (fun _ _ _ h => ?_)
  refine keeps_whole (fun _ _ _ h => ?_) ?_
  · refine keeps_aluRR ?_
    first | exact Keeps.refl | assumption
  · first | exact Keeps.refl | assumption

theorem keeps_aluRI {q : Bool} {a s : State} {x0 : Word → Word → Word} {x1 : Nat} {x2 : SInstr} (h : Keeps q a s) : Keeps q a (aluRI x0 x1 x2 s) := by
  unfold aluRI; exact keeps_setS ‹_›

theorem keeps_execAddi {s : State} {x0 x1 : Nat} {x2 : Bool} : KeepsRes s (execAddi x0 x1 x2 s) := by
  unfold execAddi
  refine keeps_spnRun (fun _ _ _ h => ?_)
  refine keeps_whole (fun _ _ _ h => ?_) ?_
  · refine keeps_aluRI ?_
    first | exact Keeps.refl | assumption
  · first | exact Keeps.refl | assumption

theorem keeps_execAndi {s : State} {x0 x1 : Nat} {x2 : Bool} : KeepsRes s (execAndi x0 x1 x2 s) := by
  unfold execAndi
  refine keeps_spnRun (fun _ _ _ h => ?_)
  refine keeps_whole (fun _ _ _ h => ?_) ?_
  · refine keeps_aluRI ?_
    first | exact Keeps.refl | assumption
  · first | exact Keeps.refl | assumption

theorem keeps_execOri {s : State} {x0 x1 : Nat} {x2 : Bool} : KeepsRes s (execOri x0 x1 x2 s) := by
  unfold execOri
  refine keeps_spnRun (fun _ _ _ h => ?_)
  refine keeps_whole (fun _ _ _ h => ?_) ?_
  · refine keeps_aluRI ?_
    first | exact Keeps.refl | assumption
  · first | exact Keeps.refl | assumption

theorem keeps_execXori {s : State} {x0 x1 : Nat} {x2 : Bool} : KeepsRes s (execXori x0 x1 x2 s) := by
  unfold execXori
  refine keeps_spnRun (fun _ _ _ h => ?_)
  refine keeps_whole (fun _ _ _ h => ?_) ?_
  · refine keeps_aluRI ?_
    first | exact Keeps.refl | assumption
  · first | exact Keeps.refl | assumption

theorem keeps_execShli {s : State} {x0 x1 : Nat} {x2 : Bool} : KeepsRes s (execShli x0 x1 x2 s) := by
  unfold execShli
  refine keeps_spnRun (fun _ _ _ h => ?_)
  refine keeps_whole (fun _ _ _ h => ?_) ?_
  · refine keeps_aluRI ?_
    first | exact Keeps.refl | assumption
  · first | exact Keeps.refl | assumption

theorem keeps_execShri {s : State} {x0 x1 : Nat} {x2 : Bool} : KeepsRes s (execShri x0 x1 x2 s) := by
  unfold execShri
  refine keeps_spnRun (fun _ _ _ h => ?_)
  refine keeps_whole (fun _ _ _ h => ?_) ?_
  · refine keeps_aluRI ?_
    first | exact Keeps.refl | assumption
  · first | exact Keeps.refl | assumption

theorem keeps_execSrai {s : State} {x0 x1 : Nat} {x2 : Bool} : KeepsRes s (execSrai x0 x1 x2 s) := by
  unfold execSrai
  refine keeps_spnRun (fun _ _ _ h => ?_)
  refine keeps_whole (fun _ _ _ h => ?_) ?_
  · refine keeps_aluRI ?_
    first | exact Keeps.refl | assumption
  · first | exact Keeps.refl | assumption

theorem keeps_execLi {s : State} {x0 x1 : Nat} {x2 : Bool} : KeepsRes s (execLi x0 x1 x2 s) := by
  unfold execLi
  refine keeps_spnRun (fun _ _ _ h => ?_)
  refine keeps_whole (fun _ _ _ h => ?_) ?_
  · refine keeps_setS ?_
    first | exact Keeps.refl | assumption
  · first | exact Keeps.refl | assumption

theorem keeps_execLui {s : State} {x0 x1 : Nat} {x2 : Bool} : KeepsRes s (execLui x0 x1 x2 s) := by
  unfold execLui
  refine keeps_spnRun (fun _ _ _ h => ?_)
  refine keeps_whole (fun _ _ _ h => ?_) ?_
  · refine keeps_setS ?_
    first | exact Keeps.refl | assumption
  · first | exact Keeps.refl | assumption

theorem keeps_execRdsys {s : State} {x0 x1 : Nat} {x2 : Bool} : KeepsRes s (execRdsys x0 x1 x2 s) := by
  unfold execRdsys
  refine keeps_spnRun (fun _ _ _ h => ?_)
  refine keeps_whole (fun _ _ _ h => ?_) ?_
  · refine keeps_setS ?_
    first | exact Keeps.refl | assumption
  · first | exact Keeps.refl | assumption

theorem keeps_setElems {q : Bool} {a s : State} {x1 : Nat} {x2 : SInstr} {x3 : Nat} {x4 : List Nat} (h : Keeps q a s) : Keeps q a (State.setElems s x1 x2 x3 x4) := by
  unfold State.setElems; exact keeps_setV ‹_›

theorem keeps_vecVV {q : Bool} {a s : State} {x0 : Nat → Nat → Nat → Nat} {x1 : Nat} {x2 : SInstr} (h : Keeps q a s) : Keeps q a (vecVV x0 x1 x2 s) := by
  unfold vecVV
  extract_lets +onlyGivenNames -merge k; try clear_value k
  exact keeps_thrNext (keeps_setElems ‹_›)

theorem keeps_execVadd {s : State} {x0 x1 : Nat} {x2 : Bool} : KeepsRes s (execVadd x0 x1 x2 s) := by
  unfold execVadd
  refine keeps_spnRun (fun _ _ _ h => ?_)
  refine keeps_vecVV ?_
  first | exact Keeps.refl | assumption

theorem keeps_execVsub {s : State} {x0 x1 : Nat} {x2 : Bool} : KeepsRes s (execVsub x0 x1 x2 s) := by
  unfold execVsub
  refine keeps_spnRun (fun _ _ _ h => ?_)
  refine keeps_vecVV ?_
  first | exact Keeps.refl | assumption

theorem keeps_execVmul {s : State} {x0 x1 : Nat} {x2 : Bool} : KeepsRes s (execVmul x0 x1 x2 s) := by
  unfold execVmul
  refine keeps_spnRun (fun _ _ _ h => ?_)
  refine keeps_vecVV ?_
  first | exact Keeps.refl | assumption

theorem keeps_vecFma {q : Bool} {a s : State} {x0 : Nat} {x1 : SInstr} (h : Keeps q a s) : Keeps q a (vecFma x0 x1 s) := by
  unfold vecFma
  extract_lets +onlyGivenNames -merge k; try clear_value k
  exact keeps_thrNext (keeps_setElems ‹_›)

theorem keeps_execVfma {s : State} {x0 x1 : Nat} {x2 : Bool} : KeepsRes s (execVfma x0 x1 x2 s) := by
  unfold execVfma
  refine keeps_spnRun (fun _ _ _ h => ?_)
  refine keeps_vecFma ?_
  first | exact Keeps.refl | assumption

theorem keeps_execVmin {s : State} {x0 x1 : Nat} {x2 : Bool} : KeepsRes s (execVmin x0 x1 x2 s) := by
  unfold execVmin
  refine keeps_spnRun (fun _ _ _ h => ?_)
  refine keeps_vecVV ?_
  first | exact Keeps.refl | assumption

theorem keeps_execVmax {s : State} {x0 x1 : Nat} {x2 : Bool} : KeepsRes s (execVmax x0 x1 x2 s) := by
  unfold execVmax
  refine keeps_spnRun (fun _ _ _ h => ?_)
  refine keeps_vecVV ?_
  first | exact Keeps.refl | assumption

theorem keeps_vecBits {q : Bool} {a s : State} {x0 : Nat → Nat → Nat} {x1 : Nat} {x2 : SInstr} (h : Keeps q a s) : Keeps q a (vecBits x0 x1 x2 s) := by
  unfold vecBits; exact keeps_thrNext (keeps_setElems ‹_›)

theorem keeps_execVand {s : State} {x0 x1 : Nat} {x2 : Bool} : KeepsRes s (execVand x0 x1 x2 s) := by
  unfold execVand
  refine keeps_spnRun (fun _ _ _ h => ?_)
  refine keeps_vecBits ?_
  first | exact Keeps.refl | assumption

theorem keeps_execVor {s : State} {x0 x1 : Nat} {x2 : Bool} : KeepsRes s (execVor x0 x1 x2 s) := by
  unfold execVor
  refine keeps_spnRun (fun _ _ _ h => ?_)
  refine keeps_vecBits ?_
  first | exact Keeps.refl | assumption

theorem keeps_execVxor {s : State} {x0 x1 : Nat} {x2 : Bool} : KeepsRes s (execVxor x0 x1 x2 s) := by
  unfold execVxor
  refine keeps_spnRun (fun _ _ _ h => ?_)
  refine keeps_vecBits ?_
  first | exact Keeps.refl | assumption

theorem keeps_vecPerm {q : Bool} {a s : State} {x0 : Nat} {x1 : SInstr} (h : Keeps q a s) : Keeps q a (vecPerm x0 x1 s) := by
  unfold vecPerm
  extract_lets +onlyGivenNames -merge a'; try clear_value a'
  exact keeps_thrNext (keeps_setElems ‹_›)

theorem keeps_execVperm {s : State} {x0 x1 : Nat} {x2 : Bool} : KeepsRes s (execVperm x0 x1 x2 s) := by
  unfold execVperm
  refine keeps_spnRun (fun _ _ _ h => ?_)
  refine keeps_vecPerm ?_
  first | exact Keeps.refl | assumption

theorem keeps_vecCvt {q : Bool} {a s : State} {x0 : Nat} {x1 : SInstr} (h : Keeps q a s) : Keeps q a (vecCvt x0 x1 s) := by
  unfold vecCvt
  extract_lets +onlyGivenNames -merge k; try clear_value k
  extract_lets +onlyGivenNames -merge m; try clear_value m
  extract_lets +onlyGivenNames -merge n; try clear_value n
  extract_lets +onlyGivenNames -merge old; try clear_value old
  extract_lets +onlyGivenNames -merge new; try clear_value new
  extract_lets +onlyGivenNames -merge l; try clear_value l
  exact keeps_thrNext (keeps_setV ‹_›)

theorem keeps_execVcvt {s : State} {x0 x1 : Nat} {x2 : Bool} : KeepsRes s (execVcvt x0 x1 x2 s) := by
  unfold execVcvt
  refine keeps_spnRun (fun _ _ _ h => ?_)
  refine keeps_vecCvt ?_
  first | exact Keeps.refl | assumption

theorem keeps_vecVS {q : Bool} {a s : State} {x0 : Nat → Nat → Nat → Nat} {x1 : Nat} {x2 : SInstr} (h : Keeps q a s) : Keeps q a (vecVS x0 x1 x2 s) := by
  unfold vecVS
  extract_lets +onlyGivenNames -merge k; try clear_value k
  exact keeps_thrNext (keeps_setElems ‹_›)

theorem keeps_execVadds {s : State} {x0 x1 : Nat} {x2 : Bool} : KeepsRes s (execVadds x0 x1 x2 s) := by
  unfold execVadds
  refine keeps_spnRun (fun _ _ _ h => ?_)
  refine keeps_vecVS ?_
  first | exact Keeps.refl | assumption

theorem keeps_execVmuls {s : State} {x0 x1 : Nat} {x2 : Bool} : KeepsRes s (execVmuls x0 x1 x2 s) := by
  unfold execVmuls
  refine keeps_spnRun (fun _ _ _ h => ?_)
  refine keeps_vecVS ?_
  first | exact Keeps.refl | assumption

theorem keeps_vecFmas {q : Bool} {a s : State} {x0 : Nat} {x1 : SInstr} (h : Keeps q a s) : Keeps q a (vecFmas x0 x1 s) := by
  unfold vecFmas
  extract_lets +onlyGivenNames -merge k; try clear_value k
  exact keeps_thrNext (keeps_setElems ‹_›)

theorem keeps_execVfmas {s : State} {x0 x1 : Nat} {x2 : Bool} : KeepsRes s (execVfmas x0 x1 x2 s) := by
  unfold execVfmas
  refine keeps_spnRun (fun _ _ _ h => ?_)
  refine keeps_vecFmas ?_
  first | exact Keeps.refl | assumption

theorem keeps_execVmins {s : State} {x0 x1 : Nat} {x2 : Bool} : KeepsRes s (execVmins x0 x1 x2 s) := by
  unfold execVmins
  refine keeps_spnRun (fun _ _ _ h => ?_)
  refine keeps_vecVS ?_
  first | exact Keeps.refl | assumption

theorem keeps_execVmaxs {s : State} {x0 x1 : Nat} {x2 : Bool} : KeepsRes s (execVmaxs x0 x1 x2 s) := by
  unfold execVmaxs
  refine keeps_spnRun (fun _ _ _ h => ?_)
  refine keeps_vecVS ?_
  first | exact Keeps.refl | assumption

theorem keeps_vecSplat {q : Bool} {a s : State} {x0 : Nat} {x1 : SInstr} (h : Keeps q a s) : Keeps q a (vecSplat x0 x1 s) := by
  unfold vecSplat
  extract_lets +onlyGivenNames -merge k; try clear_value k
  exact keeps_thrNext (keeps_setElems ‹_›)

theorem keeps_execVsplat {s : State} {x0 x1 : Nat} {x2 : Bool} : KeepsRes s (execVsplat x0 x1 x2 s) := by
  unfold execVsplat
  refine keeps_spnRun (fun _ _ _ h => ?_)
  refine keeps_vecSplat ?_
  first | exact Keeps.refl | assumption

theorem keeps_vecExt {q : Bool} {a s : State} {x0 : Nat} {x1 : SInstr} (h : Keeps q a s) : Keeps q a (vecExt x0 x1 s) := by
  unfold vecExt
  extract_lets +onlyGivenNames -merge k; try clear_value k
  extract_lets +onlyGivenNames -merge n; try clear_value n
  refine Keeps.ite ?_ ?_
  · split
    · rename_i heq
      have := KeepsR.eq heq (show KeepsR q a _ from by
        exact keeps_draw ‹_›
        )
      exact keeps_thrNext (keeps_setS ‹_›)
  · refine Keeps.ite ?_ ?_
    · exact keeps_thrNext (keeps_setS ‹_›)
    · exact keeps_thrNext ‹_›

theorem keeps_execVext {s : State} {x0 x1 : Nat} {x2 : Bool} : KeepsRes s (execVext x0 x1 x2 s) := by
  unfold execVext
  refine keeps_spnRun (fun _ _ _ h => ?_)
  refine keeps_vecExt ?_
  first | exact Keeps.refl | assumption

theorem keeps_vecIns {q : Bool} {a s : State} {x0 : Nat} {x1 : SInstr} (h : Keeps q a s) : Keeps q a (vecIns x0 x1 s) := by
  unfold vecIns
  extract_lets +onlyGivenNames -merge k; try clear_value k
  extract_lets +onlyGivenNames -merge n; try clear_value n
  refine Keeps.ite ?_ ?_
  · split
    · rename_i heq
      have := KeepsR.eq heq (show KeepsR q a _ from by
        exact keeps_drawBytes ‹_›
        )
      exact keeps_thrNext (keeps_setV ‹_›)
  · exact keeps_thrNext (keeps_setV ‹_›)

theorem keeps_execVins {s : State} {x0 x1 : Nat} {x2 : Bool} : KeepsRes s (execVins x0 x1 x2 s) := by
  unfold execVins
  refine keeps_spnRun (fun _ _ _ h => ?_)
  refine keeps_vecIns ?_
  first | exact Keeps.refl | assumption

theorem keeps_setP {q : Bool} {a s : State} {x1 x2 x3 : Nat} (h : Keeps q a s) : Keeps q a (State.setP s x1 x2 x3) := by
  unfold State.setP; exact keeps_thrMod ‹_›

theorem keeps_predVV {q : Bool} {a s : State} {x0 : Nat → Nat → Nat → Bool} {x1 : Nat} {x2 : SInstr} (h : Keeps q a s) : Keeps q a (predVV x0 x1 x2 s) := by
  unfold predVV
  extract_lets +onlyGivenNames -merge k; try clear_value k
  extract_lets +onlyGivenNames -merge r; try clear_value r
  extract_lets +onlyGivenNames -merge old; try clear_value old
  exact keeps_thrNext (keeps_setP ‹_›)

theorem keeps_execPeq {s : State} {x0 x1 : Nat} {x2 : Bool} : KeepsRes s (execPeq x0 x1 x2 s) := by
  unfold execPeq
  refine keeps_spnRun (fun _ _ _ h => ?_)
  refine keeps_predVV ?_
  first | exact Keeps.refl | assumption

theorem keeps_execPne {s : State} {x0 x1 : Nat} {x2 : Bool} : KeepsRes s (execPne x0 x1 x2 s) := by
  unfold execPne
  refine keeps_spnRun (fun _ _ _ h => ?_)
  refine keeps_predVV ?_
  first | exact Keeps.refl | assumption

theorem keeps_execPlt {s : State} {x0 x1 : Nat} {x2 : Bool} : KeepsRes s (execPlt x0 x1 x2 s) := by
  unfold execPlt
  refine keeps_spnRun (fun _ _ _ h => ?_)
  refine keeps_predVV ?_
  first | exact Keeps.refl | assumption

theorem keeps_execPle {s : State} {x0 x1 : Nat} {x2 : Bool} : KeepsRes s (execPle x0 x1 x2 s) := by
  unfold execPle
  refine keeps_spnRun (fun _ _ _ h => ?_)
  refine keeps_predVV ?_
  first | exact Keeps.refl | assumption

theorem keeps_predBits {q : Bool} {a s : State} {x0 : State → Nat → SInstr → Nat → Bool} {x1 : Nat} {x2 : SInstr} (h : Keeps q a s) : Keeps q a (predBits x0 x1 x2 s) := by
  unfold predBits
  extract_lets +onlyGivenNames -merge old; try clear_value old
  exact keeps_thrNext (keeps_setP ‹_›)

theorem keeps_execPseq {s : State} {x0 x1 : Nat} {x2 : Bool} : KeepsRes s (execPseq x0 x1 x2 s) := by
  unfold execPseq
  refine keeps_spnRun (fun _ _ _ h => ?_)
  refine keeps_predBits ?_
  first | exact Keeps.refl | assumption

theorem keeps_execPslt {s : State} {x0 x1 : Nat} {x2 : Bool} : KeepsRes s (execPslt x0 x1 x2 s) := by
  unfold execPslt
  refine keeps_spnRun (fun _ _ _ h => ?_)
  refine keeps_predBits ?_
  first | exact Keeps.refl | assumption

theorem keeps_execPult {s : State} {x0 x1 : Nat} {x2 : Bool} : KeepsRes s (execPult x0 x1 x2 s) := by
  unfold execPult
  refine keeps_spnRun (fun _ _ _ h => ?_)
  refine keeps_predBits ?_
  first | exact Keeps.refl | assumption

theorem keeps_execPand {s : State} {x0 x1 : Nat} {x2 : Bool} : KeepsRes s (execPand x0 x1 x2 s) := by
  unfold execPand
  refine keeps_spnRun (fun _ _ _ h => ?_)
  refine keeps_predBits ?_
  first | exact Keeps.refl | assumption

theorem keeps_execPor {s : State} {x0 x1 : Nat} {x2 : Bool} : KeepsRes s (execPor x0 x1 x2 s) := by
  unfold execPor
  refine keeps_spnRun (fun _ _ _ h => ?_)
  refine keeps_predBits ?_
  first | exact Keeps.refl | assumption

theorem keeps_execPnot {s : State} {x0 x1 : Nat} {x2 : Bool} : KeepsRes s (execPnot x0 x1 x2 s) := by
  unfold execPnot
  refine keeps_spnRun (fun _ _ _ h => ?_)
  refine keeps_predBits ?_
  first | exact Keeps.refl | assumption

theorem keeps_execPall {s : State} {x0 x1 : Nat} {x2 : Bool} : KeepsRes s (execPall x0 x1 x2 s) := by
  unfold execPall
  refine keeps_spnRun (fun _ _ _ h => ?_)
  refine keeps_predBits ?_
  first | exact Keeps.refl | assumption

theorem keeps_jump {q : Bool} {a s : State} {x0 : Nat → SInstr → State → State} {x1 : Nat} {x2 : SInstr} (k0 : ∀ y0 y1 y2, Keeps q a y2 → Keeps q a (x0 y0 y1 y2)) (h : Keeps q a s) : Keeps q a (jump x0 x1 x2 s) := by
  unfold jump
  refine Keeps.ite ?_ ?_
  · refine k0 _ _ _ ?_
    assumption
  · exact keeps_thrNext ‹_›

theorem keeps_localAccess {q : Bool} {a s : State} {x0 : Nat} {x1 : Nat → SInstr → Nat → State → State} {x2 : Nat} {x3 : SInstr} (k1 : ∀ y0 y1 y2 y3, Keeps q a y3 → Keeps q a (x1 y0 y1 y2 y3)) (h : Keeps q a s) : Keeps q a (localAccess x0 x1 x2 x3 s) := by
  unfold localAccess
  split
  · exact keeps_progError ‹_›
  · refine keeps_thrNext ?_
    refine k1 _ _ _ _ ?_
    assumption

theorem keeps_execLds {s : State} {x0 x1 : Nat} {x2 : Bool} : KeepsRes s (execLds x0 x1 x2 s) := by
  unfold execLds
  refine keeps_spnRun (fun _ _ _ h => ?_)
  refine keeps_jump (fun _ _ _ h => ?_) ?_
  · refine keeps_localAccess (fun _ _ _ _ h => ?_) ?_
    · refine keeps_setS ?_
      first | exact Keeps.refl | assumption
    · first | exact Keeps.refl | assumption
  · first | exact Keeps.refl | assumption

theorem keeps_execSts {s : State} {x0 x1 : Nat} {x2 : Bool} : KeepsRes s (execSts x0 x1 x2 s) := by
  unfold execSts
  refine keeps_spnRun (fun _ _ _ h => ?_)
  refine keeps_jump (fun _ _ _ h => ?_) ?_
  · refine keeps_localAccess (fun _ _ _ _ h => ?_) ?_
    · refine keeps_store ?_
      first | exact Keeps.refl | assumption
    · first | exact Keeps.refl | assumption
  · first | exact Keeps.refl | assumption

theorem keeps_execLdv {s : State} {x0 x1 : Nat} {x2 : Bool} : KeepsRes s (execLdv x0 x1 x2 s) := by
  unfold execLdv
  refine keeps_spnRun (fun _ _ _ h => ?_)
  refine keeps_localAccess (fun _ _ _ _ h => ?_) ?_
  · refine keeps_setV ?_
    first | exact Keeps.refl | assumption
  · first | exact Keeps.refl | assumption

theorem keeps_execStv {s : State} {x0 x1 : Nat} {x2 : Bool} : KeepsRes s (execStv x0 x1 x2 s) := by
  unfold execStv
  refine keeps_spnRun (fun _ _ _ h => ?_)
  refine keeps_localAccess (fun _ _ _ _ h => ?_) ?_
  · refine keeps_store ?_
    first | exact Keeps.refl | assumption
  · first | exact Keeps.refl | assumption

theorem keeps_execLdp {s : State} {x0 x1 : Nat} {x2 : Bool} : KeepsRes s (execLdp x0 x1 x2 s) := by
  unfold execLdp
  refine keeps_spnRun (fun _ _ _ h => ?_)
  refine keeps_jump (fun _ _ _ h => ?_) ?_
  · refine keeps_localAccess (fun _ _ _ _ h => ?_) ?_
    · refine keeps_setP ?_
      first | exact Keeps.refl | assumption
    · first | exact Keeps.refl | assumption
  · first | exact Keeps.refl | assumption

theorem keeps_execStp {s : State} {x0 x1 : Nat} {x2 : Bool} : KeepsRes s (execStp x0 x1 x2 s) := by
  unfold execStp
  refine keeps_spnRun (fun _ _ _ h => ?_)
  refine keeps_jump (fun _ _ _ h => ?_) ?_
  · refine keeps_localAccess (fun _ _ _ _ h => ?_) ?_
    · refine keeps_store ?_
      first | exact Keeps.refl | assumption
    · first | exact Keeps.refl | assumption
  · first | exact Keeps.refl | assumption

theorem keeps_remote {q : Bool} {a s : State} {x0 : List Word} {x1 : Nat} {x2 : SInstr} (h : Keeps q a s) : Keeps q a (remote x0 x1 x2 s) := by
  unfold remote
  refine Keeps.ite ?_ ?_
  · exact keeps_remoteGo (keeps_thrGo ‹_›)
  · exact keeps_thrNext ‹_›

theorem keeps_execRlds {s : State} {x0 x1 : Nat} {x2 : Bool} {x3 : List Word} : KeepsRes s (execRlds x0 x1 x2 x3 s) := by
  unfold execRlds
  refine keeps_spnRun (fun _ _ _ h => ?_)
  refine keeps_remote ?_
  first | exact Keeps.refl | assumption

theorem keeps_execRsts {s : State} {x0 x1 : Nat} {x2 : Bool} {x3 : List Word} : KeepsRes s (execRsts x0 x1 x2 x3 s) := by
  unfold execRsts
  refine keeps_spnRun (fun _ _ _ h => ?_)
  refine keeps_remote ?_
  first | exact Keeps.refl | assumption

theorem keeps_execRldv {s : State} {x0 x1 : Nat} {x2 : Bool} {x3 : List Word} : KeepsRes s (execRldv x0 x1 x2 x3 s) := by
  unfold execRldv
  refine keeps_spnRun (fun _ _ _ h => ?_)
  refine keeps_remote ?_
  first | exact Keeps.refl | assumption

theorem keeps_execRstv {s : State} {x0 x1 : Nat} {x2 : Bool} {x3 : List Word} : KeepsRes s (execRstv x0 x1 x2 x3 s) := by
  unfold execRstv
  refine keeps_spnRun (fun _ _ _ h => ?_)
  refine keeps_remote ?_
  first | exact Keeps.refl | assumption

theorem keeps_execRatom {s : State} {x0 x1 : Nat} {x2 : Bool} {x3 : List Word} : KeepsRes s (execRatom x0 x1 x2 x3 s) := by
  unfold execRatom
  refine keeps_spnRun (fun _ _ _ h => ?_)
  refine keeps_remote ?_
  first | exact Keeps.refl | assumption

theorem keeps_execRred {s : State} {x0 x1 : Nat} {x2 : Bool} {x3 : List Word} : KeepsRes s (execRred x0 x1 x2 x3 s) := by
  unfold execRred
  refine keeps_spnRun (fun _ _ _ h => ?_)
  refine keeps_remote ?_
  first | exact Keeps.refl | assumption

theorem keeps_execRmove {s : State} {x0 x1 : Nat} {x2 : Bool} {x3 : List Word} : KeepsRes s (execRmove x0 x1 x2 x3 s) := by
  unfold execRmove
  refine keeps_spnRun (fun _ _ _ h => ?_)
  refine keeps_remote ?_
  first | exact Keeps.refl | assumption

theorem keeps_execRfetch {s : State} {x0 x1 : Nat} {x2 : Bool} {x3 : List Word} : KeepsRes s (execRfetch x0 x1 x2 x3 s) := by
  unfold execRfetch
  refine keeps_spnRun (fun _ _ _ h => ?_)
  refine keeps_remote ?_
  first | exact Keeps.refl | assumption

theorem keeps_execRmcast {s : State} {x0 x1 : Nat} {x2 : Bool} {x3 : List Word} : KeepsRes s (execRmcast x0 x1 x2 x3 s) := by
  unfold execRmcast
  refine keeps_spnRun (fun _ _ _ h => ?_)
  refine keeps_remote ?_
  first | exact Keeps.refl | assumption

theorem keeps_exact {q : Bool} {a s : State} {x0 : SInstr → Nat} {x1 : Nat → SInstr → State → State} {x2 : Nat} {x3 : SInstr} (k1 : ∀ y0 y1 y2, Keeps q a y2 → Keeps q a (x1 y0 y1 y2)) (h : Keeps q a s) : Keeps q a (exact x0 x1 x2 x3 s) := by
  unfold exact
  refine Keeps.ite ?_ ?_
  · refine k1 _ _ _ ?_
    assumption
  · exact keeps_progError ‹_›

theorem keeps_setAcc {q : Bool} {a s : State} {x1 x2 : Nat} {x3 : List Lane} (h : Keeps q a s) : Keeps q a (State.setAcc s x1 x2 x3) := by
  unfold State.setAcc; exact Keeps.record ‹_›

theorem keeps_execXclr {s : State} {x0 x1 : Nat} {x2 : Bool} : KeepsRes s (execXclr x0 x1 x2 s) := by
  unfold execXclr
  refine keeps_spnRun (fun _ _ _ h => ?_)
  refine keeps_jump (fun _ _ _ h => ?_) ?_
  · refine keeps_exact (fun _ _ _ h => ?_) ?_
    · refine keeps_thrNext ?_
      refine keeps_setAcc ?_
      first | exact Keeps.refl | assumption
    · first | exact Keeps.refl | assumption
  · first | exact Keeps.refl | assumption

theorem keeps_xacc {q : Bool} {a s : State} {x0 : Nat} {x1 : SInstr} (h : Keeps q a s) : Keeps q a (xacc x0 x1 s) := by
  unfold xacc
  extract_lets +onlyGivenNames -merge k; try clear_value k
  extract_lets +onlyGivenNames -merge src; try clear_value src
  extract_lets +onlyGivenNames -merge f; try clear_value f
  extract_lets +onlyGivenNames -merge lane; try clear_value lane
  exact keeps_thrNext (keeps_setAcc ‹_›)

theorem keeps_execXacc {s : State} {x0 x1 : Nat} {x2 : Bool} : KeepsRes s (execXacc x0 x1 x2 s) := by
  unfold execXacc
  refine keeps_spnRun (fun _ _ _ h => ?_)
  refine keeps_jump (fun _ _ _ h => ?_) ?_
  · refine keeps_exact (fun _ _ _ h => ?_) ?_
    · refine keeps_xacc ?_
      first | exact Keeps.refl | assumption
    · first | exact Keeps.refl | assumption
  · first | exact Keeps.refl | assumption

theorem keeps_xnarr {q : Bool} {a s : State} {x0 : Nat} {x1 : SInstr} (h : Keeps q a s) : Keeps q a (xnarr x0 x1 s) := by
  unfold xnarr
  extract_lets +onlyGivenNames -merge k; try clear_value k
  split
  · extract_lets +onlyGivenNames -merge old; try clear_value old
    extract_lets +onlyGivenNames -merge new; try clear_value new
    exact keeps_thrNext (keeps_thrMod (keeps_setElems ‹_›))

theorem keeps_execXnarr {s : State} {x0 x1 : Nat} {x2 : Bool} : KeepsRes s (execXnarr x0 x1 x2 s) := by
  unfold execXnarr
  refine keeps_spnRun (fun _ _ _ h => ?_)
  refine keeps_jump (fun _ _ _ h => ?_) ?_
  · refine keeps_exact (fun _ _ _ h => ?_) ?_
    · refine keeps_xnarr ?_
      first | exact Keeps.refl | assumption
    · first | exact Keeps.refl | assumption
  · first | exact Keeps.refl | assumption

theorem keeps_execXseed {s : State} {x0 x1 : Nat} {x2 : Bool} : KeepsRes s (execXseed x0 x1 x2 s) := by
  unfold execXseed
  refine keeps_spnRun (fun _ _ _ h => ?_)
  refine keeps_whole (fun _ _ _ h => ?_) ?_
  · refine keeps_thrMod ?_
    first | exact Keeps.refl | assumption
  · first | exact Keeps.refl | assumption

theorem keeps_exactAccess {q : Bool} {a s : State} {x0 : Nat → SInstr → Nat → State → State} {x1 : Nat} {x2 : SInstr} (k0 : ∀ y0 y1 y2 y3, Keeps q a y3 → Keeps q a (x0 y0 y1 y2 y3)) (h : Keeps q a s) : Keeps q a (exactAccess x0 x1 x2 s) := by
  unfold exactAccess
  split
  · exact keeps_progError ‹_›
  · refine keeps_thrNext ?_
    refine k0 _ _ _ _ ?_
    assumption

theorem keeps_execXsave {s : State} {x0 x1 : Nat} {x2 : Bool} : KeepsRes s (execXsave x0 x1 x2 s) := by
  unfold execXsave
  refine keeps_spnRun (fun _ _ _ h => ?_)
  refine keeps_jump (fun _ _ _ h => ?_) ?_
  · refine keeps_exact (fun _ _ _ h => ?_) ?_
    · refine keeps_exactAccess (fun _ _ _ _ h => ?_) ?_
      · refine keeps_store ?_
        first | exact Keeps.refl | assumption
      · first | exact Keeps.refl | assumption
    · first | exact Keeps.refl | assumption
  · first | exact Keeps.refl | assumption

theorem keeps_execXrest {s : State} {x0 x1 : Nat} {x2 : Bool} : KeepsRes s (execXrest x0 x1 x2 s) := by
  unfold execXrest
  refine keeps_spnRun (fun _ _ _ h => ?_)
  refine keeps_jump (fun _ _ _ h => ?_) ?_
  · refine keeps_exact (fun _ _ _ h => ?_) ?_
    · refine keeps_exactAccess (fun _ _ _ _ h => ?_) ?_
      · refine keeps_setAcc ?_
        first | exact Keeps.refl | assumption
      · first | exact Keeps.refl | assumption
    · first | exact Keeps.refl | assumption
  · first | exact Keeps.refl | assumption

theorem keeps_execBr {s : State} {x0 x1 : Nat} {x2 : Bool} : KeepsRes s (execBr x0 x1 x2 s) := by
  unfold execBr
  refine keeps_spnRun (fun _ _ _ h => ?_)
  refine keeps_jump (fun _ _ _ h => ?_) ?_
  · refine keeps_thrPc ?_
    first | exact Keeps.refl | assumption
  · first | exact Keeps.refl | assumption

theorem keeps_execJr {s : State} {x0 x1 : Nat} {x2 : Bool} : KeepsRes s (execJr x0 x1 x2 s) := by
  unfold execJr
  refine keeps_spnRun (fun _ _ _ h => ?_)
  refine keeps_jump (fun _ _ _ h => ?_) ?_
  · refine keeps_thrPc ?_
    first | exact Keeps.refl | assumption
  · first | exact Keeps.refl | assumption

theorem keeps_execCall {s : State} {x0 x1 : Nat} {x2 : Bool} : KeepsRes s (execCall x0 x1 x2 s) := by
  unfold execCall
  refine keeps_spnRun (fun _ _ _ h => ?_)
  refine keeps_jump (fun _ _ _ h => ?_) ?_
  · refine keeps_thrPc ?_
    refine keeps_setS ?_
    first | exact Keeps.refl | assumption
  · first | exact Keeps.refl | assumption

theorem keeps_execWaitc {s : State} {x0 x1 : Nat} {x2 : Bool} : KeepsRes s (execWaitc x0 x1 x2 s) := by
  unfold execWaitc
  refine keeps_spnRun (fun _ _ _ h => ?_)
  refine keeps_jump (fun _ _ _ h => ?_) ?_
  · refine Keeps.ite ?_ ?_
    · refine keeps_progError ?_
      first | exact Keeps.refl | assumption
    · refine keeps_thrGo ?_
      first | exact Keeps.refl | assumption
  · first | exact Keeps.refl | assumption

theorem keeps_execYield {s : State} {x0 x1 : Nat} {x2 : Bool} : KeepsRes s (execYield x0 x1 x2 s) := by
  unfold execYield
  refine keeps_spnRun (fun _ _ _ h => ?_)
  refine keeps_thrNext ?_
  first | exact Keeps.refl | assumption

theorem keeps_execHalt {s : State} {x0 x1 : Nat} {x2 : Bool} : KeepsRes s (execHalt x0 x1 x2 s) := by
  unfold execHalt
  refine keeps_spnRun (fun _ _ _ h => ?_)
  refine keeps_jump (fun _ _ _ h => ?_) ?_
  · refine keeps_thrSet ?_
    refine keeps_thrEnd ?_
    first | exact Keeps.refl | assumption
  · first | exact Keeps.refl | assumption

theorem keeps_execNopInstruction {s : State} {x0 x1 : Nat} {x2 : Bool} : KeepsRes s (execNopInstruction x0 x1 x2 s) := by
  unfold execNopInstruction
  refine keeps_spnRun (fun _ _ _ h => ?_)
  refine keeps_thrNext ?_
  first | exact Keeps.refl | assumption

theorem keeps_execToArm {s : State} {x0 x1 : Nat} : KeepsRes s (execToArm x0 x1 s) := by
  unfold execToArm
  refine KeepsRes.next ?_
  refine Keeps.ite ?_ ?_
  · refine keeps_toArm ?_
    first | exact Keeps.refl | assumption
  · first | exact Keeps.refl | assumption

theorem keeps_execToDisarm {s : State} {x0 x1 : Nat} : KeepsRes s (execToDisarm x0 x1 s) := by
  unfold execToDisarm
  refine KeepsRes.next ?_
  refine Keeps.ite ?_ ?_
  · refine keeps_toDisarm ?_
    first | exact Keeps.refl | assumption
  · first | exact Keeps.refl | assumption

theorem keeps_execNctrAdd {s : State} {x0 x1 x2 : Nat} : KeepsRes s (execNctrAdd x0 x1 x2 s) := by
  unfold execNctrAdd
  refine KeepsRes.next ?_
  refine Keeps.ite ?_ ?_
  · refine keeps_ctrAdd ?_
    first | exact Keeps.refl | assumption
  · first | exact Keeps.refl | assumption

theorem keeps_opLost {a s : State} {s2 : State} {x2 : Nat} (h : Keeps false a s) (h2 : Keeps false a s2) : Keeps false a (State.opLost s s2 x2) := by
  unfold State.opLost
  extract_lets +onlyGivenNames -merge fresh; try clear_value fresh
  refine Keeps.each ?_ (fun _ _ h => ?_)
  · assumption
  · exact keeps_errLater (keeps_epbMod ‹_›)

theorem keeps_toStart {q : Bool} {a s : State} {x1 x2 : Nat} (h : Keeps q a s) : Keeps q a (State.toStart s x1 x2) := by
  unfold State.toStart
  extract_lets +onlyGivenNames -merge m; try clear_value m
  extract_lets +onlyGivenNames -merge s1
  have _ : Keeps q a s1 := by unfold s1; exact keeps_fwrap (keeps_fset ‹_›)
  try clear_value s1
  refine Keeps.ite ?_ ?_
  · exact keeps_toOk ‹_›
  · extract_lets +onlyGivenNames -merge dead; try clear_value dead
    refine Keeps.ite ?_ ?_
    · split
      · rename_i heq
        have := KeepsR.eq heq (show KeepsR q a _ from by
          exact keeps_faultRec ‹_›
          )
        exact keeps_niStat (keeps_epbMod ‹_›)
    · exact keeps_niStat (keeps_epbMod ‹_›)

theorem keeps_niStart {q : Bool} {a s : State} {x1 : Nat} (h : Keeps q a s) : Keeps q a (State.niStart s x1) := by
  unfold State.niStart
  refine Keeps.ite ?_ ?_
  · assumption
  · split
    · exact keeps_niStat (keeps_epbMod ‹_›)
    · split
      · assumption
      · exact keeps_toStart (keeps_epbMod ‹_›)

theorem keeps_execTriggeredOpStart {s : State} {x0 : Nat} {x1 : Bool} : KeepsRes s (execTriggeredOpStart x0 x1 s) := by
  unfold execTriggeredOpStart
  refine keeps_settled ?_
  refine Keeps.ite ?_ ?_
  · refine keeps_opLost ?_ ?_
    · first | exact Keeps.refl | assumption
    · refine keeps_niStart ?_
      first | exact Keeps.refl | assumption
  · refine keeps_niStart ?_
    first | exact Keeps.refl | assumption

theorem keeps_niEnd {q : Bool} {a s : State} {x1 x2 : Nat} (h : Keeps q a s) : Keeps q a (State.niEnd s x1 x2) := by
  unfold State.niEnd
  split
  · assumption
  · refine Keeps.ite ?_ ?_
    · split
      · rename_i heq
        have := KeepsRR.eq heq (show KeepsRR q a _ from by
          exact keeps_moverFault ‹_›
          )
        exact keeps_toFail ‹_›
    · refine Keeps.ite ?_ ?_
      · exact keeps_toOk ‹_›
      · refine Keeps.ite ?_ ?_
        · split
          · rename_i heq
            have := KeepsR.eq heq (show KeepsR q a _ from by
              exact keeps_moverPark ‹_›
              )
            extract_lets +onlyGivenNames -merge s2
            have _ : Keeps q a s2 := by unfold s2; exact keeps_epbMod ‹_›
            try clear_value s2
            exact keeps_niStat (keeps_ringShow (keeps_fset ‹_›))
        · assumption

theorem keeps_execTriggeredOpComplete {s : State} {x0 x1 : Nat} : KeepsRes s (execTriggeredOpComplete x0 x1 s) := by
  unfold execTriggeredOpComplete
  refine KeepsRes.next ?_
  refine keeps_niEnd ?_
  first | exact Keeps.refl | assumption

theorem keeps_toWatchdog {q : Bool} {a s : State} {x1 x2 : Nat} (h : Keeps q a s) : Keeps q a (State.toWatchdog s x1 x2) := by
  unfold State.toWatchdog
  extract_lets +onlyGivenNames -merge due; try clear_value due
  refine Keeps.ite ?_ ?_
  · exact keeps_errRec (keeps_toFail (keeps_stir ‹_›))
  · assumption

theorem keeps_execToWatchdog {s : State} {x0 x1 : Nat} : KeepsRes s (execToWatchdog x0 x1 s) := by
  unfold execToWatchdog
  refine KeepsRes.next ?_
  refine Keeps.ite ?_ ?_
  · refine keeps_toWatchdog ?_
    first | exact Keeps.refl | assumption
  · first | exact Keeps.refl | assumption

theorem keeps_granuleDrained {q : Bool} {a s : State} {x1 x2 : Nat} (h : Keeps q a s) : Keeps q a (State.granuleDrained s x1 x2) := by
  unfold State.granuleDrained
  extract_lets +onlyGivenNames -merge q'; try clear_value q'
  exact Keeps.record ‹_›

theorem keeps_execGranuleDrained {s : State} {x0 x1 : Nat} : KeepsRes s (execGranuleDrained x0 x1 s) := by
  unfold execGranuleDrained
  refine KeepsRes.next ?_
  refine Keeps.ite ?_ ?_
  · refine keeps_granuleDrained ?_
    first | exact Keeps.refl | assumption
  · first | exact Keeps.refl | assumption

theorem keeps_granuleZeroed {q : Bool} {a s : State} {x1 x2 : Nat} (h : Keeps q a s) : Keeps q a (State.granuleZeroed s x1 x2) := by
  unfold State.granuleZeroed
  extract_lets +onlyGivenNames -merge q'; try clear_value q'
  extract_lets +onlyGivenNames -merge _ s1
  have _ : Keeps q a s1 := by
    unfold s1
    refine Keeps.ite ?_ ?_
    · exact keeps_regionShow (keeps_hbmZero (Keeps.record ‹_›))
    · assumption
  try clear_value s1
  exact keeps_regionTry ‹_›

theorem keeps_execGranuleZeroed {s : State} {x0 x1 : Nat} : KeepsRes s (execGranuleZeroed x0 x1 s) := by
  unfold execGranuleZeroed
  refine KeepsRes.next ?_
  refine Keeps.ite ?_ ?_
  · refine keeps_granuleZeroed ?_
    first | exact Keeps.refl | assumption
  · first | exact Keeps.refl | assumption

theorem keeps_lineAge {q : Bool} {a s : State} {x1 : Nat} (h : Keeps q a s) : Keeps q a (State.lineAge s x1) := by
  unfold State.lineAge
  refine Keeps.ite ?_ ?_
  · exact keeps_setLine ‹_›
  · assumption

theorem keeps_scrubStep {q : Bool} {a s : State} {x1 : Nat} (h : Keeps q a s) : Keeps q a (State.scrubStep s x1) := by
  unfold State.scrubStep
  extract_lets +onlyGivenNames -merge pos; try clear_value pos
  extract_lets +onlyGivenNames -merge n; try clear_value n
  refine Keeps.ite ?_ ?_
  · assumption
  · refine Keeps.ite ?_ ?_
    · exact keeps_fset (keeps_touch (keeps_lineAge (keeps_stir ‹_›)))
    · exact keeps_fset ‹_›

theorem keeps_execScrubStep {s : State} {x0 : Nat} : KeepsRes s (execScrubStep x0 s) := by
  unfold execScrubStep
  refine KeepsRes.next ?_
  refine Keeps.ite ?_ ?_
  · refine keeps_scrubStep ?_
    first | exact Keeps.refl | assumption
  · first | exact Keeps.refl | assumption

theorem keeps_zeroFillDone {q : Bool} {a s : State} {x1 : Nat} (h : Keeps q a s) : Keeps q a (State.zeroFillDone s x1) := by
  unfold State.zeroFillDone
  refine Keeps.ite ?_ ?_
  · exact Keeps.record ‹_›
  · assumption

theorem keeps_execControllerZeroFillDone {s : State} {x0 : Nat} : KeepsRes s (execControllerZeroFillDone x0 s) := by
  unfold execControllerZeroFillDone
  refine KeepsRes.next ?_
  refine Keeps.ite ?_ ?_
  · refine keeps_zeroFillDone ?_
    first | exact Keeps.refl | assumption
  · first | exact Keeps.refl | assumption

theorem keeps_pageProgram {q : Bool} {a s : State} {x1 x2 : Nat} {x3 : RickObj} {x4 : List Byte} (h : Keeps q a s) : Keeps q a (State.pageProgram s x1 x2 x3 x4) := by
  unfold State.pageProgram
  extract_lets +onlyGivenNames -merge ch; try clear_value ch
  extract_lets +onlyGivenNames -merge c; try clear_value c
  extract_lets +onlyGivenNames -merge b; try clear_value b
  extract_lets +onlyGivenNames -merge p; try clear_value p
  exact Keeps.record ‹_›

theorem keeps_unitPut {q : Bool} {a s : State} {x1 : RickCmd} {x2 : Option (List Byte)} {x3 : Option RickObj} (h : Keeps q a s) : KeepsL q a (State.unitPut s x1 x2 x3) := by
  unfold State.unitPut
  split
  · extract_lets +onlyGivenNames -merge e; try clear_value e
    exact KeepsL.mk (keeps_fdec (keeps_objPut (keeps_pageProgram ‹_›)))
  · exact KeepsL.mk ‹_›

theorem keeps_unitAppend {q : Bool} {a s : State} {x1 : RickCmd} (h : Keeps q a s) : KeepsL q a (State.unitAppend s x1) := by
  unfold State.unitAppend
  extract_lets +onlyGivenNames -merge a'; try clear_value a'
  exact keeps_unitPut (keeps_poolTouch ‹_›)

theorem keeps_unitsAppend {q : Bool} {a : State} (n : Nat) : ∀ {s : State} {x : RickCmd}, Keeps q a s → KeepsL q a (State.unitsAppend s x n) := by
  induction n with
  | zero => intro s x h; exact h
  | succ n ih => intro s x h; exact KeepsL.ite (KeepsL.mk h) (ih (KeepsL.out (keeps_unitAppend h)))

theorem keeps_rickEnd {q : Bool} {a s : State} {x1 : RickCmd} {x2 : Nat} {x3 : List Word} (h : Keeps q a s) : Keeps q a (State.rickEnd s x1 x2 x3) := by
  unfold State.rickEnd
  extract_lets +onlyGivenNames -merge len; try clear_value len
  extract_lets +onlyGivenNames -merge _ s1
  have _ : Keeps q a s1 := by unfold s1; exact Keeps.record ‹_›
  try clear_value s1
  exact keeps_completeTicket (keeps_journalPut ‹_›)

theorem keeps_rickWriteEnd {q : Bool} {a s : State} {x1 : RickCmd} (h : Keeps q a s) : Keeps q a (State.rickWriteEnd s x1) := by
  unfold State.rickWriteEnd
  split
  · rename_i heq
    have := KeepsL.eq heq (show KeepsL q a _ from by
      exact keeps_unitsAppend _ ‹_›
      )
    exact keeps_rickEnd ‹_›

theorem keeps_manifestProgram {q : Bool} {a s : State} {x1 : Nat} {x2 : RickObj} {x3 : List Byte} (h : Keeps q a s) : Keeps q a (State.manifestProgram s x1 x2 x3) := by
  unfold State.manifestProgram
  refine Keeps.each ?_ (fun _ _ h => ?_)
  · assumption
  · extract_lets +onlyGivenNames -merge d; try clear_value d
    exact keeps_pageProgram ‹_›

theorem keeps_objSeal {q : Bool} {a s : State} {x1 : Nat} {x2 : RickObj} {x3 : List Byte} (h : Keeps q a s) : Keeps q a (State.objSeal s x1 x2 x3) := by
  unfold State.objSeal
  extract_lets +onlyGivenNames -merge v; try clear_value v
  extract_lets +onlyGivenNames -merge y; try clear_value y
  extract_lets +onlyGivenNames -merge s1
  have _ : Keeps q a s1 := by unfold s1; exact keeps_fdec (keeps_objPut (keeps_manifestProgram ‹_›))
  try clear_value s1
  exact keeps_measure ‹_›

theorem keeps_rickSealEnd {q : Bool} {a s : State} {x1 : RickCmd} (h : Keeps q a s) : Keeps q a (State.rickSealEnd s x1) := by
  unfold State.rickSealEnd
  extract_lets +onlyGivenNames -merge s1
  have _ : Keeps q a s1 := by unfold s1; exact keeps_poolTouch ‹_›
  try clear_value s1
  split
  · refine Keeps.ite ?_ ?_
    · exact keeps_rickEnd ‹_›
    · refine Keeps.ite ?_ ?_
      · exact keeps_rickEnd ‹_›
      · exact keeps_rickEnd (keeps_objSeal ‹_›)
  · exact keeps_rickEnd ‹_›

theorem keeps_unitUe {q : Bool} {a s : State} {x1 x2 : Nat} (h : Keeps q a s) : Keeps q a (State.unitUe s x1 x2) := by
  unfold State.unitUe
  split
  · assumption
  · extract_lets +onlyGivenNames -merge s1
    have _ : Keeps q a s1 := by unfold s1; exact keeps_objPut ‹_›
    try clear_value s1
    exact keeps_errRec (keeps_fsat ‹_›)

theorem keeps_unitCopy {q : Bool} {a s : State} {x1 : RickCmd} {x2 : RickObj} {x3 : List Nat} {x4 : Nat} (h : Keeps q a s) : KeepsL q a (State.unitCopy s x1 x2 x3 x4) := by
  unfold State.unitCopy
  extract_lets +onlyGivenNames -merge n; try clear_value n
  extract_lets +onlyGivenNames -merge a'; try clear_value a'
  extract_lets +onlyGivenNames -merge k; try clear_value k
  refine KeepsL.ite ?_ ?_
  · extract_lets +onlyGivenNames -merge s1
    have _ : Keeps q a s1 := by unfold s1; exact keeps_unitUe ‹_›
    try clear_value s1
    split
    · exact KeepsL.mk (keeps_storePoison ‹_›)
    · exact KeepsL.mk ‹_›
  · exact keeps_internalWrite ‹_›

theorem keeps_rickReadEnd {q : Bool} {a s : State} {x1 : RickCmd} {x2 : List Nat} (h : Keeps q a s) : Keeps q a (State.rickReadEnd s x1 x2) := by
  unfold State.rickReadEnd; dsimp only
  split
  · exact keeps_rickEnd h
  · exact keeps_rickEnd (KeepsL.out (KeepsL.foldl _ (fun _ _ k => KeepsL.mk (KeepsL.out (keeps_unitCopy k))) (KeepsL.mk h)))

theorem keeps_chanErase {q : Bool} {a s : State} {x1 : Nat} {x2 : RickObj} {x3 : List Nat} {x4 : Nat} (h : Keeps q a s) : Keeps q a (State.chanErase s x1 x2 x3 x4) := by
  unfold State.chanErase
  extract_lets +onlyGivenNames -merge c; try clear_value c
  extract_lets +onlyGivenNames -merge ps; try clear_value ps
  extract_lets +onlyGivenNames -merge mine; try clear_value mine
  extract_lets +onlyGivenNames -merge lost; try clear_value lost
  extract_lets +onlyGivenNames -merge gone; try clear_value gone
  extract_lets +onlyGivenNames -merge free; try clear_value free
  extract_lets +onlyGivenNames -merge c1; try clear_value c1
  exact keeps_fsat (keeps_fsat (Keeps.record ‹_›))

theorem keeps_rickDeleteEnd {q : Bool} {a s : State} {x1 : RickCmd} {x2 : List Nat} (h : Keeps q a s) : Keeps q a (State.rickDeleteEnd s x1 x2) := by
  unfold State.rickDeleteEnd
  split
  · exact keeps_rickEnd ‹_›
  · extract_lets +onlyGivenNames -merge s1
    have _ : Keeps q a s1 := by
      unfold s1
      refine Keeps.each ?_ (fun _ _ h => ?_)
      · assumption
      · exact keeps_chanErase ‹_›
    try clear_value s1
    extract_lets +onlyGivenNames -merge _ s2
    have _ : Keeps q a s2 := by unfold s2; exact Keeps.record ‹_›
    try clear_value s2
    exact keeps_rickEnd (keeps_objShow ‹_›)

theorem keeps_rickComplete {q : Bool} {a s : State} {x1 : Nat} {x2 : List Nat} (h : Keeps q a s) : Keeps q a (State.rickComplete s x1 x2) := by
  unfold State.rickComplete
  split
  · assumption
  · refine Keeps.ite ?_ ?_
    · assumption
    · refine Keeps.ite ?_ ?_
      · exact keeps_rickWriteEnd ‹_›
      · refine Keeps.ite ?_ ?_
        · exact keeps_rickSealEnd ‹_›
        · refine Keeps.ite ?_ ?_
          · exact keeps_rickReadEnd ‹_›
          · exact keeps_rickDeleteEnd ‹_›

theorem keeps_execRickCmdComplete {s : State} {x0 : Nat} {x1 : List Nat} : KeepsRes s (execRickCmdComplete x0 x1 s) := by
  unfold execRickCmdComplete
  refine KeepsRes.next ?_
  refine keeps_rickComplete ?_
  first | exact Keeps.refl | assumption

theorem keeps_programFail {q : Bool} {a s : State} {x1 x2 x3 : Nat} (h : Keeps q a s) : Keeps q a (State.programFail s x1 x2 x3) := by
  unfold State.programFail
  refine Keeps.ite ?_ ?_
  · assumption
  · extract_lets +onlyGivenNames -merge _ s1
    have _ : Keeps q a s1 := by unfold s1; exact Keeps.record ‹_›
    try clear_value s1
    exact keeps_errRec (keeps_fdec (keeps_fsat ‹_›))

theorem keeps_execNandProgramFail {s : State} {x0 x1 x2 : Nat} : KeepsRes s (execNandProgramFail x0 x1 x2 s) := by
  unfold execNandProgramFail
  refine KeepsRes.next ?_
  refine keeps_programFail ?_
  first | exact Keeps.refl | assumption

theorem keeps_fillBillet {q : Bool} {a s : State} {x1 : Nat} {x2 : RickObj} {x3 : Nat} {x4 : List Nat} {x5 : Nat} (h : Keeps q a s) : KeepsL q a (State.fillBillet s x1 x2 x3 x4 x5) := by
  unfold State.fillBillet
  extract_lets +onlyGivenNames -merge lost; try clear_value lost
  refine KeepsL.ite ?_ ?_
  · extract_lets +onlyGivenNames -merge d; try clear_value d
    extract_lets +onlyGivenNames -merge off; try clear_value off
    extract_lets +onlyGivenNames -merge s1
    have _ : Keeps q a s1 := by
      unfold s1
      split
      · exact KeepsL.out (keeps_storeLines ‹_›)
      · assumption
    try clear_value s1
    exact KeepsL.mk ‹_›
  · refine KeepsL.mk ?_
    refine Keeps.each ?_ (fun _ _ h => ?_)
    · assumption
    · exact keeps_unitUe ‹_›

theorem keeps_billetBad {q : Bool} {a s : State} {x1 x2 : Nat} (h : Keeps q a s) : Keeps q a (State.billetBad s x1 x2) := by
  unfold State.billetBad; exact keeps_errRec (keeps_fsat ‹_›)

theorem keeps_fillComplete {q : Bool} {a s : State} {x1 : Nat} {x2 : List Nat} (h : Keeps q a s) : Keeps q a (State.fillComplete s x1 x2) := by
  unfold State.fillComplete; dsimp only
  split
  · split
    · exact h
    · refine Keeps.ite h (keeps_rsvRetry (keeps_rsvShow (keeps_fsat (Keeps.record (KeepsL.out (KeepsL.foldl _ (fun _ _ k => ?_) (KeepsL.mk h)))))))
      exact KeepsL.ite (KeepsL.mk (keeps_billetBad (KeepsL.out (keeps_fillBillet k)))) (KeepsL.mk (KeepsL.out (keeps_fillBillet k)))
  · exact h

theorem keeps_execFillComplete {s : State} {x0 : Nat} {x1 : List Nat} : KeepsRes s (execFillComplete x0 x1 s) := by
  unfold execFillComplete
  refine KeepsRes.next ?_
  refine keeps_fillComplete ?_
  first | exact Keeps.refl | assumption

theorem keeps_heatHalve {q : Bool} {a s : State} (h : Keeps q a s) : Keeps q a (State.heatHalve s) := by
  unfold State.heatHalve
  refine Keeps.ite ?_ ?_
  · assumption
  · exact Keeps.record ‹_›

theorem keeps_execRsvHeatPeriod {s : State} : KeepsRes s (execRsvHeatPeriod s) := by
  unfold execRsvHeatPeriod
  refine KeepsRes.next ?_
  refine keeps_heatHalve ?_
  first | exact Keeps.refl | assumption

theorem keeps_promote {q : Bool} {a : State} {p : State × Nat} {e : RsvWay} (h : KeepsL q a p) : KeepsL q a (State.promote p e) := by
  unfold State.promote; dsimp only
  refine KeepsL.ite h ?_
  split
  · exact KeepsL.mk (keeps_fillStart h)
  · exact h

theorem keeps_promotionScan {q : Bool} {a s : State} (h : Keeps q a s) : Keeps q a (State.promotionScan s) :=
  Keeps.ite h (KeepsL.out (KeepsL.foldl _ (fun _ _ k => keeps_promote k) (KeepsL.mk h)))

theorem keeps_execPromotionScan {s : State} : KeepsRes s (execPromotionScan s) := by
  unfold execPromotionScan
  refine KeepsRes.next ?_
  refine keeps_promotionScan ?_
  first | exact Keeps.refl | assumption

theorem keeps_poolWord {q : Bool} {a s : State} {x1 : Nat} (h : Keeps q a s) : KeepsR q a (State.poolWord s x1) := by
  unfold State.poolWord
  split
  · exact KeepsR.mk (keeps_internalTouch ‹_›)
  · exact KeepsR.mk (keeps_internalTouch ‹_›)

theorem keeps_selWord {q : Bool} {a s : State} {x1 : Strm} {x2 : Nat} (h : Keeps q a s) : KeepsR q a (State.selWord s x1 x2) := by
  unfold State.selWord
  refine KeepsR.ite ?_ ?_
  · exact KeepsR.mk ‹_›
  · exact keeps_poolWord ‹_›

theorem keeps_strmFail {q : Bool} {a s : State} {x1 : Nat} {x2 : Strm} {x3 : Nat} (h : Keeps q a s) : Keeps q a (State.strmFail s x1 x2 x3) := by
  unfold State.strmFail; exact keeps_fset (keeps_fault ‹_›)

theorem keeps_layer {q : Bool} {a : State} {t : Nat} (n : Nat) : ∀ {s : State} {k : Nat} {l : List (Word × Word)}, Keeps q a s → KeepsR q a (State.layer s t k l n) := by
  induction n with
  | zero => intro s k l h; exact h
  | succ n ih =>
    intro s k l h; unfold State.layer; split <;> rename_i e
    · exact KeepsR.mk (KeepsR.eq e (keeps_poolWord h))
    · have h1 := KeepsR.eq e (keeps_poolWord h)
      split <;> rename_i f
      · exact KeepsR.mk (KeepsR.eq f (keeps_poolWord h1))
      · have h2 := KeepsR.eq f (keeps_poolWord h1)
        exact KeepsR.ite (KeepsR.mk h2) (KeepsR.ite (KeepsR.mk h2) (ih h2))

theorem keeps_heatDemand {q : Bool} {a s : State} {x1 x2 : Nat} (h : Keeps q a s) : Keeps q a (State.heatDemand s x1 x2) := by
  unfold State.heatDemand; dsimp only
  split <;> exact Keeps.record h

theorem keeps_pinPage {q : Bool} {a s : State} {x1 : Pin} (h : Keeps q a s) : Keeps q a (State.pinPage s x1) := by
  unfold State.pinPage; exact keeps_rsvShow (keeps_rsvDemand _ (keeps_heatDemand (Keeps.record ‹_›)))

theorem keeps_pinPart {q : Bool} {a s : State} {x1 x2 : Nat} {x3 : Strm} {x4 : Word} {x5 : (Word × Word) × Nat} (h : Keeps q a s) : Keeps q a (State.pinPart s x1 x2 x3 x4 x5) := by
  unfold State.pinPart
  extract_lets +onlyGivenNames -merge bsize; try clear_value bsize
  refine Keeps.ite ?_ ?_
  · refine Keeps.each ?_ (fun _ _ h => ?_)
    · assumption
    · exact keeps_pinPage ‹_›
  · assumption

theorem keeps_pinParts {q : Bool} {a s : State} {x1 x2 : Nat} {x3 : Strm} {x4 : Word} {x5 : List ((Word × Word) × Nat)} (h : Keeps q a s) : Keeps q a (State.pinParts s x1 x2 x3 x4 x5) := by
  unfold State.pinParts
  refine Keeps.each ?_ (fun _ _ h => ?_)
  · assumption
  · exact keeps_pinPart ‹_›

theorem keeps_readAhead {q : Bool} {a : State} {i : Nat} {x : Strm} (n : Nat) : ∀ {s : State} {j k : Nat}, Keeps q a s → Keeps q a (State.readAhead s i x j k n) := by
  induction n with
  | zero => intro s j k h; exact h
  | succ n ih =>
    intro s j k h; unfold State.readAhead; refine Keeps.ite h ?_
    split <;> rename_i e
    · exact keeps_strmFail (KeepsR.eq e (keeps_layer _ h))
    · have h1 := KeepsR.eq e (keeps_layer _ h)
      split <;> rename_i f
      · exact keeps_strmFail (KeepsR.eq f (keeps_selWord h1))
      · have h2 := KeepsR.eq f (keeps_selWord h1)
        exact ih (Keeps.ite h2 (keeps_pinParts h2))

theorem keeps_seqCurrent {q : Bool} {a s : State} {x1 : Nat} (h : Keeps q a s) : Keeps q a (State.seqCurrent s x1) := by
  unfold State.seqCurrent
  extract_lets +onlyGivenNames -merge x'; try clear_value x'
  refine Keeps.ite ?_ ?_
  · assumption
  · split
    · rename_i heq
      have := KeepsR.eq heq (show KeepsR q a _ from by
        exact keeps_selWord ‹_›
        )
      exact keeps_strmFail ‹_›
    · rename_i heq
      have := KeepsR.eq heq (show KeepsR q a _ from by
        exact keeps_selWord ‹_›
        )
      split
      · rename_i heq
        have := KeepsR.eq heq (show KeepsR q a _ from by
          exact keeps_layer _ ‹_›
          )
        exact keeps_strmFail ‹_›
      · rename_i heq
        have := KeepsR.eq heq (show KeepsR q a _ from by
          exact keeps_layer _ ‹_›
          )
        extract_lets +onlyGivenNames -merge y; try clear_value y
        extract_lets +onlyGivenNames -merge s3
        have _ : Keeps q a s3 := by unfold s3; exact keeps_fset (keeps_fset (keeps_strmPut ‹_›))
        try clear_value s3
        extract_lets +onlyGivenNames -merge fresh; try clear_value fresh
        extract_lets +onlyGivenNames -merge s4
        have _ : Keeps q a s4 := by unfold s4; exact keeps_pinParts ‹_›
        try clear_value s4
        exact keeps_readAhead _ (keeps_rsvRetry ‹_›)

theorem keeps_execSequenceCurrent {s : State} {x0 : Nat} : KeepsRes s (execSequenceCurrent x0 s) := by
  unfold execSequenceCurrent
  refine KeepsRes.next ?_
  refine Keeps.ite ?_ ?_
  · refine keeps_seqCurrent ?_
    first | exact Keeps.refl | assumption
  · first | exact Keeps.refl | assumption

theorem keeps_billetNone {q : Bool} {a s : State} {x1 x2 : Nat} (h : Keeps q a s) : KeepsE q a (State.billetNone s x1 x2) := by
  unfold State.billetNone; exact KeepsE.mk ‹_›

theorem keeps_billetDecode {q : Bool} {a s : State} {x1 : Strm} {x2 x3 x4 : Nat} {x5 : List Byte} (h : Keeps q a s) : KeepsE q a (State.billetDecode s x1 x2 x3 x4 x5) := by
  unfold State.billetDecode
  refine KeepsE.ite ?_ ?_
  · exact keeps_billetNone ‹_›
  · extract_lets +onlyGivenNames -merge d; try clear_value d
    exact KeepsE.mk (keeps_fsat (keeps_fsat (keeps_fsat ‹_›)))

theorem keeps_billetRead {q : Bool} {a s : State} {x1 : Strm} {x2 x3 x4 x5 x6 : Nat} (h : Keeps q a s) : KeepsE q a (State.billetRead s x1 x2 x3 x4 x5 x6) := by
  unfold State.billetRead
  refine KeepsE.ite ?_ ?_
  · exact keeps_billetNone (keeps_touch ‹_›)
  · exact keeps_billetDecode (keeps_touch ‹_›)

theorem keeps_billetEmit {q : Bool} {a s : State} {x1 : Strm} {x2 : RickObj} {x3 : Nat} (h : Keeps q a s) : KeepsE q a (State.billetEmit s x1 x2 x3) := by
  unfold State.billetEmit
  extract_lets out n
  refine KeepsE.elim (keeps_billetNone h) (fun y => KeepsE.elim (keeps_billetNone h) (fun b => ?_))
  exact KeepsE.ite (keeps_billetNone h) (keeps_billetRead h)

theorem keeps_partStores {q : Bool} {a s : State} {i k : Nat} {x : Strm} {o : RickObj} {p : Word × Word} (h : Keeps q a s) : KeepsL q a (State.partStores s i k x o p) := by
  unfold State.partStores; dsimp only
  exact KeepsL.mk (KeepsL.out (KeepsL.foldl _ (fun _ _ k => KeepsL.mk (KeepsE.out (keeps_billetEmit k))) (KeepsL.mk h)))

theorem keeps_partGo {q : Bool} {a s : State} {x1 : Nat} {x2 : Strm} {x3 : RickObj} {x4 : Nat} {x5 : Word × Word} (h : Keeps q a s) : Keeps q a (State.partGo s x1 x2 x3 x4 x5) := by
  unfold State.partGo
  split
  · rename_i heq
    have := KeepsL.eq heq (show KeepsL q a _ from by
      exact keeps_partStores ‹_›
      )
    extract_lets +onlyGivenNames -merge y; try clear_value y
    extract_lets +onlyGivenNames -merge s2
    have _ : Keeps q a s2 := by unfold s2; exact keeps_fsat (keeps_strmPut ‹_›)
    try clear_value s2
    extract_lets +onlyGivenNames -merge s3
    have _ : Keeps q a s3 := by
      unfold s3
      refine Keeps.each ?_ (fun _ _ h => ?_)
      · assumption
      · exact keeps_submit ‹_›
    try clear_value s3
    exact keeps_rsvRetry (keeps_unpin ‹_›)

theorem keeps_partEmit {q : Bool} {a s : State} {x1 : Nat} (h : Keeps q a s) : Keeps q a (State.partEmit s x1) := by
  unfold State.partEmit
  extract_lets +onlyGivenNames -merge x'; try clear_value x'
  split
  · refine Keeps.ite ?_ ?_
    · assumption
    · refine Keeps.ite ?_ ?_
      · exact keeps_strmFail ‹_›
      · exact keeps_partGo ‹_›
  · assumption

end Sys2Proof.Machine
end

