-- ==== Sys2Proof/Laws/KeepsD.lean ====
section
/-! SUPPORT. What every operation keeps, part 4 of 4: the operations in the order in which they call each other. -/

namespace Sys2Proof.Machine
open Sys2Proof

theorem keeps_execPartEmit {s : State} {x0 : Nat} : KeepsRes s (execPartEmit x0 s) := by
  unfold execPartEmit
  refine KeepsRes.next ?_
  refine Keeps.ite ?_ ?_
  · refine keeps_partEmit ?_
    first | exact Keeps.refl | assumption
  · first | exact Keeps.refl | assumption

theorem keeps_selClear {q : Bool} {a s : State} {x1 : Strm} (h : Keeps q a s) : Keeps q a (State.selClear s x1) := by
  unfold State.selClear
  refine Keeps.ite ?_ ?_
  · assumption
  · exact KeepsL.out (keeps_internalWrite ‹_›)

theorem keeps_seqDone {q : Bool} {a s : State} {x1 : Nat} (h : Keeps q a s) : Keeps q a (State.seqDone s x1) := by
  unfold State.seqDone
  extract_lets +onlyGivenNames -merge x'; try clear_value x'
  refine Keeps.ite ?_ ?_
  · assumption
  · extract_lets +onlyGivenNames -merge last; try clear_value last
    extract_lets +onlyGivenNames -merge s1
    have _ : Keeps q a s1 := by unfold s1; exact keeps_unpin (keeps_strmPut (keeps_selClear ‹_›))
    try clear_value s1
    extract_lets +onlyGivenNames -merge s2
    have _ : Keeps q a s2 := by
      unfold s2
      refine Keeps.ite ?_ ?_
      · exact keeps_fset (keeps_fset ‹_›)
      · assumption
    try clear_value s2
    exact keeps_rsvRetry ‹_›

theorem keeps_execSequenceDone {s : State} {x0 : Nat} : KeepsRes s (execSequenceDone x0 s) := by
  unfold execSequenceDone
  refine KeepsRes.next ?_
  refine Keeps.ite ?_ ?_
  · refine keeps_seqDone ?_
    first | exact Keeps.refl | assumption
  · first | exact Keeps.refl | assumption

theorem keeps_strmDrained {q : Bool} {a s : State} {x1 : Nat} (h : Keeps q a s) : Keeps q a (State.strmDrained s x1) := by
  unfold State.strmDrained
  extract_lets +onlyGivenNames -merge st; try clear_value st
  refine Keeps.ite ?_ ?_
  · assumption
  · extract_lets +onlyGivenNames -merge s1
    have _ : Keeps q a s1 := by unfold s1; exact keeps_rsvRetry (keeps_unpin ‹_›)
    try clear_value s1
    refine Keeps.ite ?_ ?_
    · exact keeps_fset ‹_›
    · assumption

theorem keeps_execStreamDrained {s : State} {x0 : Nat} : KeepsRes s (execStreamDrained x0 s) := by
  unfold execStreamDrained
  refine KeepsRes.next ?_
  refine Keeps.ite ?_ ?_
  · refine keeps_strmDrained ?_
    first | exact Keeps.refl | assumption
  · first | exact Keeps.refl | assumption

theorem keeps_rickCmdPut {q : Bool} {a s : State} {x1 : RickCmd} (h : Keeps q a s) : Keeps q a (State.rickCmdPut s x1) := by
  unfold State.rickCmdPut; exact Keeps.record ‹_›

theorem keeps_journalWrite {q : Bool} {a s : State} {x1 x2 : Nat} (h : Keeps q a s) : Keeps q a (State.journalWrite s x1 x2) := by
  unfold State.journalWrite
  split
  · assumption
  · refine Keeps.ite ?_ ?_
    · assumption
    · split
      · rename_i heq
        have := KeepsL.eq heq (show KeepsL q a _ from by
          exact keeps_unitsAppend _ ‹_›
          )
        exact keeps_stir (keeps_journalPut (keeps_rickCmdPut ‹_›))

theorem keeps_execJournalWrite {s : State} {x0 x1 : Nat} : KeepsRes s (execJournalWrite x0 x1 s) := by
  unfold execJournalWrite
  refine KeepsRes.next ?_
  refine keeps_journalWrite ?_
  first | exact Keeps.refl | assumption

theorem keeps_journalTake {q : Bool} {a s : State} {x1 : RickJrnl} (h : Keeps q a s) : Keeps q a (State.journalTake s x1) := by
  unfold State.journalTake
  extract_lets +onlyGivenNames -merge seqs; try clear_value seqs
  exact Keeps.record ‹_›

theorem keeps_chanInit {q : Bool} {a s : State} {x1 x2 x3 x4 : Nat} (h : Keeps q a s) : Keeps q a (State.chanInit s x1 x2 x3 x4) := by
  unfold State.chanInit
  extract_lets +onlyGivenNames -merge s1
  have _ : Keeps q a s1 := by unfold s1; exact keeps_fset (keeps_fset (keeps_fset ‹_›))
  try clear_value s1
  refine Keeps.ite ?_ ?_
  · assumption
  · exact keeps_errRec ‹_›

theorem keeps_unitTorn {q : Bool} {a s : State} {x1 : Nat × Nat} (h : Keeps q a s) : Keeps q a (State.unitTorn s x1) := by
  unfold State.unitTorn
  split
  · assumption
  · refine Keeps.ite ?_ ?_
    · assumption
    · exact keeps_objPut ‹_›

theorem keeps_manifestRead {q : Bool} {a s : State} {x1 : Nat} {x2 : RickObj} (h : Keeps q a s) : KeepsL q a (State.manifestRead s x1 x2) := by
  unfold State.manifestRead
  extract_lets +onlyGivenNames -merge first; try clear_value first
  extract_lets +onlyGivenNames -merge ns; try clear_value ns
  extract_lets +onlyGivenNames -merge lost; try clear_value lost
  refine KeepsL.ite ?_ ?_
  · exact KeepsL.mk ‹_›
  · refine KeepsL.mk ?_
    refine Keeps.each ?_ (fun _ _ h => ?_)
    · assumption
    · exact keeps_unitUe ‹_›

theorem keeps_relog {q : Bool} {a s : State} {x1 : Nat} {x2 : RickObj} (h : Keeps q a s) : Keeps q a (State.relog s x1 x2) := by
  unfold State.relog
  split
  · rename_i heq
    have := KeepsL.eq heq (show KeepsL q a _ from by
      exact keeps_manifestRead ‹_›
      )
    extract_lets +onlyGivenNames -merge y; try clear_value y
    extract_lets +onlyGivenNames -merge s2
    have _ : Keeps q a s2 := by unfold s2; exact keeps_objPut ‹_›
    try clear_value s2
    refine Keeps.ite ?_ ?_
    · assumption
    · exact keeps_measure ‹_›

theorem keeps_relogAll {q : Bool} {a s : State} (h : Keeps q a s) : Keeps q a (State.relogAll s) := by
  unfold State.relogAll
  extract_lets +onlyGivenNames -merge key; try clear_value key
  extract_lets +onlyGivenNames -merge mine; try clear_value mine
  refine Keeps.each ?_ (fun _ _ h => ?_)
  · assumption
  · exact keeps_relog ‹_›

theorem keeps_rickRecover {q : Bool} {a s : State} {x1 : Nat} {x2 : List (Nat × Nat)} {x3 x4 x5 : Nat} (h : Keeps q a s) : Keeps q a (State.rickRecover s x1 x2 x3 x4 x5) := by
  unfold State.rickRecover
  refine Keeps.ite ?_ ?_
  · assumption
  · extract_lets +onlyGivenNames -merge s1
    have _ : Keeps q a s1 := by unfold s1; exact keeps_journalTake ‹_›
    try clear_value s1
    extract_lets +onlyGivenNames -merge s2
    have _ : Keeps q a s2 := by
      unfold s2
      refine Keeps.each ?_ (fun _ _ h => ?_)
      · assumption
      · exact keeps_chanInit ‹_›
    try clear_value s2
    extract_lets +onlyGivenNames -merge s3
    have _ : Keeps q a s3 := by
      unfold s3
      refine Keeps.each ?_ (fun _ _ h => ?_)
      · assumption
      · exact keeps_objShow ‹_›
    try clear_value s3
    extract_lets +onlyGivenNames -merge all; try clear_value all
    extract_lets +onlyGivenNames -merge s4
    have _ : Keeps q a s4 := by
      unfold s4
      refine Keeps.each ?_ (fun _ _ h => ?_)
      · assumption
      · exact keeps_unitTorn ‹_›
    try clear_value s4
    extract_lets +onlyGivenNames -merge hit; try clear_value hit
    extract_lets +onlyGivenNames -merge s5
    have _ : Keeps q a s5 := by
      unfold s5
      refine Keeps.each ?_ (fun _ _ h => ?_)
      · assumption
      · exact keeps_errRec ‹_›
    try clear_value s5
    extract_lets +onlyGivenNames -merge retired; try clear_value retired
    extract_lets +onlyGivenNames -merge s6
    have _ : Keeps q a s6 := by unfold s6; exact keeps_fset (keeps_journalPut (keeps_fset (keeps_fset ‹_›)))
    try clear_value s6
    refine Keeps.ite ?_ ?_
    · exact keeps_relogAll ‹_›
    · assumption

theorem keeps_execRickRecovery {s : State} {x0 : Nat} {x1 : List (Nat × Nat)} {x2 x3 x4 : Nat} : KeepsRes s (execRickRecovery x0 x1 x2 x3 x4 s) := by
  unfold execRickRecovery
  refine KeepsRes.next ?_
  refine keeps_rickRecover ?_
  first | exact Keeps.refl | assumption

theorem keeps_streamsStop {q : Bool} {a s : State} (h : Keeps q a s) : Keeps q a (State.streamsStop s) := by
  unfold State.streamsStop
  refine keeps_fillsAbandon ?_
  refine Keeps.each ?_ (fun _ _ h => ?_)
  · assumption
  · exact keeps_streamStop ‹_›

theorem keeps_rickQuench {q : Bool} {a s : State} (h : Keeps q a s) : Keeps q a (State.rickQuench s) := by
  unfold State.rickQuench
  refine Keeps.ite ?_ ?_
  · assumption
  · extract_lets +onlyGivenNames -merge s1
    have _ : Keeps q a s1 := by
      unfold s1
      refine Keeps.each ?_ (fun _ _ h => ?_)
      · exact keeps_streamsStop ‹_›
      · exact keeps_rickFlush ‹_›
    try clear_value s1
    exact keeps_fset (Keeps.record ‹_›)

theorem keeps_execRickQuenchSignal {s : State} : KeepsRes s (execRickQuenchSignal s) := by
  unfold execRickQuenchSignal
  refine KeepsRes.next ?_
  refine keeps_rickQuench ?_
  first | exact Keeps.refl | assumption

theorem keeps_rickProgramsEnded {q : Bool} {a s : State} (h : Keeps q a s) : Keeps q a (State.rickProgramsEnded s) := by
  unfold State.rickProgramsEnded
  refine Keeps.ite ?_ ?_
  · exact keeps_fset ‹_›
  · assumption

theorem keeps_execRickProgramsEnded {s : State} : KeepsRes s (execRickProgramsEnded s) := by
  unfold execRickProgramsEnded
  refine KeepsRes.next ?_
  refine keeps_rickProgramsEnded ?_
  first | exact Keeps.refl | assumption

theorem keeps_rickProgTimeout {q : Bool} {a s : State} (h : Keeps q a s) : Keeps q a (State.rickProgTimeout s) := by
  unfold State.rickProgTimeout
  refine Keeps.ite ?_ ?_
  · exact keeps_fset ‹_›
  · assumption

theorem keeps_execRickQuenchProgTimeout {s : State} : KeepsRes s (execRickQuenchProgTimeout s) := by
  unfold execRickQuenchProgTimeout
  refine KeepsRes.next ?_
  refine keeps_rickProgTimeout ?_
  first | exact Keeps.refl | assumption

theorem keeps_rickJournalWritten {q : Bool} {a s : State} (h : Keeps q a s) : Keeps q a (State.rickJournalWritten s) := by
  unfold State.rickJournalWritten
  refine Keeps.ite ?_ ?_
  · exact keeps_fset (keeps_journalPut ‹_›)
  · assumption

theorem keeps_execRickJournalWritten {s : State} : KeepsRes s (execRickJournalWritten s) := by
  unfold execRickJournalWritten
  refine KeepsRes.next ?_
  refine keeps_rickJournalWritten ?_
  first | exact Keeps.refl | assumption

theorem keeps_atLink {s : State} {x1 : Nat} {x2 : State → Nat → State} (k2 : ∀ y0 y1, Keeps false s y0 → Keeps false s (x2 y0 y1)) : KeepsRes s (State.atLink s x1 x2) := by
  unfold State.atLink
  refine KeepsRes.ite ?_ ?_
  · refine keeps_settled ?_
    refine k2 _ _ ?_
    first | exact Keeps.refl | assumption
  · refine KeepsRes.next ?_
    first | exact Keeps.refl | assumption

theorem keeps_execLinkEnWrite {s : State} {x0 x1 : Nat} : KeepsRes s (execLinkEnWrite x0 x1 s) := by
  unfold execLinkEnWrite
  refine keeps_atLink (fun _ _ h => ?_)
  refine keeps_enWrite ?_
  first | exact Keeps.refl | assumption

theorem keeps_lkMove {q : Bool} {a s : State} {x1 x2 x3 : Nat} (h : Keeps q a s) : Keeps q a (State.lkMove s x1 x2 x3) := by
  unfold State.lkMove
  refine Keeps.ite ?_ ?_
  · exact keeps_lkEnter ‹_›
  · assumption

theorem keeps_energy {q : Bool} {a s : State} {x1 : Nat} (h : Keeps q a s) : Keeps q a (State.energy s x1) := by
  unfold State.energy; exact keeps_lkMove (keeps_lkRelease ‹_›)

theorem keeps_execLinkEnergyDetect {s : State} {x0 : Nat} : KeepsRes s (execLinkEnergyDetect x0 s) := by
  unfold execLinkEnergyDetect
  refine keeps_atLink (fun _ _ h => ?_)
  refine keeps_energy ?_
  first | exact Keeps.refl | assumption

theorem keeps_adapt {q : Bool} {a s : State} {x1 : Nat} (h : Keeps q a s) : Keeps q a (State.adapt s x1) := by
  unfold State.adapt
  refine Keeps.ite ?_ ?_
  · exact keeps_lkMod ‹_›
  · assumption

theorem keeps_cdrLocked {q : Bool} {a s : State} {x1 : Nat} (h : Keeps q a s) : Keeps q a (State.cdrLocked s x1) := by
  unfold State.cdrLocked
  refine Keeps.ite ?_ ?_
  · assumption
  · extract_lets +onlyGivenNames -merge s1
    have _ : Keeps q a s1 := by unfold s1; exact keeps_adapt (keeps_lkEnter ‹_›)
    try clear_value s1
    refine Keeps.ite ?_ ?_
    · assumption
    · exact keeps_lkMod ‹_›

theorem keeps_execCdrLock {s : State} {x0 : Nat} : KeepsRes s (execCdrLock x0 s) := by
  unfold execCdrLock
  refine keeps_atLink (fun _ _ h => ?_)
  refine keeps_cdrLocked ?_
  first | exact Keeps.refl | assumption

theorem keeps_eyes {q : Bool} {a s : State} {x1 : Nat} {x2 : List Nat} (h : Keeps q a s) : Keeps q a (State.eyes s x1 x2) := by
  unfold State.eyes
  refine Keeps.ite ?_ ?_
  · refine Keeps.each ?_ (fun _ _ h => ?_)
    · assumption
    · exact keeps_fset ‹_›
  · assumption

theorem keeps_coefs {q : Bool} {a s : State} {x1 : Nat} {x2 : List LaneEq} (h : Keeps q a s) : Keeps q a (State.coefs s x1 x2) := by
  unfold State.coefs
  refine Keeps.ite ?_ ?_
  · exact keeps_lkMod ‹_›
  · assumption

theorem keeps_eqDone {q : Bool} {a s : State} {x1 : Nat} {x2 : List LaneEq} (h : Keeps q a s) : Keeps q a (State.eqDone s x1 x2) := by
  unfold State.eqDone
  refine Keeps.ite ?_ ?_
  · exact keeps_lkEnter (keeps_lkMod (keeps_eyes (keeps_adapt (keeps_coefs ‹_›))))
  · assumption

theorem keeps_execEqDone {s : State} {x0 : Nat} {x1 : List LaneEq} : KeepsRes s (execEqDone x0 x1 s) := by
  unfold execEqDone
  refine keeps_atLink (fun _ _ h => ?_)
  refine keeps_eqDone ?_
  first | exact Keeps.refl | assumption

theorem keeps_prbs {q : Bool} {a s : State} {x1 : Nat} {x2 : List Nat} {x3 : Bool} (h : Keeps q a s) : Keeps q a (State.prbs s x1 x2 x3) := by
  unfold State.prbs
  refine Keeps.ite ?_ ?_
  · assumption
  · extract_lets +onlyGivenNames -merge s1
    have _ : Keeps q a s1 := by
      unfold s1
      refine Keeps.ite ?_ ?_
      · refine Keeps.each ?_ (fun _ _ h => ?_)
        · assumption
        · exact keeps_fset ‹_›
      · assumption
    try clear_value s1
    refine Keeps.ite ?_ ?_
    · exact keeps_lkEnter (keeps_lkMod ‹_›)
    · assumption

theorem keeps_execPrbsPass {s : State} {x0 : Nat} {x1 : List Nat} {x2 : Bool} : KeepsRes s (execPrbsPass x0 x1 x2 s) := by
  unfold execPrbsPass
  refine keeps_atLink (fun _ _ h => ?_)
  refine keeps_prbs ?_
  first | exact Keeps.refl | assumption

theorem keeps_alignedNext {q : Bool} {a s : State} {x1 : Nat} {x2 : Bool} (h : Keeps q a s) : Keeps q a (State.alignedNext s x1 x2) := by
  unfold State.alignedNext
  extract_lets +onlyGivenNames -merge s1
  have _ : Keeps q a s1 := by unfold s1; exact keeps_lkMod ‹_›
  try clear_value s1
  refine Keeps.ite ?_ ?_
  · refine Keeps.ite ?_ ?_
    · exact keeps_trainSlot ‹_›
    · assumption
  · refine Keeps.ite ?_ ?_
    · exact keeps_lkEnter ‹_›
    · refine Keeps.ite ?_ ?_
      · exact keeps_trainSlot ‹_›
      · assumption

theorem keeps_aligned {q : Bool} {a s : State} {x1 : Nat} {x2 : List LaneSeen} {x3 : Bool} (h : Keeps q a s) : Keeps q a (State.aligned s x1 x2 x3) := by
  unfold State.aligned; dsimp only
  exact Keeps.ite h (Keeps.ite (Keeps.ite (keeps_alignedNext (keeps_fset (keeps_fset (keeps_fset h)))) h) (Keeps.ite (keeps_alignedNext (keeps_fset h)) h))

theorem keeps_execAligned {s : State} {x0 : Nat} {x1 : List LaneSeen} {x2 : Bool} : KeepsRes s (execAligned x0 x1 x2 s) := by
  unfold execAligned
  refine keeps_atLink (fun _ _ h => ?_)
  refine keeps_aligned ?_
  first | exact Keeps.refl | assumption

theorem keeps_sendIdle {q : Bool} {a s : State} {x1 x2 : Nat} (h : Keeps q a s) : Keeps q a (State.sendIdle s x1 x2) := by
  unfold State.sendIdle; exact keeps_sendCodeword ‹_›

theorem keeps_give {q : Bool} {a s : State} {x1 x2 x3 : Nat} (h : Keeps q a s) : Keeps q a (State.give s x1 x2 x3) := by
  unfold State.give
  extract_lets +onlyGivenNames -merge c; try clear_value c
  extract_lets +onlyGivenNames -merge g; try clear_value g
  refine Keeps.ite ?_ ?_
  · assumption
  · exact keeps_lkMod ‹_›

theorem keeps_grant {q : Bool} {a s : State} {x1 x2 : Nat} (h : Keeps q a s) : Keeps q a (State.grant s x1 x2) := by
  unfold State.grant
  extract_lets +onlyGivenNames -merge a'; try clear_value a'
  extract_lets +onlyGivenNames -merge k; try clear_value k
  refine Keeps.ite ?_ ?_
  · refine Keeps.ite ?_ ?_
    · assumption
    · exact keeps_give ‹_›
  · extract_lets +onlyGivenNames -merge up; try clear_value up
    extract_lets +onlyGivenNames -merge u; try clear_value u
    refine Keeps.ite ?_ ?_
    · assumption
    · extract_lets +onlyGivenNames -merge s1
      have _ : Keeps q a s1 := by
        unfold s1
        refine Keeps.each ?_ (fun _ _ h => ?_)
        · assumption
        · exact keeps_give ‹_›
      try clear_value s1
      exact Keeps.record ‹_›

theorem keeps_creditUpdate {q : Bool} {a s : State} {x1 : Nat} (h : Keeps q a s) : Keeps q a (State.creditUpdate s x1) := by
  unfold State.creditUpdate
  refine Keeps.ite ?_ ?_
  · refine Keeps.each ?_ (fun _ _ h => ?_)
    · assumption
    · exact keeps_sendIdle (keeps_grant ‹_›)
  · assumption

theorem keeps_linkUp {q : Bool} {a s : State} {x1 x2 x3 : Nat} (h : Keeps q a s) : Keeps q a (State.linkUp s x1 x2 x3) := by
  unfold State.linkUp
  refine Keeps.ite ?_ ?_
  · extract_lets +onlyGivenNames -merge own; try clear_value own
    extract_lets +onlyGivenNames -merge keep; try clear_value keep
    extract_lets +onlyGivenNames -merge same; try clear_value same
    extract_lets +onlyGivenNames -merge s1
    have _ : Keeps q a s1 := by unfold s1; exact keeps_lkMod ‹_›
    try clear_value s1
    extract_lets +onlyGivenNames -merge s2
    have _ : Keeps q a s2 := by
      unfold s2
      refine Keeps.ite ?_ ?_
      · exact keeps_fsat ‹_›
      · assumption
    try clear_value s2
    extract_lets +onlyGivenNames -merge s3
    have _ : Keeps q a s3 := by unfold s3; exact keeps_lkEnter (keeps_fsat (keeps_fset ‹_›))
    try clear_value s3
    extract_lets +onlyGivenNames -merge l; try clear_value l
    extract_lets +onlyGivenNames -merge held; try clear_value held
    extract_lets +onlyGivenNames -merge us_; try clear_value us_
    extract_lets +onlyGivenNames -merge s4
    have _ : Keeps q a s4 := by unfold s4; exact keeps_errRec ‹_›
    try clear_value s4
    extract_lets +onlyGivenNames -merge s5
    have _ : Keeps q a s5 := by
      unfold s5
      refine Keeps.ite ?_ ?_
      · assumption
      · exact keeps_hubSet ‹_›
    try clear_value s5
    extract_lets +onlyGivenNames -merge s6
    have _ : Keeps q a s6 := by unfold s6; exact keeps_creditUpdate ‹_›
    try clear_value s6
    refine Keeps.ite ?_ ?_
    · exact keeps_zsend ‹_›
    · assumption
  · assumption

theorem keeps_execLinkUp {s : State} {x0 x1 x2 : Nat} : KeepsRes s (execLinkUp x0 x1 x2 s) := by
  unfold execLinkUp
  refine keeps_atLink (fun _ _ h => ?_)
  refine keeps_linkUp ?_
  first | exact Keeps.refl | assumption

theorem keeps_trainTimeout {q : Bool} {a s : State} {x1 : Nat} (h : Keeps q a s) : Keeps q a (State.trainTimeout s x1) := by
  unfold State.trainTimeout
  split
  · assumption
  · refine Keeps.ite ?_ ?_
    · assumption
    · extract_lets +onlyGivenNames -merge due; try clear_value due
      extract_lets +onlyGivenNames -merge s1
      have _ : Keeps q a s1 := by
        unfold s1
        refine Keeps.ite ?_ ?_
        · exact keeps_errRec (keeps_lkMod ‹_›)
        · assumption
      try clear_value s1
      exact keeps_lkEnter ‹_›

theorem keeps_execTrainTimeout {s : State} {x0 : Nat} : KeepsRes s (execTrainTimeout x0 s) := by
  unfold execTrainTimeout
  refine keeps_atLink (fun _ _ h => ?_)
  refine keeps_trainTimeout ?_
  first | exact Keeps.refl | assumption

theorem keeps_lateAck {q : Bool} {a s : State} {x1 : Nat} {x2 : List Nat} (h : Keeps q a s) : Keeps q a (State.lateAck s x1 x2) := by
  unfold State.lateAck
  refine Keeps.ite ?_ ?_
  · assumption
  · split
    · assumption
    · extract_lets +onlyGivenNames -merge h'; try clear_value h'
      refine Keeps.ite ?_ ?_
      · exact keeps_lkMod ‹_›
      · assumption

theorem keeps_alignLost {a s : State} {x1 x2 : Nat} (h : Keeps false a s) : Keeps false a (State.alignLost s x1 x2) := by
  unfold State.alignLost
  refine Keeps.ite ?_ ?_
  · assumption
  · extract_lets +onlyGivenNames -merge s1
    have _ : Keeps false a s1 := by
      unfold s1
      refine Keeps.ite ?_ ?_
      · exact keeps_fset ‹_›
      · assumption
    try clear_value s1
    exact keeps_linkFail ‹_›

theorem keeps_commaSeen {a s : State} {x1 x2 : Nat} {x3 : List Nat} (h : Keeps false a s) : Keeps false a (State.commaSeen s x1 x2 x3) := by
  unfold State.commaSeen
  extract_lets +onlyGivenNames -merge k; try clear_value k
  extract_lets +onlyGivenNames -merge s1
  have _ : Keeps false a s1 := by unfold s1; exact keeps_lkMod ‹_›
  try clear_value s1
  refine Keeps.ite ?_ ?_
  · assumption
  · exact keeps_alignLost ‹_›

theorem keeps_orFail {a : State} {n : Nat} {p : State × Option Nat} (h : KeepsL false a p) : Keeps false a (State.orFail n p) := by
  obtain ⟨s, o⟩ := p
  cases o
  · exact h
  · exact keeps_linkFail h

theorem keeps_owesNak {q : Bool} {a s : State} {x1 : Nat} (h : Keeps q a s) : Keeps q a (State.owesNak s x1) := by
  unfold State.owesNak
  extract_lets +onlyGivenNames -merge s1
  have _ : Keeps q a s1 := by unfold s1; exact keeps_lkMod ‹_›
  try clear_value s1
  refine Keeps.ite ?_ ?_
  · exact keeps_sendIdle ‹_›
  · assumption

theorem keeps_rxBad {q : Bool} {a s : State} {x1 x2 : Nat} (h : Keeps q a s) : Keeps q a (State.rxBad s x1 x2) := by
  unfold State.rxBad
  extract_lets +onlyGivenNames -merge s1
  have _ : Keeps q a s1 := by unfold s1; exact keeps_fsat ‹_›
  try clear_value s1
  refine Keeps.ite ?_ ?_
  · assumption
  · exact keeps_owesNak (keeps_lkMod ‹_›)

theorem keeps_replay {q : Bool} {a s : State} {x1 : Nat} (h : Keeps q a s) : KeepsL q a (State.replay s x1) := by
  unfold State.replay
  extract_lets +onlyGivenNames -merge l; try clear_value l
  refine KeepsL.ite ?_ ?_
  · exact KeepsL.mk ‹_›
  · refine KeepsL.ite ?_ ?_
    · exact KeepsL.mk ‹_›
    · extract_lets +onlyGivenNames -merge s1
      have _ : Keeps q a s1 := by unfold s1; exact keeps_lkMod (keeps_fsat ‹_›)
      try clear_value s1
      refine KeepsL.mk ?_
      refine Keeps.ite ?_ ?_
      · exact keeps_resendNow ‹_›
      · exact keeps_lkMod ‹_›

theorem keeps_rxHeader {q : Bool} {a s : State} {x1 : Nat} {x2 : FlitHdr} (h : Keeps q a s) : KeepsL q a (State.rxHeader s x1 x2) := by
  unfold State.rxHeader
  extract_lets +onlyGivenNames -merge pool; try clear_value pool
  extract_lets +onlyGivenNames -merge s1
  have _ : Keeps q a s1 := by unfold s1; exact keeps_lkMod ‹_›
  try clear_value s1
  refine KeepsL.ite ?_ ?_
  · exact keeps_replay ‹_›
  · exact KeepsL.mk ‹_›

theorem keeps_rxNoKey {q : Bool} {a s : State} {x1 : Nat} {x2 : FlitHdr} {x3 : List Byte} (h : Keeps q a s) : Keeps q a (State.rxNoKey s x1 x2 x3) := by
  unfold State.rxNoKey
  extract_lets +onlyGivenNames -merge p; try clear_value p
  extract_lets +onlyGivenNames -merge gone; try clear_value gone
  extract_lets +onlyGivenNames -merge k1; try clear_value k1
  extract_lets +onlyGivenNames -merge s1
  have _ : Keeps q a s1 := by unfold s1; exact keeps_lkMod ‹_›
  try clear_value s1
  refine Keeps.ite ?_ ?_
  · exact keeps_inject ‹_›
  · assumption

theorem keeps_rxAttach {q : Bool} {a s : State} {x1 x2 : Nat} {x3 : List Byte} (h : Keeps q a s) : Keeps q a (State.rxAttach s x1 x2 x3) := by
  unfold State.rxAttach
  extract_lets +onlyGivenNames -merge l; try clear_value l
  split
  · extract_lets +onlyGivenNames -merge s1
    have _ : Keeps q a s1 := by unfold s1; exact keeps_lkMod ‹_›
    try clear_value s1
    exact Keeps.record ‹_›

theorem keeps_rxOptical {q : Bool} {a s : State} {x1 : Nat} {x2 : FlitHdr} {x3 : List Byte} (h : Keeps q a s) : Keeps q a (State.rxOptical s x1 x2 x3) := by
  unfold State.rxOptical
  refine Keeps.ite ?_ ?_
  · refine Keeps.ite ?_ ?_
    · exact keeps_lkMod ‹_›
    · assumption
  · extract_lets +onlyGivenNames -merge l; try clear_value l
    extract_lets +onlyGivenNames -merge s1
    have _ : Keeps q a s1 := by unfold s1; exact keeps_lkMod ‹_›
    try clear_value s1
    refine Keeps.ite ?_ ?_
    · exact keeps_inject ‹_›
    · assumption

theorem keeps_rxAccept {q : Bool} {a s : State} {x1 : Nat} {x2 : FlitHdr} {x3 : List Byte} {x4 : Bool} (h : Keeps q a s) : Keeps q a (State.rxAccept s x1 x2 x3 x4) := by
  unfold State.rxAccept
  extract_lets +onlyGivenNames -merge typ; try clear_value typ
  extract_lets +onlyGivenNames -merge pool; try clear_value pool
  extract_lets +onlyGivenNames -merge s1
  have _ : Keeps q a s1 := by unfold s1; exact keeps_lkMod ‹_›
  try clear_value s1
  extract_lets +onlyGivenNames -merge s2
  have _ : Keeps q a s2 := by
    unfold s2
    refine Keeps.ite ?_ ?_
    · exact keeps_rxNoKey ‹_›
    · refine Keeps.ite ?_ ?_
      · exact keeps_rxAttach ‹_›
      · exact keeps_rxOptical ‹_›
  try clear_value s2
  refine Keeps.ite ?_ ?_
  · exact keeps_lkMod ‹_›
  · assumption

theorem keeps_rxQuiet {q : Bool} {a s : State} {x1 : Nat} (h : Keeps q a s) : Keeps q a (State.rxQuiet s x1) := by
  unfold State.rxQuiet
  extract_lets +onlyGivenNames -merge k; try clear_value k
  refine Keeps.ite ?_ ?_
  · exact keeps_lkMod ‹_›
  · exact keeps_lkMod (keeps_fset ‹_›)

theorem keeps_rxCodeword {q : Bool} {a s : State} {x1 : Nat} {x2 : List Byte} (h : Keeps q a s) : KeepsL q a (State.rxCodeword s x1 x2) := by
  unfold State.rxCodeword
  split
  · exact KeepsL.mk (keeps_rxBad ‹_›)
  · extract_lets +onlyGivenNames -merge s1
    have _ : Keeps q a s1 := by
      unfold s1
      refine Keeps.ite ?_ ?_
      · exact keeps_fsat ‹_›
      · assumption
    try clear_value s1
    extract_lets +onlyGivenNames -merge hdr; try clear_value hdr
    extract_lets +onlyGivenNames -merge flit; try clear_value flit
    extract_lets +onlyGivenNames -merge h'; try clear_value h'
    refine KeepsL.ite ?_ ?_
    · refine KeepsL.ite ?_ ?_
      · refine KeepsL.ite ?_ ?_
        · exact KeepsL.mk (keeps_rxBad ‹_›)
        · split
          · rename_i heq
            have := KeepsL.eq heq (show KeepsL q a _ from by
              exact keeps_rxHeader ‹_›
              )
            refine KeepsL.mk ?_
            refine Keeps.ite ?_ ?_
            · assumption
            · exact keeps_owesNak (keeps_lkMod ‹_›)
      · split
        · exact KeepsL.mk (keeps_rxBad ‹_›)
        · split
          · rename_i heq
            have := KeepsL.eq heq (show KeepsL q a _ from by
              exact keeps_rxHeader ‹_›
              )
            exact KeepsL.mk (keeps_linkPump (keeps_rxAccept ‹_›))
    · refine KeepsL.ite ?_ ?_
      · exact KeepsL.mk (keeps_rxBad ‹_›)
      · split
        · rename_i heq
          have := KeepsL.eq heq (show KeepsL q a _ from by
            exact keeps_rxHeader ‹_›
            )
          extract_lets +onlyGivenNames -merge s3
          have _ : Keeps q a s3 := by
            unfold s3
            refine keeps_linkPump ?_
            refine Keeps.ite ?_ ?_
            · exact keeps_lkMod ‹_›
            · assumption
          try clear_value s3
          refine KeepsL.mk ?_
          refine Keeps.ite ?_ ?_
          · exact keeps_rxQuiet ‹_›
          · exact keeps_lkMod ‹_›

theorem keeps_consumeLanes {a : State} {n : Nat} (k : Nat) : ∀ {s : State}, Keeps false a s → Keeps false a (State.consumeLanes n k s) := by
  induction k with
  | zero => intro s h; exact h
  | succ k ih =>
    intro s h; unfold State.consumeLanes; split
    · exact h
    · dsimp only
      exact Keeps.ite h (ih (keeps_orFail (keeps_rxCodeword (keeps_lkMod h))))

theorem keeps_codewordIn {a s : State} {x1 x2 : Nat} {x3 : List Nat} (h : Keeps false a s) : Keeps false a (State.codewordIn s x1 x2 x3) := by
  unfold State.codewordIn
  extract_lets +onlyGivenNames -merge j; try clear_value j
  extract_lets +onlyGivenNames -merge l; try clear_value l
  refine Keeps.ite ?_ ?_
  · exact keeps_lateAck ‹_›
  · refine Keeps.ite ?_ ?_
    · assumption
    · extract_lets +onlyGivenNames -merge s1
      have _ : Keeps false a s1 := by unfold s1; exact keeps_commaSeen (keeps_adapt ‹_›)
      try clear_value s1
      refine Keeps.ite ?_ ?_
      · assumption
      · refine Keeps.ite ?_ ?_
        · extract_lets +onlyGivenNames -merge s2
          have _ : Keeps false a s2 := by unfold s2; exact keeps_lkMod ‹_›
          try clear_value s2
          exact keeps_consumeLanes _ ‹_›
        · exact keeps_orFail (keeps_rxCodeword ‹_›)

theorem keeps_execCodewordReceive {s : State} {x0 x1 : Nat} {x2 : List Nat} : KeepsRes s (execCodewordReceive x0 x1 x2 s) := by
  unfold execCodewordReceive
  refine keeps_atLink (fun _ _ h => ?_)
  refine keeps_codewordIn ?_
  first | exact Keeps.refl | assumption

theorem keeps_execAlignmentLoss {s : State} {x0 x1 : Nat} : KeepsRes s (execAlignmentLoss x0 x1 s) := by
  unfold execAlignmentLoss
  refine keeps_atLink (fun _ _ h => ?_)
  refine keeps_alignLost ?_
  first | exact Keeps.refl | assumption

theorem keeps_replayTimer {a s : State} {x1 : Nat} (h : Keeps false a s) : Keeps false a (State.replayTimer s x1) := by
  unfold State.replayTimer
  refine Keeps.ite ?_ ?_
  · exact keeps_orFail (keeps_replay ‹_›)
  · assumption

theorem keeps_execReplayTimer {s : State} {x0 : Nat} : KeepsRes s (execReplayTimer x0 s) := by
  unfold execReplayTimer
  refine keeps_atLink (fun _ _ h => ?_)
  refine keeps_replayTimer ?_
  first | exact Keeps.refl | assumption

theorem keeps_execCreditUpdateSend {s : State} {x0 : Nat} : KeepsRes s (execCreditUpdateSend x0 s) := by
  unfold execCreditUpdateSend
  refine KeepsRes.next ?_
  refine keeps_creditUpdate ?_
  first | exact Keeps.refl | assumption

theorem keeps_creditFailure {a s : State} {x1 x2 : Nat} (h : Keeps false a s) : Keeps false a (State.creditFailure s x1 x2) := by
  unfold State.creditFailure
  refine Keeps.ite ?_ ?_
  · exact keeps_linkFail (keeps_fsat ‹_›)
  · assumption

theorem keeps_execCreditReturnFailure {s : State} {x0 x1 : Nat} : KeepsRes s (execCreditReturnFailure x0 x1 s) := by
  unfold execCreditReturnFailure
  refine keeps_atLink (fun _ _ h => ?_)
  refine keeps_creditFailure ?_
  first | exact Keeps.refl | assumption

theorem keeps_execLinkRetrain {s : State} {x0 : Nat} : KeepsRes s (execLinkRetrain x0 s) := by
  unfold execLinkRetrain
  refine keeps_atLink (fun _ _ h => ?_)
  refine keeps_failEvent ?_
  first | exact Keeps.refl | assumption

theorem keeps_execLinkFailureEvent {s : State} {x0 x1 : Nat} : KeepsRes s (execLinkFailureEvent x0 x1 s) := by
  unfold execLinkFailureEvent
  refine keeps_atLink (fun _ _ h => ?_)
  refine keeps_failEvent ?_
  first | exact Keeps.refl | assumption

theorem keeps_stateDiscard {q : Bool} {a s : State} {x1 : Nat} (h : Keeps q a s) : Keeps q a (State.stateDiscard s x1) := by
  unfold State.stateDiscard
  split
  · assumption
  · refine Keeps.ite ?_ ?_
    · exact keeps_lkMod ‹_›
    · assumption

theorem keeps_execLinkStateDiscard {s : State} {x0 : Nat} : KeepsRes s (execLinkStateDiscard x0 s) := by
  unfold execLinkStateDiscard
  refine keeps_atLink (fun _ _ h => ?_)
  refine keeps_stateDiscard ?_
  first | exact Keeps.refl | assumption

theorem keeps_txqEnter {q : Bool} {a s : State} {x1 : Nat} (h : Keeps q a s) : Keeps q a (State.txqEnter s x1) := by
  unfold State.txqEnter
  extract_lets +onlyGivenNames -merge l; try clear_value l
  refine Keeps.ite ?_ ?_
  · extract_lets +onlyGivenNames -merge s1
    have _ : Keeps q a s1 := by
      unfold s1
      refine Keeps.each ?_ (fun _ _ h => ?_)
      · assumption
      · exact keeps_sendCodeword ‹_›
    try clear_value s1
    exact keeps_lkMod (keeps_fset ‹_›)
  · assumption

theorem keeps_execTxqEnter {s : State} {x0 : Nat} : KeepsRes s (execTxqEnter x0 s) := by
  unfold execTxqEnter
  refine KeepsRes.next ?_
  refine keeps_txqEnter ?_
  first | exact Keeps.refl | assumption

theorem keeps_txqWake {q : Bool} {a s : State} {x1 : Nat} (h : Keeps q a s) : Keeps q a (State.txqWake s x1) := by
  unfold State.txqWake
  refine Keeps.ite ?_ ?_
  · exact keeps_stir (keeps_lkMod (keeps_fset (keeps_emit ‹_›)))
  · assumption

theorem keeps_execTxqWake {s : State} {x0 : Nat} : KeepsRes s (execTxqWake x0 s) := by
  unfold execTxqWake
  refine KeepsRes.next ?_
  refine keeps_txqWake ?_
  first | exact Keeps.refl | assumption

theorem keeps_txWakeDone {q : Bool} {a s : State} {x1 : Nat} (h : Keeps q a s) : Keeps q a (State.txWakeDone s x1) := by
  unfold State.txWakeDone
  refine Keeps.ite ?_ ?_
  · exact keeps_linkPump (keeps_lkMod ‹_›)
  · assumption

theorem keeps_execTxWakeDone {s : State} {x0 : Nat} : KeepsRes s (execTxWakeDone x0 s) := by
  unfold execTxWakeDone
  refine KeepsRes.next ?_
  refine keeps_txWakeDone ?_
  first | exact Keeps.refl | assumption

theorem keeps_rxqEnergy {q : Bool} {a s : State} {x1 : Nat} (h : Keeps q a s) : Keeps q a (State.rxqEnergy s x1) := by
  unfold State.rxqEnergy
  refine Keeps.ite ?_ ?_
  · exact keeps_stir (keeps_lkMod (keeps_fset ‹_›))
  · assumption

theorem keeps_execRxqEnergy {s : State} {x0 : Nat} : KeepsRes s (execRxqEnergy x0 s) := by
  unfold execRxqEnergy
  refine KeepsRes.next ?_
  refine keeps_rxqEnergy ?_
  first | exact Keeps.refl | assumption

theorem keeps_creditTimers {q : Bool} {a s : State} {x1 : Nat} (h : Keeps q a s) : Keeps q a (State.creditTimers s x1) := by
  unfold State.creditTimers; exact keeps_lkMod ‹_›

theorem keeps_relockDone {q : Bool} {a s : State} {x1 : Nat} (h : Keeps q a s) : Keeps q a (State.relockDone s x1) := by
  unfold State.relockDone
  refine Keeps.ite ?_ ?_
  · exact keeps_creditTimers (keeps_lkMod ‹_›)
  · assumption

theorem keeps_execRelockDone {s : State} {x0 : Nat} : KeepsRes s (execRelockDone x0 s) := by
  unfold execRelockDone
  refine KeepsRes.next ?_
  refine keeps_relockDone ?_
  first | exact Keeps.refl | assumption

theorem keeps_relockTimeout {a s : State} {x1 : Nat} (h : Keeps false a s) : Keeps false a (State.relockTimeout s x1) := by
  unfold State.relockTimeout
  refine Keeps.ite ?_ ?_
  · exact keeps_linkFail ‹_›
  · assumption

theorem keeps_execRelockTimeout {s : State} {x0 : Nat} : KeepsRes s (execRelockTimeout x0 s) := by
  unfold execRelockTimeout
  refine keeps_atLink (fun _ _ h => ?_)
  refine keeps_relockTimeout ?_
  first | exact Keeps.refl | assumption

theorem keeps_burstWords {a s : State} {x1 : Nat} {x2 : List (List Nat)} (h : Keeps false a s) : Keeps false a (State.burstWords s x1 x2) := by
  unfold State.burstWords
  refine Keeps.each ?_ (fun _ _ h => ?_)
  · assumption
  · exact keeps_codewordIn ‹_›

theorem keeps_burst {a s : State} {x1 : Nat} {x2 : List (List Nat)} (h : Keeps false a s) : Keeps false a (State.burst s x1 x2) := by
  unfold State.burst
  extract_lets +onlyGivenNames -merge n; try clear_value n
  extract_lets +onlyGivenNames -merge g; try clear_value g
  extract_lets +onlyGivenNames -merge f; try clear_value f
  refine Keeps.ite ?_ ?_
  · exact keeps_burstWords ‹_›
  · extract_lets +onlyGivenNames -merge s0
    have _ : Keeps false a s0 := by
      unfold s0
      refine keeps_lkMod ?_
      refine Keeps.ite ?_ ?_
      · exact keeps_rxqEnergy ‹_›
      · assumption
    try clear_value s0
    refine Keeps.ite ?_ ?_
    · extract_lets +onlyGivenNames -merge s1
      have _ : Keeps false a s1 := by
        unfold s1
        refine keeps_lkMod ?_
        refine Keeps.ite ?_ ?_
        · exact keeps_relockDone ‹_›
        · assumption
      try clear_value s1
      exact keeps_lkMod (keeps_burstWords (keeps_fsat ‹_›))
    · extract_lets +onlyGivenNames -merge s1
      have _ : Keeps false a s1 := by unfold s1; exact keeps_lkMod (keeps_fsat ‹_›)
      try clear_value s1
      extract_lets +onlyGivenNames -merge s2
      have _ : Keeps false a s2 := by
        unfold s2
        refine Keeps.ite ?_ ?_
        · assumption
        · exact keeps_owesNak (keeps_lkMod ‹_›)
      try clear_value s2
      refine Keeps.ite ?_ ?_
      · exact keeps_linkFail (keeps_fsat ‹_›)
      · assumption

theorem keeps_execBurstReceive {s : State} {x0 : Nat} {x1 : List Nat} {x2 : List (List Nat)} : KeepsRes s (execBurstReceive x0 x1 x2 s) := by
  unfold execBurstReceive
  refine keeps_atOptic (fun _ _ h => ?_)
  refine keeps_burst ?_
  first | exact Keeps.refl | assumption

theorem keeps_dark {a s : State} {x1 : Nat} (h : Keeps false a s) : Keeps false a (State.dark s x1) := by
  unfold State.dark
  extract_lets +onlyGivenNames -merge n; try clear_value n
  refine Keeps.ite ?_ ?_
  · exact keeps_linkFail (keeps_fsat ‹_›)
  · assumption

theorem keeps_execDarkTimeout {s : State} {x0 : Nat} : KeepsRes s (execDarkTimeout x0 s) := by
  unfold execDarkTimeout
  refine keeps_atOptic (fun _ _ h => ?_)
  refine keeps_dark ?_
  first | exact Keeps.refl | assumption

theorem keeps_visit {q : Bool} {a s : State} {x1 : Nat} (h : Keeps q a s) : Keeps q a (State.visit s x1) := by
  unfold State.visit
  extract_lets +onlyGivenNames -merge n; try clear_value n
  refine Keeps.ite ?_ ?_
  · extract_lets +onlyGivenNames -merge pool; try clear_value pool
    extract_lets +onlyGivenNames -merge s1
    have _ : Keeps q a s1 := by unfold s1; exact keeps_sendIdle (keeps_grant (keeps_lkMod (keeps_fsat ‹_›)))
    try clear_value s1
    split
    · exact keeps_aimAt ‹_›
    · assumption
  · assumption

theorem keeps_execVisitSend {s : State} {x0 : Nat} : KeepsRes s (execVisitSend x0 s) := by
  unfold execVisitSend
  refine keeps_atOptic (fun _ _ h => ?_)
  refine keeps_visit ?_
  first | exact Keeps.refl | assumption

theorem keeps_trainBurst {q : Bool} {a s : State} {x1 : Nat} (h : Keeps q a s) : Keeps q a (State.trainBurst s x1) := by
  unfold State.trainBurst
  extract_lets +onlyGivenNames -merge n; try clear_value n
  extract_lets +onlyGivenNames -merge st; try clear_value st
  refine Keeps.ite ?_ ?_
  · refine keeps_lkMod ?_
    refine Keeps.each ?_ (fun _ _ h => ?_)
    · exact keeps_aimAt ‹_›
    · exact keeps_trainSlot ‹_›
  · assumption

theorem keeps_execTrainingBurst {s : State} {x0 : Nat} : KeepsRes s (execTrainingBurst x0 s) := by
  unfold execTrainingBurst
  refine keeps_atOptic (fun _ _ h => ?_)
  refine keeps_trainBurst ?_
  first | exact Keeps.refl | assumption

theorem keeps_atRing {s : State} {x1 x2 x3 : Nat} {x4 : State → State} (k4 : ∀ y0, Keeps false s y0 → Keeps false s (x4 y0)) : KeepsRes s (State.atRing s x1 x2 x3 x4) := by
  unfold State.atRing
  refine KeepsRes.ite ?_ ?_
  · refine keeps_settled ?_
    refine k4 _ ?_
    first | exact Keeps.refl | assumption
  · refine KeepsRes.next ?_
    first | exact Keeps.refl | assumption

theorem keeps_searchEnd {a s : State} {x1 x2 : Nat} {x3 : Bool} (h : Keeps false a s) : Keeps false a (State.searchEnd s x1 x2 x3) := by
  unfold State.searchEnd
  extract_lets +onlyGivenNames -merge _ s1
  have _ : Keeps false a s1 := by unfold s1; exact Keeps.record ‹_›
  try clear_value s1
  extract_lets +onlyGivenNames -merge s2
  have _ : Keeps false a s2 := by
    unfold s2
    refine Keeps.ite ?_ ?_
    · assumption
    · exact keeps_errRec ‹_›
  try clear_value s2
  extract_lets +onlyGivenNames -merge _ s3
  have _ : Keeps false a s3 := by
    unfold s3
    refine Keeps.ite ?_ ?_
    · assumption
    · exact keeps_fset (Keeps.record ‹_›)
  try clear_value s3
  exact keeps_optCmdsDone ‹_›

theorem keeps_searchFail {a s : State} {x1 x2 : Nat} (h : Keeps false a s) : Keeps false a (State.searchFail s x1 x2) := by
  unfold State.searchFail
  split
  · assumption
  · refine Keeps.ite ?_ ?_
    · exact keeps_searchEnd ‹_›
    · exact keeps_searchBus ‹_›

theorem keeps_sweepDone {a s : State} {x1 x2 x3 : Nat} {x4 : List (Nat × Nat)} (h : Keeps false a s) : Keeps false a (State.sweepDone s x1 x2 x3 x4) := by
  unfold State.sweepDone
  split
  · assumption
  · refine Keeps.ite ?_ ?_
    · assumption
    · extract_lets +onlyGivenNames -merge hi; try clear_value hi
      extract_lets +onlyGivenNames -merge before; try clear_value before
      extract_lets +onlyGivenNames -merge amb; try clear_value amb
      extract_lets +onlyGivenNames -merge s1
      have _ : Keeps false a s1 := by unfold s1; exact keeps_fsat (keeps_fset ‹_›)
      try clear_value s1
      split
      · exact keeps_searchFail (keeps_optRingSet ‹_›)
      · extract_lets +onlyGivenNames -merge s2
        have _ : Keeps false a s2 := by unfold s2; exact keeps_optRingSet (keeps_optHeat (keeps_fset ‹_›))
        try clear_value s2
        exact Keeps.record ‹_›

theorem keeps_execSweepComplete {s : State} {x0 x1 x2 : Nat} {x3 : List (Nat × Nat)} : KeepsRes s (execSweepComplete x0 x1 x2 x3 s) := by
  unfold execSweepComplete
  refine keeps_atRing (fun _ h => ?_)
  refine keeps_sweepDone ?_
  first | exact Keeps.refl | assumption

theorem keeps_searchNext {a s : State} {x1 x2 x3 : Nat} (h : Keeps false a s) : Keeps false a (State.searchNext s x1 x2 x3) := by
  unfold State.searchNext
  split
  · assumption
  · refine Keeps.ite ?_ ?_
    · assumption
    · refine Keeps.ite ?_ ?_
      · exact keeps_searchEnd ‹_›
      · refine Keeps.ite ?_ ?_
        · exact keeps_searchEnd (keeps_fset ‹_›)
        · exact keeps_sweepRing ‹_›

theorem keeps_abortBurst {q : Bool} {a s : State} {x1 : Nat} (h : Keeps q a s) : Keeps q a (State.abortBurst s x1) := by
  unfold State.abortBurst
  refine Keeps.ite ?_ ?_
  · assumption
  · split
    · assumption
    · extract_lets +onlyGivenNames -merge g; try clear_value g
      extract_lets +onlyGivenNames -merge s1
      have _ : Keeps q a s1 := by unfold s1; exact keeps_lkMod ‹_›
      try clear_value s1
      refine Keeps.ite ?_ ?_
      · exact keeps_sendCodeword ‹_›
      · exact keeps_sendNext ‹_›

theorem keeps_ringLost {a s : State} {x1 x2 x3 : Nat} (h : Keeps false a s) : Keeps false a (State.ringLost s x1 x2 x3) := by
  unfold State.ringLost
  extract_lets +onlyGivenNames -merge s'
  have _ : Keeps false a s' := by
    unfold s'
    refine Keeps.ite ?_ ?_
    · refine Keeps.each ?_ (fun _ _ h => ?_)
      · assumption
      · exact keeps_abortBurst ‹_›
    · assumption
  try clear_value s'
  extract_lets +onlyGivenNames -merge s1
  have _ : Keeps false a s1 := by unfold s1; exact keeps_errRec (keeps_fsat (keeps_optRingSet ‹_›))
  try clear_value s1
  extract_lets +onlyGivenNames -merge _ s2
  have _ : Keeps false a s2 := by unfold s2; exact Keeps.record ‹_›
  try clear_value s2
  refine Keeps.each ?_ (fun _ _ h => ?_)
  · exact keeps_busUpdate ‹_›
  · exact keeps_linkFail ‹_›

theorem keeps_dither {a s : State} {x1 x2 x3 x4 x5 : Nat} (h : Keeps false a s) : Keeps false a (State.dither s x1 x2 x3 x4 x5) := by
  unfold State.dither
  extract_lets +onlyGivenNames -merge st; try clear_value st
  extract_lets +onlyGivenNames -merge k; try clear_value k
  extract_lets +onlyGivenNames -merge x'; try clear_value x'
  refine Keeps.ite ?_ ?_
  · assumption
  · extract_lets +onlyGivenNames -merge y; try clear_value y
    extract_lets +onlyGivenNames -merge h'; try clear_value h'
    extract_lets +onlyGivenNames -merge h1; try clear_value h1
    extract_lets +onlyGivenNames -merge _ s1
    have _ : Keeps false a s1 := by unfold s1; exact keeps_optHeat (Keeps.record ‹_›)
    try clear_value s1
    refine Keeps.ite ?_ ?_
    · refine Keeps.ite ?_ ?_
      · exact keeps_searchNext (keeps_busUpdate (keeps_optRingSet ‹_›))
      · assumption
    · refine Keeps.ite ?_ ?_
      · exact keeps_ringLost ‹_›
      · assumption

theorem keeps_execDitherUpdate {s : State} {x0 x1 x2 x3 x4 : Nat} : KeepsRes s (execDitherUpdate x0 x1 x2 x3 x4 s) := by
  unfold execDitherUpdate
  refine keeps_atRing (fun _ h => ?_)
  refine keeps_dither ?_
  first | exact Keeps.refl | assumption

theorem keeps_lockTimeout {a s : State} {x1 x2 x3 : Nat} (h : Keeps false a s) : Keeps false a (State.lockTimeout s x1 x2 x3) := by
  unfold State.lockTimeout
  extract_lets +onlyGivenNames -merge k; try clear_value k
  extract_lets +onlyGivenNames -merge t; try clear_value t
  refine Keeps.ite ?_ ?_
  · exact keeps_searchFail (keeps_optRingSet (Keeps.record ‹_›))
  · assumption

theorem keeps_execLockTimeout {s : State} {x0 x1 x2 : Nat} : KeepsRes s (execLockTimeout x0 x1 x2 s) := by
  unfold execLockTimeout
  refine keeps_atRing (fun _ h => ?_)
  refine keeps_lockTimeout ?_
  first | exact Keeps.refl | assumption

theorem keeps_ringRelock {q : Bool} {a s : State} {x1 x2 x3 : Nat} (h : Keeps q a s) : Keeps q a (State.ringRelock s x1 x2 x3) := by
  unfold State.ringRelock
  refine Keeps.ite ?_ ?_
  · exact keeps_sweepRing (keeps_fset ‹_›)
  · assumption

theorem keeps_execRingRelock {s : State} {x0 x1 x2 : Nat} : KeepsRes s (execRingRelock x0 x1 x2 s) := by
  unfold execRingRelock
  refine keeps_atRing (fun _ h => ?_)
  refine keeps_ringRelock ?_
  first | exact Keeps.refl | assumption

theorem keeps_laserBelow {q : Bool} {a s : State} {x1 x2 : Nat} (h : Keeps q a s) : Keeps q a (State.laserBelow s x1 x2) := by
  unfold State.laserBelow
  extract_lets +onlyGivenNames -merge s1
  have _ : Keeps q a s1 := by unfold s1; exact keeps_fset ‹_›
  try clear_value s1
  refine Keeps.ite ?_ ?_
  · assumption
  · exact keeps_errRec (keeps_fset ‹_›)

theorem keeps_execLaserLow {s : State} {x0 x1 : Nat} : KeepsRes s (execLaserLow x0 x1 s) := by
  unfold execLaserLow
  refine KeepsRes.ite ?_ ?_
  · refine keeps_settled ?_
    refine keeps_laserBelow ?_
    first | exact Keeps.refl | assumption
  · refine KeepsRes.next ?_
    first | exact Keeps.refl | assumption

theorem keeps_spdmDone {q : Bool} {a s : State} {x1 : Nat} (h : Keeps q a s) : Keeps q a (State.spdmDone s x1) := by
  unfold State.spdmDone
  split
  · assumption
  · refine Keeps.ite ?_ ?_
    · assumption
    · exact keeps_completeTicket (Keeps.record ‹_›)

theorem keeps_execKlnSpdmComplete {s : State} {x0 : Nat} : KeepsRes s (execKlnSpdmComplete x0 s) := by
  unfold execKlnSpdmComplete
  refine KeepsRes.next ?_
  refine keeps_spdmDone ?_
  first | exact Keeps.refl | assumption

theorem keeps_sessionMod {q : Bool} {a s : State} {x1 : Nat} {x2 : Session → Session} (h : Keeps q a s) : Keeps q a (State.sessionMod s x1 x2) := by
  unfold State.sessionMod; exact Keeps.record ‹_›

theorem keeps_spdmRespond {q : Bool} {a s : State} {x1 : SpdmMsg} {x2 : Nat} {x3 : List Byte} (h : Keeps q a s) : Keeps q a (State.spdmRespond s x1 x2 x3) := by
  unfold State.spdmRespond
  extract_lets +onlyGivenNames -merge full; try clear_value full
  extract_lets +onlyGivenNames -merge large; try clear_value large
  extract_lets +onlyGivenNames -merge r; try clear_value r
  extract_lets +onlyGivenNames -merge _ s1
  have _ : Keeps q a s1 := by
    unfold s1
    refine Keeps.ite ?_ ?_
    · exact Keeps.record ‹_›
    · assumption
  try clear_value s1
  extract_lets +onlyGivenNames -merge n; try clear_value n
  extract_lets +onlyGivenNames -merge bytes; try clear_value bytes
  extract_lets +onlyGivenNames -merge _ s2
  have _ : Keeps q a s2 := by unfold s2; exact Keeps.record ‹_›
  try clear_value s2
  refine Keeps.ite ?_ ?_
  · assumption
  · exact keeps_emit (keeps_sessionMod ‹_›)

theorem keeps_spdmReq {q : Bool} {a s : State} {x1 : Nat} {x2 : List Byte} {x3 : Bool} {x4 x5 x6 : Nat} {x7 : State → SpdmMsg → Nat → List Byte → State} (h : Keeps q a s) (k7 : ∀ y0 y1 y2 y3, Keeps q a y0 → Keeps q a (x7 y0 y1 y2 y3)) : Keeps q a (State.spdmReq s x1 x2 x3 x4 x5 x6 x7) := by
  unfold State.spdmReq
  split
  · assumption
  · extract_lets +onlyGivenNames -merge sid; try clear_value sid
    extract_lets +onlyGivenNames -merge p; try clear_value p
    extract_lets +onlyGivenNames -merge ses; try clear_value ses
    extract_lets +onlyGivenNames -merge isOpen; try clear_value isOpen
    extract_lets +onlyGivenNames -merge placed; try clear_value placed
    refine Keeps.ite ?_ ?_
    · assumption
    · refine Keeps.ite ?_ ?_
      · exact keeps_spdmRespond ‹_›
      · extract_lets +onlyGivenNames -merge s1
        have _ : Keeps q a s1 := by unfold s1; exact keeps_sessionMod ‹_›
        try clear_value s1
        refine Keeps.ite ?_ ?_
        · exact keeps_spdmRespond ‹_›
        · refine Keeps.ite ?_ ?_
          · exact keeps_spdmRespond ‹_›
          · refine Keeps.ite ?_ ?_
            · exact keeps_spdmRespond ‹_›
            · refine k7 _ _ _ _ ?_
              assumption

theorem keeps_spdmPlain {q : Bool} {a s : State} {x1 : Nat} {x2 : List Byte} {x3 : Bool} {x4 x5 x6 : Nat} {x7 : State → List Byte → List Byte × State} (h : Keeps q a s) (k7 : ∀ y0 y1, Keeps q a y0 → KeepsR q a (x7 y0 y1)) : Keeps q a (State.spdmPlain s x1 x2 x3 x4 x5 x6 x7) := by
  unfold State.spdmPlain
  refine keeps_spdmReq ?_ (fun _ _ _ _ h => ?_)
  · assumption
  · refine keeps_spdmRespond ?_
    refine KeepsR.out ?_
    refine k7 _ _ ?_
    assumption

theorem keeps_negoTo {q : Bool} {a s : State} {x1 : Nat} (h : Keeps q a s) : Keeps q a (State.negoTo s x1) := by
  unfold State.negoTo; exact Keeps.record ‹_›

theorem keeps_spdmVersion {q : Bool} {a s : State} {x1 : List Byte} (h : Keeps q a s) : KeepsR q a (State.spdmVersion s x1) := by
  unfold State.spdmVersion; exact KeepsR.mk (keeps_negoTo ‹_›)

theorem keeps_execGetVersion {s : State} {x0 : Nat} {x1 : List Byte} {x2 : Bool} : KeepsRes s (execGetVersion x0 x1 x2 s) := by
  unfold execGetVersion
  refine KeepsRes.next ?_
  refine keeps_spdmPlain ?_ (fun _ _ h => ?_)
  · first | exact Keeps.refl | assumption
  · refine keeps_spdmVersion ?_
    first | exact Keeps.refl | assumption

theorem keeps_spdmCapabilities {q : Bool} {a s : State} {x1 : List Byte} (h : Keeps q a s) : KeepsR q a (State.spdmCapabilities s x1) := by
  unfold State.spdmCapabilities
  extract_lets +onlyGivenNames -merge flags; try clear_value flags
  exact KeepsR.mk (keeps_negoTo (KeepsR.out (keeps_draw ‹_›)))

theorem keeps_execGetCapabilities {s : State} {x0 : Nat} {x1 : List Byte} {x2 : Bool} : KeepsRes s (execGetCapabilities x0 x1 x2 s) := by
  unfold execGetCapabilities
  refine KeepsRes.next ?_
  refine keeps_spdmPlain ?_ (fun _ _ h => ?_)
  · first | exact Keeps.refl | assumption
  · refine keeps_spdmCapabilities ?_
    first | exact Keeps.refl | assumption

theorem keeps_spdmAlgorithms {q : Bool} {a s : State} {x1 : List Byte} (h : Keeps q a s) : KeepsR q a (State.spdmAlgorithms s x1) := by
  unfold State.spdmAlgorithms
  extract_lets +onlyGivenNames -merge fixed; try clear_value fixed
  extract_lets +onlyGivenNames -merge algs; try clear_value algs
  exact KeepsR.mk (keeps_negoTo ‹_›)

theorem keeps_execNegotiateAlgorithms {s : State} {x0 : Nat} {x1 : List Byte} {x2 : Bool} : KeepsRes s (execNegotiateAlgorithms x0 x1 x2 s) := by
  unfold execNegotiateAlgorithms
  refine KeepsRes.next ?_
  refine keeps_spdmPlain ?_ (fun _ _ h => ?_)
  · first | exact Keeps.refl | assumption
  · refine keeps_spdmAlgorithms ?_
    first | exact Keeps.refl | assumption

theorem keeps_spdmDigests {q : Bool} {a s : State} {x1 : List Byte} (h : Keeps q a s) : KeepsR q a (State.spdmDigests s x1) := by
  unfold State.spdmDigests; exact KeepsR.mk ‹_›

theorem keeps_execGetDigests {s : State} {x0 : Nat} {x1 : List Byte} {x2 : Bool} : KeepsRes s (execGetDigests x0 x1 x2 s) := by
  unfold execGetDigests
  refine KeepsRes.next ?_
  refine keeps_spdmPlain ?_ (fun _ _ h => ?_)
  · first | exact Keeps.refl | assumption
  · refine keeps_spdmDigests ?_
    first | exact Keeps.refl | assumption

theorem keeps_spdmCertificate {q : Bool} {a s : State} {x1 : List Byte} (h : Keeps q a s) : KeepsR q a (State.spdmCertificate s x1) := by
  unfold State.spdmCertificate
  extract_lets +onlyGivenNames -merge off; try clear_value off
  extract_lets +onlyGivenNames -merge part; try clear_value part
  refine KeepsR.ite ?_ ?_
  · exact KeepsR.mk ‹_›
  · exact KeepsR.mk ‹_›

theorem keeps_execGetCertificate {s : State} {x0 : Nat} {x1 : List Byte} {x2 : Bool} : KeepsRes s (execGetCertificate x0 x1 x2 s) := by
  unfold execGetCertificate
  refine KeepsRes.next ?_
  refine keeps_spdmPlain ?_ (fun _ _ h => ?_)
  · first | exact Keeps.refl | assumption
  · refine keeps_spdmCertificate ?_
    first | exact Keeps.refl | assumption

theorem keeps_summaryHash {q : Bool} {a s : State} {x1 : Nat} (h : Keeps q a s) : KeepsR q a (State.summaryHash s x1) := by
  unfold State.summaryHash
  refine KeepsR.ite ?_ ?_
  · exact KeepsR.mk ‹_›
  · refine KeepsR.ite ?_ ?_
    · split
      · rename_i heq
        have := KeepsR.eq heq (show KeepsR q a _ from by
          exact keeps_draw ‹_›
          )
        exact KeepsR.mk ‹_›
    · refine KeepsR.ite ?_ ?_
      · exact KeepsR.mk (KeepsR.out (keeps_drawBytes ‹_›))
      · exact KeepsR.mk ‹_›

theorem keeps_spdmChallenge {q : Bool} {a s : State} {x1 : List Byte} (h : Keeps q a s) : KeepsR q a (State.spdmChallenge s x1) := by
  unfold State.spdmChallenge
  split
  · rename_i heq
    have := KeepsR.eq heq (show KeepsR q a _ from by
      exact keeps_drawBytes ‹_›
      )
    split
    · rename_i heq
      have := KeepsR.eq heq (show KeepsR q a _ from by
        exact keeps_summaryHash ‹_›
        )
      split
      · rename_i heq
        have := KeepsR.eq heq (show KeepsR q a _ from by
          exact keeps_drawBytes ‹_›
          )
        split
        · exact KeepsR.mk ‹_›
        · refine KeepsR.ite ?_ ?_
          · exact KeepsR.mk ‹_›
          · exact KeepsR.mk ‹_›

theorem keeps_execChallenge {s : State} {x0 : Nat} {x1 : List Byte} {x2 : Bool} : KeepsRes s (execChallenge x0 x1 x2 s) := by
  unfold execChallenge
  refine KeepsRes.next ?_
  refine keeps_spdmPlain ?_ (fun _ _ h => ?_)
  · first | exact Keeps.refl | assumption
  · refine keeps_spdmChallenge ?_
    first | exact Keeps.refl | assumption

theorem keeps_spdmMeasurements {q : Bool} {a s : State} {x1 : List Byte} (h : Keeps q a s) : KeepsR q a (State.spdmMeasurements s x1) := by
  unfold State.spdmMeasurements
  extract_lets +onlyGivenNames -merge op; try clear_value op
  extract_lets +onlyGivenNames -merge is; try clear_value is
  refine KeepsR.ite ?_ ?_
  · exact KeepsR.mk ‹_›
  · split
    · rename_i heq
      have := KeepsR.eq heq (show KeepsR q a _ from by
        exact keeps_draw ‹_›
        )
      extract_lets +onlyGivenNames -merge recs; try clear_value recs
      split
      · rename_i heq
        have := KeepsR.eq heq (show KeepsR q a _ from by
          exact keeps_drawBytes ‹_›
          )
        split
        · rename_i heq
          have := KeepsR.eq heq (show KeepsR q a _ from by
            exact keeps_drawBytes ‹_›
            )
          exact KeepsR.mk ‹_›

theorem keeps_execGetMeasurements {s : State} {x0 : Nat} {x1 : List Byte} {x2 : Bool} : KeepsRes s (execGetMeasurements x0 x1 x2 s) := by
  unfold execGetMeasurements
  refine KeepsRes.next ?_
  refine keeps_spdmPlain ?_ (fun _ _ h => ?_)
  · first | exact Keeps.refl | assumption
  · refine keeps_spdmMeasurements ?_
    first | exact Keeps.refl | assumption

theorem keeps_spdmKeyExchange {q : Bool} {a s : State} {x1 : List Byte} (h : Keeps q a s) : KeepsR q a (State.spdmKeyExchange s x1) := by
  unfold State.spdmKeyExchange
  split
  · rename_i heq
    have := KeepsR.eq heq (show KeepsR q a _ from by
      exact keeps_drawBytes ‹_›
      )
    split
    · rename_i heq
      have := KeepsR.eq heq (show KeepsR q a _ from by
        exact keeps_drawBytes ‹_›
        )
      split
      · rename_i heq
        have := KeepsR.eq heq (show KeepsR q a _ from by
          exact keeps_summaryHash ‹_›
          )
        split
        · rename_i heq
          have := KeepsR.eq heq (show KeepsR q a _ from by
            exact keeps_drawBytes ‹_›
            )
          split
          · exact KeepsR.mk ‹_›
          · exact KeepsR.mk ‹_›
          · refine KeepsR.ite ?_ ?_
            · exact KeepsR.mk ‹_›
            · exact KeepsR.mk (Keeps.record ‹_›)

theorem keeps_execKeyExchange {s : State} {x0 : Nat} {x1 : List Byte} {x2 : Bool} : KeepsRes s (execKeyExchange x0 x1 x2 s) := by
  unfold execKeyExchange
  refine KeepsRes.next ?_
  refine keeps_spdmPlain ?_ (fun _ _ h => ?_)
  · first | exact Keeps.refl | assumption
  · refine keeps_spdmKeyExchange ?_
    first | exact Keeps.refl | assumption

theorem keeps_spdmFinish {q : Bool} {a s : State} {x1 : Option (List Byte)} {x2 : SpdmMsg} {x3 : Nat} {x4 : List Byte} (h : Keeps q a s) : Keeps q a (State.spdmFinish s x1 x2 x3 x4) := by
  unfold State.spdmFinish; exact keeps_spdmRespond (keeps_sessionMod ‹_›)

theorem keeps_execFinish {s : State} {x0 : Nat} {x1 : List Byte} {x2 : Bool} {x3 : Option (List Byte)} : KeepsRes s (execFinish x0 x1 x2 x3 s) := by
  unfold execFinish
  refine KeepsRes.next ?_
  refine keeps_spdmReq ?_ (fun _ _ _ _ h => ?_)
  · first | exact Keeps.refl | assumption
  · refine keeps_spdmFinish ?_
    first | exact Keeps.refl | assumption

theorem keeps_spdmEcho {q : Bool} {a s : State} {x0 : Nat} {x2 : List Byte} (h : Keeps q a s) : KeepsR q a (State.spdmEcho x0 s x2) := by
  unfold State.spdmEcho; exact KeepsR.mk ‹_›

theorem keeps_execHeartbeat {s : State} {x0 : Nat} {x1 : List Byte} {x2 : Bool} : KeepsRes s (execHeartbeat x0 x1 x2 s) := by
  unfold execHeartbeat
  refine KeepsRes.next ?_
  refine keeps_spdmPlain ?_ (fun _ _ h => ?_)
  · first | exact Keeps.refl | assumption
  · refine keeps_spdmEcho ?_
    first | exact Keeps.refl | assumption

theorem keeps_execKeyUpdate {s : State} {x0 : Nat} {x1 : List Byte} {x2 : Bool} : KeepsRes s (execKeyUpdate x0 x1 x2 s) := by
  unfold execKeyUpdate
  refine KeepsRes.next ?_
  refine keeps_spdmPlain ?_ (fun _ _ h => ?_)
  · first | exact Keeps.refl | assumption
  · refine keeps_spdmEcho ?_
    first | exact Keeps.refl | assumption

theorem keeps_spdmEnd {q : Bool} {a s : State} {x1 : SpdmMsg} {x2 : Nat} {x3 : List Byte} (h : Keeps q a s) : Keeps q a (State.spdmEnd s x1 x2 x3) := by
  unfold State.spdmEnd
  extract_lets +onlyGivenNames -merge s1
  have _ : Keeps q a s1 := by unfold s1; exact keeps_spdmRespond ‹_›
  try clear_value s1
  exact Keeps.record ‹_›

theorem keeps_execEndSession {s : State} {x0 : Nat} {x1 : List Byte} {x2 : Bool} : KeepsRes s (execEndSession x0 x1 x2 s) := by
  unfold execEndSession
  refine KeepsRes.next ?_
  refine keeps_spdmReq ?_ (fun _ _ _ _ h => ?_)
  · first | exact Keeps.refl | assumption
  · refine keeps_spdmEnd ?_
    first | exact Keeps.refl | assumption

theorem keeps_spdmChunkSend {q : Bool} {a s : State} {x1 : SpdmMsg} {x2 : Nat} {x3 : List Byte} (h : Keeps q a s) : Keeps q a (State.spdmChunkSend s x1 x2 x3) := by
  unfold State.spdmChunkSend
  extract_lets +onlyGivenNames -merge last; try clear_value last
  extract_lets +onlyGivenNames -merge handle; try clear_value handle
  extract_lets +onlyGivenNames -merge seq; try clear_value seq
  extract_lets +onlyGivenNames -merge data; try clear_value data
  extract_lets +onlyGivenNames -merge have_; try clear_value have_
  extract_lets +onlyGivenNames -merge ack; try clear_value ack
  split
  · exact keeps_spdmRespond (Keeps.record ‹_›)
  · refine Keeps.ite ?_ ?_
    · exact Keeps.record ‹_›
    · exact keeps_spdmRespond (Keeps.record ‹_›)

theorem keeps_execChunkSend {s : State} {x0 : Nat} {x1 : List Byte} {x2 : Bool} : KeepsRes s (execChunkSend x0 x1 x2 s) := by
  unfold execChunkSend
  refine KeepsRes.next ?_
  refine keeps_spdmReq ?_ (fun _ _ _ _ h => ?_)
  · first | exact Keeps.refl | assumption
  · refine keeps_spdmChunkSend ?_
    first | exact Keeps.refl | assumption

theorem keeps_spdmChunkGet {q : Bool} {a s : State} {x1 : Nat} {x2 : List Byte} (h : Keeps q a s) : KeepsR q a (State.spdmChunkGet s x1 x2) := by
  unfold State.spdmChunkGet
  extract_lets +onlyGivenNames -merge seq; try clear_value seq
  split
  · exact KeepsR.mk ‹_›
  · refine KeepsR.ite ?_ ?_
    · exact KeepsR.mk ‹_›
    · extract_lets +onlyGivenNames -merge part; try clear_value part
      extract_lets +onlyGivenNames -merge last; try clear_value last
      exact KeepsR.mk (Keeps.record ‹_›)

theorem keeps_execChunkGet {s : State} {x0 : Nat} {x1 : List Byte} {x2 : Bool} : KeepsRes s (execChunkGet x0 x1 x2 s) := by
  unfold execChunkGet
  refine KeepsRes.next ?_
  refine keeps_spdmReq ?_ (fun _ _ _ _ h => ?_)
  · first | exact Keeps.refl | assumption
  · refine keeps_spdmRespond ?_
    refine KeepsR.out ?_
    refine keeps_spdmChunkGet ?_
    first | exact Keeps.refl | assumption

theorem keeps_kno {q : Bool} {a s : State} {x1 : Nat} (h : Keeps q a s) : KeepsK q a (State.kno s x1) := by
  unfold State.kno; exact KeepsK.mk ‹_›

theorem keeps_kilnMsg {q : Bool} {a s : State} {x1 : Nat} {x2 : State → Session → List Byte → KAns} {x3 : SpdmMsg} {x4 : Nat} {x5 : List Byte} (h : Keeps q a s) (k2 : ∀ y0 y1 y2, Keeps q a y0 → KeepsK q a (x2 y0 y1 y2)) : Keeps q a (State.kilnMsg s x1 x2 x3 x4 x5) := by
  unfold State.kilnMsg
  extract_lets +onlyGivenNames -merge k; try clear_value k
  extract_lets +onlyGivenNames -merge w; try clear_value w
  split
  · assumption
  · refine Keeps.ite ?_ ?_
    · assumption
    · refine Keeps.ite ?_ ?_
      · exact keeps_spdmRespond ‹_›
      · extract_lets +onlyGivenNames -merge formOk; try clear_value formOk
        extract_lets +onlyGivenNames -merge a'
        have _ : KeepsK q a a' := by
          unfold a'
          refine KeepsK.ite ?_ ?_
          · refine k2 _ _ _ ?_
            assumption
          · exact keeps_kno ‹_›
        try clear_value a'
        extract_lets +onlyGivenNames -merge r; try clear_value r
        exact keeps_spdmRespond (KeepsK.out ‹_›)

theorem keeps_kilnRow {s : State} {x1 : Nat} {x2 : List Byte} {x3 : Bool} {x4 : Nat} {x5 : State → Session → List Byte → KAns} (k5 : ∀ y0 y1 y2, Keeps false s y0 → KeepsK false s (x5 y0 y1 y2)) : KeepsRes s (State.kilnRow s x1 x2 x3 x4 x5) := by
  unfold State.kilnRow
  refine keeps_settled ?_
  refine keeps_spdmReq ?_ (fun _ _ _ _ h => ?_)
  · first | exact Keeps.refl | assumption
  · refine keeps_kilnMsg ?_ (fun _ _ _ h => ?_)
    · first | exact Keeps.refl | assumption
    · refine k5 _ _ _ ?_
      first | exact Keeps.refl | assumption

theorem keeps_tenantSet {q : Bool} {a s : State} {x1 : List Byte} (h : Keeps q a s) : Keeps q a (State.tenantSet s x1) := by
  unfold State.tenantSet
  refine Keeps.each ?_ (fun _ _ h => ?_)
  · assumption
  · exact keeps_wr ‹_›

theorem keeps_klnBind {a s : State} {x1 : Session} {x2 : List Byte} (h : Keeps false a s) : KeepsK false a (State.klnBind s x1 x2) := by
  unfold State.klnBind
  extract_lets +onlyGivenNames -merge mem; try clear_value mem
  extract_lets +onlyGivenNames -merge rick; try clear_value rick
  extract_lets +onlyGivenNames -merge link; try clear_value link
  refine KeepsK.ite ?_ ?_
  · exact keeps_kno ‹_›
  · refine KeepsK.ite ?_ ?_
    · exact keeps_kno ‹_›
    · refine KeepsK.ite ?_ ?_
      · exact keeps_kno ‹_›
      · refine KeepsK.ite ?_ ?_
        · exact keeps_kno ‹_›
        · extract_lets +onlyGivenNames -merge fw; try clear_value fw
          extract_lets +onlyGivenNames -merge _ s1
          have _ : Keeps false a s1 := by unfold s1; exact Keeps.record ‹_›
          try clear_value s1
          exact KeepsK.mk (keeps_bstateSet (keeps_bindReset (keeps_tenantSet ‹_›)))

theorem keeps_execBind {s : State} {x0 : Nat} {x1 : List Byte} {x2 : Bool} : KeepsRes s (execBind x0 x1 x2 s) := by
  unfold execBind
  refine keeps_kilnRow (fun _ _ _ h => ?_)
  refine keeps_klnBind ?_
  first | exact Keeps.refl | assumption

theorem keeps_klnKeySet {q : Bool} {a s : State} {x1 : Session} {x2 : List Byte} (h : Keeps q a s) : KeepsK q a (State.klnKeySet s x1 x2) := by
  unfold State.klnKeySet
  extract_lets +onlyGivenNames -merge w; try clear_value w
  extract_lets +onlyGivenNames -merge cls; try clear_value cls
  extract_lets +onlyGivenNames -merge slot; try clear_value slot
  extract_lets +onlyGivenNames -merge key; try clear_value key
  extract_lets +onlyGivenNames -merge bad; try clear_value bad
  refine KeepsK.ite ?_ ?_
  · exact keeps_kno ‹_›
  · refine KeepsK.ite ?_ ?_
    · exact keeps_kno ‹_›
    · refine KeepsK.ite ?_ ?_
      · exact keeps_kno ‹_›
      · refine KeepsK.ite ?_ ?_
        · refine KeepsK.ite ?_ ?_
          · exact keeps_kno ‹_›
          · exact KeepsK.mk (Keeps.record ‹_›)
        · exact KeepsK.mk (Keeps.record ‹_›)

theorem keeps_execKeySet {s : State} {x0 : Nat} {x1 : List Byte} {x2 : Bool} : KeepsRes s (execKeySet x0 x1 x2 s) := by
  unfold execKeySet
  refine keeps_kilnRow (fun _ _ _ h => ?_)
  refine keeps_klnKeySet ?_
  first | exact Keeps.refl | assumption

theorem keeps_weightDestroy {q : Bool} {a s : State} (h : Keeps q a s) : Keeps q a (State.weightDestroy s) := by
  unfold State.weightDestroy; exact keeps_fillsAbandon (keeps_streamsStop (Keeps.record ‹_›))

theorem keeps_klnKeyDestroy {q : Bool} {a s : State} {x1 : Session} {x2 : List Byte} (h : Keeps q a s) : KeepsK q a (State.klnKeyDestroy s x1 x2) := by
  unfold State.klnKeyDestroy
  extract_lets +onlyGivenNames -merge w; try clear_value w
  extract_lets +onlyGivenNames -merge cls; try clear_value cls
  extract_lets +onlyGivenNames -merge slot; try clear_value slot
  refine KeepsK.ite ?_ ?_
  · exact keeps_kno ‹_›
  · refine KeepsK.ite ?_ ?_
    · exact keeps_kno ‹_›
    · refine KeepsK.ite ?_ ?_
      · exact keeps_kno ‹_›
      · refine KeepsK.ite ?_ ?_
        · exact KeepsK.mk (Keeps.record ‹_›)
        · refine KeepsK.ite ?_ ?_
          · exact KeepsK.mk (keeps_weightDestroy ‹_›)
          · exact KeepsK.mk (Keeps.record ‹_›)

theorem keeps_execKeyDestroy {s : State} {x0 : Nat} {x1 : List Byte} {x2 : Bool} : KeepsRes s (execKeyDestroy x0 x1 x2 s) := by
  unfold execKeyDestroy
  refine keeps_kilnRow (fun _ _ _ h => ?_)
  refine keeps_klnKeyDestroy ?_
  first | exact Keeps.refl | assumption

theorem keeps_attest {q : Bool} {a s : State} {x1 : List Byte} (h : Keeps q a s) : KeepsR q a (State.attest s x1) := by
  unfold State.attest
  split
  · rename_i heq
    have := KeepsR.eq heq (show KeepsR q a _ from by
      exact keeps_drawBytes ‹_›
      )
    exact KeepsR.mk ‹_›

theorem keeps_klnReport {q : Bool} {a s : State} {x1 : Session} {x2 : List Byte} (h : Keeps q a s) : KeepsK q a (State.klnReport s x1 x2) := by
  unfold State.klnReport
  refine KeepsK.ite ?_ ?_
  · exact keeps_kno ‹_›
  · exact KeepsK.mk (KeepsR.out (keeps_attest ‹_›))

theorem keeps_execReport {s : State} {x0 : Nat} {x1 : List Byte} {x2 : Bool} : KeepsRes s (execReport x0 x1 x2 s) := by
  unfold execReport
  refine keeps_kilnRow (fun _ _ _ h => ?_)
  refine keeps_klnReport ?_
  first | exact Keeps.refl | assumption

theorem keeps_klnStatus {q : Bool} {a s : State} {x1 : Session} {x2 : List Byte} (h : Keeps q a s) : KeepsK q a (State.klnStatus s x1 x2) := by
  unfold State.klnStatus
  refine KeepsK.ite ?_ ?_
  · exact keeps_kno ‹_›
  · exact KeepsK.mk ‹_›

theorem keeps_execStatus {s : State} {x0 : Nat} {x1 : List Byte} {x2 : Bool} : KeepsRes s (execStatus x0 x1 x2 s) := by
  unfold execStatus
  refine keeps_kilnRow (fun _ _ _ h => ?_)
  refine keeps_klnStatus ?_
  first | exact Keeps.refl | assumption

theorem keeps_klnUnbind {a s : State} {x1 : Session} {x2 : List Byte} (h : Keeps false a s) : KeepsK false a (State.klnUnbind s x1 x2) := by
  unfold State.klnUnbind
  refine KeepsK.ite ?_ ?_
  · exact keeps_kno ‹_›
  · refine KeepsK.ite ?_ ?_
    · exact keeps_kno ‹_›
    · refine KeepsK.ite ?_ ?_
      · exact keeps_kno ‹_›
      · refine KeepsK.ite ?_ ?_
        · exact KeepsK.mk ‹_›
        · exact KeepsK.mk (keeps_unbindBegin ‹_›)

theorem keeps_execUnbind {s : State} {x0 : Nat} {x1 : List Byte} {x2 : Bool} : KeepsRes s (execUnbind x0 x1 x2 s) := by
  unfold execUnbind
  refine keeps_kilnRow (fun _ _ _ h => ?_)
  refine keeps_klnUnbind ?_
  first | exact Keeps.refl | assumption

theorem keeps_klnLogRead {q : Bool} {a s : State} {x1 : Session} {x2 : List Byte} (h : Keeps q a s) : KeepsK q a (State.klnLogRead s x1 x2) := by
  unfold State.klnLogRead
  extract_lets +onlyGivenNames -merge w; try clear_value w
  refine KeepsK.ite ?_ ?_
  · exact keeps_kno ‹_›
  · refine KeepsK.ite ?_ ?_
    · exact keeps_kno ‹_›
    · refine KeepsK.ite ?_ ?_
      · exact keeps_kno ‹_›
      · exact KeepsK.mk ‹_›

theorem keeps_execLogRead {s : State} {x0 : Nat} {x1 : List Byte} {x2 : Bool} : KeepsRes s (execLogRead x0 x1 x2 s) := by
  unfold execLogRead
  refine keeps_kilnRow (fun _ _ _ h => ?_)
  refine keeps_klnLogRead ?_
  first | exact Keeps.refl | assumption

theorem keeps_bindCleared {q : Bool} {a s : State} (h : Keeps q a s) : Keeps q a (State.bindCleared s) :=
  ⟨h.1, fun _ => rfl, h.2.2⟩

theorem keeps_bindDone {q : Bool} {a s : State} (h : Keeps q a s) : Keeps q a (State.bindDone s) := by
  unfold State.bindDone
  refine Keeps.ite ?_ ?_
  · assumption
  · extract_lets +onlyGivenNames -merge s1
    have _ : Keeps q a s1 := by unfold s1; exact keeps_bstateSet (keeps_fsat (keeps_bindCleared ‹_›))
    try clear_value s1
    exact keeps_relogAll ‹_›

theorem keeps_execBindResetComplete {s : State} : KeepsRes s (execBindResetComplete s) := by
  unfold execBindResetComplete
  refine KeepsRes.next ?_
  refine keeps_bindDone ?_
  first | exact Keeps.refl | assumption

theorem keeps_unbindDone {q : Bool} {a s : State} (h : Keeps q a s) : Keeps q a (State.unbindDone s) := by
  unfold State.unbindDone
  refine Keeps.ite ?_ ?_
  · assumption
  · extract_lets +onlyGivenNames -merge s1
    have _ : Keeps q a s1 := by unfold s1; exact keeps_tenantSet (keeps_bstateSet (keeps_fsat (keeps_bindCleared ‹_›)))
    try clear_value s1
    extract_lets +onlyGivenNames -merge _ s2
    have _ : Keeps q a s2 := by
      unfold s2
      refine Keeps.each ?_ (fun _ _ h => ?_)
      · exact Keeps.record ‹_›
      · exact keeps_completeTicket ‹_›
    try clear_value s2
    refine Keeps.ite ?_ ?_
    · exact keeps_bootUnits ‹_›
    · assumption

theorem keeps_execUnbindResetComplete {s : State} : KeepsRes s (execUnbindResetComplete s) := by
  unfold execUnbindResetComplete
  refine KeepsRes.next ?_
  refine keeps_unbindDone ?_
  first | exact Keeps.refl | assumption

theorem keeps_execErrCaptureArm {s : State} {x0 : Nat} : KeepsRes s (execErrCaptureArm x0 s) := by
  unfold execErrCaptureArm
  refine KeepsRes.next ?_
  refine keeps_captureArm ?_
  first | exact Keeps.refl | assumption

theorem keeps_execErrWinFirClear {s : State} {x0 : Nat} : KeepsRes s (execErrWinFirClear x0 s) := by
  unfold execErrWinFirClear
  refine KeepsRes.next ?_
  refine keeps_firClear ?_
  first | exact Keeps.refl | assumption

theorem keeps_windowEnd {q : Bool} {a s : State} {x1 : Nat} (h : Keeps q a s) : Keeps q a (State.windowEnd s x1) := by
  unfold State.windowEnd
  refine Keeps.ite ?_ ?_
  · exact keeps_winClose ‹_›
  · assumption

theorem keeps_execRecoveryWindowEnd {s : State} {x0 : Nat} : KeepsRes s (execRecoveryWindowEnd x0 s) := by
  unfold execRecoveryWindowEnd
  refine KeepsRes.next ?_
  refine keeps_windowEnd ?_
  first | exact Keeps.refl | assumption

theorem keeps_choose {a s : State} {x1 : Nat} (h : Keeps false a s) : Keeps false a (State.choose s x1) := by
  unfold State.choose
  split
  · assumption
  · split
    · refine Keeps.ite ?_ ?_
      · exact keeps_deepen ‹_›
      · assumption
    · assumption

theorem keeps_powerChoice {a s : State} (h : Keeps false a s) : Keeps false a (State.powerChoice s) := by
  unfold State.powerChoice
  refine Keeps.ite ?_ ?_
  · assumption
  · extract_lets +onlyGivenNames -merge _ s0
    have _ : Keeps false a s0 := by unfold s0; exact Keeps.record ‹_›
    try clear_value s0
    extract_lets +onlyGivenNames -merge s1
    have _ : Keeps false a s1 := by
      unfold s1
      refine Keeps.each ?_ (fun _ _ h => ?_)
      · assumption
      · exact keeps_forceOne ‹_›
    try clear_value s1
    refine Keeps.ite ?_ ?_
    · refine keeps_pwrSettle ?_
      refine Keeps.each ?_ (fun _ _ h => ?_)
      · assumption
      · exact keeps_choose ‹_›
    · exact keeps_pwrSettle ‹_›

theorem keeps_execPowerChoice {s : State} : KeepsRes s (execPowerChoice s) := by
  unfold execPowerChoice
  refine keeps_settled ?_
  refine keeps_powerChoice ?_
  first | exact Keeps.refl | assumption

theorem keeps_execDomainWake {s : State} {x0 : Nat} : KeepsRes s (execDomainWake x0 s) := by
  unfold execDomainWake
  refine KeepsRes.ite ?_ ?_
  · refine keeps_settled ?_
    refine keeps_pwrSettle ?_
    refine keeps_wake ?_
    first | exact Keeps.refl | assumption
  · refine KeepsRes.next ?_
    first | exact Keeps.refl | assumption

theorem keeps_powerNotify {q : Bool} {a s : State} {x1 x2 x3 x4 : Nat} (h : Keeps q a s) : Keeps q a (State.powerNotify s x1 x2 x3 x4) := by
  unfold State.powerNotify; exact keeps_event ‹_›

theorem keeps_grantWake {q : Bool} {a s : State} {x1 : WakeReq} (h : Keeps q a s) : Keeps q a (State.grantWake s x1) := by
  unfold State.grantWake
  extract_lets +onlyGivenNames -merge done; try clear_value done
  extract_lets +onlyGivenNames -merge wait; try clear_value wait
  extract_lets +onlyGivenNames -merge _ s1
  have _ : Keeps q a s1 := by unfold s1; exact Keeps.record ‹_›
  try clear_value s1
  extract_lets +onlyGivenNames -merge s2
  have _ : Keeps q a s2 := by unfold s2; exact keeps_fset (keeps_fset (keeps_fsat ‹_›))
  try clear_value s2
  refine Keeps.ite ?_ ?_
  · extract_lets +onlyGivenNames -merge late; try clear_value late
    exact keeps_powerNotify (keeps_errRec (keeps_fsat ‹_›))
  · assumption

theorem keeps_damperLoop {q : Bool} {a : State} {b : Nat} (l : List WakeReq) : ∀ {s : State} {u : Nat}, Keeps q a s → Keeps q a (State.damperLoop s b l u) := by
  induction l with
  | nil => intro s u h; exact h
  | cons r l ih =>
    intro s u h; unfold State.damperLoop
    exact Keeps.ite (ih (keeps_grantWake h)) (Keeps.ite (Keeps.record h) h)

theorem keeps_damperSlot {q : Bool} {a s : State} (h : Keeps q a s) : Keeps q a (State.damperSlot s) := by
  unfold State.damperSlot
  refine Keeps.ite ?_ ?_
  · assumption
  · extract_lets +onlyGivenNames -merge _ s1
    have _ : Keeps q a s1 := by unfold s1; exact Keeps.record ‹_›
    try clear_value s1
    exact keeps_damperShow (keeps_damperLoop _ ‹_›)

theorem keeps_execDamperSlot {s : State} : KeepsRes s (execDamperSlot s) := by
  unfold execDamperSlot
  refine keeps_settled ?_
  refine keeps_damperSlot ?_
  first | exact Keeps.refl | assumption

theorem keeps_wakeDone {q : Bool} {a s : State} {x1 : Nat} (h : Keeps q a s) : Keeps q a (State.wakeDone s x1) := by
  unfold State.wakeDone
  split
  · assumption
  · refine Keeps.ite ?_ ?_
    · assumption
    · exact keeps_pwrSettle (keeps_domUp (Keeps.record ‹_›))

theorem keeps_execDomainWakeComplete {s : State} {x0 : Nat} : KeepsRes s (execDomainWakeComplete x0 s) := by
  unfold execDomainWakeComplete
  refine keeps_settled ?_
  refine keeps_wakeDone ?_
  first | exact Keeps.refl | assumption

theorem keeps_pwrSetTimeout {q : Bool} {a s : State} {x1 : Nat} (h : Keeps q a s) : Keeps q a (State.pwrSetTimeout s x1) := by
  unfold State.pwrSetTimeout
  split
  · assumption
  · refine Keeps.ite ?_ ?_
    · assumption
    · exact keeps_completeTicket (Keeps.record ‹_›)

theorem keeps_execPwrSetTimeout {s : State} {x0 : Nat} : KeepsRes s (execPwrSetTimeout x0 s) := by
  unfold execPwrSetTimeout
  refine keeps_settled ?_
  refine keeps_pwrSetTimeout ?_
  first | exact Keeps.refl | assumption

theorem keeps_floorCheck {q : Bool} {a s : State} {x1 x2 x3 : Nat} (h : Keeps q a s) : Keeps q a (State.floorCheck s x1 x2 x3) := by
  unfold State.floorCheck
  refine Keeps.ite ?_ ?_
  · extract_lets +onlyGivenNames -merge since; try clear_value since
    extract_lets +onlyGivenNames -merge _ s1
    have _ : Keeps q a s1 := by unfold s1; exact Keeps.record ‹_›
    try clear_value s1
    extract_lets +onlyGivenNames -merge free; try clear_value free
    refine Keeps.ite ?_ ?_
    · exact keeps_errRec (Keeps.record ‹_›)
    · assumption
  · exact Keeps.record ‹_›

theorem keeps_smoulder {q : Bool} {a s : State} {x1 : Nat} (h : Keeps q a s) : Keeps q a (State.smoulder s x1) := by
  unfold State.smoulder
  refine Keeps.ite ?_ ?_
  · assumption
  · refine Keeps.ite ?_ ?_
    · exact keeps_fset (Keeps.record ‹_›)
    · extract_lets +onlyGivenNames -merge p; try clear_value p
      extract_lets +onlyGivenNames -merge env; try clear_value env
      extract_lets +onlyGivenNames -merge t; try clear_value t
      extract_lets +onlyGivenNames -merge filler; try clear_value filler
      extract_lets +onlyGivenNames -merge _ s1
      have _ : Keeps q a s1 := by unfold s1; exact keeps_fset (Keeps.record ‹_›)
      try clear_value s1
      extract_lets +onlyGivenNames -merge s2
      have _ : Keeps q a s2 := by
        unfold s2
        refine Keeps.ite ?_ ?_
        · assumption
        · refine Keeps.each ?_ (fun _ _ h => ?_)
          · assumption
          · exact keeps_wake ‹_›
      try clear_value s2
      exact keeps_floorCheck ‹_›

theorem keeps_execSmoulderTick {s : State} {x0 : Nat} : KeepsRes s (execSmoulderTick x0 s) := by
  unfold execSmoulderTick
  refine keeps_settled ?_
  refine keeps_smoulder ?_
  first | exact Keeps.refl | assumption

theorem keeps_estimate {q : Bool} {a s : State} {x1 : Nat} (h : Keeps q a s) : Keeps q a (State.estimate s x1) := by
  unfold State.estimate
  refine Keeps.ite ?_ ?_
  · assumption
  · exact keeps_fset (keeps_fset (Keeps.record ‹_›))

theorem keeps_execPowerEstimate {s : State} {x0 : Nat} : KeepsRes s (execPowerEstimate x0 s) := by
  unfold execPowerEstimate
  refine KeepsRes.next ?_
  refine keeps_estimate ?_
  first | exact Keeps.refl | assumption

theorem keeps_execRetrust {s : State} : KeepsRes s (execRetrust s) := by
  unfold execRetrust
  refine KeepsRes.next ?_
  refine keeps_retrustWrite ?_
  first | exact Keeps.refl | assumption

theorem keeps_tempShow {q : Bool} {a s : State} {x1 : List Nat} {x2 x3 : Nat} (h : Keeps q a s) : Keeps q a (State.tempShow s x1 x2 x3) := by
  unfold State.tempShow
  extract_lets +onlyGivenNames -merge s1
  have _ : Keeps q a s1 := by
    unfold s1
    refine Keeps.each ?_ (fun _ _ h => ?_)
    · assumption
    · extract_lets +onlyGivenNames -merge x'; try clear_value x'
      exact keeps_fset (keeps_fset ‹_›)
  try clear_value s1
  exact keeps_fset (keeps_fset (keeps_fset (keeps_fset ‹_›)))

theorem keeps_capTrigger {q : Bool} {a s : State} {x1 : Nat} (h : Keeps q a s) : Keeps q a (State.capTrigger s x1) := by
  unfold State.capTrigger
  refine Keeps.ite ?_ ?_
  · exact keeps_errRec (keeps_fset ‹_›)
  · assumption

theorem keeps_quench {a s : State} {x1 x2 : Nat} (h : Keeps false a s) : Keeps false a (State.quench s x1 x2) := by
  unfold State.quench
  extract_lets +onlyGivenNames -merge s1
  have _ : Keeps false a s1 := by unfold s1; exact keeps_powerNotify (keeps_errRec ‹_›)
  try clear_value s1
  extract_lets +onlyGivenNames -merge s2
  have _ : Keeps false a s2 := by
    unfold s2
    refine Keeps.each ?_ (fun _ _ h => ?_)
    · assumption
    · exact keeps_linkOff ‹_›
  try clear_value s2
  extract_lets +onlyGivenNames -merge s3
  have _ : Keeps false a s3 := by
    unfold s3
    refine Keeps.each ?_ (fun _ _ h => ?_)
    · assumption
    · exact keeps_deepen ‹_›
  try clear_value s3
  extract_lets +onlyGivenNames -merge _ s4
  have _ : Keeps false a s4 := by unfold s4; exact Keeps.record ‹_›
  try clear_value s4
  exact keeps_damperShow (keeps_fset (keeps_fset (keeps_fset ‹_›)))

theorem keeps_thermReach {a s : State} {x1 x2 x3 x4 : Nat} (h : Keeps false a s) : Keeps false a (State.thermReach s x1 x2 x3 x4) := by
  unfold State.thermReach
  refine Keeps.ite ?_ ?_
  · exact keeps_capTrigger (keeps_powerNotify (keeps_errRec ‹_›))
  · refine Keeps.ite ?_ ?_
    · exact keeps_quench ‹_›
    · assumption

theorem keeps_thermLeave {q : Bool} {a s : State} {x1 x2 x3 x4 : Nat} (h : Keeps q a s) : Keeps q a (State.thermLeave s x1 x2 x3 x4) := by
  unfold State.thermLeave
  refine Keeps.ite ?_ ?_
  · exact keeps_errRec ‹_›
  · assumption

theorem keeps_thermStep {a s : State} {x1 x2 x3 x4 : Nat} (h : Keeps false a s) : Keeps false a (State.thermStep s x1 x2 x3 x4) := by
  unfold State.thermStep
  extract_lets +onlyGivenNames -merge n; try clear_value n
  extract_lets +onlyGivenNames -merge _ s1
  have _ : Keeps false a s1 := by unfold s1; exact Keeps.record ‹_›
  try clear_value s1
  extract_lets +onlyGivenNames -merge on; try clear_value on
  refine Keeps.ite ?_ ?_
  · exact keeps_thermReach (Keeps.record ‹_›)
  · refine Keeps.ite ?_ ?_
    · exact keeps_thermLeave (Keeps.record ‹_›)
    · assumption

theorem keeps_thermSample {a s : State} {x1 : List Nat} {x2 : Nat} (h : Keeps false a s) : Keeps false a (State.thermSample s x1 x2) := by
  unfold State.thermSample
  refine Keeps.ite ?_ ?_
  · assumption
  · split
    · extract_lets +onlyGivenNames -merge _ s0
      have _ : Keeps false a s0 := by unfold s0; exact Keeps.record ‹_›
      try clear_value s0
      extract_lets +onlyGivenNames -merge s1
      have _ : Keeps false a s1 := by
        unfold s1
        refine Keeps.ite ?_ ?_
        · assumption
        · exact keeps_tempShow ‹_›
      try clear_value s1
      refine Keeps.ite ?_ ?_
      · exact keeps_emit (Keeps.record ‹_›)
      · refine Keeps.ite ?_ ?_
        · assumption
        · refine Keeps.each ?_ (fun _ _ h => ?_)
          · assumption
          · exact keeps_thermStep ‹_›

theorem keeps_execThermalSample {s : State} {x0 : List Nat} {x1 : Nat} : KeepsRes s (execThermalSample x0 x1 s) := by
  unfold execThermalSample
  refine keeps_settled ?_
  refine keeps_thermSample ?_
  first | exact Keeps.refl | assumption

theorem keeps_throttleTo {q : Bool} {a s : State} {x1 x2 : Nat} (h : Keeps q a s) : Keeps q a (State.throttleTo s x1 x2) := by
  unfold State.throttleTo
  extract_lets +onlyGivenNames -merge die; try clear_value die
  extract_lets +onlyGivenNames -merge _ s1
  have _ : Keeps q a s1 := by unfold s1; exact Keeps.record ‹_›
  try clear_value s1
  exact keeps_powerNotify (keeps_errRec (keeps_fset ‹_›))

theorem keeps_throttle {q : Bool} {a s : State} (h : Keeps q a s) : Keeps q a (State.throttle s) := by
  unfold State.throttle
  extract_lets +onlyGivenNames -merge l; try clear_value l
  split
  · refine Keeps.ite ?_ ?_
    · exact keeps_throttleTo ‹_›
    · assumption
  · refine Keeps.ite ?_ ?_
    · exact keeps_throttleTo ‹_›
    · assumption

theorem keeps_execThrottleStep {s : State} : KeepsRes s (execThrottleStep s) := by
  unfold execThrottleStep
  refine keeps_settled ?_
  refine keeps_throttle ?_
  first | exact Keeps.refl | assumption

theorem keeps_quenchEnd {a s : State} (h : Keeps false a s) : Keeps false a (State.quenchEnd s) := by
  unfold State.quenchEnd; exact keeps_fset (keeps_deepen ‹_›)

theorem keeps_execQuenchRickReady {s : State} : KeepsRes s (execQuenchRickReady s) := by
  unfold execQuenchRickReady
  refine KeepsRes.ite ?_ ?_
  · refine keeps_settled ?_
    refine keeps_quenchEnd ?_
    first | exact Keeps.refl | assumption
  · refine KeepsRes.next ?_
    first | exact Keeps.refl | assumption

theorem keeps_execQuenchRickTimeout {s : State} : KeepsRes s (execQuenchRickTimeout s) := by
  unfold execQuenchRickTimeout
  refine KeepsRes.ite ?_ ?_
  · refine keeps_settled ?_
    refine keeps_quenchEnd ?_
    first | exact Keeps.refl | assumption
  · refine KeepsRes.next ?_
    first | exact Keeps.refl | assumption

theorem keeps_busStuck {q : Bool} {a s : State} {x1 : Bool} {x2 : Nat} (h : Keeps q a s) : Keeps q a (State.busStuck s x1 x2) := by
  unfold State.busStuck
  extract_lets +onlyGivenNames -merge _ s1
  have _ : Keeps q a s1 := by unfold s1; exact Keeps.record ‹_›
  try clear_value s1
  exact keeps_errRec (keeps_fset ‹_›)

theorem keeps_pollOne {q : Bool} {a s : State} {x1 : Nat} {x2 : PollRead} (h : Keeps q a s) : Keeps q a (State.pollOne s x1 x2) := by
  unfold State.pollOne
  refine Keeps.ite ?_ ?_
  · assumption
  · refine Keeps.ite ?_ ?_
    · exact keeps_fset (keeps_fset ‹_›)
    · refine Keeps.ite ?_ ?_
      · exact keeps_recover ‹_›
      · extract_lets +onlyGivenNames -merge s1
        have _ : Keeps q a s1 := by unfold s1; exact keeps_fsat ‹_›
        try clear_value s1
        extract_lets +onlyGivenNames -merge due; try clear_value due
        extract_lets +onlyGivenNames -merge _ s2
        have _ : Keeps q a s2 := by
          unfold s2
          refine Keeps.ite ?_ ?_
          · exact keeps_errRec (Keeps.record ‹_›)
          · assumption
        try clear_value s2
        refine Keeps.ite ?_ ?_
        · exact keeps_busStuck ‹_›
        · assumption

theorem keeps_readModes {q : Bool} {a s : State} {x1 : List Nat} {x2 : List PollRead} (h : Keeps q a s) : Keeps q a (State.readModes s x1 x2) := by
  unfold State.readModes
  refine Keeps.ite ?_ ?_
  · assumption
  · exact Keeps.record ‹_›

theorem keeps_pollCompare {q : Bool} {a s : State} {x1 : Bool} {x2 : Nat} (h : Keeps q a s) : Keeps q a (State.pollCompare s x1 x2) := by
  unfold State.pollCompare
  extract_lets +onlyGivenNames -merge i; try clear_value i
  extract_lets +onlyGivenNames -merge big; try clear_value big
  extract_lets +onlyGivenNames -merge off; try clear_value off
  extract_lets +onlyGivenNames -merge s1
  have _ : Keeps q a s1 := by unfold s1; exact keeps_fset ‹_›
  try clear_value s1
  refine Keeps.ite ?_ ?_
  · extract_lets +onlyGivenNames -merge n; try clear_value n
    extract_lets +onlyGivenNames -merge _ s2
    have _ : Keeps q a s2 := by unfold s2; exact Keeps.record ‹_›
    try clear_value s2
    refine Keeps.ite ?_ ?_
    · exact keeps_capTrigger (keeps_errRec (keeps_fset ‹_›))
    · assumption
  · extract_lets +onlyGivenNames -merge _ s2
    have _ : Keeps q a s2 := by unfold s2; exact Keeps.record ‹_›
    try clear_value s2
    refine Keeps.ite ?_ ?_
    · exact keeps_fset ‹_›
    · assumption

theorem keeps_poll {q : Bool} {a s : State} {x1 : List PollRead} (h : Keeps q a s) : Keeps q a (State.poll s x1) := by
  unfold State.poll
  refine Keeps.ite ?_ ?_
  · assumption
  · extract_lets +onlyGivenNames -merge es; try clear_value es
    extract_lets +onlyGivenNames -merge stop; try clear_value stop
    extract_lets +onlyGivenNames -merge _ s0
    have _ : Keeps q a s0 := by unfold s0; exact Keeps.record ‹_›
    try clear_value s0
    extract_lets +onlyGivenNames -merge s1
    have _ : Keeps q a s1 := by
      unfold s1
      refine Keeps.each ?_ (fun _ _ h => ?_)
      · refine Keeps.ite ?_ ?_
        · assumption
        · exact keeps_readModes ‹_›
      · exact keeps_pollOne ‹_›
    try clear_value s1
    extract_lets +onlyGivenNames -merge failed; try clear_value failed
    extract_lets +onlyGivenNames -merge sum; try clear_value sum
    exact keeps_pollCompare ‹_›

theorem keeps_execRegulatorPoll {s : State} {x0 : List PollRead} : KeepsRes s (execRegulatorPoll x0 s) := by
  unfold execRegulatorPoll
  refine keeps_settled ?_
  refine keeps_poll ?_
  first | exact Keeps.refl | assumption

theorem keeps_alert {q : Bool} {a s : State} {x1 x2 : Nat} (h : Keeps q a s) : Keeps q a (State.alert s x1 x2) := by
  unfold State.alert
  refine Keeps.ite ?_ ?_
  · assumption
  · extract_lets +onlyGivenNames -merge e; try clear_value e
    extract_lets +onlyGivenNames -merge i; try clear_value i
    extract_lets +onlyGivenNames -merge due; try clear_value due
    extract_lets +onlyGivenNames -merge _ s1
    have _ : Keeps q a s1 := by
      unfold s1
      refine Keeps.ite ?_ ?_
      · exact Keeps.record ‹_›
      · assumption
    try clear_value s1
    split
    · refine Keeps.ite ?_ ?_
      · exact keeps_errRec ‹_›
      · assumption
    · extract_lets +onlyGivenNames -merge s2
      have _ : Keeps q a s2 := by unfold s2; exact keeps_fset ‹_›
      try clear_value s2
      refine Keeps.ite ?_ ?_
      · refine keeps_capTrigger ?_
        refine Keeps.ite ?_ ?_
        · exact keeps_errRec ‹_›
        · assumption
      · refine Keeps.ite ?_ ?_
        · exact keeps_errRec ‹_›
        · assumption

theorem keeps_execRegulatorAlert {s : State} {x0 x1 : Nat} : KeepsRes s (execRegulatorAlert x0 x1 s) := by
  unfold execRegulatorAlert
  refine keeps_settled ?_
  refine keeps_alert ?_
  first | exact Keeps.refl | assumption

theorem keeps_xferDone {q : Bool} {a s : State} {x1 : Nat} {x2 : List Byte} (h : Keeps q a s) : Keeps q a (State.xferDone s x1 x2) := by
  unfold State.xferDone
  split
  · assumption
  · refine Keeps.ite ?_ ?_
    · refine Keeps.ite ?_ ?_
      · assumption
      · exact keeps_recover ‹_›
    · extract_lets +onlyGivenNames -merge _ s1
      have _ : Keeps q a s1 := by unfold s1; exact keeps_emit (Keeps.record ‹_›)
      try clear_value s1
      refine Keeps.ite ?_ ?_
      · exact keeps_completeTicket ‹_›
      · refine keeps_completeTicket ?_
        refine Keeps.ite ?_ ?_
        · exact keeps_busStuck ‹_›
        · assumption

theorem keeps_execSbdXferDone {s : State} {x0 : Nat} {x1 : List Byte} : KeepsRes s (execSbdXferDone x0 x1 s) := by
  unfold execSbdXferDone
  refine keeps_settled ?_
  refine keeps_xferDone ?_
  first | exact Keeps.refl | assumption

theorem keeps_recoverEnd {q : Bool} {a s : State} (h : Keeps q a s) : Keeps q a (State.recoverEnd s) := by
  unfold State.recoverEnd
  refine Keeps.ite ?_ ?_
  · exact keeps_recover (Keeps.record ‹_›)
  · assumption

theorem keeps_attempt {q : Bool} {a s : State} {x1 : Bool} {x2 : Nat} {x3 : Bool} (h : Keeps q a s) : Keeps q a (State.attempt s x1 x2 x3) := by
  unfold State.attempt
  split
  · assumption
  · refine Keeps.ite ?_ ?_
    · assumption
    · refine Keeps.ite ?_ ?_
      · extract_lets +onlyGivenNames -merge _ s1
        have _ : Keeps q a s1 := by unfold s1; exact Keeps.record ‹_›
        try clear_value s1
        exact keeps_recoverEnd (keeps_errRec (keeps_fset ‹_›))
      · refine Keeps.ite ?_ ?_
        · exact keeps_recoverEnd (keeps_busStuck ‹_›)
        · exact Keeps.record ‹_›

theorem keeps_execBusRecoveryAttempt {s : State} {x0 : Bool} {x1 : Nat} {x2 : Bool} : KeepsRes s (execBusRecoveryAttempt x0 x1 x2 s) := by
  unfold execBusRecoveryAttempt
  refine keeps_settled ?_
  refine keeps_attempt ?_
  first | exact Keeps.refl | assumption

theorem keeps_execRevive {s : State} : KeepsRes s (execRevive s) := by
  unfold execRevive
  refine KeepsRes.next ?_
  refine keeps_reviveWrite ?_
  first | exact Keeps.refl | assumption

theorem keeps_trayWrite {q : Bool} {a s : State} {x1 : Nat} {x2 : Cmd} (h : Keeps q a s) : Keeps q a (State.trayWrite s x1 x2) := by
  unfold State.trayWrite
  refine Keeps.ite ?_ ?_
  · assumption
  · refine Keeps.ite ?_ ?_
    · exact keeps_fsat ‹_›
    · exact keeps_arrive ‹_›

theorem keeps_execSbWrite {s : State} {x0 : Nat} {x1 : Cmd} : KeepsRes s (execSbWrite x0 x1 s) := by
  unfold execSbWrite
  refine keeps_settled ?_
  refine keeps_trayWrite ?_
  first | exact Keeps.refl | assumption

theorem keeps_trayRead {q : Bool} {a s : State} (h : Keeps q a s) : Keeps q a (State.trayRead s) := by
  unfold State.trayRead
  refine Keeps.ite ?_ ?_
  · assumption
  · split
    · exact keeps_emit ‹_›
    · exact keeps_emit (Keeps.record ‹_›)

theorem keeps_execSbRead {s : State} : KeepsRes s (execSbRead s) := by
  unfold execSbRead
  refine KeepsRes.next ?_
  refine keeps_trayRead ?_
  first | exact Keeps.refl | assumption

theorem keeps_execTraySclTimeout {s : State} : KeepsRes s (execTraySclTimeout s) := by
  unfold execTraySclTimeout
  refine KeepsRes.next ?_
  first | exact Keeps.refl | assumption

theorem keeps_execEnec {s : State} {x0 : Nat} : KeepsRes s (execEnec x0 s) := by
  unfold execEnec
  refine KeepsRes.next ?_
  refine Keeps.ite ?_ ?_
  · refine Keeps.record ?_
    first | exact Keeps.refl | assumption
  · first | exact Keeps.refl | assumption

theorem keeps_execDisec {s : State} {x0 : Nat} : KeepsRes s (execDisec x0 s) := by
  unfold execDisec
  refine KeepsRes.next ?_
  refine Keeps.ite ?_ ?_
  · refine Keeps.record ?_
    first | exact Keeps.refl | assumption
  · first | exact Keeps.refl | assumption

theorem keeps_trayAddr {q : Bool} {a s : State} {x1 : Option Nat} (h : Keeps q a s) : Keeps q a (State.trayAddr s x1) := by
  unfold State.trayAddr; exact keeps_fset (keeps_fset ‹_›)

theorem keeps_execRstdaa {s : State} : KeepsRes s (execRstdaa s) := by
  unfold execRstdaa
  refine KeepsRes.next ?_
  refine keeps_trayAddr ?_
  first | exact Keeps.refl | assumption

theorem keeps_execEntdaa {s : State} {x0 : Nat} : KeepsRes s (execEntdaa x0 s) := by
  unfold execEntdaa
  refine KeepsRes.next ?_
  refine Keeps.ite ?_ ?_
  · first | exact Keeps.refl | assumption
  · refine keeps_trayAddr ?_
    first | exact Keeps.refl | assumption

theorem keeps_execSetdasa {s : State} {x0 : Nat} : KeepsRes s (execSetdasa x0 s) := by
  unfold execSetdasa
  refine KeepsRes.next ?_
  refine Keeps.ite ?_ ?_
  · first | exact Keeps.refl | assumption
  · refine keeps_trayAddr ?_
    first | exact Keeps.refl | assumption

theorem keeps_execSetmwl {s : State} {x0 : Nat} : KeepsRes s (execSetmwl x0 s) := by
  unfold execSetmwl
  refine KeepsRes.next ?_
  refine Keeps.ite ?_ ?_
  · refine Keeps.record ?_
    first | exact Keeps.refl | assumption
  · first | exact Keeps.refl | assumption

theorem keeps_execSetmrl {s : State} {x0 : Nat} : KeepsRes s (execSetmrl x0 s) := by
  unfold execSetmrl
  refine KeepsRes.next ?_
  refine Keeps.ite ?_ ?_
  · refine Keeps.record ?_
    first | exact Keeps.refl | assumption
  · first | exact Keeps.refl | assumption

theorem keeps_ccc {q : Bool} {a s : State} {x1 x2 : Nat} (h : Keeps q a s) : Keeps q a (State.ccc s x1 x2) := by
  unfold State.ccc
  refine Keeps.ite ?_ ?_
  · exact keeps_emit ‹_›
  · assumption

theorem keeps_execGetmwl {s : State} : KeepsRes s (execGetmwl s) := by
  unfold execGetmwl
  refine KeepsRes.next ?_
  refine keeps_ccc ?_
  first | exact Keeps.refl | assumption

theorem keeps_execGetmrl {s : State} : KeepsRes s (execGetmrl s) := by
  unfold execGetmrl
  refine KeepsRes.next ?_
  refine keeps_ccc ?_
  first | exact Keeps.refl | assumption

theorem keeps_execGetpid {s : State} : KeepsRes s (execGetpid s) := by
  unfold execGetpid
  refine KeepsRes.next ?_
  refine keeps_ccc ?_
  first | exact Keeps.refl | assumption

theorem keeps_execGetbcr {s : State} : KeepsRes s (execGetbcr s) := by
  unfold execGetbcr
  refine KeepsRes.next ?_
  refine keeps_ccc ?_
  first | exact Keeps.refl | assumption

theorem keeps_execGetdcr {s : State} : KeepsRes s (execGetdcr s) := by
  unfold execGetdcr
  refine KeepsRes.next ?_
  refine keeps_ccc ?_
  first | exact Keeps.refl | assumption

theorem keeps_execGetstatus {s : State} : KeepsRes s (execGetstatus s) := by
  unfold execGetstatus
  refine KeepsRes.next ?_
  refine Keeps.ite ?_ ?_
  · refine keeps_ccc ?_
    refine KeepsR.out ?_
    refine keeps_draw ?_
    first | exact Keeps.refl | assumption
  · first | exact Keeps.refl | assumption

theorem keeps_imageErase {q : Bool} {a s : State} {x1 x2 : Nat} (h : Keeps q a s) : Keeps q a (State.imageErase s x1 x2) := by
  unfold State.imageErase
  refine Keeps.ite ?_ ?_
  · exact Keeps.record ‹_›
  · assumption

theorem keeps_execImageErase {s : State} {x0 x1 : Nat} : KeepsRes s (execImageErase x0 x1 s) := by
  unfold execImageErase
  refine KeepsRes.next ?_
  refine keeps_imageErase ?_
  first | exact Keeps.refl | assumption

theorem keeps_imageProgram {q : Bool} {a s : State} {x1 x2 : Nat} {x3 : List Byte} (h : Keeps q a s) : Keeps q a (State.imageProgram s x1 x2 x3) := by
  unfold State.imageProgram
  refine Keeps.ite ?_ ?_
  · exact Keeps.record ‹_›
  · assumption

theorem keeps_execImageProgram {s : State} {x0 x1 : Nat} {x2 : List Byte} : KeepsRes s (execImageProgram x0 x1 x2 s) := by
  unfold execImageProgram
  refine KeepsRes.next ?_
  refine keeps_imageProgram ?_
  first | exact Keeps.refl | assumption

theorem keeps_execImageReadStatus {s : State} : KeepsRes s (execImageReadStatus s) := by
  unfold execImageReadStatus
  refine KeepsRes.next ?_
  refine Keeps.ite ?_ ?_
  · first | exact Keeps.refl | assumption
  · refine keeps_emit ?_
    first | exact Keeps.refl | assumption

theorem keeps_feedLines {q : Bool} {a : State} {c : Nat} (n : Nat) : ∀ {s : State} {i l f : Nat}, Keeps q a s → KeepsL q a (State.feedLines s c i l f n) := by
  induction n with
  | zero => intro s i l f h; exact h
  | succ n ih =>
    intro s i l f h; unfold State.feedLines; dsimp only
    refine KeepsL.ite (KeepsL.mk h) ?_
    split
    · exact KeepsL.mk (keeps_internalTouch h)
    · exact ih (keeps_crcFeed (keeps_internalTouch h))

theorem keeps_feedDone {q : Bool} {a s : State} {x1 : Nat} (h : Keeps q a s) : Keeps q a (State.feedDone s x1) := by
  unfold State.feedDone
  split
  · assumption
  · refine Keeps.ite ?_ ?_
    · assumption
    · split
      · rename_i heq
        have := KeepsL.eq heq (show KeepsL q a _ from by
          exact keeps_feedLines _ ‹_›
          )
        extract_lets +onlyGivenNames -merge _ s2
        have _ : Keeps q a s2 := by unfold s2; exact Keeps.record ‹_›
        try clear_value s2
        exact keeps_completeTicket (keeps_crcRelease ‹_›)

theorem keeps_execCrcFeedDone {s : State} {x0 : Nat} : KeepsRes s (execCrcFeedDone x0 s) := by
  unfold execCrcFeedDone
  refine KeepsRes.next ?_
  refine keeps_feedDone ?_
  first | exact Keeps.refl | assumption

theorem keeps_crcCfgWrite {q : Bool} {a s : State} {x1 x2 : Nat} {x3 : Word} (h : Keeps q a s) : Keeps q a (State.crcCfgWrite s x1 x2 x3) := by
  unfold State.crcCfgWrite
  extract_lets +onlyGivenNames -merge v; try clear_value v
  extract_lets +onlyGivenNames -merge pick; try clear_value pick
  refine Keeps.ite ?_ ?_
  · assumption
  · refine Keeps.ite ?_ ?_
    · exact keeps_crcCfgApply ‹_›
    · assumption

theorem keeps_execCrcConfigWrite {s : State} {x0 x1 x2 : Nat} : KeepsRes s (execCrcConfigWrite x0 x1 x2 s) := by
  unfold execCrcConfigWrite
  refine KeepsRes.next ?_
  refine Keeps.ite ?_ ?_
  · refine keeps_crcCfgWrite ?_
    first | exact Keeps.refl | assumption
  · first | exact Keeps.refl | assumption

theorem keeps_execCrcRestart {s : State} {x0 : Nat} : KeepsRes s (execCrcRestart x0 s) := by
  unfold execCrcRestart
  refine KeepsRes.next ?_
  refine Keeps.ite ?_ ?_
  · refine keeps_crcRestartWrite ?_
    first | exact Keeps.refl | assumption
  · first | exact Keeps.refl | assumption

theorem keeps_holdEnd {q : Bool} {a s : State} (h : Keeps q a s) : Keeps q a (State.holdEnd s) := by
  unfold State.holdEnd
  refine Keeps.ite ?_ ?_
  · assumption
  · exact keeps_fset (Keeps.record ‹_›)

theorem keeps_execTimeHoldEnd {s : State} : KeepsRes s (execTimeHoldEnd s) := by
  unfold execTimeHoldEnd
  refine KeepsRes.next ?_
  refine keeps_holdEnd ?_
  first | exact Keeps.refl | assumption

theorem keeps_execTelSnap {s : State} : KeepsRes s (execTelSnap s) := by
  unfold execTelSnap
  refine KeepsRes.next ?_
  refine keeps_snap ?_
  first | exact Keeps.refl | assumption

theorem keeps_jtagBypass {q : Bool} {a s : State} {x1 : Nat} (h : Keeps q a s) : Keeps q a (State.jtagBypass s x1) := by
  unfold State.jtagBypass; exact keeps_emit (keeps_jtagIr ‹_›)

theorem keeps_jtagExtest {q : Bool} {a s : State} {x1 : List Bool} (h : Keeps q a s) : Keeps q a (State.jtagExtest s x1) := by
  unfold State.jtagExtest
  refine Keeps.ite ?_ ?_
  · extract_lets +onlyGivenNames -merge s1
    have _ : Keeps q a s1 := by unfold s1; exact keeps_jtagIr ‹_›
    try clear_value s1
    exact keeps_emit (Keeps.record ‹_›)
  · exact keeps_jtagBypass ‹_›

theorem keeps_execExtest {s : State} {x0 : List Bool} : KeepsRes s (execExtest x0 s) := by
  unfold execExtest
  refine KeepsRes.next ?_
  refine keeps_jtagExtest ?_
  first | exact Keeps.refl | assumption

theorem keeps_jtagIdcode {q : Bool} {a s : State} (h : Keeps q a s) : Keeps q a (State.jtagIdcode s) := by
  unfold State.jtagIdcode; exact keeps_emit (keeps_jtagIr ‹_›)

theorem keeps_execIdcode {s : State} : KeepsRes s (execIdcode s) := by
  unfold execIdcode
  refine KeepsRes.next ?_
  refine keeps_jtagIdcode ?_
  first | exact Keeps.refl | assumption

theorem keeps_jtagSample {q : Bool} {a s : State} {x1 x2 : List Bool} (h : Keeps q a s) : Keeps q a (State.jtagSample s x1 x2) := by
  unfold State.jtagSample
  extract_lets +onlyGivenNames -merge s1
  have _ : Keeps q a s1 := by unfold s1; exact keeps_jtagIr ‹_›
  try clear_value s1
  exact keeps_emit (Keeps.record ‹_›)

theorem keeps_execSamplePreload {s : State} {x0 x1 : List Bool} : KeepsRes s (execSamplePreload x0 x1 s) := by
  unfold execSamplePreload
  refine KeepsRes.next ?_
  refine keeps_jtagSample ?_
  first | exact Keeps.refl | assumption

theorem keeps_jtagHold {q : Bool} {a s : State} {x1 : Nat} {x2 : Lands} (h : Keeps q a s) : Keeps q a (State.jtagHold s x1 x2) := by
  unfold State.jtagHold
  refine Keeps.ite ?_ ?_
  · exact keeps_emit (keeps_jtagIr ‹_›)
  · exact keeps_jtagBypass ‹_›

theorem keeps_execClamp {s : State} : KeepsRes s (execClamp s) := by
  unfold execClamp
  refine KeepsRes.next ?_
  refine keeps_jtagHold ?_
  first | exact Keeps.refl | assumption

theorem keeps_execHighz {s : State} : KeepsRes s (execHighz s) := by
  unfold execHighz
  refine KeepsRes.next ?_
  refine keeps_jtagHold ?_
  first | exact Keeps.refl | assumption

theorem keeps_execBypass {s : State} : KeepsRes s (execBypass s) := by
  unfold execBypass
  refine KeepsRes.next ?_
  refine keeps_jtagBypass ?_
  first | exact Keeps.refl | assumption

theorem keeps_execPrivateInstruction {s : State} {x0 : Nat} : KeepsRes s (execPrivateInstruction x0 s) := by
  unfold execPrivateInstruction
  refine KeepsRes.ite ?_ ?_
  · exact KeepsRes.refused
  · refine KeepsRes.next ?_
    refine keeps_jtagBypass ?_
    first | exact Keeps.refl | assumption

theorem keeps_laserReturn {q : Bool} {a s : State} {x1 x2 : Nat} (h : Keeps q a s) : Keeps q a (State.laserReturn s x1 x2) := by
  unfold State.laserReturn
  extract_lets +onlyGivenNames -merge s1
  have _ : Keeps q a s1 := by unfold s1; exact keeps_fset ‹_›
  try clear_value s1
  refine Keeps.ite ?_ ?_
  · exact keeps_fset ‹_›
  · assumption

theorem keeps_execLaserPowerReturn {s : State} {x0 x1 : Nat} : KeepsRes s (execLaserPowerReturn x0 x1 s) := by
  unfold execLaserPowerReturn
  refine KeepsRes.ite ?_ ?_
  · refine keeps_settled ?_
    refine keeps_laserReturn ?_
    first | exact Keeps.refl | assumption
  · refine KeepsRes.next ?_
    first | exact Keeps.refl | assumption

theorem keeps_loaderDone {q : Bool} {a s : State} {x1 : Bool} (h : Keeps q a s) : Keeps q a (State.loaderDone s x1) := by
  unfold State.loaderDone
  split
  · assumption
  · extract_lets +onlyGivenNames -merge _ s1
    have _ : Keeps q a s1 := by unfold s1; exact Keeps.record ‹_›
    try clear_value s1
    refine Keeps.ite ?_ ?_
    · exact keeps_errRec ‹_›
    · assumption

theorem keeps_execImageLoaderDone {s : State} {x0 : Bool} : KeepsRes s (execImageLoaderDone x0 s) := by
  unfold execImageLoaderDone
  refine keeps_settled ?_
  refine keeps_loaderDone ?_
  first | exact Keeps.refl | assumption

theorem keeps_sessionExpire {q : Bool} {a s : State} {x1 : Nat} (h : Keeps q a s) : Keeps q a (State.sessionExpire s x1) := by
  unfold State.sessionExpire; exact Keeps.record ‹_›

theorem keeps_execSessionHeartbeatExpiry {s : State} {x0 : Nat} : KeepsRes s (execSessionHeartbeatExpiry x0 s) := by
  unfold execSessionHeartbeatExpiry
  refine KeepsRes.next ?_
  refine keeps_sessionExpire ?_
  first | exact Keeps.refl | assumption

theorem keeps_barRead {q : Bool} {a s : State} {x1 x2 x3 x4 : Nat} (h : Keeps q a s) : Keeps q a (State.barRead s x1 x2 x3 x4) := by
  unfold State.barRead
  refine Keeps.ite ?_ ?_
  · assumption
  · refine Keeps.ite ?_ ?_
    · exact keeps_emit ‹_›
    · exact keeps_emit (keeps_fsat ‹_›)

theorem keeps_execBarRead {s : State} {x0 x1 x2 x3 : Nat} : KeepsRes s (execBarRead x0 x1 x2 x3 s) := by
  unfold execBarRead
  refine KeepsRes.next ?_
  refine Keeps.ite ?_ ?_
  · refine keeps_barRead ?_
    first | exact Keeps.refl | assumption
  · first | exact Keeps.refl | assumption

theorem keeps_tick {q : Bool} {a s : State} (h : Keeps q a s) : Keeps q a (State.tick s) := by
  unfold State.tick
  extract_lets +onlyGivenNames -merge s1
  have _ : Keeps q a s1 := by unfold s1; exact Keeps.record ‹_›
  try clear_value s1
  refine Keeps.ite ?_ ?_
  · exact keeps_wr ‹_›
  · assumption

end Sys2Proof.Machine
end

