-- ==== Sys2Proof/Laws/State.lean ====
section
/-! SUPPORT. One lemma per field and update of State: an update leaves every other field as it was. -/

namespace Sys2Proof.Machine
open Sys2Proof

/-! ### `wr` changes `regs` alone -/

@[simp] theorem State.wr_now (s : State) (r : RegName) (i j : Nat) (w : Word) : (s.wr r i j w).now = s.now := rfl
@[simp] theorem State.wr_freeN (s : State) (r : RegName) (i j : Nat) (w : Word) : (s.wr r i j w).freeN = s.freeN := rfl
@[simp] theorem State.wr_mem (s : State) (r : RegName) (i j : Nat) (w : Word) : (s.wr r i j w).mem = s.mem := rfl
@[simp] theorem State.wr_lines (s : State) (r : RegName) (i j : Nat) (w : Word) : (s.wr r i j w).lines = s.lines := rfl
@[simp] theorem State.wr_out (s : State) (r : RegName) (i j : Nat) (w : Word) : (s.wr r i j w).out = s.out := rfl
@[simp] theorem State.wr_epb (s : State) (r : RegName) (i j : Nat) (w : Word) : (s.wr r i j w).epb = s.epb := rfl
@[simp] theorem State.wr_tags (s : State) (r : RegName) (i j : Nat) (w : Word) : (s.wr r i j w).tags = s.tags := rfl
@[simp] theorem State.wr_gens (s : State) (r : RegName) (i j : Nat) (w : Word) : (s.wr r i j w).gens = s.gens := rfl
@[simp] theorem State.wr_late (s : State) (r : RegName) (i j : Nat) (w : Word) : (s.wr r i j w).late = s.late := rfl
@[simp] theorem State.wr_waitq (s : State) (r : RegName) (i j : Nat) (w : Word) : (s.wr r i j w).waitq = s.waitq := rfl
@[simp] theorem State.wr_serial (s : State) (r : RegName) (i j : Nat) (w : Word) : (s.wr r i j w).serial = s.serial := rfl
@[simp] theorem State.wr_fseq (s : State) (r : RegName) (i j : Nat) (w : Word) : (s.wr r i j w).fseq = s.fseq := rfl
@[simp] theorem State.wr_inq (s : State) (r : RegName) (i j : Nat) (w : Word) : (s.wr r i j w).inq = s.inq := rfl
@[simp] theorem State.wr_delivered (s : State) (r : RegName) (i j : Nat) (w : Word) : (s.wr r i j w).delivered = s.delivered := rfl
@[simp] theorem State.wr_cmd (s : State) (r : RegName) (i j : Nat) (w : Word) : (s.wr r i j w).cmd = s.cmd := rfl
@[simp] theorem State.wr_err (s : State) (r : RegName) (i j : Nat) (w : Word) : (s.wr r i j w).err = s.err := rfl
@[simp] theorem State.wr_hbm (s : State) (r : RegName) (i j : Nat) (w : Word) : (s.wr r i j w).hbm = s.hbm := rfl
@[simp] theorem State.wr_xlat (s : State) (r : RegName) (i j : Nat) (w : Word) : (s.wr r i j w).xlat = s.xlat := rfl
@[simp] theorem State.wr_jtag (s : State) (r : RegName) (i j : Nat) (w : Word) : (s.wr r i j w).jtag = s.jtag := rfl
@[simp] theorem State.wr_kln (s : State) (r : RegName) (i j : Nat) (w : Word) : (s.wr r i j w).kln = s.kln := rfl
@[simp] theorem State.wr_lnk (s : State) (r : RegName) (i j : Nat) (w : Word) : (s.wr r i j w).lnk = s.lnk := rfl
@[simp] theorem State.wr_sw (s : State) (r : RegName) (i j : Nat) (w : Word) : (s.wr r i j w).sw = s.sw := rfl
@[simp] theorem State.wr_opt (s : State) (r : RegName) (i j : Nat) (w : Word) : (s.wr r i j w).opt = s.opt := rfl
@[simp] theorem State.wr_pwr (s : State) (r : RegName) (i j : Nat) (w : Word) : (s.wr r i j w).pwr = s.pwr := rfl
@[simp] theorem State.wr_sbd (s : State) (r : RegName) (i j : Nat) (w : Word) : (s.wr r i j w).sbd = s.sbd := rfl
@[simp] theorem State.wr_rick (s : State) (r : RegName) (i j : Nat) (w : Word) : (s.wr r i j w).rick = s.rick := rfl
@[simp] theorem State.wr_rsv (s : State) (r : RegName) (i j : Nat) (w : Word) : (s.wr r i j w).rsv = s.rsv := rfl
@[simp] theorem State.wr_spn (s : State) (r : RegName) (i j : Nat) (w : Word) : (s.wr r i j w).spn = s.spn := rfl
@[simp] theorem State.wr_crc (s : State) (r : RegName) (i j : Nat) (w : Word) : (s.wr r i j w).crc = s.crc := rfl
@[simp] theorem State.wr_host (s : State) (r : RegName) (i j : Nat) (w : Word) : (s.wr r i j w).host = s.host := rfl
@[simp] theorem State.wr_tel (s : State) (r : RegName) (i j : Nat) (w : Word) : (s.wr r i j w).tel = s.tel := rfl
@[simp] theorem State.wr_boot (s : State) (r : RegName) (i j : Nat) (w : Word) : (s.wr r i j w).boot = s.boot := rfl
@[simp] theorem State.wr_pending (s : State) (r : RegName) (i j : Nat) (w : Word) : (s.wr r i j w).pending = s.pending := rfl

/-! ### `fset` changes `regs` alone -/

@[simp] theorem State.fset_now (s : State) (f : Fld) (i j v : Nat) : (s.fset f i j v).now = s.now := rfl
@[simp] theorem State.fset_freeN (s : State) (f : Fld) (i j v : Nat) : (s.fset f i j v).freeN = s.freeN := rfl
@[simp] theorem State.fset_mem (s : State) (f : Fld) (i j v : Nat) : (s.fset f i j v).mem = s.mem := rfl
@[simp] theorem State.fset_lines (s : State) (f : Fld) (i j v : Nat) : (s.fset f i j v).lines = s.lines := rfl
@[simp] theorem State.fset_out (s : State) (f : Fld) (i j v : Nat) : (s.fset f i j v).out = s.out := rfl
@[simp] theorem State.fset_epb (s : State) (f : Fld) (i j v : Nat) : (s.fset f i j v).epb = s.epb := rfl
@[simp] theorem State.fset_tags (s : State) (f : Fld) (i j v : Nat) : (s.fset f i j v).tags = s.tags := rfl
@[simp] theorem State.fset_gens (s : State) (f : Fld) (i j v : Nat) : (s.fset f i j v).gens = s.gens := rfl
@[simp] theorem State.fset_late (s : State) (f : Fld) (i j v : Nat) : (s.fset f i j v).late = s.late := rfl
@[simp] theorem State.fset_waitq (s : State) (f : Fld) (i j v : Nat) : (s.fset f i j v).waitq = s.waitq := rfl
@[simp] theorem State.fset_serial (s : State) (f : Fld) (i j v : Nat) : (s.fset f i j v).serial = s.serial := rfl
@[simp] theorem State.fset_fseq (s : State) (f : Fld) (i j v : Nat) : (s.fset f i j v).fseq = s.fseq := rfl
@[simp] theorem State.fset_inq (s : State) (f : Fld) (i j v : Nat) : (s.fset f i j v).inq = s.inq := rfl
@[simp] theorem State.fset_delivered (s : State) (f : Fld) (i j v : Nat) : (s.fset f i j v).delivered = s.delivered := rfl
@[simp] theorem State.fset_cmd (s : State) (f : Fld) (i j v : Nat) : (s.fset f i j v).cmd = s.cmd := rfl
@[simp] theorem State.fset_err (s : State) (f : Fld) (i j v : Nat) : (s.fset f i j v).err = s.err := rfl
@[simp] theorem State.fset_hbm (s : State) (f : Fld) (i j v : Nat) : (s.fset f i j v).hbm = s.hbm := rfl
@[simp] theorem State.fset_xlat (s : State) (f : Fld) (i j v : Nat) : (s.fset f i j v).xlat = s.xlat := rfl
@[simp] theorem State.fset_jtag (s : State) (f : Fld) (i j v : Nat) : (s.fset f i j v).jtag = s.jtag := rfl
@[simp] theorem State.fset_kln (s : State) (f : Fld) (i j v : Nat) : (s.fset f i j v).kln = s.kln := rfl
@[simp] theorem State.fset_lnk (s : State) (f : Fld) (i j v : Nat) : (s.fset f i j v).lnk = s.lnk := rfl
@[simp] theorem State.fset_sw (s : State) (f : Fld) (i j v : Nat) : (s.fset f i j v).sw = s.sw := rfl
@[simp] theorem State.fset_opt (s : State) (f : Fld) (i j v : Nat) : (s.fset f i j v).opt = s.opt := rfl
@[simp] theorem State.fset_pwr (s : State) (f : Fld) (i j v : Nat) : (s.fset f i j v).pwr = s.pwr := rfl
@[simp] theorem State.fset_sbd (s : State) (f : Fld) (i j v : Nat) : (s.fset f i j v).sbd = s.sbd := rfl
@[simp] theorem State.fset_rick (s : State) (f : Fld) (i j v : Nat) : (s.fset f i j v).rick = s.rick := rfl
@[simp] theorem State.fset_rsv (s : State) (f : Fld) (i j v : Nat) : (s.fset f i j v).rsv = s.rsv := rfl
@[simp] theorem State.fset_spn (s : State) (f : Fld) (i j v : Nat) : (s.fset f i j v).spn = s.spn := rfl
@[simp] theorem State.fset_crc (s : State) (f : Fld) (i j v : Nat) : (s.fset f i j v).crc = s.crc := rfl
@[simp] theorem State.fset_host (s : State) (f : Fld) (i j v : Nat) : (s.fset f i j v).host = s.host := rfl
@[simp] theorem State.fset_tel (s : State) (f : Fld) (i j v : Nat) : (s.fset f i j v).tel = s.tel := rfl
@[simp] theorem State.fset_boot (s : State) (f : Fld) (i j v : Nat) : (s.fset f i j v).boot = s.boot := rfl
@[simp] theorem State.fset_pending (s : State) (f : Fld) (i j v : Nat) : (s.fset f i j v).pending = s.pending := rfl

/-! ### `fsat` changes `regs` alone -/

@[simp] theorem State.fsat_now (s : State) (f : Fld) (i j k : Nat) : (s.fsat f i j k).now = s.now := rfl
@[simp] theorem State.fsat_freeN (s : State) (f : Fld) (i j k : Nat) : (s.fsat f i j k).freeN = s.freeN := rfl
@[simp] theorem State.fsat_mem (s : State) (f : Fld) (i j k : Nat) : (s.fsat f i j k).mem = s.mem := rfl
@[simp] theorem State.fsat_lines (s : State) (f : Fld) (i j k : Nat) : (s.fsat f i j k).lines = s.lines := rfl
@[simp] theorem State.fsat_out (s : State) (f : Fld) (i j k : Nat) : (s.fsat f i j k).out = s.out := rfl
@[simp] theorem State.fsat_epb (s : State) (f : Fld) (i j k : Nat) : (s.fsat f i j k).epb = s.epb := rfl
@[simp] theorem State.fsat_tags (s : State) (f : Fld) (i j k : Nat) : (s.fsat f i j k).tags = s.tags := rfl
@[simp] theorem State.fsat_gens (s : State) (f : Fld) (i j k : Nat) : (s.fsat f i j k).gens = s.gens := rfl
@[simp] theorem State.fsat_late (s : State) (f : Fld) (i j k : Nat) : (s.fsat f i j k).late = s.late := rfl
@[simp] theorem State.fsat_waitq (s : State) (f : Fld) (i j k : Nat) : (s.fsat f i j k).waitq = s.waitq := rfl
@[simp] theorem State.fsat_serial (s : State) (f : Fld) (i j k : Nat) : (s.fsat f i j k).serial = s.serial := rfl
@[simp] theorem State.fsat_fseq (s : State) (f : Fld) (i j k : Nat) : (s.fsat f i j k).fseq = s.fseq := rfl
@[simp] theorem State.fsat_inq (s : State) (f : Fld) (i j k : Nat) : (s.fsat f i j k).inq = s.inq := rfl
@[simp] theorem State.fsat_delivered (s : State) (f : Fld) (i j k : Nat) : (s.fsat f i j k).delivered = s.delivered := rfl
@[simp] theorem State.fsat_cmd (s : State) (f : Fld) (i j k : Nat) : (s.fsat f i j k).cmd = s.cmd := rfl
@[simp] theorem State.fsat_err (s : State) (f : Fld) (i j k : Nat) : (s.fsat f i j k).err = s.err := rfl
@[simp] theorem State.fsat_hbm (s : State) (f : Fld) (i j k : Nat) : (s.fsat f i j k).hbm = s.hbm := rfl
@[simp] theorem State.fsat_xlat (s : State) (f : Fld) (i j k : Nat) : (s.fsat f i j k).xlat = s.xlat := rfl
@[simp] theorem State.fsat_jtag (s : State) (f : Fld) (i j k : Nat) : (s.fsat f i j k).jtag = s.jtag := rfl
@[simp] theorem State.fsat_kln (s : State) (f : Fld) (i j k : Nat) : (s.fsat f i j k).kln = s.kln := rfl
@[simp] theorem State.fsat_lnk (s : State) (f : Fld) (i j k : Nat) : (s.fsat f i j k).lnk = s.lnk := rfl
@[simp] theorem State.fsat_sw (s : State) (f : Fld) (i j k : Nat) : (s.fsat f i j k).sw = s.sw := rfl
@[simp] theorem State.fsat_opt (s : State) (f : Fld) (i j k : Nat) : (s.fsat f i j k).opt = s.opt := rfl
@[simp] theorem State.fsat_pwr (s : State) (f : Fld) (i j k : Nat) : (s.fsat f i j k).pwr = s.pwr := rfl
@[simp] theorem State.fsat_sbd (s : State) (f : Fld) (i j k : Nat) : (s.fsat f i j k).sbd = s.sbd := rfl
@[simp] theorem State.fsat_rick (s : State) (f : Fld) (i j k : Nat) : (s.fsat f i j k).rick = s.rick := rfl
@[simp] theorem State.fsat_rsv (s : State) (f : Fld) (i j k : Nat) : (s.fsat f i j k).rsv = s.rsv := rfl
@[simp] theorem State.fsat_spn (s : State) (f : Fld) (i j k : Nat) : (s.fsat f i j k).spn = s.spn := rfl
@[simp] theorem State.fsat_crc (s : State) (f : Fld) (i j k : Nat) : (s.fsat f i j k).crc = s.crc := rfl
@[simp] theorem State.fsat_host (s : State) (f : Fld) (i j k : Nat) : (s.fsat f i j k).host = s.host := rfl
@[simp] theorem State.fsat_tel (s : State) (f : Fld) (i j k : Nat) : (s.fsat f i j k).tel = s.tel := rfl
@[simp] theorem State.fsat_boot (s : State) (f : Fld) (i j k : Nat) : (s.fsat f i j k).boot = s.boot := rfl
@[simp] theorem State.fsat_pending (s : State) (f : Fld) (i j k : Nat) : (s.fsat f i j k).pending = s.pending := rfl

/-! ### `fwrap` changes `regs` alone -/

@[simp] theorem State.fwrap_now (s : State) (f : Fld) (i j k : Nat) : (s.fwrap f i j k).now = s.now := rfl
@[simp] theorem State.fwrap_freeN (s : State) (f : Fld) (i j k : Nat) : (s.fwrap f i j k).freeN = s.freeN := rfl
@[simp] theorem State.fwrap_mem (s : State) (f : Fld) (i j k : Nat) : (s.fwrap f i j k).mem = s.mem := rfl
@[simp] theorem State.fwrap_lines (s : State) (f : Fld) (i j k : Nat) : (s.fwrap f i j k).lines = s.lines := rfl
@[simp] theorem State.fwrap_out (s : State) (f : Fld) (i j k : Nat) : (s.fwrap f i j k).out = s.out := rfl
@[simp] theorem State.fwrap_epb (s : State) (f : Fld) (i j k : Nat) : (s.fwrap f i j k).epb = s.epb := rfl
@[simp] theorem State.fwrap_tags (s : State) (f : Fld) (i j k : Nat) : (s.fwrap f i j k).tags = s.tags := rfl
@[simp] theorem State.fwrap_gens (s : State) (f : Fld) (i j k : Nat) : (s.fwrap f i j k).gens = s.gens := rfl
@[simp] theorem State.fwrap_late (s : State) (f : Fld) (i j k : Nat) : (s.fwrap f i j k).late = s.late := rfl
@[simp] theorem State.fwrap_waitq (s : State) (f : Fld) (i j k : Nat) : (s.fwrap f i j k).waitq = s.waitq := rfl
@[simp] theorem State.fwrap_serial (s : State) (f : Fld) (i j k : Nat) : (s.fwrap f i j k).serial = s.serial := rfl
@[simp] theorem State.fwrap_fseq (s : State) (f : Fld) (i j k : Nat) : (s.fwrap f i j k).fseq = s.fseq := rfl
@[simp] theorem State.fwrap_inq (s : State) (f : Fld) (i j k : Nat) : (s.fwrap f i j k).inq = s.inq := rfl
@[simp] theorem State.fwrap_delivered (s : State) (f : Fld) (i j k : Nat) : (s.fwrap f i j k).delivered = s.delivered := rfl
@[simp] theorem State.fwrap_cmd (s : State) (f : Fld) (i j k : Nat) : (s.fwrap f i j k).cmd = s.cmd := rfl
@[simp] theorem State.fwrap_err (s : State) (f : Fld) (i j k : Nat) : (s.fwrap f i j k).err = s.err := rfl
@[simp] theorem State.fwrap_hbm (s : State) (f : Fld) (i j k : Nat) : (s.fwrap f i j k).hbm = s.hbm := rfl
@[simp] theorem State.fwrap_xlat (s : State) (f : Fld) (i j k : Nat) : (s.fwrap f i j k).xlat = s.xlat := rfl
@[simp] theorem State.fwrap_jtag (s : State) (f : Fld) (i j k : Nat) : (s.fwrap f i j k).jtag = s.jtag := rfl
@[simp] theorem State.fwrap_kln (s : State) (f : Fld) (i j k : Nat) : (s.fwrap f i j k).kln = s.kln := rfl
@[simp] theorem State.fwrap_lnk (s : State) (f : Fld) (i j k : Nat) : (s.fwrap f i j k).lnk = s.lnk := rfl
@[simp] theorem State.fwrap_sw (s : State) (f : Fld) (i j k : Nat) : (s.fwrap f i j k).sw = s.sw := rfl
@[simp] theorem State.fwrap_opt (s : State) (f : Fld) (i j k : Nat) : (s.fwrap f i j k).opt = s.opt := rfl
@[simp] theorem State.fwrap_pwr (s : State) (f : Fld) (i j k : Nat) : (s.fwrap f i j k).pwr = s.pwr := rfl
@[simp] theorem State.fwrap_sbd (s : State) (f : Fld) (i j k : Nat) : (s.fwrap f i j k).sbd = s.sbd := rfl
@[simp] theorem State.fwrap_rick (s : State) (f : Fld) (i j k : Nat) : (s.fwrap f i j k).rick = s.rick := rfl
@[simp] theorem State.fwrap_rsv (s : State) (f : Fld) (i j k : Nat) : (s.fwrap f i j k).rsv = s.rsv := rfl
@[simp] theorem State.fwrap_spn (s : State) (f : Fld) (i j k : Nat) : (s.fwrap f i j k).spn = s.spn := rfl
@[simp] theorem State.fwrap_crc (s : State) (f : Fld) (i j k : Nat) : (s.fwrap f i j k).crc = s.crc := rfl
@[simp] theorem State.fwrap_host (s : State) (f : Fld) (i j k : Nat) : (s.fwrap f i j k).host = s.host := rfl
@[simp] theorem State.fwrap_tel (s : State) (f : Fld) (i j k : Nat) : (s.fwrap f i j k).tel = s.tel := rfl
@[simp] theorem State.fwrap_boot (s : State) (f : Fld) (i j k : Nat) : (s.fwrap f i j k).boot = s.boot := rfl
@[simp] theorem State.fwrap_pending (s : State) (f : Fld) (i j k : Nat) : (s.fwrap f i j k).pending = s.pending := rfl

/-! ### `fdec` changes `regs` alone -/

@[simp] theorem State.fdec_now (s : State) (f : Fld) (i j k : Nat) : (s.fdec f i j k).now = s.now := rfl
@[simp] theorem State.fdec_freeN (s : State) (f : Fld) (i j k : Nat) : (s.fdec f i j k).freeN = s.freeN := rfl
@[simp] theorem State.fdec_mem (s : State) (f : Fld) (i j k : Nat) : (s.fdec f i j k).mem = s.mem := rfl
@[simp] theorem State.fdec_lines (s : State) (f : Fld) (i j k : Nat) : (s.fdec f i j k).lines = s.lines := rfl
@[simp] theorem State.fdec_out (s : State) (f : Fld) (i j k : Nat) : (s.fdec f i j k).out = s.out := rfl
@[simp] theorem State.fdec_epb (s : State) (f : Fld) (i j k : Nat) : (s.fdec f i j k).epb = s.epb := rfl
@[simp] theorem State.fdec_tags (s : State) (f : Fld) (i j k : Nat) : (s.fdec f i j k).tags = s.tags := rfl
@[simp] theorem State.fdec_gens (s : State) (f : Fld) (i j k : Nat) : (s.fdec f i j k).gens = s.gens := rfl
@[simp] theorem State.fdec_late (s : State) (f : Fld) (i j k : Nat) : (s.fdec f i j k).late = s.late := rfl
@[simp] theorem State.fdec_waitq (s : State) (f : Fld) (i j k : Nat) : (s.fdec f i j k).waitq = s.waitq := rfl
@[simp] theorem State.fdec_serial (s : State) (f : Fld) (i j k : Nat) : (s.fdec f i j k).serial = s.serial := rfl
@[simp] theorem State.fdec_fseq (s : State) (f : Fld) (i j k : Nat) : (s.fdec f i j k).fseq = s.fseq := rfl
@[simp] theorem State.fdec_inq (s : State) (f : Fld) (i j k : Nat) : (s.fdec f i j k).inq = s.inq := rfl
@[simp] theorem State.fdec_delivered (s : State) (f : Fld) (i j k : Nat) : (s.fdec f i j k).delivered = s.delivered := rfl
@[simp] theorem State.fdec_cmd (s : State) (f : Fld) (i j k : Nat) : (s.fdec f i j k).cmd = s.cmd := rfl
@[simp] theorem State.fdec_err (s : State) (f : Fld) (i j k : Nat) : (s.fdec f i j k).err = s.err := rfl
@[simp] theorem State.fdec_hbm (s : State) (f : Fld) (i j k : Nat) : (s.fdec f i j k).hbm = s.hbm := rfl
@[simp] theorem State.fdec_xlat (s : State) (f : Fld) (i j k : Nat) : (s.fdec f i j k).xlat = s.xlat := rfl
@[simp] theorem State.fdec_jtag (s : State) (f : Fld) (i j k : Nat) : (s.fdec f i j k).jtag = s.jtag := rfl
@[simp] theorem State.fdec_kln (s : State) (f : Fld) (i j k : Nat) : (s.fdec f i j k).kln = s.kln := rfl
@[simp] theorem State.fdec_lnk (s : State) (f : Fld) (i j k : Nat) : (s.fdec f i j k).lnk = s.lnk := rfl
@[simp] theorem State.fdec_sw (s : State) (f : Fld) (i j k : Nat) : (s.fdec f i j k).sw = s.sw := rfl
@[simp] theorem State.fdec_opt (s : State) (f : Fld) (i j k : Nat) : (s.fdec f i j k).opt = s.opt := rfl
@[simp] theorem State.fdec_pwr (s : State) (f : Fld) (i j k : Nat) : (s.fdec f i j k).pwr = s.pwr := rfl
@[simp] theorem State.fdec_sbd (s : State) (f : Fld) (i j k : Nat) : (s.fdec f i j k).sbd = s.sbd := rfl
@[simp] theorem State.fdec_rick (s : State) (f : Fld) (i j k : Nat) : (s.fdec f i j k).rick = s.rick := rfl
@[simp] theorem State.fdec_rsv (s : State) (f : Fld) (i j k : Nat) : (s.fdec f i j k).rsv = s.rsv := rfl
@[simp] theorem State.fdec_spn (s : State) (f : Fld) (i j k : Nat) : (s.fdec f i j k).spn = s.spn := rfl
@[simp] theorem State.fdec_crc (s : State) (f : Fld) (i j k : Nat) : (s.fdec f i j k).crc = s.crc := rfl
@[simp] theorem State.fdec_host (s : State) (f : Fld) (i j k : Nat) : (s.fdec f i j k).host = s.host := rfl
@[simp] theorem State.fdec_tel (s : State) (f : Fld) (i j k : Nat) : (s.fdec f i j k).tel = s.tel := rfl
@[simp] theorem State.fdec_boot (s : State) (f : Fld) (i j k : Nat) : (s.fdec f i j k).boot = s.boot := rfl
@[simp] theorem State.fdec_pending (s : State) (f : Fld) (i j k : Nat) : (s.fdec f i j k).pending = s.pending := rfl

/-! ### `setBit` changes `regs` alone -/

@[simp] theorem State.setBit_now (s : State) (r : RegName) (i j b : Nat) (v : Bool) : (s.setBit r i j b v).now = s.now := rfl
@[simp] theorem State.setBit_freeN (s : State) (r : RegName) (i j b : Nat) (v : Bool) : (s.setBit r i j b v).freeN = s.freeN := rfl
@[simp] theorem State.setBit_mem (s : State) (r : RegName) (i j b : Nat) (v : Bool) : (s.setBit r i j b v).mem = s.mem := rfl
@[simp] theorem State.setBit_lines (s : State) (r : RegName) (i j b : Nat) (v : Bool) : (s.setBit r i j b v).lines = s.lines := rfl
@[simp] theorem State.setBit_out (s : State) (r : RegName) (i j b : Nat) (v : Bool) : (s.setBit r i j b v).out = s.out := rfl
@[simp] theorem State.setBit_epb (s : State) (r : RegName) (i j b : Nat) (v : Bool) : (s.setBit r i j b v).epb = s.epb := rfl
@[simp] theorem State.setBit_tags (s : State) (r : RegName) (i j b : Nat) (v : Bool) : (s.setBit r i j b v).tags = s.tags := rfl
@[simp] theorem State.setBit_gens (s : State) (r : RegName) (i j b : Nat) (v : Bool) : (s.setBit r i j b v).gens = s.gens := rfl
@[simp] theorem State.setBit_late (s : State) (r : RegName) (i j b : Nat) (v : Bool) : (s.setBit r i j b v).late = s.late := rfl
@[simp] theorem State.setBit_waitq (s : State) (r : RegName) (i j b : Nat) (v : Bool) : (s.setBit r i j b v).waitq = s.waitq := rfl
@[simp] theorem State.setBit_serial (s : State) (r : RegName) (i j b : Nat) (v : Bool) : (s.setBit r i j b v).serial = s.serial := rfl
@[simp] theorem State.setBit_fseq (s : State) (r : RegName) (i j b : Nat) (v : Bool) : (s.setBit r i j b v).fseq = s.fseq := rfl
@[simp] theorem State.setBit_inq (s : State) (r : RegName) (i j b : Nat) (v : Bool) : (s.setBit r i j b v).inq = s.inq := rfl
@[simp] theorem State.setBit_delivered (s : State) (r : RegName) (i j b : Nat) (v : Bool) : (s.setBit r i j b v).delivered = s.delivered := rfl
@[simp] theorem State.setBit_cmd (s : State) (r : RegName) (i j b : Nat) (v : Bool) : (s.setBit r i j b v).cmd = s.cmd := rfl
@[simp] theorem State.setBit_err (s : State) (r : RegName) (i j b : Nat) (v : Bool) : (s.setBit r i j b v).err = s.err := rfl
@[simp] theorem State.setBit_hbm (s : State) (r : RegName) (i j b : Nat) (v : Bool) : (s.setBit r i j b v).hbm = s.hbm := rfl
@[simp] theorem State.setBit_xlat (s : State) (r : RegName) (i j b : Nat) (v : Bool) : (s.setBit r i j b v).xlat = s.xlat := rfl
@[simp] theorem State.setBit_jtag (s : State) (r : RegName) (i j b : Nat) (v : Bool) : (s.setBit r i j b v).jtag = s.jtag := rfl
@[simp] theorem State.setBit_kln (s : State) (r : RegName) (i j b : Nat) (v : Bool) : (s.setBit r i j b v).kln = s.kln := rfl
@[simp] theorem State.setBit_lnk (s : State) (r : RegName) (i j b : Nat) (v : Bool) : (s.setBit r i j b v).lnk = s.lnk := rfl
@[simp] theorem State.setBit_sw (s : State) (r : RegName) (i j b : Nat) (v : Bool) : (s.setBit r i j b v).sw = s.sw := rfl
@[simp] theorem State.setBit_opt (s : State) (r : RegName) (i j b : Nat) (v : Bool) : (s.setBit r i j b v).opt = s.opt := rfl
@[simp] theorem State.setBit_pwr (s : State) (r : RegName) (i j b : Nat) (v : Bool) : (s.setBit r i j b v).pwr = s.pwr := rfl
@[simp] theorem State.setBit_sbd (s : State) (r : RegName) (i j b : Nat) (v : Bool) : (s.setBit r i j b v).sbd = s.sbd := rfl
@[simp] theorem State.setBit_rick (s : State) (r : RegName) (i j b : Nat) (v : Bool) : (s.setBit r i j b v).rick = s.rick := rfl
@[simp] theorem State.setBit_rsv (s : State) (r : RegName) (i j b : Nat) (v : Bool) : (s.setBit r i j b v).rsv = s.rsv := rfl
@[simp] theorem State.setBit_spn (s : State) (r : RegName) (i j b : Nat) (v : Bool) : (s.setBit r i j b v).spn = s.spn := rfl
@[simp] theorem State.setBit_crc (s : State) (r : RegName) (i j b : Nat) (v : Bool) : (s.setBit r i j b v).crc = s.crc := rfl
@[simp] theorem State.setBit_host (s : State) (r : RegName) (i j b : Nat) (v : Bool) : (s.setBit r i j b v).host = s.host := rfl
@[simp] theorem State.setBit_tel (s : State) (r : RegName) (i j b : Nat) (v : Bool) : (s.setBit r i j b v).tel = s.tel := rfl
@[simp] theorem State.setBit_boot (s : State) (r : RegName) (i j b : Nat) (v : Bool) : (s.setBit r i j b v).boot = s.boot := rfl
@[simp] theorem State.setBit_pending (s : State) (r : RegName) (i j b : Nat) (v : Bool) : (s.setBit r i j b v).pending = s.pending := rfl

/-! ### `emit` changes `out` alone -/

@[simp] theorem State.emit_now (s : State) (o : Out) : (s.emit o).now = s.now := rfl
@[simp] theorem State.emit_freeN (s : State) (o : Out) : (s.emit o).freeN = s.freeN := rfl
@[simp] theorem State.emit_regs (s : State) (o : Out) : (s.emit o).regs = s.regs := rfl
@[simp] theorem State.emit_mem (s : State) (o : Out) : (s.emit o).mem = s.mem := rfl
@[simp] theorem State.emit_lines (s : State) (o : Out) : (s.emit o).lines = s.lines := rfl
@[simp] theorem State.emit_epb (s : State) (o : Out) : (s.emit o).epb = s.epb := rfl
@[simp] theorem State.emit_tags (s : State) (o : Out) : (s.emit o).tags = s.tags := rfl
@[simp] theorem State.emit_gens (s : State) (o : Out) : (s.emit o).gens = s.gens := rfl
@[simp] theorem State.emit_late (s : State) (o : Out) : (s.emit o).late = s.late := rfl
@[simp] theorem State.emit_waitq (s : State) (o : Out) : (s.emit o).waitq = s.waitq := rfl
@[simp] theorem State.emit_serial (s : State) (o : Out) : (s.emit o).serial = s.serial := rfl
@[simp] theorem State.emit_fseq (s : State) (o : Out) : (s.emit o).fseq = s.fseq := rfl
@[simp] theorem State.emit_inq (s : State) (o : Out) : (s.emit o).inq = s.inq := rfl
@[simp] theorem State.emit_delivered (s : State) (o : Out) : (s.emit o).delivered = s.delivered := rfl
@[simp] theorem State.emit_cmd (s : State) (o : Out) : (s.emit o).cmd = s.cmd := rfl
@[simp] theorem State.emit_err (s : State) (o : Out) : (s.emit o).err = s.err := rfl
@[simp] theorem State.emit_hbm (s : State) (o : Out) : (s.emit o).hbm = s.hbm := rfl
@[simp] theorem State.emit_xlat (s : State) (o : Out) : (s.emit o).xlat = s.xlat := rfl
@[simp] theorem State.emit_jtag (s : State) (o : Out) : (s.emit o).jtag = s.jtag := rfl
@[simp] theorem State.emit_kln (s : State) (o : Out) : (s.emit o).kln = s.kln := rfl
@[simp] theorem State.emit_lnk (s : State) (o : Out) : (s.emit o).lnk = s.lnk := rfl
@[simp] theorem State.emit_sw (s : State) (o : Out) : (s.emit o).sw = s.sw := rfl
@[simp] theorem State.emit_opt (s : State) (o : Out) : (s.emit o).opt = s.opt := rfl
@[simp] theorem State.emit_pwr (s : State) (o : Out) : (s.emit o).pwr = s.pwr := rfl
@[simp] theorem State.emit_sbd (s : State) (o : Out) : (s.emit o).sbd = s.sbd := rfl
@[simp] theorem State.emit_rick (s : State) (o : Out) : (s.emit o).rick = s.rick := rfl
@[simp] theorem State.emit_rsv (s : State) (o : Out) : (s.emit o).rsv = s.rsv := rfl
@[simp] theorem State.emit_spn (s : State) (o : Out) : (s.emit o).spn = s.spn := rfl
@[simp] theorem State.emit_crc (s : State) (o : Out) : (s.emit o).crc = s.crc := rfl
@[simp] theorem State.emit_host (s : State) (o : Out) : (s.emit o).host = s.host := rfl
@[simp] theorem State.emit_tel (s : State) (o : Out) : (s.emit o).tel = s.tel := rfl
@[simp] theorem State.emit_boot (s : State) (o : Out) : (s.emit o).boot = s.boot := rfl
@[simp] theorem State.emit_pending (s : State) (o : Out) : (s.emit o).pending = s.pending := rfl

/-! ### `emits` changes `out` alone -/

@[simp] theorem State.emits_now (s : State) (l : List Out) : (s.emits l).now = s.now := rfl
@[simp] theorem State.emits_freeN (s : State) (l : List Out) : (s.emits l).freeN = s.freeN := rfl
@[simp] theorem State.emits_regs (s : State) (l : List Out) : (s.emits l).regs = s.regs := rfl
@[simp] theorem State.emits_mem (s : State) (l : List Out) : (s.emits l).mem = s.mem := rfl
@[simp] theorem State.emits_lines (s : State) (l : List Out) : (s.emits l).lines = s.lines := rfl
@[simp] theorem State.emits_epb (s : State) (l : List Out) : (s.emits l).epb = s.epb := rfl
@[simp] theorem State.emits_tags (s : State) (l : List Out) : (s.emits l).tags = s.tags := rfl
@[simp] theorem State.emits_gens (s : State) (l : List Out) : (s.emits l).gens = s.gens := rfl
@[simp] theorem State.emits_late (s : State) (l : List Out) : (s.emits l).late = s.late := rfl
@[simp] theorem State.emits_waitq (s : State) (l : List Out) : (s.emits l).waitq = s.waitq := rfl
@[simp] theorem State.emits_serial (s : State) (l : List Out) : (s.emits l).serial = s.serial := rfl
@[simp] theorem State.emits_fseq (s : State) (l : List Out) : (s.emits l).fseq = s.fseq := rfl
@[simp] theorem State.emits_inq (s : State) (l : List Out) : (s.emits l).inq = s.inq := rfl
@[simp] theorem State.emits_delivered (s : State) (l : List Out) : (s.emits l).delivered = s.delivered := rfl
@[simp] theorem State.emits_cmd (s : State) (l : List Out) : (s.emits l).cmd = s.cmd := rfl
@[simp] theorem State.emits_err (s : State) (l : List Out) : (s.emits l).err = s.err := rfl
@[simp] theorem State.emits_hbm (s : State) (l : List Out) : (s.emits l).hbm = s.hbm := rfl
@[simp] theorem State.emits_xlat (s : State) (l : List Out) : (s.emits l).xlat = s.xlat := rfl
@[simp] theorem State.emits_jtag (s : State) (l : List Out) : (s.emits l).jtag = s.jtag := rfl
@[simp] theorem State.emits_kln (s : State) (l : List Out) : (s.emits l).kln = s.kln := rfl
@[simp] theorem State.emits_lnk (s : State) (l : List Out) : (s.emits l).lnk = s.lnk := rfl
@[simp] theorem State.emits_sw (s : State) (l : List Out) : (s.emits l).sw = s.sw := rfl
@[simp] theorem State.emits_opt (s : State) (l : List Out) : (s.emits l).opt = s.opt := rfl
@[simp] theorem State.emits_pwr (s : State) (l : List Out) : (s.emits l).pwr = s.pwr := rfl
@[simp] theorem State.emits_sbd (s : State) (l : List Out) : (s.emits l).sbd = s.sbd := rfl
@[simp] theorem State.emits_rick (s : State) (l : List Out) : (s.emits l).rick = s.rick := rfl
@[simp] theorem State.emits_rsv (s : State) (l : List Out) : (s.emits l).rsv = s.rsv := rfl
@[simp] theorem State.emits_spn (s : State) (l : List Out) : (s.emits l).spn = s.spn := rfl
@[simp] theorem State.emits_crc (s : State) (l : List Out) : (s.emits l).crc = s.crc := rfl
@[simp] theorem State.emits_host (s : State) (l : List Out) : (s.emits l).host = s.host := rfl
@[simp] theorem State.emits_tel (s : State) (l : List Out) : (s.emits l).tel = s.tel := rfl
@[simp] theorem State.emits_boot (s : State) (l : List Out) : (s.emits l).boot = s.boot := rfl
@[simp] theorem State.emits_pending (s : State) (l : List Out) : (s.emits l).pending = s.pending := rfl

/-! ### `store` changes `mem` alone -/

@[simp] theorem State.store_now (s : State) (a : Nat) (l : List Byte) : (s.store a l).now = s.now := rfl
@[simp] theorem State.store_freeN (s : State) (a : Nat) (l : List Byte) : (s.store a l).freeN = s.freeN := rfl
@[simp] theorem State.store_regs (s : State) (a : Nat) (l : List Byte) : (s.store a l).regs = s.regs := rfl
@[simp] theorem State.store_lines (s : State) (a : Nat) (l : List Byte) : (s.store a l).lines = s.lines := rfl
@[simp] theorem State.store_out (s : State) (a : Nat) (l : List Byte) : (s.store a l).out = s.out := rfl
@[simp] theorem State.store_epb (s : State) (a : Nat) (l : List Byte) : (s.store a l).epb = s.epb := rfl
@[simp] theorem State.store_tags (s : State) (a : Nat) (l : List Byte) : (s.store a l).tags = s.tags := rfl
@[simp] theorem State.store_gens (s : State) (a : Nat) (l : List Byte) : (s.store a l).gens = s.gens := rfl
@[simp] theorem State.store_late (s : State) (a : Nat) (l : List Byte) : (s.store a l).late = s.late := rfl
@[simp] theorem State.store_waitq (s : State) (a : Nat) (l : List Byte) : (s.store a l).waitq = s.waitq := rfl
@[simp] theorem State.store_serial (s : State) (a : Nat) (l : List Byte) : (s.store a l).serial = s.serial := rfl
@[simp] theorem State.store_fseq (s : State) (a : Nat) (l : List Byte) : (s.store a l).fseq = s.fseq := rfl
@[simp] theorem State.store_inq (s : State) (a : Nat) (l : List Byte) : (s.store a l).inq = s.inq := rfl
@[simp] theorem State.store_delivered (s : State) (a : Nat) (l : List Byte) : (s.store a l).delivered = s.delivered := rfl
@[simp] theorem State.store_cmd (s : State) (a : Nat) (l : List Byte) : (s.store a l).cmd = s.cmd := rfl
@[simp] theorem State.store_err (s : State) (a : Nat) (l : List Byte) : (s.store a l).err = s.err := rfl
@[simp] theorem State.store_hbm (s : State) (a : Nat) (l : List Byte) : (s.store a l).hbm = s.hbm := rfl
@[simp] theorem State.store_xlat (s : State) (a : Nat) (l : List Byte) : (s.store a l).xlat = s.xlat := rfl
@[simp] theorem State.store_jtag (s : State) (a : Nat) (l : List Byte) : (s.store a l).jtag = s.jtag := rfl
@[simp] theorem State.store_kln (s : State) (a : Nat) (l : List Byte) : (s.store a l).kln = s.kln := rfl
@[simp] theorem State.store_lnk (s : State) (a : Nat) (l : List Byte) : (s.store a l).lnk = s.lnk := rfl
@[simp] theorem State.store_sw (s : State) (a : Nat) (l : List Byte) : (s.store a l).sw = s.sw := rfl
@[simp] theorem State.store_opt (s : State) (a : Nat) (l : List Byte) : (s.store a l).opt = s.opt := rfl
@[simp] theorem State.store_pwr (s : State) (a : Nat) (l : List Byte) : (s.store a l).pwr = s.pwr := rfl
@[simp] theorem State.store_sbd (s : State) (a : Nat) (l : List Byte) : (s.store a l).sbd = s.sbd := rfl
@[simp] theorem State.store_rick (s : State) (a : Nat) (l : List Byte) : (s.store a l).rick = s.rick := rfl
@[simp] theorem State.store_rsv (s : State) (a : Nat) (l : List Byte) : (s.store a l).rsv = s.rsv := rfl
@[simp] theorem State.store_spn (s : State) (a : Nat) (l : List Byte) : (s.store a l).spn = s.spn := rfl
@[simp] theorem State.store_crc (s : State) (a : Nat) (l : List Byte) : (s.store a l).crc = s.crc := rfl
@[simp] theorem State.store_host (s : State) (a : Nat) (l : List Byte) : (s.store a l).host = s.host := rfl
@[simp] theorem State.store_tel (s : State) (a : Nat) (l : List Byte) : (s.store a l).tel = s.tel := rfl
@[simp] theorem State.store_boot (s : State) (a : Nat) (l : List Byte) : (s.store a l).boot = s.boot := rfl
@[simp] theorem State.store_pending (s : State) (a : Nat) (l : List Byte) : (s.store a l).pending = s.pending := rfl

/-! ### `setLine` changes `lines` alone -/

@[simp] theorem State.setLine_now (s : State) (l : Nat) (x : LineSt) : (s.setLine l x).now = s.now := rfl
@[simp] theorem State.setLine_freeN (s : State) (l : Nat) (x : LineSt) : (s.setLine l x).freeN = s.freeN := rfl
@[simp] theorem State.setLine_regs (s : State) (l : Nat) (x : LineSt) : (s.setLine l x).regs = s.regs := rfl
@[simp] theorem State.setLine_mem (s : State) (l : Nat) (x : LineSt) : (s.setLine l x).mem = s.mem := rfl
@[simp] theorem State.setLine_out (s : State) (l : Nat) (x : LineSt) : (s.setLine l x).out = s.out := rfl
@[simp] theorem State.setLine_epb (s : State) (l : Nat) (x : LineSt) : (s.setLine l x).epb = s.epb := rfl
@[simp] theorem State.setLine_tags (s : State) (l : Nat) (x : LineSt) : (s.setLine l x).tags = s.tags := rfl
@[simp] theorem State.setLine_gens (s : State) (l : Nat) (x : LineSt) : (s.setLine l x).gens = s.gens := rfl
@[simp] theorem State.setLine_late (s : State) (l : Nat) (x : LineSt) : (s.setLine l x).late = s.late := rfl
@[simp] theorem State.setLine_waitq (s : State) (l : Nat) (x : LineSt) : (s.setLine l x).waitq = s.waitq := rfl
@[simp] theorem State.setLine_serial (s : State) (l : Nat) (x : LineSt) : (s.setLine l x).serial = s.serial := rfl
@[simp] theorem State.setLine_fseq (s : State) (l : Nat) (x : LineSt) : (s.setLine l x).fseq = s.fseq := rfl
@[simp] theorem State.setLine_inq (s : State) (l : Nat) (x : LineSt) : (s.setLine l x).inq = s.inq := rfl
@[simp] theorem State.setLine_delivered (s : State) (l : Nat) (x : LineSt) : (s.setLine l x).delivered = s.delivered := rfl
@[simp] theorem State.setLine_cmd (s : State) (l : Nat) (x : LineSt) : (s.setLine l x).cmd = s.cmd := rfl
@[simp] theorem State.setLine_err (s : State) (l : Nat) (x : LineSt) : (s.setLine l x).err = s.err := rfl
@[simp] theorem State.setLine_hbm (s : State) (l : Nat) (x : LineSt) : (s.setLine l x).hbm = s.hbm := rfl
@[simp] theorem State.setLine_xlat (s : State) (l : Nat) (x : LineSt) : (s.setLine l x).xlat = s.xlat := rfl
@[simp] theorem State.setLine_jtag (s : State) (l : Nat) (x : LineSt) : (s.setLine l x).jtag = s.jtag := rfl
@[simp] theorem State.setLine_kln (s : State) (l : Nat) (x : LineSt) : (s.setLine l x).kln = s.kln := rfl
@[simp] theorem State.setLine_lnk (s : State) (l : Nat) (x : LineSt) : (s.setLine l x).lnk = s.lnk := rfl
@[simp] theorem State.setLine_sw (s : State) (l : Nat) (x : LineSt) : (s.setLine l x).sw = s.sw := rfl
@[simp] theorem State.setLine_opt (s : State) (l : Nat) (x : LineSt) : (s.setLine l x).opt = s.opt := rfl
@[simp] theorem State.setLine_pwr (s : State) (l : Nat) (x : LineSt) : (s.setLine l x).pwr = s.pwr := rfl
@[simp] theorem State.setLine_sbd (s : State) (l : Nat) (x : LineSt) : (s.setLine l x).sbd = s.sbd := rfl
@[simp] theorem State.setLine_rick (s : State) (l : Nat) (x : LineSt) : (s.setLine l x).rick = s.rick := rfl
@[simp] theorem State.setLine_rsv (s : State) (l : Nat) (x : LineSt) : (s.setLine l x).rsv = s.rsv := rfl
@[simp] theorem State.setLine_spn (s : State) (l : Nat) (x : LineSt) : (s.setLine l x).spn = s.spn := rfl
@[simp] theorem State.setLine_crc (s : State) (l : Nat) (x : LineSt) : (s.setLine l x).crc = s.crc := rfl
@[simp] theorem State.setLine_host (s : State) (l : Nat) (x : LineSt) : (s.setLine l x).host = s.host := rfl
@[simp] theorem State.setLine_tel (s : State) (l : Nat) (x : LineSt) : (s.setLine l x).tel = s.tel := rfl
@[simp] theorem State.setLine_boot (s : State) (l : Nat) (x : LineSt) : (s.setLine l x).boot = s.boot := rfl
@[simp] theorem State.setLine_pending (s : State) (l : Nat) (x : LineSt) : (s.setLine l x).pending = s.pending := rfl

/-! ### `epbMod` changes `epb` alone -/

@[simp] theorem State.epbMod_now (s : State) (n : Nat) (f : Epb → Epb) : (s.epbMod n f).now = s.now := rfl
@[simp] theorem State.epbMod_freeN (s : State) (n : Nat) (f : Epb → Epb) : (s.epbMod n f).freeN = s.freeN := rfl
@[simp] theorem State.epbMod_regs (s : State) (n : Nat) (f : Epb → Epb) : (s.epbMod n f).regs = s.regs := rfl
@[simp] theorem State.epbMod_mem (s : State) (n : Nat) (f : Epb → Epb) : (s.epbMod n f).mem = s.mem := rfl
@[simp] theorem State.epbMod_lines (s : State) (n : Nat) (f : Epb → Epb) : (s.epbMod n f).lines = s.lines := rfl
@[simp] theorem State.epbMod_out (s : State) (n : Nat) (f : Epb → Epb) : (s.epbMod n f).out = s.out := rfl
@[simp] theorem State.epbMod_tags (s : State) (n : Nat) (f : Epb → Epb) : (s.epbMod n f).tags = s.tags := rfl
@[simp] theorem State.epbMod_gens (s : State) (n : Nat) (f : Epb → Epb) : (s.epbMod n f).gens = s.gens := rfl
@[simp] theorem State.epbMod_late (s : State) (n : Nat) (f : Epb → Epb) : (s.epbMod n f).late = s.late := rfl
@[simp] theorem State.epbMod_waitq (s : State) (n : Nat) (f : Epb → Epb) : (s.epbMod n f).waitq = s.waitq := rfl
@[simp] theorem State.epbMod_serial (s : State) (n : Nat) (f : Epb → Epb) : (s.epbMod n f).serial = s.serial := rfl
@[simp] theorem State.epbMod_fseq (s : State) (n : Nat) (f : Epb → Epb) : (s.epbMod n f).fseq = s.fseq := rfl
@[simp] theorem State.epbMod_inq (s : State) (n : Nat) (f : Epb → Epb) : (s.epbMod n f).inq = s.inq := rfl
@[simp] theorem State.epbMod_delivered (s : State) (n : Nat) (f : Epb → Epb) : (s.epbMod n f).delivered = s.delivered := rfl
@[simp] theorem State.epbMod_cmd (s : State) (n : Nat) (f : Epb → Epb) : (s.epbMod n f).cmd = s.cmd := rfl
@[simp] theorem State.epbMod_err (s : State) (n : Nat) (f : Epb → Epb) : (s.epbMod n f).err = s.err := rfl
@[simp] theorem State.epbMod_hbm (s : State) (n : Nat) (f : Epb → Epb) : (s.epbMod n f).hbm = s.hbm := rfl
@[simp] theorem State.epbMod_xlat (s : State) (n : Nat) (f : Epb → Epb) : (s.epbMod n f).xlat = s.xlat := rfl
@[simp] theorem State.epbMod_jtag (s : State) (n : Nat) (f : Epb → Epb) : (s.epbMod n f).jtag = s.jtag := rfl
@[simp] theorem State.epbMod_kln (s : State) (n : Nat) (f : Epb → Epb) : (s.epbMod n f).kln = s.kln := rfl
@[simp] theorem State.epbMod_lnk (s : State) (n : Nat) (f : Epb → Epb) : (s.epbMod n f).lnk = s.lnk := rfl
@[simp] theorem State.epbMod_sw (s : State) (n : Nat) (f : Epb → Epb) : (s.epbMod n f).sw = s.sw := rfl
@[simp] theorem State.epbMod_opt (s : State) (n : Nat) (f : Epb → Epb) : (s.epbMod n f).opt = s.opt := rfl
@[simp] theorem State.epbMod_pwr (s : State) (n : Nat) (f : Epb → Epb) : (s.epbMod n f).pwr = s.pwr := rfl
@[simp] theorem State.epbMod_sbd (s : State) (n : Nat) (f : Epb → Epb) : (s.epbMod n f).sbd = s.sbd := rfl
@[simp] theorem State.epbMod_rick (s : State) (n : Nat) (f : Epb → Epb) : (s.epbMod n f).rick = s.rick := rfl
@[simp] theorem State.epbMod_rsv (s : State) (n : Nat) (f : Epb → Epb) : (s.epbMod n f).rsv = s.rsv := rfl
@[simp] theorem State.epbMod_spn (s : State) (n : Nat) (f : Epb → Epb) : (s.epbMod n f).spn = s.spn := rfl
@[simp] theorem State.epbMod_crc (s : State) (n : Nat) (f : Epb → Epb) : (s.epbMod n f).crc = s.crc := rfl
@[simp] theorem State.epbMod_host (s : State) (n : Nat) (f : Epb → Epb) : (s.epbMod n f).host = s.host := rfl
@[simp] theorem State.epbMod_tel (s : State) (n : Nat) (f : Epb → Epb) : (s.epbMod n f).tel = s.tel := rfl
@[simp] theorem State.epbMod_boot (s : State) (n : Nat) (f : Epb → Epb) : (s.epbMod n f).boot = s.boot := rfl
@[simp] theorem State.epbMod_pending (s : State) (n : Nat) (f : Epb → Epb) : (s.epbMod n f).pending = s.pending := rfl

/-! ### What each changes -/

@[simp] theorem State.wr_regs (s : State) (r : RegName) (i j : Nat) (w : Word) : (s.wr r i j w).regs = tblPut s.regs (regAddr r i j) w := rfl
@[simp] theorem State.emit_out (s : State) (o : Out) : (s.emit o).out = s.out ++ [o] := rfl
@[simp] theorem State.emits_out (s : State) (l : List Out) : (s.emits l).out = s.out ++ l := rfl
@[simp] theorem State.store_mem (s : State) (a : Nat) (l : List Byte) : (s.store a l).mem = memWrite s.mem a l := rfl
@[simp] theorem State.epbMod_epb (s : State) (n : Nat) (f : Epb → Epb) : (s.epbMod n f).epb = tblMod {} s.epb n f := rfl

end Sys2Proof.Machine
end

