-- ==== Sys2Proof/Laws/Rows.lean ====
section
/-! SUPPORT. What a row does through the operations that rows share: a command's checks and reply, the settling of a step, a Spindle access, a request at a
pool port. -/

namespace Sys2Proof.Machine
open Sys2Proof Sys2Proof.Claims

/-! ### The settling of a step -/

/-- With nothing waiting, settling changes nothing. -/
theorem settleErr_none (s : State) (h : s.err.later = []) : s.settleErr = s := by simp [State.settleErr, State.errSettle, h]

theorem settled_eq (s : State) : s.settled = .next s.settleErr := rfl

/-! ### Replies leave the error reporting as it is -/

@[simp] theorem placeAt_err (s : State) (r : Reply) : (s.placeAt r).1.err = s.err := by
  unfold State.placeAt; split
  · split <;> rfl
  · split
    · split
      · rfl
      · split
        · split <;> rfl
        · simp [State.mboxWrite]; try split <;> rfl
    · split
      · rfl
      · simp; split <;> rfl

@[simp] theorem retarget_err (s : State) (r : Reply) (p : Nat) (c : Cmd) : (s.retarget r p c).err = s.err := by
  unfold State.retarget; split
  · rfl
  · split
    · split <;> rfl
    · rfl

@[simp] theorem cachePut_err (s : State) (p : Nat) (e : CachedReply) : (s.cachePut p e).err = s.err := rfl
@[simp] theorem refuseLater_err (s : State) (r : Reply) : (s.refuseLater r).err = s.err := rfl
@[simp] theorem logRefusal_err (s : State) (p : Nat) (c : Cmd) (reason detail : Nat) : (s.logRefusal p c reason detail).err = s.err := by simp only [State.logRefusal]

/-! ### A row of a command -/

/-- A command that names no domain wakes none. -/
theorem cmdWakes_none (s : State) (c : Cmd) (status : Nat) (h : cmdDomains c = []) : s.cmdWakes c status = s := by
  unfold State.cmdWakes; rw [h]; split <;> rfl

/-- A command whose SEQ is new is handled as new. -/
theorem handle_new (s : State) (c : Cmd) (run : State → Cmd → Ans) (h : (taken s c).cached (seqSpace c.partner) c.seq = none)
    (k : (taken s c).earlierCopy c.partner c.seq s.now = none) :
    s.handle c.partner c.partner s.now c run = (taken s c).handleNew c.partner c.partner c run := by
  unfold taken at *
  unfold State.handle
  simp only [h, k]

/-- A row of a new command handles it, and settles. -/
theorem cmdRow_new (s : State) (c : Cmd) (mine : Bool) (run : State → Cmd → Ans) (hn : New s c) (hm : mine = true) :
    s.cmdRow c mine run = .next ((taken s c).handleNew c.partner c.partner c run).settleErr := by
  obtain ⟨h1, h2, h4, h5, h6, h7⟩ := hn
  have e := handle_new s c run h5 h6
  have h4' : decide (3 < c.partner) = false := by simp; omega
  unfold State.cmdRow
  rw [hm, h1, h2, h4', e]
  simp only [State.settled, Bool.not_true, Bool.false_or, Bool.false_eq_true, if_false, taken]

/-- A row of a command that passes every check and does not answer later runs it, replies, does what follows the reply, and settles. -/
theorem cmdRow_ready (s : State) (c : Cmd) (mine : Bool) (run : State → Cmd → Ans) (op : Nat) (hr : Ready s c op) (hm : mine = true)
    (hl : (run (taken s c) c).later = none) :
    s.cmdRow c mine run = .next (replied s (run (taken s c) c).st c (run (taken s c) c).status (run (taken s c) c).ticket (run (taken s c) c).results
      (run (taken s c) c).after).settleErr := by
  obtain ⟨hn, h5, h6, h7, h8, h9⟩ := hr
  rw [cmdRow_new s c mine run hn hm]
  obtain ⟨h1, h2, h4, h10, h11, h12⟩ := hn
  subst h5
  simp only [State.handleNew, h12, State.handled, h6, h7, h8, h9, Bool.not_true, Bool.false_eq_true, if_false, hl]
  rfl

/-- The same, for a command of which nothing follows the reply. -/
theorem cmdRow_answers (s : State) (c : Cmd) (mine : Bool) (run : State → Cmd → Ans) (op : Nat) (t : State) (status ticket : Nat) (l : List Byte)
    (hr : Ready s c op) (hm : mine = true) (h : run (taken s c) c = { st := t, status := status, ticket := ticket, results := l }) :
    s.cmdRow c mine run = .next (replied s t c status ticket l).settleErr := by
  rw [cmdRow_ready s c mine run op hr hm (by rw [h]), h]

theorem ready_opcode (s : State) (c : Cmd) (op : Nat) (hr : Ready s c op) : c.opcode = op := hr.2.1

/-! ### Requests at their target -/

/-- Without a lost state, a request arrives as it is. -/
theorem arriveUe_false (s : State) (e : Nat) (p : Packet) (ty : Nat) : s.arriveUe e p ty false = s.arriveReq e p ty := by simp [State.arriveUe]

/-- A pool port takes every request but a DOORBELL. -/
theorem kindOk_pool (e : Nat) (p : Packet) (h1 : 112 ≤ e) (h2 : e < 120) (ht : p.typ ≠ 0x0B) : kindOk e p = true := by
  unfold kindOk
  by_cases h : p.typ = Ty.reduceStore
  · rw [if_pos h]; simp; omega
  · rw [if_neg h, if_neg (show ¬ p.typ = Ty.doorbell from ht)]
    by_cases h3 : 3 ≤ p.typ ∧ p.typ ≤ 5
    · rw [if_pos h3]; simp [h2]
    · rw [if_neg h3]

/-- A request that its own stack takes at a pool port goes to the pool. -/
theorem atTarget_pool (s : State) (e : Nat) (p : Packet) (hs : s.stackFailed e = false) (hk : kindOk e p = true) (h1 : 112 ≤ e) (h2 : e < 120) :
    s.atTarget e p = s.atPool e p := by
  unfold State.atTarget
  rw [hs, hk]
  simp
  rw [if_neg (by omega), if_neg (by omega), if_pos h2]

end Sys2Proof.Machine
end

