-- ==== Sys2Proof/Tests/Slice0.lean ====
section
/-! SUPPORT. Tests: ill-formed terms that WellFormed refuses, one state and operands for the hypotheses of each statement, and small tests on
fixed values, whose expected results come from the spec's tables and examples. -/

namespace Sys2Proof.Tests
open Sys2Proof Sys2Proof.Machine Sys2Proof.Claims
set_option Elab.async false

/-! ### Helpers -/

/-- A device in phase NORMAL with no tenant. -/
def on : State := ({ State.reset with boot := { inReset := false, rstLow := false } } : State).fset Fld.cmdBootW0_PHASE 0 0 4
/-- The same, with a tenant bound. -/
def tenant : State := on.fset Fld.klnState_BSTATE 0 0 2
/-- A command packet of the fabric manager on MP0 with these parameter words. -/
def pkt (op : Nat) (ws : List Word) : Cmd := { opcode := op, seq := 1, plen := 8 * ws.length, params := bytesOfWords ws }
/-- The next state of an outcome. -/
def nextOf (r : Res) : Option State :=
  match r with
  | .next t => some t
  | _ => none

/-! ### Witnesses: commands (01 and 02 of the statements) -/

theorem witness_checks_header : CommandRow [] (.nop, fun c => c.opcode == 0x0001) ∧ New on { pkt 1 [] with version := 2 } ∧
    cmdHeaderOk { pkt 1 [] with version := 2 } 0 = false := by
  refine ⟨by simp [CommandRow], ?_, ?_⟩
  · unfold New; decide +kernel
  · decide +kernel
theorem witness_checks_opcode : New on { pkt 0x0230 [0, 0, 0] with partner := 3 } ∧ cmdHeaderOk { pkt 0x0230 [0, 0, 0] with partner := 3 } 3 = true ∧
    opPermitted 3 0x0230 = false := by unfold New; decide +kernel
theorem witness_checks_length : New on (pkt 1 [0]) ∧ cmdHeaderOk (pkt 1 [0]) 0 = true ∧ opPermitted 0 1 = true ∧ plenOk (pkt 1 [0]) = false := by
  unfold New; decide +kernel
theorem witness_checks_phase : New (on.fset Fld.cmdBootW0_PHASE 0 0 1) (pkt 1 []) ∧ cmdHeaderOk (pkt 1 []) 0 = true ∧ opPermitted 0 1 = true ∧
    plenOk (pkt 1 []) = true ∧ (taken (on.fset Fld.cmdBootW0_PHASE 0 0 1) (pkt 1 [])).phase = 1 ∧ (pkt 1 []).opcode ≠ 0x0280 := by
  unfold New; decide +kernel
theorem witness_checks_quench : New (on.fset Fld.pwrTherm_QSTATE 0 0 1) (pkt 6 [0]) ∧ (taken (on.fset Fld.pwrTherm_QSTATE 0 0 1) (pkt 6 [0])).phase = 4 ∧
    (taken (on.fset Fld.pwrTherm_QSTATE 0 0 1) (pkt 6 [0])).quenched = true ∧
    (pkt 6 [0]).opcode ∉ [0x0001, 0x0002, 0x0003, 0x0010, 0x0101, 0x0291, 0x0280, 0x0281] := by unfold New; decide +kernel

/-- A cached reply of SEQ 1. -/
def hit (crc status : Nat) : CachedReply := { seq := 1, crc := crc, reply := { partner := 0, opcode := 1, seq := 1, status := status } }
/-- A device that has it. -/
def cachedOn (crc status : Nat) : State := { on with cmd := { on.cmd with caches := [(0, [hit crc status])] } }
theorem witness_retry_refused : (taken (cachedOn (cmdCrc (pkt 1 [])) 5) (pkt 1 [])).cached 0 1 = some (hit (cmdCrc (pkt 1 [])) 5) ∧ (hit (cmdCrc (pkt 1 [])) 5).placed = true ∧
    (cachedOn (cmdCrc (pkt 1 [])) 5).noCloentim = false ∧ (hit (cmdCrc (pkt 1 [])) 5).crc = cmdCrc (pkt 1 []) ∧ (hit (cmdCrc (pkt 1 [])) 5).reply.status = 5 := by
  decide +kernel
theorem witness_retry_again : (taken (cachedOn (cmdCrc (pkt 1 [])) 0) (pkt 1 [])).cached 0 1 = some (hit (cmdCrc (pkt 1 [])) 0) ∧ (hit (cmdCrc (pkt 1 [])) 0).reply.status ≠ 5 := by
  decide +kernel
theorem witness_retry_clash : (taken (cachedOn 0 0) (pkt 1 [])).cached 0 1 = some (hit 0 0) ∧ (hit 0 0).crc ≠ cmdCrc (pkt 1 []) := by decide +kernel
/-- SEQ 1 has a reply that is not placed yet. -/
def unplaced : State := { on with cmd := { on.cmd with caches := [(0, [{ hit 0 0 with placed := false }])] } }
theorem witness_retry_unplaced : (taken unplaced (pkt 1 [])).cached 0 1 = some { hit 0 0 with placed := false } ∧ unplaced.noCloentim = false := by decide +kernel
theorem witness_refused : (taken tenant (pkt 0x0282 [])).cached 0 1 = none ∧ (taken tenant (pkt 0x0282 [])).earlierCopy 0 1 0 = none ∧
    (taken tenant (pkt 0x0282 [])).refusal (pkt 0x0282 []) = some (4, 0) ∧ tenant.boot.inReset = false ∧ tenant.noCloentim = false := by decide +kernel

theorem witness_read_ready : Ready on (pkt 0x0001 []) 0x0001 ∧ Ready on (pkt 0x0002 []) 0x0002 ∧ Ready on (pkt 0x0101 []) 0x0101 := by
  unfold Ready New; decide +kernel
/-- A device that has given ticket 0. -/
def ticketOn : State := { on with cmd := { on.cmd with tickets := [(0, { issue := 0, cmd := pkt 0x0220 [0] })] } }
theorem witness_ticket : Ready ticketOn (pkt 0x0003 [0]) 0x0003 ∧ tblFind (taken ticketOn (pkt 0x0003 [0])).cmd.tickets 0 = some { issue := 0, cmd := pkt 0x0220 [0] } ∧
    ((pkt 0x0003 [0]).word 0).toNat = (taken ticketOn (pkt 0x0003 [0])).ticketNo 0 := by unfold Ready New; decide +kernel
theorem witness_ticket_reused : Ready ticketOn (pkt 0x0003 [0x100]) 0x0003 ∧
    ((pkt 0x0003 [0x100]).word 0).toNat ≠ (taken ticketOn (pkt 0x0003 [0x100])).ticketNo 0 := by unfold Ready New; decide +kernel
theorem witness_ticket_none : Ready ticketOn (pkt 0x0003 [0xFF]) 0x0003 ∧ tblFind (taken ticketOn (pkt 0x0003 [0xFF])).cmd.tickets 255 = none := by
  unfold Ready New; decide +kernel
theorem witness_regRead_bad : Ready on (pkt 0x0010 [0x200000000]) 0x0010 ∧ bits ((pkt 0x0010 [0x200000000]).word 0) 44 32 = 2 := by unfold Ready New; decide +kernel
theorem witness_regRead_least : Ready on (pkt 0x0010 [0x400000000]) 0x0010 ∧ zeroOutside ((pkt 0x0010 [0x400000000]).word 0) [(44, 0)] = true ∧
    bits ((pkt 0x0010 [0x400000000]).word 0) 44 32 = 4 := by unfold Ready New; decide +kernel
theorem witness_regRead_last : Ready on (pkt 0x0010 [0x100001FFF000]) 0x0010 ∧ bits ((pkt 0x0010 [0x100001FFF000]).word 0) 31 0 + 4096 = 0x2000000 ∧
    bits ((pkt 0x0010 [0x100001FFF000]).word 0) 44 32 = 4096 := by unfold Ready New; decide +kernel

/-- A device in phase READY. -/
def readyOn : State := on.fset Fld.cmdBootW0_PHASE 0 0 3
theorem witness_service : Ready on (pkt 0x0006 [0]) 0x0006 ∧ (taken on (pkt 0x0006 [0])).phase = Phase.normal ∧ Ready readyOn (pkt 0x0006 [0]) 0x0006 ∧
    (taken readyOn (pkt 0x0006 [0])).phase ≠ Phase.normal ∧ (pkt 0x0006 [0]).word 0 = 0 := by unfold Ready New; decide +kernel
theorem witness_service_robin : Ready on (pkt 0x0006 [1]) 0x0006 ∧ on.phase ≠ Phase.ready ∧ Ready readyOn (pkt 0x0006 [1]) 0x0006 ∧ (pkt 0x0006 [1]).word 0 = 1 ∧
    (({ taken readyOn (pkt 0x0006 [1]) with boot := { inReset := false, rstLow := false, service := true } } : State).fset Fld.cmdCtrl_RR 0 0 1).phase = Phase.ready := by
  unfold Ready New; decide +kernel

theorem witness_sched : Ready on (pkt 0x0230 [1, 1, 0x0800000000000000]) 0x0230 ∧ ((pkt 0x0230 [1, 1, 0x0800000000000000]).word 0).toNat = 1 ∧
    bits ((pkt 0x0230 [1, 1, 0x0800000000000000]).word 2) 63 60 = 0 ∧ schedPorts (pkt 0x0230 [1, 1, 0x0800000000000000]) = [0, 123] ∧
    SchedRow (pkt 0x0230 [1, 1, 0]) 1 (.schedModeStrict (pkt 0x0230 [1, 1, 0])) := by
  refine ⟨?_, ?_, ?_, ?_, Or.inr ⟨rfl, rfl⟩⟩ <;> (try unfold Ready New) <;> decide +kernel
theorem witness_sched_free : (schedPorts (pkt 0x0230 [1, 1, 0x0800000000000000])).all (taken on (pkt 0x0230 [1, 1, 0x0800000000000000])).egressFree = true := by
  decide +kernel
/-- A copy is in transmission on port 123. -/
def sendsOn : State := { on with sw := { on.sw with sending := [{ id := 0, port := 123, fib := 0, chan := 0, pkt := {}, mc := false, hop := 0 }] } }
theorem witness_sched_busy : Ready sendsOn (pkt 0x0230 [1, 1, 0x0800000000000000]) 0x0230 ∧
    (schedPorts (pkt 0x0230 [1, 1, 0x0800000000000000])).filter (fun p => !(taken sendsOn (pkt 0x0230 [1, 1, 0x0800000000000000])).egressFree p) = [123] := by
  unfold Ready New; decide +kernel
theorem witness_sched_bad : Ready on (pkt 0x0230 [2, 0, 0]) 0x0230 ∧ 1 < ((pkt 0x0230 [2, 0, 0]).word 0).toNat ∧ Ready on (pkt 0x0230 [0, 0, 0x1000000000000000]) 0x0230 ∧
    bits ((pkt 0x0230 [0, 0, 0x1000000000000000]).word 2) 63 60 ≠ 0 := by unfold Ready New; decide +kernel
theorem witness_queueSet_bad : Ready on (pkt 0x0231 [0x010000003E00, 0]) 0x0231 ∧ ¬ bits ((pkt 0x0231 [0x010000003E00, 0]).word 0) 13 0 ≤ 15871 := by
  unfold Ready New; decide +kernel
theorem witness_queueSet : Ready on (pkt 0x0231 [0x018000003DFF, 0x000100003E80]) 0x0231 ∧
    zeroOutside ((pkt 0x0231 [0x018000003DFF, 0x000100003E80]).word 0) [(63, 39), (13, 0)] = true ∧
    bits ((pkt 0x0231 [0x018000003DFF, 0x000100003E80]).word 0) 13 0 = 15871 ∧ bits ((pkt 0x0231 [0x018000003DFF, 0x000100003E80]).word 1) 13 0 = 16000 ∧
    bits ((pkt 0x0231 [0x018000003DFF, 0x000100003E80]).word 0) 63 56 = (taken on (pkt 0x0231 [0x018000003DFF, 0x000100003E80])).queueRole 15871 := by
  unfold Ready New; decide +kernel
theorem witness_queueSet_stale : bits ((pkt 0x0231 [0x0100010000003DFF, 0]).word 0) 63 56 ≠ (taken on (pkt 0x0231 [0x0100010000003DFF, 0])).queueRole 15871 ∧
    Ready on (pkt 0x0231 [0x0100010000003DFF, 0]) 0x0231 ∧ bits ((pkt 0x0231 [0x0100010000003DFF, 0]).word 0) 47 40 ≠ 0 := by unfold Ready New; decide +kernel

/-- A device in a hold of its time counter. -/
def held : State := on.fset Fld.telTctrl_HOLDING 0 0 1
/-- The same. -/
def holdOn : State := { held with tel := { hold := some 10 } }
theorem witness_time : Ready on (pkt 0x0310 [0, 5]) 0x0310 ∧ (taken on (pkt 0x0310 [0, 5])).holding = false ∧ (pkt 0x0310 [0, 5]).word 0 = 0 ∧
    Ready on (pkt 0x0310 [1, 0x80000000]) 0x0310 ∧ (signed 64 ((pkt 0x0310 [1, 0x80000000]).word 1).toNat).natAbs = 2 ^ 31 ∧
    0 ≤ signed 64 ((pkt 0x0310 [1, 0x80000000]).word 1).toNat := by unfold Ready New; decide +kernel
theorem witness_time_back : Ready on (pkt 0x0310 [1, 0xFFFFFFFFFFFFFFFF]) 0x0310 ∧ signed 64 ((pkt 0x0310 [1, 0xFFFFFFFFFFFFFFFF]).word 1).toNat = -1 := by
  unfold Ready New; decide +kernel
theorem witness_time_held : Ready holdOn (pkt 0x0310 [0, 5]) 0x0310 ∧ (taken holdOn (pkt 0x0310 [0, 5])).holding = true ∧ Ready holdOn (pkt 0x0310 [1, 5]) 0x0310 := by
  unfold Ready New; decide +kernel

theorem witness_time_bad : Ready on (pkt 0x0310 [1, 0x80000001]) 0x0310 ∧ 2 ^ 31 < (signed 64 ((pkt 0x0310 [1, 0x80000001]).word 1).toNat).natAbs ∧
    Ready on (pkt 0x0310 [2, 0]) 0x0310 ∧ bit ((pkt 0x0310 [2, 0]).word 0) 0 = false ∧ Ready on (pkt 0x0310 [3, 0]) 0x0310 ∧ bit ((pkt 0x0310 [3, 0]).word 0) 0 = true := by
  unfold Ready New; decide +kernel

/-- Die 14's FIFO holds one record. -/
def recOn : State := { on with err := { on.err with fifos := [(14, [List.replicate 8 7])] } }
theorem witness_errArm : Ready on (pkt 0x0290 [0x10003]) 0x0290 ∧ zeroOutside ((pkt 0x0290 [0x10003]).word 0) [(17, 16), (7, 0)] = true ∧
    bits ((pkt 0x0290 [0x10003]).word 0) 7 0 = 3 ∧ bits ((pkt 0x0290 [0x10003]).word 0) 17 16 = 1 ∧ codeAction 3 = some 1 := by unfold Ready New; decide +kernel
theorem witness_errArm_bad : Ready on (pkt 0x0290 [0x100]) 0x0290 ∧ zeroOutside ((pkt 0x0290 [0x100]).word 0) [(17, 16), (7, 0)] = false ∧ Ready on (pkt 0x0290 [0xFF]) 0x0290 ∧
    codeAction 0xFF = none ∧ Ready on (pkt 0x0290 [0x20003]) 0x0290 ∧ bits ((pkt 0x0290 [0x20003]).word 0) 17 16 = 2 := by unfold Ready New; decide +kernel
theorem witness_fifo : Ready recOn (pkt 0x0291 [0x13F0E]) 0x0291 ∧ bits ((pkt 0x0291 [0x13F0E]).word 0) 3 0 = 14 ∧ bits ((pkt 0x0291 [0x13F0E]).word 0) 13 8 = 63 ∧
    bit ((pkt 0x0291 [0x13F0E]).word 0) 16 = true ∧ Ready recOn (pkt 0x0291 [0x10E]) 0x0291 ∧ bit ((pkt 0x0291 [0x10E]).word 0) 16 = false := by
  unfold Ready New; decide +kernel
theorem witness_fifo_bad : Ready on (pkt 0x0291 [0x10F]) 0x0291 ∧ bits ((pkt 0x0291 [0x10F]).word 0) 3 0 = 15 ∧ Ready on (pkt 0x0291 [0]) 0x0291 ∧
    bits ((pkt 0x0291 [0]).word 0) 13 8 = 0 ∧ zeroOutside ((pkt 0x0291 [0x20100]).word 0) [(16, 16), (13, 8), (3, 0)] = false := by unfold Ready New; decide +kernel
theorem witness_debug : Ready on (pkt 0x0282 []) 0x0282 ∧ Ready on (pkt 0x0301 [0xFFFF0009]) 0x0301 ∧
    zeroOutside ((pkt 0x0301 [0xFFFF0009]).word 0) [(31, 16), (3, 0)] = true ∧ bits ((pkt 0x0301 [0xFFFF0009]).word 0) 3 0 = 9 := by unfold Ready New; decide +kernel
theorem witness_cap : Ready on (pkt 0x0302 [0x012C0007]) 0x0302 ∧ bits ((pkt 0x0302 [0x012C0007]).word 0) 31 16 = 300 ∧
    zeroOutside ((pkt 0x0302 [0x012C0007]).word 0) [(31, 16), (8, 8), (3, 0)] = true ∧ bits ((pkt 0x0302 [0x076C0001]).word 0) 31 16 = 1900 ∧
    Ready on (pkt 0x0302 [0x100]) 0x0302 ∧ bit ((pkt 0x0302 [0x100]).word 0) 8 = true := by unfold Ready New; decide +kernel
theorem witness_limits_bad : Ready on (pkt 0x0301 [0x0A]) 0x0301 ∧ bits ((pkt 0x0301 [0x0A]).word 0) 3 0 = 10 ∧ Ready on (pkt 0x0302 [0x012B0000]) 0x0302 ∧
    bit ((pkt 0x0302 [0x012B0000]).word 0) 8 = false ∧ bits ((pkt 0x0302 [0x012B0000]).word 0) 31 16 = 299 ∧ Ready on (pkt 0x0302 [0x110]) 0x0302 ∧
    bit ((pkt 0x0302 [0x110]).word 0) 8 = true ∧ zeroOutside ((pkt 0x0302 [0x110]).word 0) [(31, 16), (8, 8), (3, 0)] = false := by unfold Ready New; decide +kernel

/-! ### Witnesses: translation, rings, registers, Spindle programs (03) -/

theorem witness_xlat : Ready on (pkt 0x0213 [0x10FFF, 0xFFFFFFFFFFFFFFFF]) 0x0213 ∧
    zeroOutside ((pkt 0x0213 [0x10FFF, 0xFFFFFFFFFFFFFFFF]).word 0) [(16, 16), (12, 12), (11, 0)] = true ∧
    bit ((pkt 0x0213 [0x10FFF, 0xFFFFFFFFFFFFFFFF]).word 0) 12 = false ∧ (taken on (pkt 0x0213 [0x10FFF, 0])).ticketSlot = some 0 := by
  unfold Ready New; decide +kernel
theorem witness_xlat_win : Ready on (pkt 0x0213 [0x10FF, 1]) 0x0213 ∧ bits ((pkt 0x0213 [0x10FF, 1]).word 0) 11 0 = 255 ∧
    bit ((pkt 0x0213 [0x10FF, 1]).word 0) 16 = false := by unfold Ready New; decide +kernel
theorem witness_xlat_bad : Ready on (pkt 0x0213 [0x1100, 1]) 0x0213 ∧ bit ((pkt 0x0213 [0x1100, 1]).word 0) 12 = true ∧
    ¬ bits ((pkt 0x0213 [0x1100, 1]).word 0) 11 0 ≤ 255 := by unfold Ready New; decide +kernel

/-- EPB 63 holds a waiting slot and a parked item of ring 63; thread 15 of core 255 is parked. -/
def stuck : State := (on.epbMod 63 (fun e => { e with slots := [(2, { st := .waiting, ctx := 3, gen := 4 })]
                                                      parks := [{ mover := { ring := 63, index := 7 }, resumeSeg := 0, resumeOff := 0, doneMask := 0 }] })).thrSet
    Fld.spnThrW0_STATE 4095 3
theorem witness_resume_slot : Ready stuck (pkt 0x0214 [63, 0x30402]) 0x0214 ∧ resumeFormOk (pkt 0x0214 [63, 0x30402]) = true ∧
    (taken stuck (pkt 0x0214 [63, 0x30402])).epbHeld 63 = false ∧ (taken stuck (pkt 0x0214 [63, 0x30402])).heldSlots 63 (some 0x30402) = [2] ∧
    (taken stuck (pkt 0x0214 [63, 0x30403])).heldSlots 63 (some 0x30403) = [] := by unfold Ready New; decide +kernel
theorem witness_resume_park : Ready stuck (pkt 0x0214 [0x1103F, 0x3F00000007]) 0x0214 ∧ resumeFormOk (pkt 0x0214 [0x1103F, 0x3F00000007]) = true ∧
    (taken stuck (pkt 0x0214 [0x1103F, 0x3F00000007])).heldParks 63 (some (63, 7)) ≠ [] ∧
    (taken stuck (pkt 0x0214 [0x1103F, 0x3F00000008])).heldParks 63 (some (63, 8)) = [] := by unfold Ready New; decide +kernel
theorem witness_resume_thread : Ready stuck (pkt 0x0214 [0x20FF, 15]) 0x0214 ∧ resumeFormOk (pkt 0x0214 [0x20FF, 15]) = true ∧
    (taken stuck (pkt 0x0214 [0x20FF, 15])).clusterHeld 15 = false ∧ (taken stuck (pkt 0x0214 [0x20FF, 15])).heldThreads 255 (some 15) = [4095] ∧
    (taken stuck (pkt 0x0214 [0x20FF, 14])).heldThreads 255 (some 14) = [] := by unfold Ready New; decide +kernel

/-- Ring 63 of EPB 63 configured with ENG_MIN = 8 and in state `st`. -/
def ringOn (st : Nat) : State := ((((on.fset Fld.epbRingBase_ADDR 63 63 (112 * 2 ^ 33)).fset Fld.epbRingCqbase_ADDR 63 63 (121 * 2 ^ 33)).fset Fld.epbRingCfg_ORDER 63 63
  15).fset Fld.epbRingCfg_ENG_MIN 63 63 8).fset Fld.epbRingStat_STATE 63 63 st
theorem witness_ring_flush : Ready (ringOn 1) (pkt 0x0220 [0x7F3F]) 0x0220 ∧ (taken (ringOn 1) (pkt 0x0220 [0x7F3F])).epbHeld 63 = false ∧
    zeroOutside ((pkt 0x0220 [0x7F3F]).word 0) [(14, 14), (13, 8), (5, 0)] = true ∧ (taken (ringOn 1) (pkt 0x0220 [0x7F3F])).ringState 63 63 ≠ RingSt.off := by
  unfold Ready New; decide +kernel
theorem witness_ring_open : Ready (ringOn 0) (pkt 0x0221 [0x3F3F]) 0x0221 ∧ zeroOutside ((pkt 0x0221 [0x3F3F]).word 0) [(17, 16), (13, 8), (5, 0)] = true ∧
    bits ((pkt 0x0221 [0x3F3F]).word 0) 17 16 = 0 ∧ (taken (ringOn 0) (pkt 0x0221 [0x3F3F])).ringState 63 63 = RingSt.off ∧
    (taken (ringOn 0) (pkt 0x0221 [0x3F3F])).ringConfigOk 63 63 = true ∧ (taken (ringOn 0) (pkt 0x0221 [0x3F3F])).engMinSum 63 63 + 8 ≤ 8 ∧
    (taken (ringOn 4) (pkt 0x0221 [0x3F3F])).ringState 63 63 = RingSt.flushed ∧ (taken (ringOn 0) (pkt 0x0221 [0x3F3F])).ringCarries 63 63 = false := by
  unfold Ready New; decide +kernel
/-- Ring 63 carries triggered operation 1023, which is ARMED. -/
def carried : State := ((ringOn 0).fset Fld.epbToW7_STATE 63 1023 1).fset Fld.epbToW0_RING 63 1023 63
theorem witness_ring_carries : Ready carried (pkt 0x0221 [0x3F3F]) 0x0221 ∧ (taken carried (pkt 0x0221 [0x3F3F])).ringCarries 63 63 = true := by
  unfold Ready New; decide +kernel
theorem witness_ring_run : Ready (ringOn 3) (pkt 0x0221 [0x13F3F]) 0x0221 ∧ bits ((pkt 0x0221 [0x13F3F]).word 0) 17 16 = 1 ∧
    (taken (ringOn 3) (pkt 0x0221 [0x13F3F])).ringState 63 63 = RingSt.halted := by unfold Ready New; decide +kernel
theorem witness_ring_close : Ready (ringOn 2) (pkt 0x0221 [0x23F3F]) 0x0221 ∧ bits ((pkt 0x0221 [0x23F3F]).word 0) 17 16 = 2 ∧
    (taken (ringOn 2) (pkt 0x0221 [0x23F3F])).ringUse 63 63 + (taken (ringOn 2) (pkt 0x0221 [0x23F3F])).ringParks 63 63
      + (taken (ringOn 2) (pkt 0x0221 [0x23F3F])).ringResumes 63 63 = 0 := by unfold Ready New; decide +kernel

theorem witness_ring_close_busy : Ready stuck (pkt 0x0221 [0x23F3F]) 0x0221 ∧ 0 < (taken stuck (pkt 0x0221 [0x23F3F])).ringParks 63 63 ∧
    (taken (stuck.fset Fld.epbRingStat_STATE 63 63 2) (pkt 0x0221 [0x23F3F])).ringState 63 63 ≠ RingSt.off := by unfold Ready New; decide +kernel

/-- Domains 25 and 45 with a status word of 0: Active. -/
def powered : State := (on.wr .pwrDomW0 25 0 0).wr .pwrDomW0 45 0 0
/-- A REG_WRITE of one register of four bytes. -/
def wr4 (w : Word) : Cmd := { opcode := 0x0011, seq := 1, plen := 12, params := bytesOfWords [w] ++ List.replicate 4 0 }
theorem witness_regWrite : Ready powered (wr4 0x40011E000) 0x0011 ∧ regWriteList (wr4 0x40011E000) = some [({ reg := .spnQuota, i := 15, j := 0, off := 0 }, 0)] ∧
    (taken powered (wr4 0x40011E000)).regCheck ((taken powered (wr4 0x40011E000)).regsAfter [({ reg := .spnQuota, i := 15, j := 0, off := 0 }, 0)])
      { reg := .spnQuota, i := 15, j := 0, off := 0 } 0 = Status.ok := by unfold Ready New; decide +kernel
theorem witness_regWrite_fails : Ready powered (pkt 0x0011 [0x8000A0018, 0]) 0x0011 ∧ regWriteList (pkt 0x0011 [0x8000A0018, 0]) = some [({ reg := .rickJrnl, i := 0, j := 0, off := 0 }, 0)] ∧
    (taken powered (pkt 0x0011 [0x8000A0018, 0])).regCheck ((taken powered (pkt 0x0011 [0x8000A0018, 0])).regsAfter [({ reg := .rickJrnl, i := 0, j := 0, off := 0 }, 0)])
      { reg := .rickJrnl, i := 0, j := 0, off := 0 } 0 ≠ Status.ok := by unfold Ready New; decide +kernel

theorem witness_regWrite_bad : Ready on (wr4 0x40011E002) 0x0011 ∧ regWriteList (wr4 0x40011E002) = none := by unfold Ready New; decide +kernel

/-- An image of 256 KiB in HBM stack 7's pool. -/
def loadCmd : Cmd := pkt 0x0240 [0xFFFF, BitVec.ofNat 64 (119 * 2 ^ 45 + 2 ^ 32), 262144]
theorem witness_progLoad : Ready on loadCmd 0x0240 ∧ zeroOutside (loadCmd.word 0) [(15, 0)] = true ∧ setBitsOf (loadCmd.word 0) 16 ≠ [] ∧
    gfaXyp (loadCmd.word 1).toNat = (taken on loadCmd).xyp ∧ gfaE (loadCmd.word 1).toNat = 119 ∧ gfaE ((loadCmd.word 1).toNat + 262144 - 1) = 119 ∧
    gfaXyp ((loadCmd.word 1).toNat + 262144 - 1) = (taken on loadCmd).xyp ∧ (loadCmd.word 2).toNat = 262144 ∧ (taken on loadCmd).ticketSlot = some 0 ∧
    (setBitsOf (loadCmd.word 0) 16).all (fun x => !(taken on loadCmd).clusterHeld x && !(taken on loadCmd).clusterLoading x) = true := by
  unfold Ready New; decide +kernel
/-- Thread 15 of core 255 runs. -/
def busyCore : State := on.thrSet Fld.spnThrW0_STATE 4095 1
theorem witness_progLoad_busy : Ready busyCore loadCmd 0x0240 ∧ (taken busyCore loadCmd).clusterBusy 15 = true ∧ (taken busyCore loadCmd).ticketSlot = some 0 := by
  unfold Ready New; decide +kernel
theorem witness_progLoad_idle : (List.range 16).all (fun x => !(taken on loadCmd).clusterBusy x) = true := by decide +kernel

/-- Cluster 15 has a program of 8 bytes and a full quota. -/
def progOn : State := (((on.fset Fld.spnProg_LOADED 15 0 1).fset Fld.spnProg_LEN 15 0 8).fset Fld.spnQuota_THR_MAX 15 0 256).fset Fld.spnQuota_SCR_MAX 15 0 1024
/-- SPN_THREAD of thread 15 of core 255. -/
def threadCmd (action : Nat) (w1 : Word) : Cmd := pkt 0x0241 [BitVec.ofNat 64 (action * 2 ^ 46 + 255 * 2 ^ 32 + 2 ^ 31), w1, 0, 0]
theorem witness_start : Ready progOn (threadCmd 0 0x4000000) 0x0241 ∧ bits ((threadCmd 0 0x4000000).word 0) 47 46 = 0 ∧
    (taken progOn (threadCmd 0 0x4000000)).threadCheck (threadCmd 0 0x4000000) = Status.ok ∧
    (taken progOn (threadCmd 0 0x4000000)).startCheck (threadCmd 0 0x4000000) = Status.ok := by unfold Ready New; decide +kernel
theorem witness_stop : Ready stuck (threadCmd 1 0) 0x0241 ∧ bits ((threadCmd 1 0).word 0) 47 46 = 1 ∧ threadsOf (threadCmd 1 0) = [4095] ∧
    (taken stuck (threadCmd 1 0)).threadCheck (threadCmd 1 0) = Status.ok ∧ bits ((threadCmd 2 0).word 0) 47 46 = 2 ∧
    (taken stuck (threadCmd 2 0)).threadCheck (threadCmd 2 0) = Status.ok := by unfold Ready New; decide +kernel
/-- SPN_THREAD of thread 15 with EXP_ROLE 1, which it does not hold. -/
def staleCmd (action : Nat) : Cmd := pkt 0x0241 [BitVec.ofNat 64 (2 ^ 56 + action * 2 ^ 46 + 255 * 2 ^ 32 + 2 ^ 31), 0, 0, 0]
theorem witness_thread_stale : Ready progOn (staleCmd 1) 0x0241 ∧ (taken progOn (staleCmd 1)).threadCheck (staleCmd 1) = Status.staleRole := by
  unfold Ready New; decide +kernel
/-- R392, R417: a REG_WRITE that would change an RWL field of HUB_COORD while a tenant is bound is refused although it runs on over a hole; one that
leaves the field as it is is not refused. -/
theorem test_refused_before_checked : tenant.refusal (pkt 0x0011 [0x800200110, 0x001]) = some (1, 0x110) ∧ tenant.refusal (pkt 0x0011 [0x800200110, 0]) = none ∧
    on.refusal (pkt 0x0011 [0x800200110, 0x001]) = none ∧ on.refusal (pkt 0x0011 [0x800010FF8, 0]) = some (2, 0xFF8) := by decide +kernel

/-! ### Witnesses: resets of units, deferred commands (04) -/

/-- The last EPB. -/
def epb63 : RUnit := .epb 63
theorem witness_reset_unit : Ready on (pkt 0x0100 [0x3F1]) 0x0100 ∧ zeroOutside ((pkt 0x0100 [0x3F1]).word 0) [(21, 0)] = true ∧ resetUnit 1 63 = some epb63 ∧
    epb63 ≠ .device ∧ (taken on (pkt 0x0100 [0x3F1])).ticketSlot = some 0 ∧ (taken on (pkt 0x0100 [0x3F1])).resetBusy epb63 = false ∧
    bits ((pkt 0x0100 [0x3F1]).word 0) 21 20 = 0 ∧ bits ((pkt 0x0100 [0x1003F1]).word 0) 21 20 = 1 := by unfold Ready New; decide +kernel
theorem witness_reset_device : Ready on (pkt 0x0100 [0xE0]) 0x0100 ∧ resetUnit 0 14 = some .device ∧ (taken on (pkt 0x0100 [0xE0])).resetBusy .device = false := by
  unfold Ready New; decide +kernel
/-- EPB 63 is held. -/
def heldOn : State := { on with boot := { on.boot with held := [(epb63.num, { since := 0, how := 1 })] } }
theorem witness_release : Ready heldOn (pkt 0x0100 [0x2003F1]) 0x0100 ∧ bits ((pkt 0x0100 [0x2003F1]).word 0) 21 20 = 2 ∧
    (taken heldOn (pkt 0x0100 [0x2003F1])).unitHeld epb63 = true ∧ (taken heldOn (pkt 0x0100 [0x2003F1])).resetBusy epb63 = true ∧
    (taken on (pkt 0x0100 [0x2003F1])).unitHeld epb63 = false := by unfold Ready New; decide +kernel

theorem witness_reset_busy : Ready heldOn (pkt 0x0100 [0x3F1]) 0x0100 ∧ (taken heldOn (pkt 0x0100 [0x3F1])).perstNow epb63 = false ∧
    (taken heldOn (pkt 0x0100 [0x3F1])).resetBusy epb63 = true ∧ Ready heldOn (pkt 0x0100 [0x1003F1]) 0x0100 ∧
    (taken heldOn (pkt 0x0100 [0x1003F1])).resetBusy epb63 = true := by unfold Ready New; decide +kernel
/-- PERST_N of host port 1 has been asserted in this cycle. -/
def perstOn : State := { on with boot := { on.boot with held := [((RUnit.host 1).num, { since := 0, how := 3 })] } }
theorem witness_reset_perst : Ready perstOn (pkt 0x0100 [0x1F]) 0x0100 ∧ resetUnit 15 1 = some (.host 1) ∧ (taken perstOn (pkt 0x0100 [0x1F])).perstNow (.host 1) = true ∧
    (taken perstOn (pkt 0x0100 [0x1F])).ticketSlot = some 0 := by unfold Ready New; decide +kernel

/-- The Rick runs with units free and an object 4095 of kind `kind` in state `st`; a tenant is bound. -/
def rickOn (st kind : Nat) : State :=
  (({ tenant with rick := { tenant.rick with objs := [(4095, { st := st, kind := kind, length := 64, keyid := keyId [1] })] }
                  kln := { tenant.kln with rickKey := some [1], weightKey := some [1] } } : State).fset Fld.rickStat_STATE 0 0 2).fset Fld.rickFree_FREE 0 0 1000
/-- A Rick command on object 4095 at the first address of HBM stack 0's pool. -/
def rickCmd (op w0 w2 : Nat) : Cmd := pkt op [BitVec.ofNat 64 w0, BitVec.ofNat 64 (112 * 2 ^ 45), BitVec.ofNat 64 w2]
theorem witness_rick_write : Ready (rickOn 2 0) (rickCmd 0x0260 0x22000000 1) 0x0260 ∧
    (taken (rickOn 2 0) (rickCmd 0x0260 0x22000000 1)).bound = true ∧ (taken (rickOn 2 0) (rickCmd 0x0260 0x22000000 1)).objBusy 0 = false ∧
    (taken (rickOn 2 0) (rickCmd 0x0260 0x22000000 1)).rickState = Rick.run ∧ (taken (rickOn 2 0) (rickCmd 0x0260 0x22000000 1)).rickWriteOk (rickCmd 0x0260 0x22000000 1) = true ∧
    rickCount (rickCmd 0x0260 0x22000000 1) ≤ (taken (rickOn 2 0) (rickCmd 0x0260 0x22000000 1)).fget Fld.rickFree_FREE ∧
    (taken (rickOn 2 0) (rickCmd 0x0260 0x22000000 1)).ticketSlot = some 0 := by unfold Ready New; decide +kernel
theorem witness_rick_seal : Ready (rickOn 1 1) (rickCmd 0x0261 0xFFF 64) 0x0261 ∧ (taken (rickOn 1 1) (rickCmd 0x0261 0xFFF 64)).rickSealOk (rickCmd 0x0261 0xFFF 64) = true ∧
    Ready (rickOn 2 0) (rickCmd 0x0262 0xFFF (63 * 2 ^ 32 + 1)) 0x0262 ∧
    (taken (rickOn 2 0) (rickCmd 0x0262 0xFFF (63 * 2 ^ 32 + 1))).rickReadOk (rickCmd 0x0262 0xFFF (63 * 2 ^ 32 + 1)) = true := by unfold Ready New; decide +kernel
theorem witness_rick_delete : Ready (rickOn 2 0) (pkt 0x0263 [0xFFF, 0, 0]) 0x0263 ∧ (taken (rickOn 2 0) (pkt 0x0263 [0xFFF, 0, 0])).rickDeleteOk (pkt 0x0263 [0xFFF, 0, 0]) = true ∧
    (taken (rickOn 2 0) (pkt 0x0263 [0xFFF, 0, 0])).streamNames 4095 = false ∧ Ready on (pkt 0x0263 [0xFFF, 0, 0]) 0x0263 ∧
    (taken on (pkt 0x0263 [0xFFF, 0, 0])).bound = false := by unfold Ready New; decide +kernel
/-- RSV_STREAM of stream 7 over object 4095. -/
def strmCmd (action : Nat) : Cmd := pkt 0x0264 [BitVec.ofNat 64 (action * 2 ^ 58 + 7 * 2 ^ 55), 0xFFF0000000000000, 0, BitVec.ofNat 64 (112 * 2 ^ 45), 0]
theorem witness_stream : Ready (rickOn 2 1) (strmCmd 0) 0x0264 ∧ bits ((strmCmd 0).word 0) 57 55 = 7 ∧ (taken (rickOn 2 1) (strmCmd 0)).fget Fld.klnState_BSTATE = 2 ∧
    (taken (rickOn 2 1) (strmCmd 0)).strmState 7 = 0 ∧ (taken (rickOn 2 1) (strmCmd 0)).rickState = Rick.run ∧ (taken (rickOn 2 1) (strmCmd 0)).streamOk (strmCmd 0) = true ∧
    Ready (rickOn 2 1) (strmCmd 1) 0x0264 ∧ bits ((strmCmd 1).word 0) 59 58 = 1 ∧
    (taken ((rickOn 2 1).fset Fld.rsvStrStat_STATE 7 0 3) (strmCmd 1)).strmState 7 = 3 := by unfold Ready New; decide +kernel

/-- HBM_REGION_SET of stack 7: META 2, POOL 382, RSVW 0, SCR 0: 384 in sum. -/
def regionCmd : Cmd := pkt 0x0250 [0x80, BitVec.ofNat 64 (2 * 2 ^ 27 + 382 * 2 ^ 18)]
theorem witness_region : Ready on regionCmd 0x0250 ∧ regionOk regionCmd = true ∧ (taken on regionCmd).regionBusy regionCmd = false ∧
    (taken on regionCmd).ticketSlot = some 0 := by unfold Ready New; decide +kernel
theorem witness_search : Ready on (pkt 0x0270 [0x1F0000001F]) 0x0270 ∧ zeroOutside ((pkt 0x0270 [0x1F0000001F]).word 0) [(36, 32), (4, 0)] = true ∧
    bits ((pkt 0x0270 [0x1F0000001F]).word 0) 36 32 ≠ 0 ∧ (taken on (pkt 0x0270 [0x1F0000001F])).groupSearching 31 = false := by unfold Ready New; decide +kernel
theorem witness_unbind : Ready tenant { pkt 0x0281 [] with partner := 2 } 0x0281 ∧ (taken tenant { pkt 0x0281 [] with partner := 2 }).bstate ≠ Bind.unbinding ∧
    (taken (on.fset Fld.klnState_BSTATE 0 0 3) { pkt 0x0281 [] with partner := 2 }).bstate = Bind.unbinding ∧
    Ready on { pkt 0x0280 [5] with partner := 2 } 0x0280 := by unfold Ready New; decide +kernel
theorem witness_pwr : Ready on (pkt 0x0300 [0x2000000000001, 4]) 0x0300 ∧ zeroOutside ((pkt 0x0300 [0x2000000000001, 4]).word 0) [(49, 0)] = true ∧
    zeroOutside ((pkt 0x0300 [0x2000000000001, 4]).word 1) [(2, 0)] = true ∧ setBitsOf ((pkt 0x0300 [0x2000000000001, 4]).word 0) 50 = [0, 49] ∧
    domLimit 0 ≥ 0 := by unfold Ready New; decide +kernel
theorem witness_xfer : Ready on { pkt 0x0320 [0x02010155] with plen := 9, params := bytesOfWords [0x02010155] ++ [7] } 0x0320 ∧
    zeroOutside ((pkt 0x0320 [0x02010155]).word 0) [(31, 24), (23, 16), (8, 8), (6, 0)] = true ∧ bits ((pkt 0x0320 [0x02010155]).word 0) 23 16 = 1 ∧
    (taken on (pkt 0x0320 [0x02010155])).busDown = false := by unfold Ready New; decide +kernel
/-- CRC_FEED of channel 15, of 64 bytes of HBM stack 7's pool. -/
def feedCmd : Cmd := pkt 0x0311 [0x10F, BitVec.ofNat 64 (119 * 2 ^ 45), 64]
theorem witness_feed : Ready on feedCmd 0x0311 ∧ zeroOutside (feedCmd.word 0) [(8, 8), (3, 0)] = true ∧ (taken on feedCmd).inPool (119 * 2 ^ 45) 64 = true ∧
    (taken on feedCmd).crcFree 15 = true ∧ zeroOutside (feedCmd.word 2) [(32, 0)] = true ∧ (taken on feedCmd).ticketSlot = some 0 := by unfold Ready New; decide +kernel

/-- A tenant, Coppice mode `m` and its link 127 down by software. -/
def copOn (m : Nat) : State := ((tenant.fset Fld.hubCoppiceCtrl_MODE 0 0 m).fset Fld.hubCoppiceCtrl_LINK 0 0 127).fset Fld.hubLink_ADMIN 127 0 1
/-- COPPICE_CTRL. -/
def copCmd (a : Word) : Cmd := pkt 0x02A0 [0x2FFFF, 0xF7F, a]
theorem witness_coppice_enter : Ready (copOn 0) (copCmd 1) 0x02A0 ∧ (taken (copOn 0) (copCmd 1)).bound = true ∧ zeroOutside ((copCmd 1).word 0) [(17, 17), (15, 0)] = true ∧
    zeroOutside ((copCmd 1).word 1) [(11, 8), (6, 0)] = true ∧ zeroOutside ((copCmd 3).word 2) [(1, 0)] = true ∧ (taken (copOn 0) (copCmd 1)).ticketSlot = some 0 ∧
    (taken (copOn 0) (copCmd 1)).fget Fld.hubCoppiceCtrl_MODE = 0 ∧ (taken (copOn 0) (copCmd 1)).crcFree 15 = true ∧ Ready (copOn 0) (copCmd 2) 0x02A0 := by
  unfold Ready New; decide +kernel
theorem witness_coppice_leave : Ready (copOn 2) (copCmd 3) 0x02A0 ∧ (taken (copOn 2) (copCmd 3)).fget Fld.hubCoppiceCtrl_MODE = 2 ∧ (taken (copOn 2) (copCmd 3)).copLinkDown = true ∧
    Ready (copOn 1) (copCmd 0) 0x02A0 ∧ (taken (copOn 1) (copCmd 0)).fget Fld.hubCoppiceCtrl_MODE = 1 := by unfold Ready New; decide +kernel
theorem witness_coppice_off : Ready (copOn 2) (copCmd 0) 0x02A0 ∧ (taken (copOn 2) (copCmd 0)).copThreads 0 = false := by unfold Ready New; decide +kernel

/-! ### Witnesses: arrival, clocks, host accesses, boot (05) -/

/-- Port 1's link is up and its address is 5; port 1 holds a command, and the sideband four. -/
def wired : State := { (on.fset Fld.cmdMpStat_LINK 1 0 1).wr .cmdMpMac 1 0 5 with
  cmd := { on.cmd with queues := [(1, [{ cmd := pkt 1 [], port := 1 }]), (3, List.replicate 4 { cmd := pkt 1 [], port := 3 })] } }
theorem witness_arrive : wired.boot.inReset = false ∧ wired.noCloentim = false ∧ wired.fget Fld.cmdMpStat_LINK 1 ≠ 0 ∧ wired.fget Fld.cmdMpCfg_ETYPE 1 = 34997 ∧
    wired.fget Fld.cmdMpMac_MAC 1 = 5 ∧ wired.fget Fld.cmdMpCfg_PEER_EN 1 = 0 ∧ (pkt 0x0230 [0]).opcode ≠ 0x0004 ∧ 16 + (pkt 0x0230 [0]).plen = 24 ∧ (wired.queueOf 1).length < 16 ∧ (on.queueOf 3).length < 4 ∧ 4 ≤ (wired.queueOf 3).length := by decide +kernel
theorem witness_take : wired.fget Fld.cmdCtrl_RR ≠ 1 ∧ wired.cmdWaiting 1 = true ∧ wired.cmdWaiting 0 = false ∧
    wired.queueOf 1 = { cmd := pkt 1 [], port := 1 } :: [] ∧
    ((on.fset Fld.cmdMboxRspCtrl_EN 0 0 1).fset Fld.cmdMboxReqTail_REQ_TAIL 0 0 1).cmdWaiting 2 = true := by decide +kernel
/-- Port 1's queue is full. -/
def fullOn : State := { wired with cmd := { wired.cmd with queues := [(1, List.replicate 16 { cmd := pkt 1 [], port := 1 })] } }
theorem witness_full : 16 ≤ (fullOn.queueOf 1).length ∧ fullOn.fget Fld.cmdMpStat_LINK 1 ≠ 0 ∧ (∀ p < 4, on.cmdWaiting p = false) ∧ on.noCloentim = false := by decide +kernel
theorem witness_take_robin : (wired.fset Fld.cmdCtrl_RR 0 0 1).fget Fld.cmdCtrl_RR = 1 ∧ (wired.cmd.lastServed + 1 + 1) % 4 = 1 ∧
    (wired.fset Fld.cmdCtrl_RR 0 0 1).cmdWaiting 1 = true ∧ (wired.fset Fld.cmdCtrl_RR 0 0 1).cmdWaiting ((wired.cmd.lastServed + 1) % 4) = false := by decide +kernel

/-- Port 1 is ALIVE since time 0 and it is 500 µs later; a REFUSED reply waits since time 0. -/
def aged : State := { wired.fset Fld.cmdMpStat_EMBER 1 0 1 with
  now := 800000, cmd := { wired.cmd with refused := [({ partner := 1, opcode := 1, seq := 1, status := 4 }, 0)] } }
theorem witness_ember : aged.boot.inReset = false ∧ aged.fget Fld.cmdMpStat_LINK 1 ≠ 0 ∧ (pkt 4 [0, 0]).opcode = 0x0004 ∧ (pkt 4 [0, 0]).plen = 16 ∧
    aged.fget Fld.cmdMpStat_EMBER 1 = 1 ∧ aged.fget Fld.cmdMpStat_EMBER 1 ≠ 2 ∧ (aged.fset Fld.cmdMpStat_EMBER 1 0 2).fget Fld.cmdMpStat_EMBER 1 = 2 ∧
    (pkt 4 [0, 0]).resv = 0 ∧ tblGet 0 aged.cmd.emberAt 1 + us (100 * aged.fget Fld.cmdMpCfg_EMBER_MISS 1) = aged.now ∧ aged.soon (bringsEmber 1) = false := by
  decide +kernel
theorem witness_refused_reply : aged.cmd.refused = ({ partner := 1, opcode := 1, seq := 1, status := 4 }, 0) :: [] ∧ 0 + us 20 ≤ aged.now := by decide +kernel

/-- Host port 1 is up and the reply ring is enabled. -/
def hostOn : State := { on.fset Fld.cmdMboxRspCtrl_EN 0 0 1 with boot := { on.boot with hostLinks := [1] } }
theorem witness_commit : hostOn.fget Fld.cmdMboxRspCtrl_EN = 1 ∧ (16 % 2 ^ 32 + 2 ^ 32 - hostOn.fget Fld.cmdMboxReqHead_REQ_HEAD) % 2 ^ 32 ≤ 16 ∧
    hostOn.soon clearsEn = false ∧ 16 < (17 % 2 ^ 32 + 2 ^ 32 - hostOn.fget Fld.cmdMboxReqHead_REQ_HEAD) % 2 ^ 32 := by decide +kernel
/-- MBOX_RSP_CTRL. -/
def rspCtrl : RegAt := { reg := .cmdMboxRspCtrl, i := 0, j := 0, off := 0 }
theorem witness_enable : on.regCheck (on.regsAfter [(rspCtrl, 0x80080000)]) rspCtrl 0x80080000 = Status.ok ∧ on.fget Fld.cmdMboxRspCtrl_EN = 0 ∧
    (on.wr .cmdMboxRspCtrl 0 0 (regMerge .cmdMboxRspCtrl (on.rd .cmdMboxRspCtrl) 0x80080000)).fget Fld.cmdMboxRspCtrl_EN = 1 ∧
    hostOn.fget Fld.cmdMboxRspCtrl_EN ≠ 0 ∧ hostOn.regCheck (hostOn.regsAfter [(rspCtrl, 0x40000)]) rspCtrl 0x40000 = Status.ok := by decide +kernel
theorem witness_bar : hostOn.hostUp 1 = true ∧ hostOn.barList 0x108 4 0x588B5 = some [({ reg := .cmdMpCfg, i := 0, j := 0, off := 0 }, 0x588B5)] ∧ 0x108 % 4 = 0 ∧
    RegName.cmdMpCfg ≠ .cmdMboxReqTail ∧ 0x10A % 4 ≠ 0 := by decide +kernel
/-- The BAR0 offset of TAIL of ring 63 of EPB 63. -/
def tail63 : Nat := 0x1001018 + 63 * 0x40000 + 63 * 0x40
/-- The same, with the domain of EPB 63 Banked. -/
def offOn : State := hostOn.wr .pwrDomW0 7 0 0xC000000000000000
theorem witness_bar_discard : hostOn.barList 0x10A 2 0 = none ∧ barRing 0x10A 2 0 = none ∧ barRing tail63 4 5 = some 63 ∧ offOn.hostUp 1 = true ∧
    offOn.barList tail63 4 5 = none := by decide +kernel

theorem witness_cold : on.boot.inReset = false ∧ State.reset.boot.inReset = true ∧ State.reset.boot.brown = false := by decide +kernel
/-- A device in phase 2 whose Rick has recovered. -/
def bootOn (service : Bool) : State := { (on.fset Fld.cmdBootW0_PHASE 0 0 2).fset Fld.rickStat_STATE 0 0 2 with boot := { on.boot with service := service } }
theorem witness_boot : (on.fset Fld.cmdBootW0_PHASE 0 0 0).phase = 0 ∧ on.fget Fld.cmdBootW0_CAUSE ≠ 2 ∧ ((on.fset Fld.cmdBootW0_PHASE 0 0 0).fset Fld.cmdBootW0_CAUSE 0 0
    2).fget Fld.cmdBootW0_CAUSE = 2 ∧ (bootOn true).phase = 2 ∧ (bootOn true).rickState = Rick.run ∧ (bootOn true).opt.search = [] ∧ (bootOn true).boot.service = true ∧
    (bootOn false).boot.service = false := by decide +kernel
theorem witness_boot_slow : ({ bootOn false with now := 8000000000 } : State).phase = 2 ∧ (2 : Nat) ∉ (bootOn false).boot.slow ∧
    (bootOn false).boot.started + us (phaseLimit 2) = 8000000000 := by decide +kernel

theorem witness_boot_images : State.reset.boot.inReset = true ∧ State.reset.boot.brown = false ∧ (0 : Nat) ≠ 3 := by decide +kernel

/-- Host port 1 is held by PERST_N, EPB 63 is in a reset that ends by itself, and the root PLL has lost lock. -/
def perst : State := { on with boot := { on.boot with unlocked := some 1, held := [((RUnit.host 1).num, { since := 0, how := 3 }), (epb63.num, { since := 0, how := 2 })] } }
theorem witness_host_reset : on.resetBusy (.host 1) = false ∧ tblFind perst.boot.held (RUnit.host 1).num = some { since := 0, how := 3 } ∧
    tblFind perst.boot.held epb63.num = some { since := 0, how := 2 } ∧ on.boot.unlocked = none ∧ perst.boot.unlocked = some 1 := by decide +kernel
theorem witness_host_perst : on.hostPulsed 1 = false ∧
    ({ on with boot := { on.boot with held := [((RUnit.host 1).num, { since := 0, how := 0, ticket := some 0 })] } } : State).hostPulsed 1 = true := by decide +kernel
theorem witness_jtag : on.boot.rstLow = false ∧ State.reset.boot.rstLow = true ∧ on.fget Fld.klnState_DEBUG_OPEN ≠ 1 ∧ (on.fset Fld.klnState_DEBUG_OPEN 0 0 1).fget Fld.klnState_DEBUG_OPEN = 1 := by
  decide +kernel

/-! ### Witnesses: the regulator bus, the tray bus, power and heat (06, 07) -/

/-- Entry 15 of the regulator table is enabled, for address 0x7F with its mask full. -/
def regs15 : State := { on.wr .sbdRegW0 15 0 0x80000000007FFFFF with now := 1600000 }
theorem witness_poll : regs15.boot.inReset = false ∧ BusFree regs15 ∧ (List.range 16).filter (fun i => regs15.fget Fld.sbdRegW0_EN i == 1) = [15] ∧ regs15.soon alerts = false ∧
    regs15.sbd.pollAt + us (1000 * regs15.fget Fld.sbdCtrl_POLL_MS) ≤ regs15.now ∧ ((List.replicate 16 ({ st := 0 } : PollRead)).getD 15 {}).st = 0 := by
  unfold BusFree; decide +kernel
theorem witness_alert : regs15.boot.inReset = false ∧ BusFree regs15 ∧ (List.range 16).find? (fun i => regs15.fget Fld.sbdRegW0_EN i == 1 && regs15.fget Fld.sbdRegW0_ADDR i == 0x7F) = some 15 ∧
    tblFind regs15.sbd.alertAt 15 = none ∧ 0x8000 &&& regs15.fget Fld.sbdRegW0_PHASE_MASK 15 ≠ 0 := by
  unfold BusFree; decide +kernel
/-- A transfer of one byte waits, and a recovery has failed `k` times. -/
def tries (k : Nat) : State := { regs15 with sbd := { regs15.sbd with xfers := [{ ticket := 0, rlen := 1 }], tries := some (k, 0), load := some (true, 1) } }
theorem witness_xferDone : (tries 0).sbd.xfers = { ticket := 0, rlen := 1 } :: [] ∧ ([7] : List Byte).length = 1 := by decide +kernel
theorem witness_recovery : (tries 1).sbd.tries = some (1, 0) ∧ 0 + us 1000 = (tries 1).now ∧ (tries 2).sbd.tries = some (2, 0) ∧ (tries 2).sbd.tries ≠ none ∧
    (on.fset Fld.sbdStat_DOWN 0 0 1).busDown = true ∧ (on.fset Fld.sbdStat_DOWN 0 0 1).sbd.tries = none := by decide +kernel
/-- A reply of R402. -/
def reply0 : Reply := { partner := 3, opcode := 1, seq := 1, status := 0 }
theorem witness_tray : on.boot.inReset = false ∧ State.reset.boot.inReset = true ∧ on.cmd.sbBuf.length < 4 ∧ 24 = 16 + (pkt 1 [0]).plen ∧ 23 ≠ 16 + (pkt 1 [0]).plen ∧ on.cmd.sbBuf = [] ∧
    ({ on with cmd := { on.cmd with sbBuf := [reply0] } } : State).cmd.sbBuf = reply0 :: [] ∧ on.i3c = false ∧ (on.fset Fld.sbdStat_I3C 0 0 1).i3c = true := by decide +kernel
theorem witness_image : on.boot.inReset = false ∧ on.bound = false ∧ on.sbd.load = none ∧ 256 % 256 = 0 ∧ 1 ≠ on.fget Fld.cmdBootW0_IMAGE ∧ (on.fset Fld.cmdBootW0_PHASE 0 0 5).phase = 5 ∧
    (List.replicate 256 (0 : Byte)).length = 256 ∧ (tries 0).sbd.load = some (true, 1) := by decide +kernel

/-- Domain 46 in state `st`, permitted to go as deep as 1 (Idle), with nothing of it in use for 1 s. -/
def domOn (st : Nat) : State := { (on.fset Fld.pwrFunc_LAT 7 0 65535).wr .pwrDomW0 46 0 (BitVec.ofNat 64 (st * 2 ^ 62 + 2 ^ 60)) with now := 1600000000 }
theorem witness_choice : (domOn 0).quenched = false ∧ (domOn 0).pwr.choiceAt + us 1 ≤ (domOn 0).now ∧
    (domOn 0).pwr.slotAt + us ((domOn 0).fget Fld.pwrDamp_SLOT) ≤ (domOn 0).now ∧ (domOn 0).fget Fld.cmdBootW0_PHASE = 4 ∧ ((domOn 0).fset Fld.cmdBootW0_PHASE 0 0 3).fget Fld.cmdBootW0_PHASE ≠ 4 ∧
    domFunc 46 = some 7 ∧ (domOn 0).permits 46 7 1 = true ∧ (domOn 0).permits 46 7 2 = false ∧ (domOn 0).permits 46 7 3 = false ∧
    (domOn 0).pwr.reqs.any (fun r => r.dom == 46) = false ∧ tblFind (domOn 0).pwr.waking 46 = none ∧ domFunc 48 = none ∧
    ((domOn 0).wr .pwrDomW0 46 0 0).permits 46 7 1 = false := by decide +kernel
theorem witness_wake : (domOn 1).domState 46 = Pwr.idle ∧ (domOn 0).domState 46 = Pwr.active ∧ (domOn 3).domState 46 = Pwr.banked ∧ (domOn 2).domState 46 = Pwr.drowse ∧
    (46 : Nat) < 50 := by decide +kernel
theorem witness_wakeComplete : tblFind [(46, 1600000000)] 46 = some (domOn 1).now ∧ (domOn 1).now ≤ (domOn 1).now := by decide +kernel
/-- A PWR_SET that waits. -/
def pset : PwrCmd := { ticket := 0, domains := 1, deep := 0, at_ := 0 }
theorem witness_pwrTimeout : [pset].find? (fun x => x.ticket == pset.ticket) = some pset ∧ pset.at_ + us 200000 ≤ (domOn 0).now := by decide +kernel
theorem witness_d3 : (1 : Nat) ∉ on.boot.d3hot ∧ (1 : Nat) ∈ [1] := by decide +kernel

/-- The mailbox of host port 1 is in use, and its function in D3hot. -/
def asleepMbox : State := { (on.fset Fld.cmdMboxRspCtrl_EN 0 0 1).fset Fld.cmdMboxRspCtrl_HOST 0 0 1 with boot := { on.boot with hostLinks := [1], d3hot := [1] } }
theorem witness_d3hot : asleepMbox.fget Fld.cmdMboxRspCtrl_EN = 1 ∧ asleepMbox.fget Fld.cmdMboxRspCtrl_HOST = 1 ∧ 1 ∈ asleepMbox.boot.d3hot ∧
    asleepMbox.cmd.holding.length < 64 := by decide +kernel
/-- Smoulder is enabled with a floor of 10 W. -/
def smoulder : State := { (on.fset Fld.pwrSmoulder_EN 0 0 1).fset Fld.pwrSmoulder_FLOOR 0 0 10 with now := 1600 }
theorem witness_smoulder : smoulder.boot.inReset = false ∧ smoulder.pwr.smAt + us 1 = smoulder.now ∧ smoulder.pwr.estAt + us 1 = smoulder.now ∧ smoulder.quenched = false ∧ smoulder.fget Fld.pwrSmoulder_EN ≠ 0 ∧ smoulder.fget Fld.pwrTherm_LEVEL = 0 ∧ (1 : Nat) ≠ 0 ∧
    1000 * smoulder.fget Fld.pwrEst_P < smoulder.smoulderTarget (max (1000 * smoulder.fget Fld.pwrEst_P) (smoulder.pwr.env - smoulder.fget Fld.pwrSmoulder_FALL)) := by
  decide +kernel
theorem witness_smoulder_off : (smoulder.fset Fld.pwrTherm_LEVEL 0 0 1).fget Fld.pwrTherm_LEVEL ≠ 0 ∧ on.fget Fld.pwrSmoulder_EN = 0 ∧
    (on.fset Fld.pwrTherm_QSTATE 0 0 1).quenched = true := by decide +kernel
theorem witness_thermal : on.pwr.cut = false ∧ (domOn 0).boot.inReset = false ∧
    ({ State.reset with now := us 10 } : State).boot.inReset = true ∧ ({ State.reset with now := us 10 } : State).pwr.sampleAt + us 10 ≤ us 10 ∧ State.reset.pwr.cut = false ∧ (domOn 0).pwr.cut = false ∧ (domOn 0).pwr.sampleAt + us 10 ≤ (domOn 0).now ∧ hottest ([20, 125].take 23) 0 (0, 0) = (1, 125) ∧ hottest ([20, 124].take 23) 0 (0, 0) = (1, 124) ∧ thermLimit 2 ≤ 115 ∧
    (2 : Nat) ∉ on.pwr.reached ∧ 1 ≤ tblGet 0 [(2, 1)] 2 := by decide +kernel
/-- The throttle threshold is reached at level 6, and the last change is 10 ms old. -/
def hot : State := { on.fset Fld.pwrTherm_LEVEL 0 0 6 with now := 16000000, pwr := { on.pwr with reached := [1] } }
theorem witness_throttle : hot.throttleWhy = some 0 ∧ hot.fget Fld.pwrTherm_LEVEL = 6 ∧ hot.pwr.stepAt + us 1000 ≤ hot.now ∧
    ({ hot with pwr := {} } : State).throttleWhy = none ∧ ({ hot with pwr := {} } : State).pwr.stepAt + us 10000 = hot.now := by decide +kernel
theorem witness_quench : (on.fset Fld.pwrTherm_QSTATE 0 0 1).fget Fld.pwrTherm_QSTATE = 1 ∧ (on.fset Fld.pwrTherm_QSTATE 0 0 1).rickState = Rick.off ∧
    ({ on with now := 9600000 } : State).pwr.quenchAt + us 6000 = 9600000 := by decide +kernel

/-! ### Witnesses: check values, clocks and windows, HBM, Rick, Reservoir (08, 09) -/

/-- The domains of HBM stacks 0 and 7 are Active. -/
def stacksOn : State := (on.wr .pwrDomW0 26 0 0).wr .pwrDomW0 33 0 0
/-- Channel 15 feeds the last bytes of a line of HBM stack 7's pool, of the kind that R305 has zero-filled. -/
def feeding : State := { stacksOn with crc := { stacksOn.crc with feeds := [(15, { ticket := 0, addr := 119 * 2 ^ 45 + 120, left := 8 })] } }
theorem witness_feedDone : feeding.readWaits (119 * 2 ^ 45 + 120) = false ∧ tblFind feeding.crc.feeds 15 = some { ticket := 0, addr := 119 * 2 ^ 45 + 120, left := 8 } ∧ (119 * 2 ^ 45 + 120) % 128 + 8 ≤ 128 ∧
    feeding.internalRead (119 * 2 ^ 45 + 120) 8 none = some (List.replicate 8 0) := by decide +kernel
theorem witness_crc : on.crcFree 15 = true ∧ on.bound = false ∧ bit (0x1 : Word) 0 = true ∧ 8 ≤ bits (on.rd .crcCfg 15) 6 0 ∧ bits (on.rd .crcCfg 15) 6 0 ≤ 64 ∧
    (0x1 : Word).toNat < 2 ^ bits (on.rd .crcCfg 15) 6 0 ∧ (on.rd .crcInit 15).toNat < 2 ^ bits (on.rd .crcCfg 15) 6 0 ∧ on.rd .crcPoly 15 ≠ 1 ∧ tenant.bound = true := by
  decide +kernel
theorem witness_clock : on.pending = [] ∧ on.timeRuns = true ∧ State.reset.timeRuns = false ∧
    (State.reset.fset Fld.cmdBootW0_CAUSE 0 0 2).timeRuns = true ∧ on.holding = false := by decide +kernel
/-- A drain that waits for the requests of a list. -/
def drainOn (l : List Nat) : State := { on with xlat := { drains := [{ ticket := 1, reqs := l, tgts := [] }] } }
theorem witness_drain : (drainOn []).xlat.drains.find? (fun x => x.ticket == 1) = some { ticket := 1, reqs := [], tgts := [] } ∧
    (drainOn []).stillUsed { ticket := 1, reqs := [], tgts := [] } = false := by decide +kernel
/-- Tag 5 of a drain is outstanding. -/
def drainOld : State := { drainOn [5] with tags := [(5, { hdr := {}, own := .host 0 false, serial := 5 })] }
theorem witness_drain_waits : drainOld.xlat.drains.find? (fun x => x.ticket == 1) = some { ticket := 1, reqs := [5], tgts := [] } ∧
    drainOld.stillUsed { ticket := 1, reqs := [5], tgts := [] } = true := by decide +kernel
/-- Window 255 is open, to close at time 0. -/
def window (fir : Nat) : State := { on.fset Fld.errWinW0_FIR 255 0 fir with err := { on.err with windows := [{ slot := 255, closeAt := 0 }] } }
theorem witness_window : (∃ w ∈ (window 1).err.windows, w.slot = 255) ∧ (window 1).fget Fld.errWinW0_FIR 255 = 1 ∧
    (∃ w ∈ (window 0).err.windows, w.slot = 255 ∧ w.closeAt ≤ (window 0).now) ∧ (window 0).fget Fld.errWinW0_FIR 255 = 0 :=
  ⟨⟨_, List.mem_singleton.2 rfl, rfl⟩, by decide +kernel, ⟨_, List.mem_singleton.2 rfl, rfl, Nat.le_refl _⟩, by decide +kernel⟩

/-- Granule 383 of stack 7 is being zero-filled, as is the whole of stack 6. -/
def draining : State := { stacksOn.wr .pwrDomW0 32 0 0 with hbm := { on.hbm with draining := [(7, [{ granule := 383, zeroing := true }])], filling := [6] } }
theorem witness_granule : (∃ d ∈ tblGet [] draining.hbm.draining 7, d.granule = 383 ∧ d.zeroing = true) ∧ 6 ∈ draining.hbm.filling ∧ draining.hbmHeld 6 = false ∧
    draining.fget Fld.spnHregScrub_SCRUB_EN 7 ≠ 0 ∧ draining.poolReady 7 = true ∧ draining.fget Fld.pwrDomW0_STATE 32 = 0 :=
  ⟨⟨_, List.mem_singleton.2 rfl, rfl, rfl⟩, by decide +kernel, by decide +kernel, by decide +kernel, by decide +kernel, by decide +kernel⟩
theorem witness_scrub : stacksOn.poolReady 7 = true ∧ stacksOn.fget Fld.spnHregScrub_SCRUB_EN 7 ≠ 0 ∧
    ∃ r < 4, stacksOn.fget Fld.spnHregScrubpos_LINE 7 / granuleLines ∈ stacksOn.grans 7 r := ⟨by decide +kernel, by decide +kernel, 0, by decide, by decide +kernel⟩
/-- Stack 7 has given up its granules. -/
def bare7 : State := { stacksOn with hbm := { on.hbm with grans := [(28, []), (29, []), (30, []), (31, [])] } }
theorem witness_scrub_skip : bare7.poolReady 7 = true ∧ bare7.fget Fld.spnHregScrub_SCRUB_EN 7 ≠ 0 ∧ ∀ r < 4, bare7.fget Fld.spnHregScrubpos_LINE 7 / granuleLines ∉ bare7.grans 7 r := by decide +kernel

/-- A Rick command of `op` on object 4095, a plain object of 64 units in state OPEN. -/
def ricking (op kind count : Nat) : State :=
  { (rickOn 1 kind).wr .pwrDomW0 26 0 0 with rick := { (rickOn 1 kind).rick with cmds := [{ ticket := 0, op := op, obj := 4095, addr := 112 * 2 ^ 45, unit := 0, count := count }] } }
theorem witness_rickCmd : (ricking 0x260 0 1).rickCmd 0 = some { ticket := 0, op := 0x260, obj := 4095, addr := 112 * 2 ^ 45, unit := 0, count := 1 } ∧
    (ricking 0x260 0 1).rickState = Rick.run ∧ (ricking 0x260 0 1).rickWaits { ticket := 0, op := 0x260, obj := 4095, addr := 112 * 2 ^ 45, unit := 0, count := 1 } = false ∧
    (ricking 0x262 0 1).object 4095 ≠ none ∧ ((ricking 0x261 1 64).poolBytes (112 * 2 ^ 45) 64).isSome = true ∧
    (ricking 0x261 1 64).logFull 4 4095 (digestWords []) = false ∧ (0 : Nat) + { ricking 0x260 0 1 with now := us 300000000 }.fget Fld.rickJrnl_JPERIOD * us 1000000 ≤ us 300000000 := by decide +kernel
/-- A manifest of one billet of object 4095 (R316), and the pool memory with it. -/
def manifest1 : List Byte := bytesOfWords [0x0100FFF000000000, 1, 0, 0, 0, 0, 0, 0, 0, 0xFFF0000000000000, 0, 0, 0, 0, 0, 0]
def sealing : State := { ricking 0x261 1 128 with
  rick := { (ricking 0x261 1 128).rick with objs := [(4095, { st := 1, kind := 1, length := billetUnits 0 })] }
  mem := [(134217732, 0xF0), (134217733, 0xFF), (134217735, 1), (134217736, 1), (134217806, 0xF0), (134217807, 0xFF)] }
theorem witness_manifest : sealing.poolBytes (112 * 2 ^ 45) 128 = some manifest1 ∧ (sealing.object 4095).map (manifestOk manifest1 4095) = some true ∧
    manifestOk (List.replicate 64 0) 4095 {} = false ∧ sealing.logFull 4 4095 (digestWords manifest1) = false := by decide +kernel
theorem witness_program_fail : 7 ∉ ((ricking 0x260 0 1).rickChan 31).retired ∧ (ricking 0x260 0 1).rickState = Rick.run := by decide +kernel
theorem witness_rick_quench : (on.fset Fld.rickStat_STATE 0 0 1).rickState = Rick.recovering ∧ ((rickOn 1 0).fset Fld.pwrTherm_QSTATE 0 0 1).fget Fld.pwrTherm_QSTATE ≠ 0 ∧
    ((rickOn 1 0).fset Fld.pwrTherm_QSTATE 0 0 1).rickState = Rick.run ∧ (on.fset Fld.rickStat_STATE 0 0 3).rickState = Rick.quenchProg ∧
    on.rick.quenchAt + us 3000 ≤ 4800000 ∧ (on.fset Fld.rickStat_STATE 0 0 4).rickState = Rick.quenchJournal := by decide +kernel

/-- Stream 7 in state `st` over object 4095, whose slot 0 is filled or being filled; its layer table has one part that ends it. -/
def strmOn (st : Nat) (x : Strm) (filling : Bool) : State :=
  { ((rickOn 2 1).wr .pwrDomW0 26 0 0).fset Fld.rsvStrStat_STATE 7 0 st with
    mem := [(134217743, 0x80)]
    rsv := { on.rsv with streams := [(7, x)], slots := [(0, { obj := 4095, page := 0, filling := filling })] } }
/-- The words of its RSV_STREAM. -/
def strmWords : List Word := [0x10000000000, 0xFFF0000000000000, 0, BitVec.ofNat 64 (112 * 2 ^ 45), 0]
/-- Waiting for its sequence, in its sequence, and at its end. -/
def strm0 : Strm := { words := strmWords }
def strm1 : Strm := { words := strmWords, current := true, parts := [(0, 0)] }
def strm2 : Strm := { words := strmWords, current := true }
theorem witness_fill : tblFind (strmOn 1 strm0 true).rsv.slots 0 = some { obj := 4095, page := 0, filling := true } ∧ (strmOn 1 strm0 true).kln.weightKey = some [1] ∧
    (strmOn 1 strm0 true).object 4095 ≠ none ∧ (strmOn 1 strm0 true).poolHeld (0 / 65536) = false := by decide +kernel
theorem witness_promo : (on.fset Fld.rsvHeat_PROMO_EN 0 0 1).fget Fld.rsvHeat_PROMO_EN ≠ 0 ∧ on.rsvHeld = false ∧ on.fget Fld.pwrTherm_LEVEL < 4 ∧
    4 ≤ (on.fset Fld.pwrTherm_LEVEL 0 0 7).fget Fld.pwrTherm_LEVEL ∧
    on.rsv.heatAt + on.fget Fld.rsvHeat_PERIOD * us 100 ≤ us 300000000 ∧ on.rsv.promoAt + us 10 ≤ us 10 := by decide +kernel
theorem witness_sequence : (strmOn 1 strm0 false).strmState 7 = 1 ∧ strm0.current = false ∧ (strmOn 1 strm0 false).paceOk strm0 = true ∧
    (strmOn 1 strm0 false).tablesWait strm0 = false := by decide +kernel
theorem witness_sequence_table : strm0.ltab = 112 * 2 ^ 45 ∧
    (strmOn 1 strm0 false).internalRead (112 * 2 ^ 45 + 8) 8 none = some [0, 0, 0, 0, 0, 0, 0, 0x80] := by decide +kernel
theorem witness_pace : (strmOn 1 strm0 false).paceOk { strm0 with words := [0, 0, 0x100000001, 0, 0] } = false := by decide +kernel
theorem witness_part : strm1.current = true ∧ strm1.next = some (0, (0, 0)) ∧ (strmOn 1 strm1 false).object strm1.obj ≠ none ∧ (strmOn 1 strm1 false).storesWait 7 = false ∧
    ((strmOn 1 strm1 false).object 4095).map (fun o => (strmOn 1 strm1 false).partReady strm1 o (0, 0)) = some true ∧ strm1.mode ≠ 0 := by decide +kernel
theorem witness_sequenceDone : strm2.current = true ∧ strm2.next = none ∧ strm2.out = [] ∧ (strmOn 2 strm2 false).strmState 7 = 2 ∧ (strmOn 2 strm2 false).strmFills 7 = false ∧
    (strmOn 3 strm2 false).strmState 7 = 3 := by decide +kernel

/-! ### Witnesses: links, rings, Kiln (10, 11) -/

/-- Link n in a training state, its domain Active, the clock at 1 s, enabled. -/
def linkOn (n st : Nat) : State := { ((on.wr .pwrDomW0 (linkDomain n) 0 0).fset Fld.lnkCtrl_EN n 0 1).fset Fld.lnkStat_STATE n 0 st with now := 1600000000 }
theorem witness_linkEn : (linkOn 63 0).lkState 63 = LnkS.reset ∧ (linkOn 63 0).mayTrain 63 = true ∧ (linkOn 63 7).lkState 63 ≠ LnkS.reset := by decide +kernel
theorem witness_train : [1, 2, 3, 4, 5].all (fun st => (linkOn 191 st).lkState 191 == st) = true ∧ LnkS.detect = 1 ∧ LnkS.cdr = 2 ∧ LnkS.eq = 3 ∧ LnkS.prbsChk = 4 ∧
    LnkS.align = 5 := by decide +kernel
/-- Lanes that show four commas each in these orders, those of an attach link with inverted polarity. -/
def seen63 : List LaneSeen := (List.range 8).reverse.map (fun j => { lane := j, commas := List.replicate 4 (commaLevels.map (3 - ·)) })
def seen191 : List LaneSeen := (List.range 16).reverse.map (fun j => { lane := j, slot := 1, commas := List.replicate 4 commaLevels })
theorem witness_aligned : lanesAligned 63 seen63 = true ∧ seen63.map (·.lane) = (List.range 8).reverse ∧ lanesAligned 191 seen191 = true ∧
    (∀ j < 16, j ∈ seen191.map (·.lane)) ∧ lanesAligned 191 (seen63 ++ seen63) = false ∧
    (((linkOn 63 5).fset Fld.lnkStat_REV 63 0 1).fset Fld.lnkStat_ALIGNED 63 0 0xFF).lkState 63 = LnkS.align := by decide +kernel
theorem witness_timeout : trainLimit ((linkOn 191 8).lkState 191) = some (us 10, LnkS.cdr) ∧ ((linkOn 191 8).lk 191).entered + us 10 ≤ (linkOn 191 8).now ∧
    ((linkOn 191 8).lk 191).toRec = none ∧ (1600000000 : Nat) < 1 + us 1000000 := by decide +kernel
/-- Link n is in a state and has this record. -/
def linkHas (n st : Nat) (l : Lnk) : State := (linkOn n st).lkMod n (fun _ => l)
theorem witness_linkUp : (linkOn 63 6).lkState 63 = LnkS.init ∧ (linkOn 63 6).fget Fld.lnkCtrl_EN 63 = 1 ∧ (linkOn 63 6).keepsState 63 0 = false ∧
    (linkOn 63 6).soon (stopsLink 63) = false ∧ (linkHas 63 8 { keptAt := some 1600000000, flags := 7 }).lkState 63 = LnkS.recover ∧
    ((linkHas 63 8 { keptAt := some 1600000000, flags := 7 }).lk 63).flags % 2 = 1 ∧ (linkHas 63 8 { keptAt := some 1600000000, flags := 7 }).keepsState 63 0 = true := by decide +kernel
theorem witness_linkFails : (linkOn 191 7).lkState 191 = LnkS.up ∧ ((linkOn 191 7).lk 191).rx = 0 ∧ ((linkHas 191 7 { rx := 2 }).lk 191).rx = 2 ∧
    ((linkHas 191 7 { rx := 2 }).lk 191).rxAt + us 2 ≤ (linkHas 191 7 { rx := 2 }).now ∧ ((linkHas 191 7 { keptAt := some 0 }).lk 191).keptAt = some 0 ∧
    0 + (linkHas 191 7 { keptAt := some 0 }).holdEff ≤ (linkHas 191 7 { keptAt := some 0 }).now := by decide +kernel
theorem witness_creditFails : (tblGet ({} : Credit) ((linkOn 191 7).lk 191).credits 8).at_ + us 2 ≤ (linkOn 191 7).now ∧
    ((linkOn 191 7).fsat Fld.lnkLl_CRED_FAIL 191 0 1).lkState 191 = LnkS.up ∧ (linkOn 191 7).soon (bringsCodeword 191) = false ∧
    ({ linkOn 191 7 with pending := [.burstReceive 127 [] []] } : State).soon (bringsCodeword 191) = true := by decide +kernel
theorem witness_admin : on.fget Fld.hubLink_ADMIN 127 ≠ 1 ∧ (on.fset Fld.hubLink_ADMIN 127 0 1).fget Fld.hubLink_ADMIN 127 ≠ 0 := by decide +kernel
theorem witness_codeword : (((linkOn 63 7).fset Fld.lnkStat_POLINV 63 0 0x80).undo 63 7 [3, 0]) = [0, 3] ∧ (linkOn 63 7).undo 63 7 [3, 0] = [3, 0] ∧
    ((linkOn 63 7).fset Fld.lnkStat_REV 63 0 1).logicalLane 63 0 = 7 ∧
    ((linkOn 63 7).lk 63).rx = 0 ∧ (linkOn 63 7).lkState 63 = LnkS.up := by decide +kernel
/-- A flit. -/
def flit0 : Flit := { vc := 0, pool := 0, sop := true, eop := true }
theorem witness_replay : (linkHas 63 7 { retry := [flit0] }).lkActive 63 = true ∧ ((linkHas 63 7 { retry := [flit0] }).lk 63).retry ≠ [] ∧ ((linkHas 63 7 { retry := [flit0] }).lk 63).ackAt + us 1 ≤ (linkOn 63 7).now := by decide +kernel
theorem witness_sleep : ((linkOn 191 7).fset Fld.lnkCtrl_SLEEP_EN 191 0 1).fget Fld.lnkCtrl_SLEEP_EN 191 = 1 ∧ ((linkOn 191 7).lk 191).nothingOwed = true ∧
    ((linkOn 191 7).lk 191).idleAt + (linkOn 191 7).fget Fld.lnkCtrl_QIDLE 191 * 400 ≤ (linkOn 191 7).now ∧ (linkOn 191 7).lkActive 191 = true ∧ (linkOn 191 7).fibreFree 191 = true ∧
    (linkHas 191 7 { credits := (List.range 9).map (fun p => (p, { partner := 2047 })) }).creditDue 191 = false ∧ (linkOn 191 7).soon (wakesLink 191) = false ∧
    ((linkHas 191 7 { tx := 1, owed := true, rx := 1 }).lk 191).nothingOwed = false ∧ ((linkHas 191 7 { tx := 1, owed := true, rx := 1 }).lk 191).tx = 1 ∧
    ((linkHas 191 7 { tx := 1, owed := true, rx := 1 }).lk 191).rx = 1 ∧ ((linkHas 191 7 { tx := 2, rx := 2 }).lk 191).tx = 2 ∧
    ((linkHas 191 7 { tx := 2 }).lk 191).txAt + 1360 ≤ (linkHas 191 7 { tx := 2 }).now := by decide +kernel
/-- The fibre's egress is UP and its link owes a NAK. -/
def visitOn : State := (linkHas 191 7 { nak := true }).fset Fld.hubLink_STATE 127 0 Hub.up
theorem witness_optical : ((linkOn 191 7).lk 191).burstAt + (linkOn 191 7).fget Fld.optGCtrl_DARK_MAX (127 / 4) * 800 ≤ (linkOn 191 7).now ∧ 191 = 64 + 127 ∧
    (linkOn 191 7).hitsSoon 127 = false ∧ ({ linkOn 191 7 with pending := [.burstReceive 127 commaLevels []] } : State).hitsSoon 127 = true ∧
    (linkOn 191 7).firstHit 127 [commaLevels] = true ∧ visitOn.visitDue 127 = true := by decide +kernel
theorem witness_trainingBurst : (linkOn 190 1).lkState (64 + 126) ≠ LnkS.reset ∧ (linkOn 190 1).lkState (64 + 126) ≠ LnkS.up ∧
    ((linkOn 190 1).fset Fld.lnkStat_STATE 191 0 7).trainsNow (64 + 126) = false ∧ (linkOn 190 1).fibreFree (64 + 126) = true := by decide +kernel

/-- Ring 15 of bus 4 of group 31 in a state, at code 4095, with a lock record; its bus is searched. -/
def ringSt (st : Nat) (x : RingLock) : State :=
  { ((on.optRingSet 31 4 15 st).optHeat 31 4 15 4095) with
    now := 1600000000, opt := { on.opt with locks := [(ringKey 31 4 15, x)], search := [(busKey 31 4, { single := some 15 })] } }
theorem witness_sweep : tblFind (ringSt 1 {}).opt.search (busKey 31 4) = some { single := some 15 } ∧ ({ single := some 15 } : BusSearch).ring = 15 ∧
    (ringSt 1 {}).optRing 31 4 15 = Ring.sweep ∧ 0 + us 4096 ≤ (ringSt 1 {}).now ∧
    [((7 : Nat), (255 : Nat))].find? (fun d => decide ((ringSt 1 {}).fget Fld.optGCtrl_TAKEN_HI 31 ≤ d.2)) = some (7, 255) := by decide +kernel
theorem witness_dither : (ringSt 2 { good := 15 }).laserLow 31 = false ∧ (0 : Nat) + us 4 ≤ (ringSt 2 {}).now ∧ (ringSt 2 {}).betweenBursts 31 4 = false ∧
    (ringSt 2 {}).now ≤ 1600000000 - us 64 + us 128 ∧ (1600000000 - us 64) + us 64 ≤ (ringSt 2 {}).now ∧ 0 + us 128 ≤ (ringSt 2 {}).now ∧
    (ringSt 2 {}).soon (updatesRing 31 4 15) = false ∧ ({ ringSt 2 {} with pending := [.ditherUpdate 31 4 15 0 0] } : State).soon (updatesRing 31 4 15) = true ∧ (ringSt 2 { good := 15 }).optRing 31 4 15 = Ring.locking ∧ 0 + us 64 ≤ (ringSt 2 {}).now ∧
    (ringSt 3 {}).optRing 31 4 15 = Ring.locked ∧ min 4095 ((ringSt 3 {}).fget Fld.optGRing_HEAT 31 (ringIx 4 15) + 1) = 4095 := by decide +kernel
theorem witness_dither_good : (if 0 ≤ Config.lockTol (ringKey 31 4 15) then 15 + 1 else 0) = 16 := if_pos (Nat.zero_le _)
theorem witness_relock : (ringSt 4 {}).optRing 31 4 15 = Ring.lost ∧ on.fget Fld.optGCtrl_AUTO_RELOCK 31 = 1 ∧ on.searchable 31 4 = true ∧ tblFind on.opt.search (busKey 31 4) = none := by
  decide +kernel
theorem witness_laser : 0 < on.fget Fld.optOcPwr_LASER_MIN 7 ∧ on.fget Fld.optOcStat_LASER_LOW 7 = 0 := by decide +kernel

/-- An open session 1 whose key is authenticated, one that is not open yet, and a message of these bytes at the head; negotiation is complete; binding state `b`. -/
def spdmOn (b : Nat) (data : List Byte) : State :=
  { (on.fset Fld.klnState_BSTATE 0 0 b) with
    kln := { on.kln with nego := 3, sessions := [{ id := 1, isOpen := true, authed := true, keyHash := List.replicate 48 0 }, { id := 2 }], spdm := [{ ticket := 0, data := data }] } }
theorem witness_spdm_plain : Waits (spdmOn 0 [0x10, 0x84, 0, 0]) { ticket := 0, data := [0x10, 0x84, 0, 0] } 0 [] 0x84 0 ∧
    Waits (spdmOn 0 [0x13, 0xE1, 0, 0]) { ticket := 0, data := [0x13, 0xE1, 0, 0] } 0 [] 0xE1 1 ∧
    Waits (spdmOn 0 [0x13, 0xE3, 0, 0]) { ticket := 0, data := [0x13, 0xE3, 0, 0] } 0 [] 0xE3 2 ∧
    Waits (spdmOn 0 [0x13, 0x83, 0, 0]) { ticket := 0, data := [0x13, 0x83, 0, 0] } 0 [] 0x83 3 ∧
    Waits (spdmOn 0 [0x13, 0xE4, 0, 0]) { ticket := 0, data := [0x13, 0xE4, 0, 0] } 0 [] 0xE4 3 := by unfold Waits; decide +kernel
/-- A request inside session `sid`. -/
def inside (code : Byte) (sid : Nat) : Prop := Waits (spdmOn 0 []) { ticket := 0 } sid [0x13, code, 0, 0] code.toNat 3
theorem witness_spdm_session : InSession (spdmOn 0 []) 1 ∧ inside 0x81 1 ∧ inside 0x82 1 ∧ inside 0xE0 1 ∧ inside 0x85 1 ∧ inside 0x86 1 ∧ inside 0xE8 1 ∧ inside 0xE9 1 ∧
    inside 0xEC 1 := ⟨⟨by decide, _, rfl, rfl⟩, by unfold inside Waits; decide +kernel⟩
theorem witness_spdm_finish : inside 0xE5 2 ∧ (spdmOn 0 []).session 2 = some { id := 2 } := by unfold inside Waits; decide +kernel
theorem witness_spdm_expiry : (0 : Nat) + us 10000000 ≤ 16000000000 ∧ (spdmOn 0 []).session 1 ≠ none := by decide +kernel
theorem witness_spdm_complete : ([{ ticket := 5, resp := some [] }] : List SpdmMsg).find? (fun x => x.ticket == 5) = some { ticket := 5, resp := some [] } ∧
    0 + us 2000 ≤ 3200000 := by decide +kernel

/-- A Kiln message of `kop` and this body. -/
def kilnMsg (kop : Nat) (body : List Byte) : List Byte := vendorHeader 0xFE (16 + body.length) ++ (bytesOfWords [BitVec.ofNat 64 (kop * 2 ^ 56 + body.length), 0] ++ body)
theorem witness_kilnAsks (kop : Nat) (body : List Byte) (h : body.length < 2 ^ 32) : KilnAsks (kilnMsg kop body) kop body := by
  refine ⟨by simp [kilnMsg, vendorHeader, toBytes], h, by simp [kilnMsg, vendorHeader, toBytes]⟩
theorem witness_kiln_waits (b kop : Nat) (body : List Byte) : Waits (spdmOn b []) { ticket := 0 } 1 (kilnMsg kop body) 0xFE 3 ∧ InSession (spdmOn b []) 1 ∧
    (seen (spdmOn b []) 1).session 1 = some { id := 1, isOpen := true, authed := true, keyHash := List.replicate 48 0 } :=
  ⟨⟨rfl, rfl, Nat.le_refl 3, by simp [asked, kilnMsg, vendorHeader], by simp [asked, kilnMsg, vendorHeader]⟩, ⟨by decide, _, rfl, rfl⟩, rfl⟩
/-- A key of 64 bytes whose halves differ, and one of 32. -/
def key64 : List Byte := List.replicate 32 1 ++ List.replicate 32 2
theorem witness_bind : KilnAsks (kilnMsg 1 (key64 ++ key64 ++ List.replicate 32 3 ++ List.replicate 32 0)) 1 (key64 ++ key64 ++ List.replicate 32 3 ++ List.replicate 32 0) ∧
    key64.length = 64 ∧ weakKey key64 = false ∧ (seen (spdmOn 0 []) 1).bstate = Bind.unbound ∧ (seen (spdmOn 0 []) 1).fget Fld.klnState_DEBUG_OPEN = 0 :=
  ⟨witness_kilnAsks _ _ (by decide +kernel), by decide +kernel⟩
theorem witness_bound : (seen (spdmOn 2 []) 1).bstate = Bind.bound ∧ (seen (spdmOn 2 []) 1).bound = true ∧
    ((seen (spdmOn 2 []) 1).tenantSet (List.replicate 48 0)).tenantOf { id := 1, isOpen := true, authed := true, keyHash := List.replicate 48 0 } = true ∧
    (on.fset Fld.klnState_BSTATE 0 0 1).bstate = Bind.binding ∧ (on.fset Fld.klnState_BSTATE 0 0 3).bstate = Bind.unbinding := by decide +kernel
theorem witness_kiln_forms : KilnAsks (kilnMsg 2 (keyBody 2 0 key64)) 2 (keyBody 2 0 key64) ∧
    KilnAsks (kilnMsg 2 (keyBody 3 63 (key64.take 32 ++ List.replicate 32 0))) 2 (keyBody 3 63 (key64.take 32 ++ List.replicate 32 0)) ∧
    KilnAsks (kilnMsg 3 (keyBody 1 0 [])) 3 (keyBody 1 0 []) ∧ KilnAsks (kilnMsg 6 []) 6 [] ∧
    KilnAsks (kilnMsg 7 (bytesOfWords [0xFFFFFFFF])) 7 (bytesOfWords [0xFFFFFFFF]) ∧ KilnAsks (kilnMsg 4 (key64.take 32)) 4 (key64.take 32) ∧ KilnAsks (kilnMsg 5 []) 5 [] :=
  ⟨witness_kilnAsks _ _ (by decide +kernel), witness_kilnAsks _ _ (by decide +kernel), witness_kilnAsks _ _ (by decide +kernel), witness_kilnAsks _ _ (by decide +kernel),
   witness_kilnAsks _ _ (by decide +kernel), witness_kilnAsks _ _ (by decide +kernel), witness_kilnAsks _ _ (by decide +kernel)⟩

/-! ### Witnesses: Spindle (12) -/

/-- Thread 15 of core 255 is READY before the only word of its program. -/
def thrOn (w : Word) : State := (((on.wr .pwrDomW0 25 0 0).fset Fld.spnProg_LEN 15 0 8).thrSet Fld.spnThrW0_STATE 4095 1).store (imemKey 15 0) (wordBytes w)
/-- The word of an operation of class `cls` with this IMM, all other fields 0 (R230). -/
def spell (cls op imm : Nat) : Word := BitVec.ofNat 64 (cls * 2 ^ 60 + op * 2 ^ 52 + imm)
/-- The operations of each class, with an IMM that is no reserved encoding (R231). -/
def ops : List (Nat × List Nat × Nat) :=
  [(0, List.range 13, 0), (1, [0, 3, 4, 5, 6, 7, 8, 0x20, 0x21, 0x22], 5), (2, [0, 1, 2, 3, 4, 5], 0x2800000), (2, [6, 7, 8, 0x0A], 0), (2, [0x0B], 0x2A800000),
   (3, [0, 2, 3, 4, 5, 0x10, 0x11, 0x12], 0x2800000), (4, [0, 1, 2, 3, 8, 9, 0x0A, 0x10, 0x11, 0x12, 0x13], 0x2800000), (5, List.range 6, 0), (6, [0, 1, 2, 3], 0),
   (6, [4, 5, 6, 7, 8], 0x80000000), (7, List.range 6, 0x2800000), (8, [0, 1, 2, 8, 0x0A, 0x0F, 0x10], 0)]
theorem witness_spindle_words : ops.all (fun x => x.2.1.all (fun op =>
    let i := SInstr.of (spell x.1 op x.2.2)
    i.ok && i.cls == x.1 && i.op == op)) = true := by decide +kernel
theorem witness_spindle_issues : Issues (thrOn (spell 2 3 0x2800000)) 255 15 0 ∧ (thrOn (spell 2 3 0x2800000)).fetch 4095 = SInstr.of (spell 2 3 0x2800000) := by
  unfold Issues; decide +kernel
theorem witness_spindle_at : At (thrOn (spell 8 0x0F 0)) 255 15 8 0x0F := by unfold At; decide +kernel
/-- A thread whose local store window is the last KiB of its core. -/
def windowed (w : Word) : State := (thrOn w).thrMod 4095 (fun t => { t with lsBase := 255, lsSize := 1, sr := [(0, 0x300)] })
theorem witness_local : (windowed (spell 5 2 0)).localAddr 4095 ((windowed (spell 5 2 0)).fetch 4095) % 256 = 0 ∧
    (windowed (spell 5 2 0)).localAddr 4095 ((windowed (spell 5 2 0)).fetch 4095) + 256 ≤ ((windowed (spell 5 2 0)).thr 4095).lsSize * 1024 ∧
    ¬ ((thrOn 0).thr 4095).lsSize * 1024 ≥ 8 := by decide +kernel
theorem witness_exact : ((thrOn (spell 7 1 0x2800000)).thrSet Fld.spnThrW0_XMASK 4095 1).thrGet Fld.spnThrW0_XMASK 4095 = 1 ∧ Nat.testBit 1 0 = true ∧ Nat.testBit 0 3 = false := by
  decide +kernel
theorem witness_vext : ((windowed (spell 3 0x11 0x4000000)).sreg 4095 0).toNat ≥ 256 / fmtBytes 8 ∧ ((thrOn 0).sreg 4095 0).toNat < 256 / fmtBytes 8 := by decide +kernel
theorem witness_spindle_ends : (thrOn 0).spnTurn 255 = some (15, 0) ∧ (thrOn 0).fget Fld.pwrDomW0_STATE (10 + 255 / 16) = 0 ∧
    ((thrOn 0).fset Fld.spnProg_LEN 15 0 0).fget Fld.spnProg_LEN 15 ≤ (((thrOn 0).fset Fld.spnProg_LEN 15 0 0).thr 4095).pc ∧
    ((thrOn 0).fset Fld.spnProg_LEN 15 0 0).spnTurn 255 = some (15, 0) ∧ (thrOn 0xFFFFFFFFFFFFFFFF).spnTurn 255 = some (15, 0) ∧
    (thrOn 0xFFFFFFFFFFFFFFFF).fget Fld.spnProg_LEN 15 > 0 ∧ ((thrOn 0xFFFFFFFFFFFFFFFF).fetch 4095).ok = false := by decide +kernel
/-- A thread whose access has ended. -/
def accessed (st : Nat) (e : RemoteEnd) : State := { (thrOn (spell 6 0 0)).thrSet Fld.spnThrW0_STATE 4095 st with spn := { (thrOn 0).spn with ends := [(4095, [e])] } }
theorem witness_access : tblGet [] (accessed 4 { part := 0, status := 0 }).spn.ends 4095 = { part := 0, status := 0 } :: [] ∧
    (accessed 4 { part := 0, status := 0 }).thrState 4095 = ThrSt.drain ∧ (accessed 2 { part := 0, status := 0 }).thrState 4095 = ThrSt.wait ∧
    ({ part := 0, status := 1, restart := some 9 } : RemoteEnd).restart = some 9 := by decide +kernel
theorem witness_access_again : tblGet [] (thrOn 0).spn.ends 4095 = [] ∧
    ({ (thrOn 0).thrSet Fld.spnThrW0_STATE 4095 2 with spn := { (thrOn 0).spn with waits := [(4095, [])] } } : State).thrState 4095 = ThrSt.wait := by decide +kernel
theorem witness_waitc : At ((thrOn (spell 8 8 63)).thrSet Fld.spnThrW0_STATE 4095 2) 255 15 8 8 ∧
    (on.fget Fld.spnCtxW1_COUNT 15 63 + 2 ^ 32 - (on.sreg 4095 0).toNat % 2 ^ 32) % 2 ^ 32 < 2 ^ 31 := by unfold At; decide +kernel
/-- A program load of 8 bytes. -/
def load8 (src : Nat) : ProgLoad := { ticket := 0, cmask := 0x8000, src := src, len := 8 }
theorem witness_progDone : (on.wr .pwrDomW0 26 0 0).loadWaits (load8 0) = false ∧ (on.wr .pwrDomW0 26 0 0).loadWaits (load8 (112 * 2 ^ 45)) = false ∧ [load8 0].find? (fun x => x.ticket == (load8 0).ticket) = some (load8 0) ∧ on.poolBytes 0 8 = none ∧
    on.poolBytes (112 * 2 ^ 45) 8 = some (List.replicate 8 0) ∧ on.logFull 3 15 (digestWords (List.replicate 8 0)) = false := by decide +kernel
theorem witness_ctxRole : on.fget Fld.spnCtxW0_ROLE 15 63 ≠ 255 % 256 ∧ on.fget Fld.spnCtxW0_ROLE 15 63 = 256 % 256 := by decide +kernel

/-! ### Witnesses: requests and responses (13) -/

/-- A request to a target port. -/
def req (e ty : Nat) : Packet := { typ := ty, addr := e * 2 ^ 45, len := 7, fmt := 4, payload := List.replicate 8 1 }
/-- The target's power domain is Active. -/
def tgtOn (e : Nat) : State := { on.wr .pwrDomW0 (targetDomain e) 0 0 with boot := { on.boot with hostLinks := [1] } }
theorem witness_request_waits : isTarget 119 = true ∧ (on.wr .pwrDomW0 (targetDomain 119) 0 0xC000000000000000).targetReady 119 = false ∧
    (119, req 119 1) ∉ on.delivered ∧ reqRow 0x01 119 (req 119 1) (.load 119 (req 119 1) false) := ⟨by decide +kernel, by decide +kernel, by decide +kernel, Or.inl ⟨rfl, rfl⟩⟩
theorem witness_request_unfit : Arrives (tgtOn 119) 119 (req 119 0x0B) 0x0B ∧ kindOk 119 (req 119 0x0B) = false := by unfold Arrives; decide +kernel
theorem witness_request_pool : [1, 2, 3, 4, 5, 6, 7, 8, 9].all (fun ty =>
      (req 119 ty).typ == ty && isTarget 119 && (tgtOn 119).targetReady 119 && !(tgtOn 119).stackFailed 119 && kindOk 119 (req 119 ty)) = true ∧
    ((tgtOn 119).poolKey 7 (gfaOff (req 119 1).addr) 8).isSome = true ∧ (((tgtOn 119).poolKey 7 0 8).map (fun a => decide ((tgtOn 119).view a 8 = .good))) = some true ∧
    (((tgtOn 119).poolKey 7 0 8).map (fun a => ((tgtOn 119).storeLines a (List.replicate 8 1)).2)) = some true := by decide +kernel
theorem witness_request_hole : (tgtOn 119).poolKey 7 (2 ^ 44) 8 = none := by decide +kernel
theorem witness_request_fence : Arrives (tgtOn 121) 121 (req 121 0x0A) 0x0A := by unfold Arrives; decide +kernel
/-- Context 63 of cluster 15 covers page 0 with these rights. -/
def ctxOn (rights : Nat) : State := ((((tgtOn 111).fset Fld.spnCtxW0_EN 15 63 1).fset Fld.spnCtxW0_LIMIT 15 63 0).fset Fld.spnCtxW0_RD 15 63 (rights % 2)).fset Fld.spnCtxW0_WR 15
  63 (rights / 2)
theorem witness_request_spindle : Arrives (ctxOn 3) 111 (req 111 1) 0x01 ∧ Arrives (ctxOn 3) 111 (req 111 2) 0x02 ∧ (ctxOn 3).ctxOf 15 (req 111 1) = some 63 ∧
    (ctxOn 3).fget Fld.spnCtxW0_ROLE 15 63 = (req 111 1).role ∧ (ctxOn 3).fget Fld.spnCtxW0_RD 15 63 = 1 ∧ (ctxOn 0).fget Fld.spnCtxW0_RD 15 63 ≠ 1 ∧
    (ctxOn 3).fget Fld.spnCtxW0_WR 15 63 = 1 ∧ (ctxOn 3).fget Fld.spnCtxW0_ROLE 15 63 ≠ ({ req 111 1 with role := 255 } : Packet).role := by unfold Arrives; decide +kernel
theorem witness_request_host : Arrives (tgtOn 121) 121 (req 121 1) 0x01 ∧ ((tgtOn 121).fset Fld.lnkHwinWlim_EN 1 0 1).fget Fld.lnkHwinWlim_EN 1 = 1 ∧
    gfaOff (req 121 1).addr / 4096 ≤ ((tgtOn 121).fset Fld.lnkHwinWlim_EN 1 0 1).fget Fld.lnkHwinWlim_WLIM 1 := by unfold Arrives; decide +kernel
/-- Ring 63 of EPB 63 runs as a push ring. -/
def pushOn (push : Nat) : State := ((ringOn 1).fset Fld.epbRingCfg_PUSH 63 63 push).wr .pwrDomW0 (targetDomain 63) 0 0
/-- A DOORBELL, and a push of eight bytes, in the last ring's place. -/
def bell : Packet := { req 63 0x0B with addr := 63 * 2 ^ 45 + doorbellPage + 0x40 * 63, payload := [1, 0, 0, 0, 0, 0, 0, 0] }
def pushed : Packet := { req 63 2 with addr := 63 * 2 ^ 45 + doorbellPage + 0x8000 + 63 * 0x200 }
theorem witness_request_doorbell : Arrives (pushOn 0) 63 bell 0x0B ∧ (pushOn 0).fget Fld.epbRole_ROLE_EPOCH 63 = bell.role ∧ gfaOff bell.addr = doorbellPage + 0x40 * 63 ∧
    (pushOn 0).sourceOk ((pushOn 0).fget Fld.epbRingCfg_DB_SRC_MODE 63 63) ((pushOn 0).fget Fld.epbRingCfg_DB_SRC 63 63) bell = true ∧ ofBytes (bell.payload.take 8) = 1 ∧
    ((gone (pushOn 0) 63 bell).ringCommit 63 63 1).isSome = true := by unfold Arrives; decide +kernel
theorem witness_request_push : Arrives (pushOn 1) 63 pushed 0x02 ∧ gfaOff pushed.addr = doorbellPage + 0x8000 + 63 * 0x200 ∧
    ((gone (pushOn 1) 63 pushed).ringPush 63 63 pushed.payload false).1 = TStat.ok := by unfold Arrives; decide +kernel

/-- Tag 4095 of unit 63 is outstanding: a LOAD, or a FENCE that has been answered. -/
def tagOn (ty : Nat) (answered : Option Nat) : State := { on with tags := [(tagKey 63 4095, { hdr := req 119 ty, own := .host 0 false, answered := answered })] }
/-- A response to it. -/
def rsp (ty : Nat) : Packet := { typ := ty, tag := 4095, addr := 63 * 2 ^ 45 }
theorem witness_response : isIssuer 63 = true ∧ (tagOn 1 none).matchTag 63 (rsp 0x20) = some { hdr := req 119 1, own := .host 0 false } ∧
    (tagOn 0x0A none).matchTag 63 (rsp 0x21) = some { hdr := req 119 0x0A, own := .host 0 false } ∧ on.matchTag 63 (rsp 0x24) = none := by decide +kernel
theorem witness_fence : tblFind (tagOn 0x0A (some 0)).tags (tagKey 63 4095) = some { hdr := req 119 0x0A, own := .host 0 false, answered := some 0 } ∧
    (tagOn 0x0A (some 0)).fenceReady 63 { hdr := req 119 0x0A, own := .host 0 false, answered := some 0 } = true := by decide +kernel
/-- R29: a FENCE waits for a request issued before it, and for none issued after it, whatever their arrival. -/
theorem test_fence_order : let f : Tag := { hdr := req 119 0x0A, own := .host 0 false, serial := 2, issued := 4, answered := some 0 }
    let load := fun (n : Nat) => ({ hdr := req 119 1, own := .host 1 false, serial := 7 - n, issued := n } : Tag)
    ({ on with tags := [(tagKey 63 0, load 3), (tagKey 63 1, f)] } : State).fenceReady 63 f = false ∧
    ({ on with tags := [(tagKey 63 0, load 5), (tagKey 63 1, f)] } : State).fenceReady 63 f = true := by decide +kernel
theorem witness_epoch : on.fget Fld.epbCcCtrl_EN 63 = 1 ∧ (on.fset Fld.epbCcCtrl_EN 63 0 0).fget Fld.epbCcCtrl_EN 63 = 0 ∧ on.fget Fld.epbRole_ROLE_EPOCH 63 = 256 % 256 ∧
    on.fget Fld.epbRole_ROLE_EPOCH 63 ≠ 255 % 256 ∧ (on.fset Fld.epbVisCtrl_RRC_EN 63 0 1).fget Fld.epbVisCtrl_RRC_EN 63 = 1 := by decide +kernel

/-! ### Witnesses: accelerators, the switch core and the mirror (14, 15) -/

/-- A leaf of a 64 KiB page at offset 0 of port 119, with every right. -/
def leaf64 : Word := BitVec.ofNat 64 (7 * 2 ^ 58 + 119 * 2 ^ 33)
/-- EPB 63 with FAS 4095 on and that leaf cached for its page 0. -/
def epbOn : State := (on.fset Fld.epbFasW0_EN 63 4095 1).epbMod 63 (fun e => { e with cache := [(0, [{ space := .fas 4095, page := 0, size := 65536, leaf := leaf64 }])] })
/-- An accelerator's request of eight bytes at the last bytes of the page. -/
def zreq (ty : Nat) : ZMsg := { ztype := ty, fas := 4095, addr := 65528, len := 7, fmt := if ty = 7 then 5 else if 3 ≤ ty ∧ ty ≤ 6 then 4 else 0, payload := List.replicate (if ty = 1 ∨ ty = 8 then 0 else if ty = 6 then 16 else 8) 1 }
theorem witness_zreq : [1, 2, 3, 4, 5, 6, 7, 8, 9].all (fun ty => zHeaderOk (zreq ty) && zOperandOk (zreq ty) && leafRight leaf64 ty
      && endpointOk ty (leafAddr leaf64 65536 65528)) = true ∧
    cacheFind 63 (epbOn.epbAt 63) (.fas 4095) 65528 = some { space := .fas 4095, page := 0, size := 65536, leaf := leaf64 } ∧ (epbOn.epbAt 63).badVersion = false ∧
    epbOn.fget Fld.epbFasW0_EN 63 4095 = 1 ∧ epbOn.fget Fld.epbFasW0_LEVELS 63 4095 ≠ 4 ∧ isTarget (gfaE (leafAddr leaf64 65536 65528)) = true := by decide +kernel
theorem witness_zreq_refused : leafRight 0 2 = false ∧ cacheFind 63 (epbOn.epbAt 63) (.fas 4095) 65536 = none ∧ zHeaderOk { zreq 2 with vc := 1 } = false ∧
    zOperandOk { zreq 2 with len := 6 } = false ∧ on.fget Fld.epbFasW0_EN 63 4095 = 0 ∧ (on.epbMod 63 (fun e => { e with badVersion := true })).epbAt 63 = { badVersion := true } := by
  decide +kernel
theorem witness_zident : (on.epbAt 63).identSeen = false ∧ bits (BitVec.ofNat 64 (ofBytes ((List.replicate 7 (0 : Byte) ++ [1]).take 8))) 63 48 = 0x0100 ∧
    ((on.epbMod 63 (fun e => { e with identSeen := true })).epbAt 63).identSeen = true := by decide +kernel
theorem witness_zresume : tblGet ({} : Slot) (stuck.epbAt 63).slots 2 = { st := .waiting, ctx := 3, gen := 4 } ∧ wtoken 3 4 2 % 256 = 2 ∧ SlotSt.waiting ≠ .free := by
  decide +kernel
/-- A request that EPB 63's accelerator has, and one that waits to be sent to it. -/
def tgt0 : TgtReq := { pkt := req 63 1, win := 0, rel := 0, troot := 0, laddr := some 0, ztag := some 5 }
def tgt1 : TgtReq := { tgt0 with ztag := none }
def tgtsOn : State := ({ on with now := 2400 } : State).epbMod 63 (fun e => { e with tgts := [tgt0, tgt1] })
theorem witness_ztgt : (tgtsOn.epbAt 63).tgts.findIdx? (fun t => t.ztag == some 5) = some 0 ∧ (tgtsOn.epbAt 63).tgts[0]? = some tgt0 ∧
    (tgtsOn.epbAt 63).tgts.findIdx? (fun t => t.ztag == some 6) = none ∧ tgt0.arrived + 2400 ≤ tgtsOn.now ∧
    (tgtsOn.fset Fld.epbZarState_IDENT_OK 63 0 1).fget Fld.epbZarState_IDENT_OK 63 = 1 ∧
    ((tgtsOn.epbAt 63).tgts.filter (fun t => t.ztag.isSome)).length < (tgtsOn.fset Fld.epbZarState_TGT_MAX 63 0 1).fget Fld.epbZarState_TGT_MAX 63 + 1 ∧
    (tgtsOn.epbAt 63).tgts.findIdx? (fun t => t.laddr.isSome && t.ztag.isNone) = some 1 ∧ isZSent 0x3D = false := by decide +kernel
/-- A FAS entry of four levels whose top table is in host memory; a pointer to such a table, and a leaf of a page of 1 GiB. -/
def root4 : Word := BitVec.ofNat 64 (2 ^ 63 + 4 * 2 ^ 60 + 120 * 2 ^ 45)
def pointer4 : Word := BitVec.ofNat 64 (2 ^ 63 + 120 * 2 ^ 45)
def leafG : Word := 0xA000000000000000
/-- EPB 63 has a request that waits, a walk that is stale and one that is not, and an engine with a copy of 64 bytes. -/
def busyOn : State := { on.epbMod 63 (fun e => { e with
    walks := [{ space := .fas 0, page := 0, stale := true }, { space := .fas 0, page := 1 }, { space := .fas 0, page := 2, root := root4, prefetch := some { mover := 7, off := 0, dst := false } }]
    engines := [(7, { words := [BitVec.ofNat 64 (2 ^ 60), 0, 0, BitVec.ofNat 64 (63 * 2 ^ 32)] })] }) with
  waitq := [(63, [{ req := { own := .host 0 false, typ := 1, gfa := 119 * 2 ^ 45, len := 8 }, why := .tag }])] }
theorem witness_issue : (tblGet [] busyOn.waitq 63)[0]? = some { req := { own := .host 0 false, typ := 1, gfa := 119 * 2 ^ 45, len := 8 }, why := .tag } ∧
    busyOn.heldBy 63 { own := .host 0 false, typ := 1, gfa := 119 * 2 ^ 45, len := 8 } = none ∧ busyOn.freeTag 63 = some 0 ∧
    (busyOn.epbMod 63 (fun e => { e with rates := [(0, { credit := -1 })] })).heldBy 63 { own := .host 0 false, typ := 1, gfa := 119 * 2 ^ 45, len := 8 } = some .admission := by decide +kernel
theorem witness_walk : (busyOn.epbAt 63).walks[0]? = some { space := .fas 0, page := 0, stale := true } ∧ (busyOn.epbAt 63).walks[1]? = some { space := .fas 0, page := 1 } ∧
    (busyOn.epbAt 63).walks[2]? = some { space := .fas 0, page := 2, root := root4, prefetch := some { mover := 7, off := 0, dst := false } } ∧
    busyOn.walk (.fas 0) (2 ^ 16) 0 [] = .disabled ∧ busyOn.walk (.fas 0) (2 ^ 17) root4 [pointer4, leafG] = .leaf (2 ^ 30) leafG ∧
    busyOn.walk (.fas 0) (2 ^ 17) root4 [0] = .notPresent false 3 0 := by decide +kernel
/-- Engine 7 copies 64 bytes from FVA 0 to the next page but one. -/
def copying : State := on.epbMod 63 (fun e => { e with engines := [(7, { words := [BitVec.ofNat 64 (2 ^ 60), 0, 0x20000, BitVec.ofNat 64 (63 * 2 ^ 32), 0, 0, 0, 0] })] })
theorem witness_prefetch : (copying.mover 63 7).map (copying.prefetchOk 63 0 false) = some true ∧ (copying.mover 63 7).map (copying.prefetchOk 63 0 true) = some false := by decide +kernel
theorem witness_late : (0 : Nat) + us (10 * (on.epbAt 63).heatLen) ≤ us 1000 ∧ (on.epbAt 63).incAt + us (on.epbAt 63).incLen ≤ us 5 ∧
    freeZtag [tgt0] [(0, true)] = 1 ∧ on.freeTag 63 = some 0 := by decide +kernel

/-- A response of port 63 to port 112, which waits at attachment 63, channel 1; a copy of it that waits for egress 112, one held, one being sent. -/
def answer : Packet := { typ := 0x21, vc := 1, addr := 112 * 2 ^ 45, route := 0, hopcnt := 1 }
/-- A copy of it to port `p`. -/
def copy (p : Nat) : Copy := { id := 0, port := p, fib := 3, chan := 1, pkt := answer }
def swOn : State := { on with
  now := 100000
  inq := [(63, [answer]), (1151, [answer, { answer with typ := 1 }])]
  sw := { on.sw with waiting := [copy 112, copy 95], sending := [copy 112, copy 95], hold := [(127, [copy 95])],
                     subq := [(1024 * 112, { copies := [copy 112] })], fifos := [(1, [[1]])], bursts := [{ first := 0, recs := [[1]] }] } }
theorem witness_ingress : (tblGet [] swOn.inq 63).findIdx? (fun p => p.vc == 1) = some 0 ∧ (tblGet [] swOn.inq 63)[0]? = some answer ∧
    swOn.admits 63 1 (cellsOf 0) = true ∧ (swOn.fset Fld.hubInlim_LIM 63 1 0).admits 63 1 (cellsOf 0) = false ∧
    tblGet [] swOn.inq 1151 = answer :: [{ answer with typ := 1 }] ∧ isRspTy answer.typ = true ∧ isRspTy 1 = false ∧ swOn.fget Fld.hubCoppiceCtrl_MODE ≠ 2 ∧ swOn.fenceOk 0 = true ∧
    swOn.fenceOk 7 = false := by decide +kernel
theorem witness_enqueue : swOn.sw.waiting[0]? = some (copy 112) ∧ swOn.coreOff (dieOf 112) = false ∧ (swOn.sw.waiting.take 0).any (fun x => swOn.samePair x (copy 112)) = false ∧
    swOn.fget Fld.hubEglim_OCC 112 0 < swOn.fget Fld.hubEglim_LIM_EG 112 0 ∧ (swOn.fset Fld.hubEglim_LIM_EG 112 0 0).fget Fld.hubEglim_LIM_EG 112 0 = 0 := by decide +kernel
theorem witness_enqueue_optical : swOn.sw.waiting[1]? = some (copy 95) ∧ (copy 95).link = 127 ∧ swOn.fget Fld.hubLink_STATE 127 = Hub.down ∧
    (swOn.fset Fld.hubLink_STATE 127 0 0).fget Fld.hubLink_STATE 127 = Hub.up ∧ (swOn.fset Fld.hubLink_STATE 127 0 1).fget Fld.hubLink_STATE 127 = Hub.hold ∧
    swOn.fget Fld.hubLink_HELD 127 < swOn.fget Fld.hubHold_HOLD_LIM * 256 ∧ (swOn.fset Fld.hubLink_HELD 127 0 32768).fget Fld.hubLink_HELD 127 = swOn.fget Fld.hubHold_HOLD_LIM * 256 := by
  decide +kernel
/-- Egress 127 holds packets until its deadline. -/
def holding : State := { swOn.fset Fld.hubLink_STATE 127 0 1 with sw := { swOn.sw with holdT := [(127, { deadline := 200000 })] } }
theorem witness_holdOver : holding.holdOver 127 = false ∧ ({ holding with now := 200000 } : State).holdOver 127 = true ∧ (swOn.fset Fld.hubLink_STATE 127 0 0).holdOver 127 = false ∧
    swOn.soon writesLimits = false ∧ ({ swOn with pending := [.registerWrite 0 0x204000 0 0] } : State).soon writesLimits = true ∧ holding.soon (retrains 127) = false := by decide +kernel
/-- The same with nothing being sent, and with a packet held for link 127. -/
def swFree : State := { swOn with sw := { swOn.sw with sending := [] } }
theorem witness_dispatch : swFree.egressFree 112 = true ∧ (swFree.modesTake 112).heldHead 112 = none ∧ (swFree.modesTake 112).strict 112 = true ∧ swFree.coreOff (dieOf 112) = false ∧
    ((swOn.fairChoice 112 (swOn.readySubs 112)).1).isSome = true ∧ (swOn.wr .hubSchedMode1 0 0 0).strict 112 = false ∧
    (leastBy (fun a b => strictLt a.1 b.1) (swOn.readySubs 112)).isSome = true := by decide +kernel
theorem witness_sent : swOn.sw.sending[0]? = some (copy 112) ∧ swOn.sw.sending[1]? = some (copy 95) ∧ (swOn.lk (64 + 127)).txq.any (fun f => f.copy == 0) = false ∧
    (tblGet ({} : HoldTime) swOn.sw.holdT 127).deadline ≤ swOn.now := by decide +kernel
theorem witness_mirror : tblGet [] swOn.sw.fifos 1 ≠ [] ∧ (swOn.fset Fld.hubMirringCtrl_EN 0 0 1).fget Fld.hubMirringCtrl_EN ≠ 0 ∧ swOn.sharedFree 1 ≠ 0 ∧
    swOn.sw.bursts = { first := 0, recs := [[1]] } :: [] ∧ swOn.bound = false ∧ (swOn.fset Fld.hubMirringBase_ADDR 0 0 (119 * 2 ^ 33)).mirRingOk 14 = true ∧
    swOn.fget Fld.hubMirringCtrl_EN ≠ 1 := by decide +kernel

/-! ### Witnesses: rings, triggered operations, the host, the whole block (16, 17) -/

/-- Ring 63 of EPB 63 runs at 64 KiB-aligned arrays in HBM stack 0, with two items of zeros in it. -/
def runOn : State := (((ringOn 1).wr .pwrDomW0 26 0 0).fset Fld.epbRingTail_TAIL 63 63 2).fset Fld.epbRingFill_FILL 63 63 16
theorem witness_commitRing : (runOn.ringCommit 63 63 32768).isSome = true ∧ runOn.ringSize 63 63 = 32768 ∧ runOn.ringCommit 63 63 32769 = none := by decide +kernel
theorem witness_engineStart : (List.range 8).find? (fun e => (tblFind (runOn.epbAt 63).engines e).isNone) = some 0 ∧ runOn.nextRing 63 [] = some 63 ∧
    runOn.ringResumable 63 63 = false ∧ runOn.headItem 63 63 [] = some (some (List.replicate 8 0)) ∧ descOk { words := List.replicate 8 0 } = false ∧
    descOk { words := 0x20000000000 :: List.replicate 7 0 } = true := by decide +kernel
/-- A released descriptor of ring 63. -/
def released : Park := { mover := { ring := 63 }, resumeSeg := 0, resumeOff := 0, doneMask := 0 }
theorem witness_engineResume : (runOn.epbMod 63 (fun e => { e with resumes := [released] })).ringResumable 63 63 = true ∧
    (runOn.epbMod 63 (fun e => { e with resumes := [released] })).nextRing 63 [] = some 63 ∧
    [released].find? (fun p => p.mover.ring == 63 && !p.mover.ni) = some released := by decide +kernel
/-- A segment of an item that cannot be finished now. -/
def waitingSeg : Seg := { num := 0, off := 0, len := 64, st := .restart 1 }
theorem witness_item : ({ words := [0] } : Mover).toFail = false ∧ ({ words := [0] } : Mover).allDone = true ∧ ({ failed := some 1 } : Mover).toFail = true ∧
    ({ segs := [waitingSeg], stopped := true } : Mover).toPark = true ∧ ({ segs := [waitingSeg], stopped := true } : Mover).toFail = false ∧
    ({ segs := [waitingSeg], stopped := true } : Mover).allDone = false := by decide +kernel

/-- Entry 1023 of EPB 63 is a good NOP in a state; its watchdog has run 1,000 µs. -/
def entryOn (st : Nat) : State := { ((((on.fset Fld.epbToW0_RING 63 1023 63).fset Fld.epbToW0_VC 63 1023 2).fset Fld.epbToW0_WD_EN 63 1023 1).fset Fld.epbToW7_STATE 63 1023 st).epbMod 63
    (fun e => { e with wdStart := [(1023, 0)], fireq := [1023] }) with now := 1600000 }
theorem witness_arm : (entryOn 0).toArmOk 63 1023 = true ∧ (entryOn 1).toArmOk 63 1023 = false ∧ (entryOn 1).toState 63 1023 = ToSt.armed ∧
    (entryOn 2).toState 63 1023 = ToSt.queued ∧ (entryOn 3).toState 63 1023 = ToSt.running ∧ (entryOn 4).toState 63 1023 = ToSt.parked ∧
    (entryOn 5).toState 63 1023 = ToSt.failed := by decide +kernel
theorem witness_toStart : (entryOn 2).niRoom 63 = true ∧ (((entryOn 2).epbAt 63).resumes.find? (fun p => p.mover.ni)) = none ∧ ((entryOn 2).epbAt 63).fireq = 1023 :: [] ∧
    ((entryOn 2).toMover 63 1023).mcr = none ∧ ((entryOn 2).fset Fld.epbNiCtrl_NI_MAX 63 0 0).niRoom 63 = false := by decide +kernel
theorem witness_toStart_put : bits (((entryOn 2).fset Fld.epbToW0_OP 63 1023 1).toWord 63 1023 0) 63 60 ≠ 0 ∧ bits ((entryOn 2).toWord 63 1023 0) 63 60 = 0 ∧
    (((entryOn 2).fset Fld.epbToW0_OP 63 1023 1).toMover 63 1023).mcr = none := by decide +kernel
theorem witness_watchdog : (entryOn 1).fget Fld.epbToW0_WD_EN 63 1023 = 1 ∧ tblFind ((entryOn 1).epbAt 63).wdStart 1023 = some 0 ∧
    0 + us ((entryOn 1).fget Fld.epbNiCtrl_WDOG 63) = (entryOn 1).now := by decide +kernel
theorem witness_hostRequest : hostOn.hostUp 1 = true ∧ hostOn.bound = false ∧ hostReachOk (119 * 2 ^ 45 + (2 ^ 32 - 1)) = true ∧ hostReachOk (119 * 2 ^ 45 + 2 ^ 32) = false ∧
    isTarget 119 = true ∧ isTarget 127 = false ∧ operandOk 0x01 (2 ^ 32 - 1) 0 0 0 0 0 = true ∧ endpointOk 0x01 (119 * 2 ^ 45) = true ∧
    ({ hostOn.fset Fld.klnState_BSTATE 0 0 2 with pending := [] } : State).bound = true := by decide +kernel
theorem witness_hostCompletion : ([{ hp := 1, id := 9, pkt := req 121 1 }] : List HostTgt).find? (fun t => t.hp == 1 && t.id == 9) = some { hp := 1, id := 9, pkt := req 121 1 } := by
  decide +kernel

theorem witness_step : ({ on with pending := [.idcode] } : State).pending = .idcode :: [] ∧ on.pending = [] := by decide +kernel
theorem witness_notStopped : ¬ (on.fget Fld.klnState_DEBUG_OPEN = 1 ∧ 0x80 ≤ 0x80 ∧ 0x80 ≤ 0xFE) := by decide +kernel
/-- A store of 4,096 bytes with every field at its largest value. -/
def widest : Packet := { typ := 2, vc := 7, tc := 7, flow := 15, dclass := 3, cmark := 3, poison := true, order := true, status := 15, ksel := 63, fas := 4095, tag := 65535,
                         fmt := 15, addr := 2 ^ 64 - 1, sx := 15, sy := 15, sp := 15, se := 127, fence := 65535, role := 255, hopidx := 7, hopcnt := 7, rop := 3, len := 4095,
                         route := 2 ^ 60 - 1, payload := List.replicate 4096 255 }
theorem witness_wire : OnTheWire widest := by unfold OnTheWire; decide +kernel
theorem witness_settled : State.reset.Settled := by unfold State.Settled; decide +kernel

/-! ### Values from the spec's worked examples -/

/-- R20's example: the load of the Fabric Hub at a glance, before its first hop. -/
def glance : Packet := { typ := 1, tc := 2, flow := 5, fas := 0x02A, tag := 0x31F4, addr := 0x293E400100002000, sx := 2, sy := 5, sp := 3, se := 13, fence := 7, hopcnt := 2,
                         len := 127, route := 0xE428C }
theorem test_header_words : headerWords glance = [0x0425000002A31F40, 0x293E400100002000, 0x2531A000E00100FE, 0xE428C] := by decide +kernel
theorem test_header_bytes : (bytesOfWords (headerWords glance)).take 8 = [0x40, 0x1F, 0xA3, 0x02, 0x00, 0x00, 0x25, 0x04] := by decide +kernel
theorem test_leaf_address : leafAddr 0xB85293E400100000 (2 ^ 21) 0x7F1234602000 = 0x293E400100002000 ∧ gfaE 0x293E400100002000 = 114 := by decide +kernel
theorem test_hop : mkHop 66 1 0 = 0x212 := by decide
theorem test_wtoken : wtoken 0x2A 5 3 = 0x2A0503 := by decide
theorem test_epbRole_address : regAddr .epbRole 13 0 = 0x1340058 := by decide +kernel
theorem test_regAt_epbRole : regAt 0x1340058 = some { reg := .epbRole, i := 13, j := 0, off := 0 } := by decide +kernel
theorem test_reset_epb42 : resetUnit (bits 0x2A1 3 0) (bits 0x2A1 19 4) = some (.epb 42) := by decide +kernel
/-- R166's example: an echo of 2 at the full rate, one of 1 after DEC_GAP, three quiet periods. -/
theorem test_rate_halves : (on.echo 13 146 2).fget Fld.epbCcRate_RATE 13 146 = 512 := by decide +kernel
theorem test_rate_eighth : ((on.fset Fld.epbCcRate_RATE 13 146 512).echo 13 146 1).fget Fld.epbCcRate_RATE 13 146 = 448 := by decide +kernel
theorem test_rate_rises : (nextOf (execRateIncrease 13 { on.fset Fld.epbCcRate_RATE 13 146 448 with now := us 5 })).map (fun t => t.fget Fld.epbCcRate_RATE 13 146) = some 456 := by decide +kernel
/-- The words of chapter 10's reduction loop. -/
theorem test_spindle_decode : ([0x7000000000000000, 0x1200080000800000, 0x8080000500000003, 0x6020044000000000, 0x7010002002800000, 0x1000084000000100, 0x4090044600000000,
      0x80048000FFFFFFFC] : List Word).map (fun w => ((SInstr.of w).cls, (SInstr.of w).op, (SInstr.of w).ok)) =
    [(7, 0, true), (1, 0x20, true), (8, 8, true), (6, 2, true), (7, 1, true), (1, 0, true), (4, 9, true), (8, 0, true)] := by decide +kernel
theorem test_spindle_fields : SInstr.of 0x4090044600000000 = { cls := 4, op := 9, pm := 0, p := 0, d := 1, a := 2, b := 6, imm := 0 } ∧
    (SInstr.of 0x80048000FFFFFFFC).pm = 1 ∧ (SInstr.of 0x80048000FFFFFFFC).p = 1 ∧ (SInstr.of 0x80048000FFFFFFFC).simm = -4 := by decide +kernel
theorem test_li : (nextOf (execLi 255 15 false (thrOn 0x1200080000800000))).map (fun t => (t.sreg 4095 2, (t.thr 4095).pc)) = some (0x800000, 8) := by decide +kernel
theorem test_halt : (nextOf (execHalt 255 15 false (thrOn 0x80F0000000000000))).map (fun t => t.thrState 4095) = some ThrSt.idle := by decide +kernel
/-- R256, R258: the two orders of the worked example, and its narrowing. -/
theorem test_exact_order : ([0x4B800000, 0x3F800000, 0xCB800000].foldl (fun l x => l.addNum (fp32.decode x)) ({} : Lane)) = { value := (2 : Int) ^ 149 } ∧
    ([0xCB800000, 0x4B800000, 0x3F800000].foldl (fun l x => l.addNum (fp32.decode x)) ({} : Lane)) = { value := (2 : Int) ^ 149 } := by decide +kernel
theorem test_exact_narrow : ({ value := (2 : Int) ^ 149 } : Lane).narrow bf16 none = 0x3F80 ∧ sround 1 = (0, 0x40822041) ∧
    ({ value := (2 : Int) ^ 149 + 2 ^ 140 } : Lane).narrow bf16 (some 0) = 0x3F81 ∧ ({ value := (2 : Int) ^ 149 + 2 ^ 140 } : Lane).narrow bf16 none = 0x3F80 := by decide +kernel
/-- R247: 2^24 + 1 rounds to 2^24 (tie, even) in FP32. -/
theorem test_fp32_add : elemAdd 5 0x4B800000 0x3F800000 = 0x4B800000 := by decide +kernel
/-- R490's example: the nine bytes of "123456789", with the parameters of a billet's CHECK and of CRC-32C. -/
def digits : List Byte := [0x31, 0x32, 0x33, 0x34, 0x35, 0x36, 0x37, 0x38, 0x39]
theorem test_crc64 : crcValue 64 false false (crcBytes 64 0x42F0E1EBA9EA3693 false 0 digits) = 0x6C40DF5F0B497347 := by decide +kernel
theorem test_crc32c : (on.crcFeed 5 digits).fget Fld.crcValue_VALUE 5 = 0xE3069283 := by decide +kernel
/-- R264's example: byte 0xB7 of an MXFP4 block of scale 0x7C, to BF16. -/
theorem test_billet_elem : decodeElem 4 bf16 (scaleVal 4 [0x7C]) (packed 4 0 [0xB7]) = 0x3F40 ∧ decodeElem 4 bf16 (scaleVal 4 [0x7C]) (packed 4 1 [0xB7]) = 0xBE40 := by
  decide +kernel

/-! ### Ill-formed terms, one or more for each check of WellFormed, are refused -/

theorem smoke_packet : [({ typ := 64 } : Packet), { vc := 8 }, { tc := 8 }, { flow := 16 }, { dclass := 4 }, { cmark := 4 }, { status := 16 }, { ksel := 64 }, { fas := 4096 },
    { tag := 65536 }, { fmt := 16 }, { addr := 2 ^ 64 }, { sx := 16 }, { sy := 16 }, { sp := 16 }, { se := 128 }, { fence := 65536 }, { role := 256 }, { hopidx := 8 }, { hopcnt := 8 },
    { rop := 4 }, { len := 4096 }, { route := 2 ^ 64 }, { payload := List.replicate 4097 0 }].all (fun p => !p.wf) = true ∧ widest.wf = true := by decide +kernel
theorem smoke_zmsg : [({ ztype := 64 } : ZMsg), { vc := 8 }, { tc := 8 }, { flow := 16 }, { dclass := 4 }, { status := 16 }, { fmt := 16 }, { rop := 4 }, { fas := 4096 },
    { ztag := 4096 }, { ctx := 65536 }, { len := 4096 }, { wtoken := 2 ^ 32 }, { addr := 2 ^ 57 }, { rqid := 2 ^ 19 }, { win := 256 }, { payload := List.replicate 4097 0 }].all
    (fun m => !m.wf) = true ∧ (zreq 2).wf = true := by decide +kernel
theorem smoke_cmd : [({ version := 256 } : Cmd), { partner := 16 }, { resv := 16 }, { opcode := 65536 }, { seq := 65536 }, { plen := 8192, params := List.replicate 8192 0 },
    { word1 := 2 ^ 64 }, { plen := 1 }, { tag := some 65536 }].all (fun c => !c.wf) = true ∧ (pkt 1 [0]).wf = true := by decide +kernel
theorem smoke_boot : (Instr.pkgResetDeassert 4 0).wf = false ∧ (Instr.pkgResetDeassert 0 4).wf = false ∧ (Instr.cloentimStart [(8, 0)]).wf = false ∧
    (Instr.cloentimStart [(7, 3)]).wf = false ∧ (Instr.hostPortReset 2 true).wf = false ∧ (Instr.rootUnlock 2).wf = false ∧ (Instr.unitOutOfReset 16 0).wf = false ∧
    (Instr.unitOutOfReset 0 65536).wf = false ∧ (Instr.unitOutOfReset 1 63).wf = true := by decide +kernel
theorem smoke_commands : (Instr.nop { plen := 1 }).wf = false ∧ (Instr.ember 2 {}).wf = false ∧ (Instr.ember 1 { plen := 1 }).wf = false ∧ (Instr.emberMiss 2 false).wf = false ∧
    (Instr.registerWrite 2 0 4 0).wf = false ∧ (Instr.registerWrite 1 0 9 0).wf = false ∧ (Instr.registerWrite 1 (2 ^ 26) 4 0).wf = false ∧
    (Instr.registerWrite 1 0 4 (2 ^ 32)).wf = false ∧ (Instr.registerWrite 1 0 4 (2 ^ 32 - 1)).wf = true ∧ (Instr.mgmtFrameReceive 2 0 0 0 0 {}).wf = false ∧
    (Instr.mgmtFrameReceive 0 65536 0 0 0 {}).wf = false ∧ (Instr.mgmtFrameReceive 0 0 0 (2 ^ 48) 0 {}).wf = false ∧ (Instr.mgmtFrameReceive 0 0 (2 ^ 48) 0 0 {}).wf = false ∧
    (Instr.mgmtFrameReceive 0 0 0 0 4135 {}).wf = false ∧ (Instr.mboxCommit 2 0).wf = false ∧ (Instr.mboxCommit 0 (2 ^ 32)).wf = false ∧ (Instr.mboxRspHeadWrite (2 ^ 32)).wf = false ∧
    (Instr.mboxEnable (2 ^ 32)).wf = false ∧ (Instr.commandArrive 2 {}).wf = false ∧ (Instr.commandArrive 3 {}).wf = true ∧ (Instr.commandTake { plen := 1 } []).wf = false ∧
    (Instr.barRead 2 0 0 4).wf = false ∧ (Instr.barRead 1 0 (2 ^ 26) 4).wf = false ∧ (Instr.barRead 1 0 0 9).wf = false := by decide +kernel
theorem smoke_epb : (Instr.zLoad 64 {} false).wf = false ∧ (Instr.zLoad 63 { vc := 8 } false).wf = false ∧ (Instr.heatPeriod 64).wf = false ∧ (Instr.tagFreeIssue 122 0).wf = false ∧
    (Instr.segmentIssue 64 0 [] []).wf = false ∧ (Instr.segmentIssue 63 1032 [] []).wf = false ∧ (Instr.prefetchStart 63 1032 0 false).wf = false ∧ (Instr.itemComplete 63 8).wf = false ∧ (Instr.progLoadDone (2 ^ 32)).wf = false ∧ (Instr.packetIngress 1152 0).wf = false ∧
    (Instr.packetIngress 1151 8).wf = false ∧ (Instr.egressDispatch 124 0).wf = false ∧ (Instr.egressDispatch 123 8).wf = false ∧ (Instr.holdDeadline 128).wf = false ∧
    (Instr.mirrorBurstWrite 2).wf = false ∧ (Instr.load 122 {} false).wf = false ∧ (Instr.load 121 { vc := 8 } false).wf = false ∧ (Instr.nack 122 {}).wf = false ∧
    (Instr.fenceComplete 122 0).wf = false ∧ (Instr.fenceComplete 121 4096).wf = false ∧ (Instr.epbRoleWrite 64 0).wf = false ∧ (Instr.epbRoleWrite 63 256).wf = false ∧
    (Instr.hubFenceWrite (2 ^ 18)).wf = false ∧ (Instr.ringCommit 64 0 0 true).wf = false ∧ (Instr.ringCommit 63 64 0 true).wf = false ∧
    (Instr.ringCommit 63 63 (2 ^ 32) true).wf = false ∧ (Instr.pushStore 64 {}).wf = false ∧ (Instr.pushStore 63 { vc := 8 }).wf = false := by decide +kernel
theorem smoke_host : (Instr.hostPcieRequest 2 0 0 0 0 false []).wf = false ∧ (Instr.hostPcieRequest 1 0 64 0 0 false []).wf = false ∧
    (Instr.hostPcieRequest 1 0 0 (2 ^ 64) 0 false []).wf = false ∧ (Instr.hostPcieRequest 1 0 0 0 4096 false []).wf = false ∧
    (Instr.hostPcieRequest 1 0 0 0 0 false (List.replicate 4097 0)).wf = false ∧ (Instr.hostCompletion 2 0 true false []).wf = false ∧
    (Instr.hostCompletion 1 0 true false (List.replicate 4097 0)).wf = false := by decide +kernel
theorem smoke_spindle : (Instr.spnCtxRoleWrite 16 0 0).wf = false ∧ (Instr.spnCtxRoleWrite 15 64 0).wf = false ∧ (Instr.spnCtxRoleWrite 15 63 256).wf = false ∧
    (Instr.add 256 0 false).wf = false ∧ (Instr.add 255 16 false).wf = false ∧ (Instr.add 255 15 false).wf = true ∧ (Instr.toArm 64 0).wf = false ∧ (Instr.toArm 63 1024).wf = false ∧
    (Instr.nctrAdd 64 0 0).wf = false ∧ (Instr.nctrAdd 63 256 0).wf = false ∧ (Instr.nctrAdd 63 255 (2 ^ 32)).wf = false := by decide +kernel
theorem smoke_memory : (Instr.granuleDrained 8 0).wf = false ∧ (Instr.granuleDrained 7 384).wf = false ∧ (Instr.scrubStep 8).wf = false ∧ (Instr.nandProgramFail 32 0 0).wf = false ∧ (Instr.fillComplete (8 * 65536) []).wf = false ∧
    (Instr.sequenceCurrent 8).wf = false ∧ (Instr.crcFeedDone 16).wf = false ∧ (Instr.crcConfigWrite 16 0 0).wf = false ∧ (Instr.crcConfigWrite 15 3 0).wf = false ∧
    (Instr.crcConfigWrite 15 2 (2 ^ 64)).wf = false := by decide +kernel
theorem smoke_links : (Instr.linkEnWrite 192 0).wf = false ∧ (Instr.linkEnWrite 191 2).wf = false ∧ (Instr.cdrLock 192).wf = false ∧ (Instr.eqDone 191 [{ eye := 65536 }]).wf = false ∧
    (Instr.eqDone 63 (List.replicate 9 { eye := 0 })).wf = false ∧ (Instr.eqDone 191 [{ eye := 0, reqs := [255] }]).wf = true ∧ (Instr.eqDone 191 [{ eye := 0, reqs := [256] }]).wf = false ∧
    (Instr.aligned 63 [{ lane := 16 }] true).wf = false ∧ (Instr.aligned 63 [{ lane := 0, slot := 65536 }] true).wf = false ∧ (Instr.aligned 64 [{ lane := 0, commas := [[4]] }] true).wf = false ∧
    (Instr.linkUp 63 (2 ^ 64) 0).wf = false ∧ (Instr.linkUp 63 0 (2 ^ 64)).wf = false ∧ (Instr.codewordReceive 63 8 []).wf = false ∧ (Instr.codewordReceive 63 7 [4]).wf = false ∧
    (Instr.alignmentLoss 63 8).wf = false ∧ (Instr.alignmentLoss 64 16).wf = false ∧ (Instr.creditReturnFailure 191 9).wf = false ∧ (Instr.linkFailureEvent 191 10).wf = false ∧
    (Instr.burstReceive 128 [] []).wf = false ∧ (Instr.burstReceive 127 [4] []).wf = false ∧ (Instr.lockTimeout 32 0 0).wf = false ∧
    (Instr.lockTimeout 31 5 0).wf = false ∧ (Instr.lockTimeout 31 4 16).wf = false ∧ (Instr.laserLow 8 0).wf = false := by decide +kernel
theorem smoke_services : (Instr.getVersion (2 ^ 32) [] true).wf = false ∧ (Instr.errCaptureArm 15).wf = false ∧ (Instr.recoveryWindowEnd 256).wf = false ∧ (Instr.domainWake 50).wf = false ∧
    (Instr.powerEstimate (2 ^ 16)).wf = false ∧ (Instr.thermalSample [4096] 0).wf = false ∧ (Instr.regulatorPoll [{ st := 5 }]).wf = false ∧ (Instr.regulatorPoll [{ vmode := 256 }]).wf = false ∧ (Instr.sbdXferDone 5 []).wf = false ∧ (Instr.regulatorAlert 128 0).wf = false ∧
    (Instr.regulatorAlert 127 65536).wf = false ∧ (Instr.busRecoveryAttempt true 10 true).wf = false ∧ (Instr.enec 256).wf = false ∧ (Instr.entdaa 128).wf = false ∧
    (Instr.setmwl 65536).wf = false ∧ (Instr.imageErase 2 0).wf = false ∧ (Instr.imageProgram 2 0 []).wf = false ∧ (Instr.imageProgram 1 0 (List.replicate 257 0)).wf = false ∧
    (Instr.privateInstruction 256).wf = false ∧ (Instr.sessionHeartbeatExpiry (2 ^ 32)).wf = false := by decide +kernel
end Sys2Proof.Tests
end

section
/-! PROOFS. The packet header (R20): its words as lists of fields, what a field of such a word reads, and the packet that the bytes of its cells spell. -/

namespace Sys2Proof.Machine
open Sys2Proof

/-! ### Words laid out as fields -/

/-- The number that fields, each a width and a value, spell: the first field has the lowest bits. -/
def packFields : List (Nat × Nat) → Nat
  | [] => 0
  | (n, v) :: t => packFields t * 2 ^ n + v

/-- Bits that fields take together. -/
def fieldsWidth : List (Nat × Nat) → Nat
  | [] => 0
  | (n, _) :: t => fieldsWidth t + n

/-- Every value fits its field's width. -/
def FieldsFit (l : List (Nat × Nat)) : Prop := ∀ f ∈ l, f.2 < 2 ^ f.1

theorem fieldsFit_cons {n v : Nat} {t : List (Nat × Nat)} : FieldsFit ((n, v) :: t) ↔ v < 2 ^ n ∧ FieldsFit t :=
  List.forall_mem_cons

theorem fieldsFit_nil : FieldsFit [] := fun _ hf => nomatch hf

/-- What stands above the first field. -/
theorem packFields_cons_div {n v : Nat} (t : List (Nat × Nat)) (hv : v < 2 ^ n) : packFields ((n, v) :: t) / 2 ^ n = packFields t := by
  rw [packFields, Nat.add_comm, Nat.add_mul_div_right _ _ (Nat.two_pow_pos n), Nat.div_eq_of_lt hv, Nat.zero_add]

theorem packFields_lt {l : List (Nat × Nat)} (h : FieldsFit l) : packFields l < 2 ^ fieldsWidth l := by
  induction l with
  | nil => exact Nat.one_pos
  | cons f t ih =>
    obtain ⟨n, v⟩ := f
    obtain ⟨hv, ht⟩ := fieldsFit_cons.1 h
    rw [fieldsWidth, Nat.pow_add, ← Nat.div_lt_iff_lt_mul (Nat.two_pow_pos n), packFields_cons_div t hv]
    exact ih ht

/-- A field is read above the fields before it. -/
theorem packFields_field {l : List (Nat × Nat)} (h : FieldsFit l) {i n v : Nat} (hi : l[i]? = some (n, v)) :
    packFields l / 2 ^ fieldsWidth (l.take i) % 2 ^ n = v := by
  induction l generalizing i with
  | nil => cases hi
  | cons f t ih =>
    obtain ⟨m, u⟩ := f
    obtain ⟨hu, ht⟩ := fieldsFit_cons.1 h
    cases i with
    | zero =>
      cases hi
      rw [List.take_zero, fieldsWidth, Nat.pow_zero, Nat.div_one, packFields, Nat.mul_add_mod_self_right, Nat.mod_eq_of_lt hu]
    | succ i =>
      rw [List.take_succ_cons, fieldsWidth, Nat.pow_add, Nat.mul_comm, ← Nat.div_div_eq_div_mul, packFields_cons_div t hu]
      exact ih ht hi

/-- The bits of a field in a word read its value. -/
theorem bits_packFields {l : List (Nat × Nat)} (h : FieldsFit l) (hw : fieldsWidth l = 64) (i : Nat) {hi lo v : Nat}
    (hf : l[i]? = some (hi + 1 - lo, v)) (hlo : fieldsWidth (l.take i) = lo) : bits (BitVec.ofNat 64 (packFields l)) hi lo = v := by
  rw [bits_ofNat _ _ _ (hw ▸ packFields_lt h), ← hlo]
  exact packFields_field h (hlo ▸ hf)

/-- A bit is the field of one bit at its place. -/
theorem bit_eq_bits (w : Word) (i : Nat) : bit w i = (bits w i i == 1) := by
  simp only [bit, bits, BitVec.getLsbD, Nat.testBit_eq_decide_div_mod_eq, Nat.shiftRight_eq_div_pow, Nat.add_sub_cancel_left, Nat.pow_one]
  rfl

theorem b2n_false : b2n false = 0 := rfl

theorem b2n_lt (b : Bool) : b2n b < 2 := by cases b <;> decide

theorem bit_packFields {l : List (Nat × Nat)} (h : FieldsFit l) (hw : fieldsWidth l = 64) (i : Nat) {k : Nat} {b : Bool}
    (hf : l[i]? = some (1, b2n b)) (hk : fieldsWidth (l.take i) = k) : bit (BitVec.ofNat 64 (packFields l)) k = b := by
  have e : bits (BitVec.ofNat 64 (packFields l)) k k = b2n b := bits_packFields h hw i (by rw [hf, Nat.add_sub_cancel_left]) hk
  rw [bit_eq_bits, e]
  cases b <;> rfl

/-! ### The header's words (R20) -/

/-- Header word 0, from bit 0 up. -/
def headerFields0 (p : Packet) : List (Nat × Nat) :=
  [(4, p.fmt), (16, p.tag), (12, p.fas), (6, p.ksel), (4, p.status), (1, b2n p.order), (1, b2n p.poison), (2, p.cmark), (2, p.dclass),
   (4, p.flow), (3, p.tc), (3, p.vc), (6, p.typ)]

/-- Header word 2, from bit 0 up: its lowest bit is reserved. -/
def headerFields2 (p : Packet) : List (Nat × Nat) :=
  [(1, b2n false), (12, p.len), (2, p.rop), (3, p.hopcnt), (3, p.hopidx), (8, p.role), (16, p.fence), (7, p.se), (4, p.sp), (4, p.sy), (4, p.sx)]

/-- Header word 3, from bit 0 up: its four highest bits are reserved. -/
def headerFields3 (p : Packet) : List (Nat × Nat) := [(60, p.route), (4, 0)]

def headerWord0 (p : Packet) : Word := BitVec.ofNat 64 (packFields (headerFields0 p))
def headerWord1 (p : Packet) : Word := BitVec.ofNat 64 p.addr
def headerWord2 (p : Packet) : Word := BitVec.ofNat 64 (packFields (headerFields2 p))
def headerWord3 (p : Packet) : Word := BitVec.ofNat 64 (packFields (headerFields3 p))

/-- The model's header words are the words of these fields. -/
theorem headerWords_eq (p : Packet) : headerWords p = [headerWord0 p, headerWord1 p, headerWord2 p, headerWord3 p] := by
  have e0 : packFields (headerFields0 p) = p.typ * 2 ^ 58 + p.vc * 2 ^ 55 + p.tc * 2 ^ 52 + p.flow * 2 ^ 48 + p.dclass * 2 ^ 46 + p.cmark * 2 ^ 44
      + b2n p.poison * 2 ^ 43 + b2n p.order * 2 ^ 42 + p.status * 2 ^ 38 + p.ksel * 2 ^ 32 + p.fas * 2 ^ 20 + p.tag * 2 ^ 4 + p.fmt := by
    simp only [headerFields0, packFields, Nat.add_mul, Nat.mul_assoc, Nat.zero_mul, Nat.zero_add, Nat.reducePow, Nat.reduceMul]
  have e2 : packFields (headerFields2 p) = p.sx * 2 ^ 60 + p.sy * 2 ^ 56 + p.sp * 2 ^ 52 + p.se * 2 ^ 45 + p.fence * 2 ^ 29 + p.role * 2 ^ 21
      + p.hopidx * 2 ^ 18 + p.hopcnt * 2 ^ 15 + p.rop * 2 ^ 13 + p.len * 2 := by
    simp only [headerFields2, packFields, b2n_false, Nat.add_mul, Nat.mul_assoc, Nat.zero_mul, Nat.zero_add, Nat.add_zero, Nat.reducePow, Nat.reduceMul]
  have e3 : packFields (headerFields3 p) = p.route := by simp only [headerFields3, packFields, Nat.zero_mul, Nat.zero_add]
  rw [headerWords, headerWord0, headerWord1, headerWord2, headerWord3, e0, e2, e3]

variable {p : Packet}

theorem headerFields0_fit (h : p.wf = true) : FieldsFit (headerFields0 p) := by
  simp only [Packet.wf, lt, Bool.and_eq_true, decide_eq_true_eq] at h
  simp only [headerFields0, fieldsFit_cons, fieldsFit_nil, Nat.reducePow, b2n_lt, h, and_self]

theorem headerFields2_fit (h : p.wf = true) : FieldsFit (headerFields2 p) := by
  simp only [Packet.wf, lt, Bool.and_eq_true, decide_eq_true_eq] at h
  simp only [headerFields2, fieldsFit_cons, fieldsFit_nil, Nat.reducePow, b2n_lt, h, and_self]

theorem headerFields3_fit (h : p.route < 2 ^ 60) : FieldsFit (headerFields3 p) :=
  fieldsFit_cons.2 ⟨h, fieldsFit_cons.2 ⟨Nat.two_pow_pos 4, fieldsFit_nil⟩⟩

theorem headerWord0_fields (h : p.wf = true) :
    bits (headerWord0 p) 63 58 = p.typ ∧ bits (headerWord0 p) 57 55 = p.vc ∧ bits (headerWord0 p) 54 52 = p.tc ∧ bits (headerWord0 p) 51 48 = p.flow ∧
    bits (headerWord0 p) 47 46 = p.dclass ∧ bits (headerWord0 p) 45 44 = p.cmark ∧ bit (headerWord0 p) 43 = p.poison ∧ bit (headerWord0 p) 42 = p.order ∧
    bits (headerWord0 p) 41 38 = p.status ∧ bits (headerWord0 p) 37 32 = p.ksel ∧ bits (headerWord0 p) 31 20 = p.fas ∧ bits (headerWord0 p) 19 4 = p.tag ∧
    bits (headerWord0 p) 3 0 = p.fmt := by
  have hf := headerFields0_fit h
  exact ⟨bits_packFields hf rfl 12 rfl rfl, bits_packFields hf rfl 11 rfl rfl, bits_packFields hf rfl 10 rfl rfl, bits_packFields hf rfl 9 rfl rfl,
    bits_packFields hf rfl 8 rfl rfl, bits_packFields hf rfl 7 rfl rfl, bit_packFields hf rfl 6 rfl rfl, bit_packFields hf rfl 5 rfl rfl,
    bits_packFields hf rfl 4 rfl rfl, bits_packFields hf rfl 3 rfl rfl, bits_packFields hf rfl 2 rfl rfl, bits_packFields hf rfl 1 rfl rfl,
    bits_packFields hf rfl 0 rfl rfl⟩

theorem headerWord1_addr (h : p.wf = true) : (headerWord1 p).toNat = p.addr := by
  simp only [Packet.wf, lt, Bool.and_eq_true, decide_eq_true_eq] at h
  have ha : p.addr < 2 ^ 64 := by simp only [h]
  rw [headerWord1, BitVec.toNat_ofNat, Nat.mod_eq_of_lt ha]

theorem headerWord2_fields (h : p.wf = true) :
    bits (headerWord2 p) 63 60 = p.sx ∧ bits (headerWord2 p) 59 56 = p.sy ∧ bits (headerWord2 p) 55 52 = p.sp ∧ bits (headerWord2 p) 51 45 = p.se ∧
    bits (headerWord2 p) 44 29 = p.fence ∧ bits (headerWord2 p) 28 21 = p.role ∧ bits (headerWord2 p) 20 18 = p.hopidx ∧
    bits (headerWord2 p) 17 15 = p.hopcnt ∧ bits (headerWord2 p) 14 13 = p.rop ∧ bits (headerWord2 p) 12 1 = p.len ∧ bit (headerWord2 p) 0 = false := by
  have hf := headerFields2_fit h
  exact ⟨bits_packFields hf rfl 10 rfl rfl, bits_packFields hf rfl 9 rfl rfl, bits_packFields hf rfl 8 rfl rfl, bits_packFields hf rfl 7 rfl rfl,
    bits_packFields hf rfl 6 rfl rfl, bits_packFields hf rfl 5 rfl rfl, bits_packFields hf rfl 4 rfl rfl, bits_packFields hf rfl 3 rfl rfl,
    bits_packFields hf rfl 2 rfl rfl, bits_packFields hf rfl 1 rfl rfl, bit_packFields hf rfl 0 rfl rfl⟩

theorem headerWord3_fields (h : p.route < 2 ^ 60) : bits (headerWord3 p) 63 60 = 0 ∧ bits (headerWord3 p) 59 0 = p.route :=
  have hf := headerFields3_fit h
  ⟨bits_packFields hf rfl 1 rfl rfl, bits_packFields hf rfl 0 rfl rfl⟩

/-! ### The packet that its bytes spell -/

/-- The header words of a packet spell its fields; only the model's own marks are not in the header. -/
theorem ofHeader_headerWords (hwf : p.wf = true) (hr : p.route < 2 ^ 60) (payload : List Byte) :
    ofHeader (headerWord0 p) (headerWord1 p) (headerWord2 p) (headerWord3 p) payload = { p with payload := payload, posted := false, mute := false } := by
  simp only [ofHeader, headerWord0_fields hwf, headerWord1_addr hwf, headerWord2_fields hwf, headerWord3_fields hr]

/-- Four header words laid out as bytes are read back, and the payload is as much of the rest as the header gives. -/
theorem packetOfBytes_bytesOfWords (w0 w1 w2 w3 : Word) (m : List Byte) :
    packetOfBytes (bytesOfWords [w0, w1, w2, w3] ++ m) = ofHeader w0 w1 w2 w3 (m.take (payloadLen (ofHeader w0 w1 w2 w3 []))) := by
  have hw := wordsOf_bytesOfWords [w0, w1, w2, w3] m
  simp only [List.length_cons, List.length_nil, wordsOf, List.drop_drop, List.cons.injEq, Nat.reduceAdd] at hw
  obtain ⟨h0, h1, h2, h3, -⟩ := hw
  simp only [packetOfBytes, Nat.mul_zero, Nat.mul_one, Nat.reduceMul, List.drop_zero, h0, h1, h2, h3,
    drop_bytesOfWords [w0, w1, w2, w3] m 32 rfl]
  rfl

/-- The payload's length is given by the operation and LEN alone. -/
theorem payloadLen_unmarked (p : Packet) (payload : List Byte) (b c : Bool) :
    payloadLen { p with payload := payload, posted := b, mute := c } = payloadLen p := rfl

/-- The padding of a packet's last cell changes nothing. -/
theorem packetOfBytes_headerWords (h : Claims.OnTheWire p) (pad : List Byte) :
    packetOfBytes (bytesOfWords (headerWords p) ++ (p.payload ++ pad)) = p := by
  obtain ⟨hwf, hr, hlen, hposted, hmute⟩ := h
  have hpay : (p.payload ++ pad).take (payloadLen p) = p.payload := List.take_left' hlen
  rw [headerWords_eq, packetOfBytes_bytesOfWords, ofHeader_headerWords hwf hr, ofHeader_headerWords hwf hr, payloadLen_unmarked, hpay]
  cases p
  cases hposted
  cases hmute
  rfl

end Sys2Proof.Machine

namespace Sys2Proof.Claims
open Sys2Proof.Machine

/-- Settles O59: each header word is the list of its fields, and a packet is read back from its header's words and as many payload bytes as they give. -/
theorem packetHeadersHoldTheirFields : Obligations.PacketHeadersHoldTheirFields := by
  unfold Obligations.PacketHeadersHoldTheirFields
  intro p hp
  have ⟨hwf, hr, _⟩ := hp
  refine ⟨⟨headerWord0 p, headerWord1 p, headerWord2 p, headerWord3 p, headerWords_eq p, ?_⟩, packetOfBytes_headerWords hp⟩
  simp only [headerWord0_fields hwf, headerWord1_addr hwf, headerWord2_fields hwf, headerWord3_fields hr, and_self]

end Sys2Proof.Claims
end

section
/-! PROOFS. The reading commands (R407, R411, R416, R475): what each answers, in a state that it leaves as it is. -/

namespace Sys2Proof.Machine
open Sys2Proof Sys2Proof.Claims

/-! ### The rows of the reading commands -/

theorem exec_nop (s : State) (c : Cmd) : exec (.nop c) s = s.cmdRow c (c.opcode == 0x0001) State.cmdNop := rfl
theorem exec_ident (s : State) (c : Cmd) : exec (.ident c) s = s.cmdRow c (c.opcode == 0x0002) State.cmdIdent := rfl
theorem exec_ticketQuery (s : State) (c : Cmd) : exec (.ticketQuery c) s = s.cmdRow c (c.opcode == 0x0003) State.cmdTicketQuery := rfl
theorem exec_regRead (s : State) (c : Cmd) : exec (.regRead c) s = s.cmdRow c (c.opcode == 0x0010) State.cmdRegRead := rfl
theorem exec_bootStatus (s : State) (c : Cmd) : exec (.bootStatus c) s = s.cmdRow c (c.opcode == 0x0101) State.cmdBootStatus := rfl

/-- A command that answers from the state in which it was taken, and leaves that state as it is, changes nothing but what is kept of every command. -/
theorem cmdRow_reads {s : State} {c : Cmd} {op status : Nat} {run : State → Cmd → Ans} {l : List Byte} (hr : Ready s c op)
    (h : run (taken s c) c = { st := taken s c, status := status, results := l }) :
    s.cmdRow c (c.opcode == op) run = .next (replied s (taken s c) c status 0 l).settleErr :=
  cmdRow_answers s c _ run op _ status 0 l hr (beq_iff_eq.2 (ready_opcode s c op hr)) h

/-- The same, for a command that answers OK with words. -/
theorem cmdRow_readsWords {s : State} {c : Cmd} {op : Nat} {run : State → Cmd → Ans} {ws : List Word} (hr : Ready s c op)
    (h : run (taken s c) c = (taken s c).okAns ws) : s.cmdRow c (c.opcode == op) run = .next (answered s (taken s c) c ws).settleErr :=
  cmdRow_reads hr h

/-! ### IDENT -/

theorem cmdIdent_eq (s : State) (c : Cmd) : s.cmdIdent c = s.okAns (identWords s) := rfl

/-! ### TICKET_QUERY (R407) -/

/-- Result word 0 of a done ticket. -/
theorem ticketWord_done {x : Ticket} (h : x.done = true) : ticketWord x = 2 ^ 63 + x.cmd.opcode * 2 ^ 32 + x.status * 2 ^ 16 + x.cmd.seq := by
  simp only [ticketWord, h, b2n, if_true, Nat.one_mul]

/-- Result word 0 of a ticket whose command is still at work: its STATUS reads 0. -/
theorem ticketWord_pending {x : Ticket} (h : x.done = false) : ticketWord x = x.cmd.opcode * 2 ^ 32 + x.cmd.seq := by
  simp only [ticketWord, h, b2n, Bool.false_eq_true, if_false, Nat.zero_mul, Nat.zero_add, Nat.add_zero]

/-- What a TICKET_QUERY of a ticket returns: the event's results follow result word 0 once the ticket is done. -/
theorem ticketResults_eq (x : Ticket) :
    wordBytes (BitVec.ofNat 64 (ticketWord x)) ++ (if x.done then x.results else []) =
      if x.done then wordBytes (BitVec.ofNat 64 (2 ^ 63 + x.cmd.opcode * 2 ^ 32 + x.status * 2 ^ 16 + x.cmd.seq)) ++ x.results
      else wordBytes (BitVec.ofNat 64 (x.cmd.opcode * 2 ^ 32 + x.cmd.seq)) := by
  cases hd : x.done with
  | false => rw [ticketWord_pending hd, if_neg Bool.false_ne_true, if_neg Bool.false_ne_true, List.append_nil]
  | true => rw [ticketWord_done hd, if_pos rfl, if_pos rfl]

/-- A ticket that its slot still carries, in the current CEPOCH. -/
theorem cmdTicketQuery_current {s : State} {c : Cmd} {x : Ticket} (hx : tblFind s.cmd.tickets ((c.word 0).toNat % 256) = some x)
    (hn : (c.word 0).toNat = s.ticketNo ((c.word 0).toNat % 256)) :
    s.cmdTicketQuery c =
      { st := s, status := Status.ok, results := wordBytes (BitVec.ofNat 64 (ticketWord x)) ++ (if x.done then x.results else []) } := by
  simp only [State.cmdTicketQuery, hx, ← hn, ne_eq, not_true_eq_false, if_false]

/-- A slot never used, or a word that is not the ticket of its slot. -/
theorem cmdTicketQuery_stale {s : State} {c : Cmd}
    (h : tblFind s.cmd.tickets ((c.word 0).toNat % 256) = none ∨ (c.word 0).toNat ≠ s.ticketNo ((c.word 0).toNat % 256)) :
    s.cmdTicketQuery c = s.noAns Status.badParam := by
  cases hx : tblFind s.cmd.tickets ((c.word 0).toNat % 256) with
  | none => simp only [State.cmdTicketQuery, hx]
  | some x =>
    have hn := h.resolve_left (hx ▸ Option.some_ne_none x)
    simp only [State.cmdTicketQuery, hx, if_pos hn.symm]

/-! ### REG_READ (R416) -/

/-- The limits of R416 on the parameter word of a register access of at most `max` bytes. -/
def RegLimits (w : Word) (max : Nat) : Prop :=
  zeroOutside w [(44, 0)] = true ∧ bits w 31 0 % 4 = 0 ∧ bits w 44 32 % 4 = 0 ∧ 4 ≤ bits w 44 32 ∧ bits w 44 32 ≤ max ∧
    bits w 31 0 + bits w 44 32 ≤ 0x2000000

theorem regSpan_of_limits {w : Word} {max : Nat} (h : RegLimits w max) : regSpan w max = some (bits w 31 0, bits w 44 32) := by
  obtain ⟨hz, ha, hn, hlo, hhi, hend⟩ := h
  simp [regSpan, within, hz, ha, hn, hlo, hhi, hend]

theorem regSpan_of_not_limits {w : Word} {max : Nat} (h : ¬ RegLimits w max) : regSpan w max = none := by
  refine if_neg fun hc => h ?_
  simpa [RegLimits, within, and_assoc] using hc

theorem cmdRegRead_of_limits {s : State} {c : Cmd} (h : RegLimits (c.word 0) 4096) :
    s.cmdRegRead c = { st := s, status := Status.ok, results := s.regBytesAt (bits (c.word 0) 31 0) (bits (c.word 0) 44 32) } := by
  simp only [State.cmdRegRead, regSpan_of_limits h]

theorem cmdRegRead_of_not_limits {s : State} {c : Cmd} (h : ¬ RegLimits (c.word 0) 4096) : s.cmdRegRead c = s.noAns Status.badParam := by
  simp only [State.cmdRegRead, regSpan_of_not_limits h]

end Sys2Proof.Machine

namespace Sys2Proof.Claims
open Sys2Proof Sys2Proof.Machine

/-- Settles O4: each reading command answers from the state in which it was taken, and hands that state on. -/
theorem readCommandsAnswer : Obligations.ReadCommandsAnswer := by
  unfold Obligations.ReadCommandsAnswer
  intro s c t
  refine ⟨fun hr => ?nop, fun hr => ?ident, fun hr => ?bootStatus, fun x hr hx hn => ?current, fun hr h => ?stale, ?regRead⟩
  case nop => exact (exec_nop s c).trans (cmdRow_readsWords hr rfl)
  case ident => exact (exec_ident s c).trans (cmdRow_readsWords hr (cmdIdent_eq t c))
  case bootStatus => exact (exec_bootStatus s c).trans (cmdRow_readsWords hr rfl)
  case current =>
    rw [exec_ticketQuery, cmdRow_reads hr (cmdTicketQuery_current hx hn), ticketResults_eq]
    rfl
  case stale => exact (exec_ticketQuery s c).trans (cmdRow_reads hr (cmdTicketQuery_stale h))
  case regRead =>
    rintro a n hr rfl rfl
    exact ⟨fun hgood => (exec_regRead s c).trans (cmdRow_reads hr (cmdRegRead_of_limits hgood)),
      fun hbad => (exec_regRead s c).trans (cmdRow_reads hr (cmdRegRead_of_not_limits hbad))⟩

end Sys2Proof.Claims
end

section
/-! PROOFS. The error commands (R427, R430): ERR_ARM sets the response of a code, ERR_FIFO_READ returns the oldest records of a die. -/

namespace Sys2Proof.Machine
open Sys2Proof Sys2Proof.Claims

/-! ### Commands that write state or are refused for their parameters -/

theorem exec_errArm (s : State) (c : Cmd) : exec (.errArm c) s = s.cmdRow c (c.opcode == 0x0290) State.cmdErrArm := rfl
theorem exec_errFifoRead (s : State) (c : Cmd) : exec (.errFifoRead c) s = s.cmdRow c (c.opcode == 0x0291) State.cmdErrFifoRead := rfl

/-- A command that answers OK with words from the state `t` that it leaves. -/
theorem cmdRow_answersWords {s t : State} {c : Cmd} {op : Nat} {run : State → Cmd → Ans} {ws : List Word} (hr : Ready s c op)
    (h : run (taken s c) c = t.okAns ws) : s.cmdRow c (c.opcode == op) run = .next (answered s t c ws).settleErr :=
  cmdRow_answers s c _ run op t Status.ok 0 _ hr (beq_iff_eq.2 (ready_opcode s c op hr)) h

/-- A command whose parameters are bad changes nothing but what is kept of every command. -/
theorem cmdRow_badParam {s : State} {c : Cmd} {op : Nat} {run : State → Cmd → Ans} (hr : Ready s c op)
    (h : run (taken s c) c = (taken s c).noAns Status.badParam) :
    s.cmdRow c (c.opcode == op) run = .next (replied s (taken s c) c Status.badParam 0 []).settleErr :=
  cmdRow_reads hr h

/-! ### ERR_ARM (R430) -/

/-- An ACTION that the code's row lists, or 0, takes the place of the response that the code had, which is answered. -/
theorem cmdErrArm_listed {s : State} {c : Cmd} {code act a : Nat} (hz : zeroOutside (c.word 0) [(17, 16), (7, 0)] = true)
    (hcode : bits (c.word 0) 7 0 = code) (hact : bits (c.word 0) 17 16 = act) (hc : codeAction code = some a) (ha : act = 0 ∨ act = a) :
    s.cmdErrArm c = (s.wr .errArm (code / 8) 0 (setBits (s.rd .errArm (code / 8)) (8 * (code % 8) + 1) (8 * (code % 8)) act)).okAns
      [BitVec.ofNat 64 (s.armedAction code)] := by
  have hlisted : ¬ (act ≠ 0 ∧ act ≠ a) := fun ⟨h0, h1⟩ => ha.elim h0 h1
  simp only [State.cmdErrArm, hz, hcode, hact, hc, if_neg hlisted, Bool.not_true, Bool.false_eq_true, if_false]

theorem cmdErrArm_reserved {s : State} {c : Cmd} (hz : zeroOutside (c.word 0) [(17, 16), (7, 0)] = false) :
    s.cmdErrArm c = s.noAns Status.badParam := by
  simp only [State.cmdErrArm, hz, Bool.not_false, if_true]

theorem cmdErrArm_reservedCode {s : State} {c : Cmd} (hc : codeAction (bits (c.word 0) 7 0) = none) : s.cmdErrArm c = s.noAns Status.badParam := by
  simp only [State.cmdErrArm, hc, ite_self]

theorem cmdErrArm_unlisted {s : State} {c : Cmd} {a : Nat} (hc : codeAction (bits (c.word 0) 7 0) = some a)
    (ha : bits (c.word 0) 17 16 ≠ 0 ∧ bits (c.word 0) 17 16 ≠ a) : s.cmdErrArm c = s.noAns Status.badParam := by
  simp only [State.cmdErrArm, hc, if_pos ha, ite_self]

/-! ### ERR_FIFO_READ (R427) -/

/-- What R427 asks of the parameter word: no reserved bit set, a die that exists, and a MAX other than 0. -/
def FifoForm (w : Word) : Prop := zeroOutside w [(16, 16), (13, 8), (3, 0)] = true ∧ bits w 3 0 ≠ 15 ∧ bits w 13 8 ≠ 0

/-- Records that die `d`'s FIFO holds, oldest first. -/
abbrev State.fifo (s : State) (d : Nat) : List (List Word) := tblGet [] s.err.fifos d

/-- The model's check of the parameter word. -/
theorem fifoForm_iff {w : Word} : FifoForm w ↔ (!zeroOutside w [(16, 16), (13, 8), (3, 0)] || bits w 3 0 == 15 || bits w 13 8 == 0) = false := by
  simp only [FifoForm, Bool.or_eq_false_iff, Bool.not_eq_false', beq_eq_false_iff_ne, and_assoc]

theorem cmdErrFifoRead_badForm {s : State} {c : Cmd} (h : ¬ FifoForm (c.word 0)) : s.cmdErrFifoRead c = s.noAns Status.badParam :=
  if_pos (eq_true_of_ne_false (mt fifoForm_iff.2 h))

/-- With POP = 0 the records stay. -/
theorem cmdErrFifoRead_keep {s : State} {c : Cmd} {d n : Nat} (h : FifoForm (c.word 0)) (hd : bits (c.word 0) 3 0 = d)
    (hn : bits (c.word 0) 13 8 = n) (hp : bit (c.word 0) 16 = false) :
    s.cmdErrFifoRead c =
      s.okAns (BitVec.ofNat 64 ((s.fifo d).length * 256 + min n (s.fifo d).length) :: ((s.fifo d).take n).flatten) := by
  subst hd hn
  simp only [State.cmdErrFifoRead, fifoForm_iff.1 h, hp, Bool.false_eq_true, if_false, List.length_take, List.flatMap_id]

/-- With POP = 1 the records returned leave the FIFO, and LEVEL counts what remains. -/
theorem cmdErrFifoRead_pop {s : State} {c : Cmd} {d n : Nat} (h : FifoForm (c.word 0)) (hd : bits (c.word 0) 3 0 = d)
    (hn : bits (c.word 0) 13 8 = n) (hp : bit (c.word 0) 16 = true) :
    s.cmdErrFifoRead c =
      (({ s with err := { s.err with fifos := tblPut s.err.fifos d ((s.fifo d).drop n) } } : State).fset Fld.errDieCnt1_LEVEL d 0
          ((s.fifo d).length - n)).okAns
        (BitVec.ofNat 64 (((s.fifo d).length - n) * 256 + min n (s.fifo d).length) :: ((s.fifo d).take n).flatten) := by
  subst hd hn
  simp only [State.cmdErrFifoRead, fifoForm_iff.1 h, hp, Bool.false_eq_true, if_false, if_true, List.length_take, List.length_drop, List.flatMap_id]

end Sys2Proof.Machine

namespace Sys2Proof.Claims
open Sys2Proof Sys2Proof.Machine

/-- Settles O8: ERR_ARM (R430) accepts ACTION 0 for every code that is not reserved (log entry 46) and else the code's listed ACTION; ERR_FIFO_READ (R427)
returns the oldest records, and POP decides whether they stay. -/
theorem errorCommandsArmAndRead : Obligations.ErrorCommandsArmAndRead := by
  unfold Obligations.ErrorCommandsArmAndRead
  intro s c t w
  refine ⟨?arm, fun hr hbad => (exec_errArm s c).trans (cmdRow_badParam hr ?armBad),
    fun hr hbad => (exec_errFifoRead s c).trans (cmdRow_badParam hr ?fifoBad), ?fifo⟩
  case arm =>
    intro code act a hr hz hcode hact hc ha
    exact (exec_errArm s c).trans (cmdRow_answersWords hr (cmdErrArm_listed hz hcode hact hc ha))
  case armBad =>
    obtain hz | hc | ⟨a, hc, ha⟩ := hbad
    · exact cmdErrArm_reserved hz
    · exact cmdErrArm_reservedCode hc
    · exact cmdErrArm_unlisted hc ha
  case fifoBad =>
    refine cmdErrFifoRead_badForm fun ⟨hz, hdie, hmax⟩ => ?_
    obtain hres | hdie15 | hmax0 := hbad
    · exact Bool.false_ne_true (hres.symm.trans hz)
    · exact hdie hdie15
    · exact hmax hmax0
  case fifo =>
    intro d n hr hz hd hdie hn hmax
    have hform : FifoForm w := ⟨hz, fun h15 => hdie (hd.symm.trans h15), fun h0 => hmax (hn.symm.trans h0)⟩
    exact ⟨fun hkeep => (exec_errFifoRead s c).trans (cmdRow_answersWords hr (cmdErrFifoRead_keep hform hd hn hkeep)),
      fun hpop => (exec_errFifoRead s c).trans (cmdRow_answersWords hr (cmdErrFifoRead_pop hform hd hn hpop))⟩

end Sys2Proof.Claims
end

section
/-! PROOFS. What every command keeps, and that it answers: from the lemma of each row (Laws/Keeps), and from what the rows' shared operations answer. -/

namespace Sys2Proof.Machine
open Sys2Proof

/-- Every row keeps the queue, the canonical memory, and no record waiting. -/
theorem keeps_exec (i : Instr) (s : State) : KeepsRes s (exec i s) := by
  cases i with
  | supplyApply => exact keeps_execSupplyApply
  | supplyBrownout => exact keeps_execSupplyBrownout
  | coldReset => exact keeps_execColdReset
  | pkgResetDeassert => exact keeps_execPkgResetDeassert
  | cloentimStart => exact keeps_execCloentimStart
  | bootUnitsDone => exact keeps_execBootUnitsDone
  | bootSlow => exact keeps_execBootSlow
  | hostPortReset => exact keeps_execHostPortReset
  | tapReset => exact keeps_execTapReset
  | rootUnlock => exact keeps_execRootUnlock
  | rootRelock => exact keeps_execRootRelock
  | nop => exact keeps_execNop
  | ident => exact keeps_execIdent
  | ticketQuery => exact keeps_execTicketQuery
  | ember => exact keeps_execEmber
  | emberMiss => exact keeps_execEmberMiss
  | cmdServiceStrict => exact keeps_execCmdServiceStrict
  | cmdServiceRoundRobin => exact keeps_execCmdServiceRoundRobin
  | regRead => exact keeps_execRegRead
  | regWrite => exact keeps_execRegWrite
  | registerWrite => exact keeps_execRegisterWrite
  | mgmtFrameReceive => exact keeps_execMgmtFrameReceive
  | mboxCommit => exact keeps_execMboxCommit
  | mboxRspHeadWrite => exact keeps_execMboxRspHeadWrite
  | mboxEnable => exact keeps_execMboxEnable
  | commandArrive => exact keeps_execCommandArrive
  | commandTake => exact keeps_execCommandTake
  | refusalReply => exact keeps_execRefusalReply
  | resetUnitPulse => exact keeps_execResetUnitPulse
  | resetUnitAssert => exact keeps_execResetUnitAssert
  | resetUnitRelease => exact keeps_execResetUnitRelease
  | bootStatus => exact keeps_execBootStatus
  | zIdent => exact keeps_execZIdent
  | zLoad => exact keeps_execZLoad
  | zStore => exact keeps_execZStore
  | zAtomicAdd => exact keeps_execZAtomicAdd
  | zAtomicMin => exact keeps_execZAtomicMin
  | zAtomicMax => exact keeps_execZAtomicMax
  | zCas => exact keeps_execZCas
  | zReduce => exact keeps_execZReduce
  | zAcquire => exact keeps_execZAcquire
  | zRelease => exact keeps_execZRelease
  | zFence => exact keeps_execZFence
  | zDoorbell => exact keeps_execZDoorbell
  | zResume => exact keeps_execZResume
  | zTgtRsp => exact keeps_execZTgtRsp
  | zTgtSend => exact keeps_execZTgtSend
  | tgtTimeout => exact keeps_execTgtTimeout
  | heatPeriod => exact keeps_execHeatPeriod
  | heatCtrlDisable => exact keeps_execHeatCtrlDisable
  | tagFreeIssue => exact keeps_execTagFreeIssue
  | admission => exact keeps_execAdmission
  | walkComplete => exact keeps_execWalkComplete
  | prefetchStart => exact keeps_execPrefetchStart
  | xlateInval => exact keeps_execXlateInval
  | xlateInvalDrainDone => exact keeps_execXlateInvalDrainDone
  | packetIngress => exact keeps_execPacketIngress
  | packetEnqueue => exact keeps_execPacketEnqueue
  | egressDispatch => exact keeps_execEgressDispatch
  | packetTransmitDone => exact keeps_execPacketTransmitDone
  | holdDeadline => exact keeps_execHoldDeadline
  | linkAdminSet => exact keeps_execLinkAdminSet
  | linkAdminClear => exact keeps_execLinkAdminClear
  | mirrorBurstWrite => exact keeps_execMirrorBurstWrite
  | mirrorBurstDone => exact keeps_execMirrorBurstDone
  | mirrorRingEnable => exact keeps_execMirrorRingEnable
  | load => exact keeps_execLoad
  | store => exact keeps_execStore
  | atomicAdd => exact keeps_execAtomicAdd
  | atomicMin => exact keeps_execAtomicMin
  | atomicMax => exact keeps_execAtomicMax
  | cas => exact keeps_execCas
  | reduceStore => exact keeps_execReduceStore
  | acquire => exact keeps_execAcquire
  | release => exact keeps_execRelease
  | fence => exact keeps_execFence
  | doorbell => exact keeps_execDoorbell
  | loadRsp => exact keeps_execLoadRsp
  | ack => exact keeps_execAck
  | atomicRsp => exact keeps_execAtomicRsp
  | fswRsp => exact keeps_execFswRsp
  | nack => exact keeps_execNack
  | fenceComplete => exact keeps_execFenceComplete
  | deadBoundSweep => exact keeps_execDeadBoundSweep
  | rateIncrease => exact keeps_execRateIncrease
  | ccEnable => exact keeps_execCcEnable
  | epbRoleWrite => exact keeps_execEpbRoleWrite
  | hubFenceWrite => exact keeps_execHubFenceWrite
  | rrcInval => exact keeps_execRrcInval
  | rrcDisable => exact keeps_execRrcDisable
  | ringCommit => exact keeps_execRingCommit
  | pushStore => exact keeps_execPushStore
  | engineStart => exact keeps_execEngineStart
  | segmentIssue => exact keeps_execSegmentIssue
  | descriptorPark => exact keeps_execDescriptorPark
  | itemComplete => exact keeps_execItemComplete
  | ringFlush => exact keeps_execRingFlush
  | ringCtrlOpen => exact keeps_execRingCtrlOpen
  | ringCtrlRun => exact keeps_execRingCtrlRun
  | ringCtrlClose => exact keeps_execRingCtrlClose
  | faultResume => exact keeps_execFaultResume
  | hostPcieRequest => exact keeps_execHostPcieRequest
  | hostCompletion => exact keeps_execHostCompletion
  | hostCompletionTimeout => exact keeps_execHostCompletionTimeout
  | hostD3hot => exact keeps_execHostD3hot
  | hostD0 => exact keeps_execHostD0
  | schedModeNormal => exact keeps_execSchedModeNormal
  | schedModeStrict => exact keeps_execSchedModeStrict
  | queueSet => exact keeps_execQueueSet
  | spnProgLoad => exact keeps_execSpnProgLoad
  | progLoadDone => exact keeps_execProgLoadDone
  | spnThreadStart => exact keeps_execSpnThreadStart
  | spnThreadStop => exact keeps_execSpnThreadStop
  | spnThreadSetrole => exact keeps_execSpnThreadSetrole
  | spnCtxRoleWrite => exact keeps_execSpnCtxRoleWrite
  | remoteAccessComplete => exact keeps_execRemoteAccessComplete
  | waitcMet => exact keeps_execWaitcMet
  | add => exact keeps_execAdd
  | sub => exact keeps_execSub
  | mul => exact keeps_execMul
  | and => exact keeps_execAnd
  | or => exact keeps_execOr
  | xor => exact keeps_execXor
  | shl => exact keeps_execShl
  | shr => exact keeps_execShr
  | sra => exact keeps_execSra
  | min => exact keeps_execMin
  | max => exact keeps_execMax
  | minu => exact keeps_execMinu
  | maxu => exact keeps_execMaxu
  | addi => exact keeps_execAddi
  | andi => exact keeps_execAndi
  | ori => exact keeps_execOri
  | xori => exact keeps_execXori
  | shli => exact keeps_execShli
  | shri => exact keeps_execShri
  | srai => exact keeps_execSrai
  | li => exact keeps_execLi
  | lui => exact keeps_execLui
  | rdsys => exact keeps_execRdsys
  | vadd => exact keeps_execVadd
  | vsub => exact keeps_execVsub
  | vmul => exact keeps_execVmul
  | vfma => exact keeps_execVfma
  | vmin => exact keeps_execVmin
  | vmax => exact keeps_execVmax
  | vand => exact keeps_execVand
  | vor => exact keeps_execVor
  | vxor => exact keeps_execVxor
  | vperm => exact keeps_execVperm
  | vcvt => exact keeps_execVcvt
  | vadds => exact keeps_execVadds
  | vmuls => exact keeps_execVmuls
  | vfmas => exact keeps_execVfmas
  | vmins => exact keeps_execVmins
  | vmaxs => exact keeps_execVmaxs
  | vsplat => exact keeps_execVsplat
  | vext => exact keeps_execVext
  | vins => exact keeps_execVins
  | peq => exact keeps_execPeq
  | pne => exact keeps_execPne
  | plt => exact keeps_execPlt
  | ple => exact keeps_execPle
  | pseq => exact keeps_execPseq
  | pslt => exact keeps_execPslt
  | pult => exact keeps_execPult
  | pand => exact keeps_execPand
  | por => exact keeps_execPor
  | pnot => exact keeps_execPnot
  | pall => exact keeps_execPall
  | lds => exact keeps_execLds
  | sts => exact keeps_execSts
  | ldv => exact keeps_execLdv
  | stv => exact keeps_execStv
  | ldp => exact keeps_execLdp
  | stp => exact keeps_execStp
  | rlds => exact keeps_execRlds
  | rsts => exact keeps_execRsts
  | rldv => exact keeps_execRldv
  | rstv => exact keeps_execRstv
  | ratom => exact keeps_execRatom
  | rred => exact keeps_execRred
  | rmove => exact keeps_execRmove
  | rfetch => exact keeps_execRfetch
  | rmcast => exact keeps_execRmcast
  | xclr => exact keeps_execXclr
  | xacc => exact keeps_execXacc
  | xnarr => exact keeps_execXnarr
  | xseed => exact keeps_execXseed
  | xsave => exact keeps_execXsave
  | xrest => exact keeps_execXrest
  | br => exact keeps_execBr
  | jr => exact keeps_execJr
  | call => exact keeps_execCall
  | waitc => exact keeps_execWaitc
  | yield => exact keeps_execYield
  | halt => exact keeps_execHalt
  | nopInstruction => exact keeps_execNopInstruction
  | toArm => exact keeps_execToArm
  | toDisarm => exact keeps_execToDisarm
  | nctrAdd => exact keeps_execNctrAdd
  | triggeredOpStart => exact keeps_execTriggeredOpStart
  | triggeredOpComplete => exact keeps_execTriggeredOpComplete
  | toWatchdog => exact keeps_execToWatchdog
  | hbmRegionSet => exact keeps_execHbmRegionSet
  | granuleDrained => exact keeps_execGranuleDrained
  | granuleZeroed => exact keeps_execGranuleZeroed
  | scrubStep => exact keeps_execScrubStep
  | controllerZeroFillDone => exact keeps_execControllerZeroFillDone
  | rickWrite => exact keeps_execRickWrite
  | rickSeal => exact keeps_execRickSeal
  | rickRead => exact keeps_execRickRead
  | rickDelete => exact keeps_execRickDelete
  | rickCmdComplete => exact keeps_execRickCmdComplete
  | nandProgramFail => exact keeps_execNandProgramFail
  | fillComplete => exact keeps_execFillComplete
  | rsvHeatPeriod => exact keeps_execRsvHeatPeriod
  | promotionScan => exact keeps_execPromotionScan
  | rsvStreamStart => exact keeps_execRsvStreamStart
  | rsvStreamStop => exact keeps_execRsvStreamStop
  | sequenceCurrent => exact keeps_execSequenceCurrent
  | partEmit => exact keeps_execPartEmit
  | sequenceDone => exact keeps_execSequenceDone
  | streamDrained => exact keeps_execStreamDrained
  | journalWrite => exact keeps_execJournalWrite
  | rickRecovery => exact keeps_execRickRecovery
  | rickQuenchSignal => exact keeps_execRickQuenchSignal
  | rickProgramsEnded => exact keeps_execRickProgramsEnded
  | rickQuenchProgTimeout => exact keeps_execRickQuenchProgTimeout
  | rickJournalWritten => exact keeps_execRickJournalWritten
  | linkEnWrite => exact keeps_execLinkEnWrite
  | linkEnergyDetect => exact keeps_execLinkEnergyDetect
  | cdrLock => exact keeps_execCdrLock
  | eqDone => exact keeps_execEqDone
  | prbsPass => exact keeps_execPrbsPass
  | aligned => exact keeps_execAligned
  | linkUp => exact keeps_execLinkUp
  | trainTimeout => exact keeps_execTrainTimeout
  | codewordReceive => exact keeps_execCodewordReceive
  | alignmentLoss => exact keeps_execAlignmentLoss
  | replayTimer => exact keeps_execReplayTimer
  | creditUpdateSend => exact keeps_execCreditUpdateSend
  | creditReturnFailure => exact keeps_execCreditReturnFailure
  | linkRetrain => exact keeps_execLinkRetrain
  | linkFailureEvent => exact keeps_execLinkFailureEvent
  | linkStateDiscard => exact keeps_execLinkStateDiscard
  | txqEnter => exact keeps_execTxqEnter
  | txqWake => exact keeps_execTxqWake
  | txWakeDone => exact keeps_execTxWakeDone
  | rxqEnergy => exact keeps_execRxqEnergy
  | relockDone => exact keeps_execRelockDone
  | relockTimeout => exact keeps_execRelockTimeout
  | burstReceive => exact keeps_execBurstReceive
  | darkTimeout => exact keeps_execDarkTimeout
  | visitSend => exact keeps_execVisitSend
  | trainingBurst => exact keeps_execTrainingBurst
  | optSearch => exact keeps_execOptSearch
  | sweepComplete => exact keeps_execSweepComplete
  | ditherUpdate => exact keeps_execDitherUpdate
  | lockTimeout => exact keeps_execLockTimeout
  | ringRelock => exact keeps_execRingRelock
  | laserLow => exact keeps_execLaserLow
  | klnSpdm => exact keeps_execKlnSpdm
  | klnSpdmComplete => exact keeps_execKlnSpdmComplete
  | getVersion => exact keeps_execGetVersion
  | getCapabilities => exact keeps_execGetCapabilities
  | negotiateAlgorithms => exact keeps_execNegotiateAlgorithms
  | getDigests => exact keeps_execGetDigests
  | getCertificate => exact keeps_execGetCertificate
  | challenge => exact keeps_execChallenge
  | getMeasurements => exact keeps_execGetMeasurements
  | keyExchange => exact keeps_execKeyExchange
  | finish => exact keeps_execFinish
  | heartbeat => exact keeps_execHeartbeat
  | keyUpdate => exact keeps_execKeyUpdate
  | endSession => exact keeps_execEndSession
  | chunkSend => exact keeps_execChunkSend
  | chunkGet => exact keeps_execChunkGet
  | bind => exact keeps_execBind
  | keySet => exact keeps_execKeySet
  | keyDestroy => exact keeps_execKeyDestroy
  | report => exact keeps_execReport
  | status => exact keeps_execStatus
  | unbind => exact keeps_execUnbind
  | logRead => exact keeps_execLogRead
  | klnUnbind => exact keeps_execKlnUnbind
  | klnDebug => exact keeps_execKlnDebug
  | bindResetComplete => exact keeps_execBindResetComplete
  | unbindResetComplete => exact keeps_execUnbindResetComplete
  | errArm => exact keeps_execErrArm
  | errFifoRead => exact keeps_execErrFifoRead
  | errCaptureArm => exact keeps_execErrCaptureArm
  | errWinFirClear => exact keeps_execErrWinFirClear
  | recoveryWindowEnd => exact keeps_execRecoveryWindowEnd
  | powerChoice => exact keeps_execPowerChoice
  | domainWake => exact keeps_execDomainWake
  | damperSlot => exact keeps_execDamperSlot
  | domainWakeComplete => exact keeps_execDomainWakeComplete
  | pwrTolerance => exact keeps_execPwrTolerance
  | pwrSet => exact keeps_execPwrSet
  | pwrSetTimeout => exact keeps_execPwrSetTimeout
  | pwrCapArm => exact keeps_execPwrCapArm
  | pwrCapClear => exact keeps_execPwrCapClear
  | smoulderTick => exact keeps_execSmoulderTick
  | powerEstimate => exact keeps_execPowerEstimate
  | retrust => exact keeps_execRetrust
  | thermalSample => exact keeps_execThermalSample
  | throttleStep => exact keeps_execThrottleStep
  | quenchRickReady => exact keeps_execQuenchRickReady
  | quenchRickTimeout => exact keeps_execQuenchRickTimeout
  | regulatorPoll => exact keeps_execRegulatorPoll
  | regulatorAlert => exact keeps_execRegulatorAlert
  | sbdXfer => exact keeps_execSbdXfer
  | sbdXferDone => exact keeps_execSbdXferDone
  | busRecoveryAttempt => exact keeps_execBusRecoveryAttempt
  | revive => exact keeps_execRevive
  | sbWrite => exact keeps_execSbWrite
  | sbRead => exact keeps_execSbRead
  | traySclTimeout => exact keeps_execTraySclTimeout
  | enec => exact keeps_execEnec
  | disec => exact keeps_execDisec
  | rstdaa => exact keeps_execRstdaa
  | entdaa => exact keeps_execEntdaa
  | setdasa => exact keeps_execSetdasa
  | setmwl => exact keeps_execSetmwl
  | setmrl => exact keeps_execSetmrl
  | getmwl => exact keeps_execGetmwl
  | getmrl => exact keeps_execGetmrl
  | getpid => exact keeps_execGetpid
  | getbcr => exact keeps_execGetbcr
  | getdcr => exact keeps_execGetdcr
  | getstatus => exact keeps_execGetstatus
  | imageErase => exact keeps_execImageErase
  | imageProgram => exact keeps_execImageProgram
  | imageReadStatus => exact keeps_execImageReadStatus
  | crcFeed => exact keeps_execCrcFeed
  | crcFeedDone => exact keeps_execCrcFeedDone
  | crcConfigWrite => exact keeps_execCrcConfigWrite
  | crcRestart => exact keeps_execCrcRestart
  | timeAlignSet => exact keeps_execTimeAlignSet
  | timeAlignStep => exact keeps_execTimeAlignStep
  | timeHoldEnd => exact keeps_execTimeHoldEnd
  | telSnap => exact keeps_execTelSnap
  | extest => exact keeps_execExtest
  | idcode => exact keeps_execIdcode
  | samplePreload => exact keeps_execSamplePreload
  | clamp => exact keeps_execClamp
  | highz => exact keeps_execHighz
  | bypass => exact keeps_execBypass
  | privateInstruction => exact keeps_execPrivateInstruction
  | coppiceCtrlOff => exact keeps_execCoppiceCtrlOff
  | coppiceCtrlSource => exact keeps_execCoppiceCtrlSource
  | coppiceCtrlShadow => exact keeps_execCoppiceCtrlShadow
  | coppiceCtrlPromote => exact keeps_execCoppiceCtrlPromote
  | coppiceOffDrained => exact keeps_execCoppiceOffDrained
  | laserPowerReturn => exact keeps_execLaserPowerReturn
  | hostPerstDeassert => exact keeps_execHostPerstDeassert
  | mgmtPortLinkUp => exact keeps_execMgmtPortLinkUp
  | unitOutOfReset => exact keeps_execUnitOutOfReset
  | imageLoaderDone => exact keeps_execImageLoaderDone
  | sessionHeartbeatExpiry => exact keeps_execSessionHeartbeatExpiry
  | barRead => exact keeps_execBarRead

/-! ### Operations that always answer a next state -/

namespace GoesOn

theorem ite {c : Prop} [Decidable c] {o r : Res} (ho : Outcome.goesOn o) (hr : Outcome.goesOn r) : Outcome.goesOn (if c then o else r) := by
  split <;> assumption

theorem next (s : State) : Outcome.goesOn (.next s) := ⟨s, rfl⟩

theorem settled (s : State) : Outcome.goesOn s.settled := ⟨s.settleErr, rfl⟩

theorem cmdRow (s : State) (c : Cmd) (mine : Bool) (run : State → Cmd → Ans) : Outcome.goesOn (s.cmdRow c mine run) :=
  ite (next s) (ite (next _) (settled _))

end GoesOn

/-- A row answers a next state, but for the one instruction that this model refuses. -/
theorem exec_goesOn (i : Instr) (s : State)
    (h : ∀ code, i = .privateInstruction code → ¬ (s.fget Fld.klnState_DEBUG_OPEN = 1 ∧ 0x80 ≤ code ∧ code ≤ 0xFE)) : Outcome.goesOn (exec i s) := by
  cases i with
  | privateInstruction code => exact ⟨s.jtagBypass code, if_neg (h code rfl)⟩
  | nop | ident | ticketQuery | cmdServiceStrict | cmdServiceRoundRobin | regRead | regWrite | resetUnitPulse | resetUnitAssert |
  resetUnitRelease | bootStatus | xlateInval | ringFlush | ringCtrlOpen | ringCtrlRun | ringCtrlClose | faultResume | schedModeNormal |
  schedModeStrict | queueSet | spnProgLoad | spnThreadStart | spnThreadStop | spnThreadSetrole | hbmRegionSet | rickWrite | rickSeal |
  rickRead | rickDelete | rsvStreamStart | rsvStreamStop | optSearch | klnSpdm | klnUnbind | klnDebug | errArm | errFifoRead | pwrTolerance
  | pwrSet | pwrCapArm | pwrCapClear | sbdXfer | crcFeed | timeAlignSet | timeAlignStep | coppiceCtrlOff | coppiceCtrlSource |
  coppiceCtrlShadow | coppiceCtrlPromote =>
    exact GoesOn.cmdRow s _ _ _
  | hostPortReset | linkAdminSet | linkAdminClear | hostD0 | linkEnWrite | linkEnergyDetect | cdrLock | eqDone | prbsPass | aligned | linkUp
  | trainTimeout | codewordReceive | alignmentLoss | replayTimer | creditReturnFailure | linkRetrain | linkFailureEvent | linkStateDiscard |
  relockTimeout | burstReceive | darkTimeout | visitSend | trainingBurst | sweepComplete | ditherUpdate | lockTimeout | ringRelock |
  laserLow | domainWake | quenchRickReady | quenchRickTimeout | laserPowerReturn | hostPerstDeassert =>
    exact GoesOn.ite (GoesOn.settled _) (GoesOn.next s)
  | _ => exact ⟨_, rfl⟩

/-! ### The step, and the state after reset -/

theorem load_reset (a n : Nat) : State.reset.load a n = List.replicate n 0 := by
  have hread : ∀ n a, memRead [] a n = List.replicate n 0 := by
    intro n
    induction n with
    | zero => intro a; rfl
    | succ n ih => intro a; rw [memRead, ih, List.replicate_succ]; rfl
  exact hread n a

theorem step_empty {s : State} (h : s.pending = []) : step s = .next s.tick := by rw [step, h]

theorem step_front {s : State} {c : Instr} {rest : List Instr} (h : s.pending = c :: rest) : step s = exec c { s with pending := rest } := by rw [step, h]

theorem tick_now (s : State) : s.tick.now = s.now + 1 := by rw [State.tick]; split <;> rfl

/-- A step keeps what its command keeps, and the queue is left without its front. -/
theorem step_keeps {s t : State} (h : step s = .next t) : Keeps true { s with pending := s.pending.tail } t := by
  cases hp : s.pending with
  | nil =>
    cases (step_empty hp).symm.trans h
    have hs : { s with pending := [].tail } = s := by rw [List.tail_nil, ← hp]
    exact hs ▸ keeps_tick Keeps.refl
  | cons c rest => exact keeps_exec c _ t ((step_front hp).symm.trans h)

end Sys2Proof.Machine

namespace Sys2Proof.Claims
open Sys2Proof Sys2Proof.Machine

/-- Settles O58: a step keeps what the lemma of its command's row keeps, from a state whose queue is the rest of the queue. -/
theorem stepsKeepTheStateSettled : Obligations.StepsKeepTheStateSettled := by
  unfold Obligations.StepsKeepTheStateSettled
  intro s t ⟨hmem, hlater⟩ h
  obtain ⟨hpending, hmem', hlater'⟩ := step_keeps h
  exact ⟨⟨hmem' hmem, hlater' rfl hlater⟩, hpending⟩

/-- Settles O57: every other row answers `.next`, outright or through an operation that always does. -/
theorem onlyPrivateJtagStops : Obligations.OnlyPrivateJtagStops := by
  unfold Obligations.OnlyPrivateJtagStops
  exact exec_goesOn

/-- Settles O55: by the definition of a step. -/
theorem stepRunsTheFrontCommand : Obligations.StepRunsTheFrontCommand := by
  unfold Obligations.StepRunsTheFrontCommand
  exact ⟨fun s c rest h => step_front h, fun s h => ⟨step_empty h, tick_now s⟩⟩

/-- Settles O56: after reset no register has been written, and no byte of memory. -/
theorem resetHoldsTheResetValues : Obligations.ResetHoldsTheResetValues := by
  unfold Obligations.ResetHoldsTheResetValues
  exact ⟨fun r i j => rfl, load_reset, rfl, rfl, rfl, rfl, rfl, rfl, rfl, reset_memory_wf, rfl⟩

end Sys2Proof.Claims
end

section
/-! PROOFS. Taking a command (R387, R403, R408, R470): what its row answers before the command's own meaning is run. -/

namespace Sys2Proof.Machine
open Sys2Proof Sys2Proof.Claims

/-- A row of a command is the handling of the packets that spell it. -/
theorem exec_commandRow {ext : List (List Word)} :
    ∀ row, CommandRow ext row → ∀ c s, ∃ run, exec (row.1 c) s = s.cmdRow c (row.2 c) run := by
  dsimp only [CommandRow]
  repeat refine List.forall_mem_cons.2 ⟨fun _ _ => ⟨_, rfl⟩, ?_⟩
  exact List.forall_mem_nil _

section
variable {s : State} {c : Cmd} {run : State → Cmd → Ans}

/-! ### Steps 3 to 5 of R403 -/

/-- A new command that a check holds back is answered with the check's status, and nothing else is done. -/
theorem cmdRow_checked {status : Nat} (hn : New s c) (h : (taken s c).handled c.partner c run = (taken s c).noAns status) :
    s.cmdRow c true run = .next (replied s (taken s c) c status 0 []).settleErr := by
  obtain ⟨_, _, _, _, _, hrefusal⟩ := id hn
  rw [cmdRow_new s c true run hn rfl, State.handleNew, hrefusal]
  simp only [h, State.noAns]
  rfl

theorem handled_badHeader {p : Nat} (h : cmdHeaderOk c p = false) : s.handled p c run = s.noAns Status.badParam := by
  simp only [State.handled, h, Bool.not_false, if_true]

theorem handled_notPermitted {p : Nat} (h : cmdHeaderOk c p = true) (ho : opPermitted p c.opcode = false) :
    s.handled p c run = s.noAns Status.invalidOpcode := by
  simp only [State.handled, h, ho, Bool.not_true, Bool.not_false, Bool.false_eq_true, if_false, if_true]

theorem handled_badLength {p : Nat} (h : cmdHeaderOk c p = true) (ho : opPermitted p c.opcode = true) (hl : plenOk c = false) :
    s.handled p c run = s.noAns Status.badParam := by
  simp only [State.handled, h, ho, hl, Bool.not_true, Bool.not_false, Bool.false_eq_true, if_false, if_true]

theorem handled_busyPhase {p : Nat} (h : cmdHeaderOk c p = true) (ho : opPermitted p c.opcode = true) (hl : plenOk c = true)
    (hb : s.phaseBusy c = true) : s.handled p c run = s.noAns Status.busy := by
  simp only [State.handled, h, ho, hl, hb, Bool.not_true, Bool.false_eq_true, if_false, if_true]

/-- Which commands the boot phase (R470) or the quench (R457) holds back. -/
theorem phaseBusy_iff : s.phaseBusy c = true ↔ (s.phase < 2 ∧ c.opcode ≠ 0x0280) ∨
    ((s.phase = 6 ∨ s.quenched = true) ∧ c.opcode ∉ [0x0001, 0x0002, 0x0003, 0x0010, 0x0101, 0x0291, 0x0280, 0x0281]) := by
  simp only [State.phaseBusy, Bool.or_eq_true, Bool.and_eq_true, decide_eq_true_eq, bne_iff_ne, beq_iff_eq, Bool.not_eq_true',
    List.contains_eq_mem, decide_eq_false_iff_not]
  rfl

/-! ### Retries and duplicates (R408) -/

/-- Cloentim takes a command of one of its four partners. -/
theorem cmdRow_taken (hr : s.boot.inReset = false) (hc : s.noCloentim = false) (hp : c.partner < 4) :
    s.cmdRow c true run = .next (s.handle c.partner c.partner s.now c run).settleErr := by
  have hp' : ¬ 3 < c.partner := by omega
  simp only [State.cmdRow, hr, hc, hp', decide_false, Bool.not_true, Bool.or_false, Bool.false_eq_true, if_false, State.settled]

/-- The reply that a retry has placed again. -/
def retryReply (s : State) (c : Cmd) (e : CachedReply) : Reply := replyOf s c e.reply.status e.reply.ticket e.reply.body

/-- A SEQ whose reply is cached is not executed: what is done depends on the cached entry and on the packet's CRC. -/
theorem handle_cached {e : CachedReply} (h : (taken s c).cached (seqSpace c.partner) c.seq = some e) :
    s.handle c.partner c.partner s.now c run =
      if !e.placed then (taken s c).fsat Fld.cmdPstatCnt_DUPS c.partner 0 1
      else if e.crc = cmdCrc c then
        let u := ((taken s c).fsat Fld.cmdPstatCnt_RETRIED c.partner 0 1).retarget (retryReply s c e) c.partner c
        if (retryReply s c e).status = Status.refused then u.refuseLater (retryReply s c e) else (u.placeAt (retryReply s c e)).1
      else (((taken s c).fsat Fld.cmdPstatErr_SEQCLASH c.partner 0 1).placeAt (replyOf s c Status.badParam 0 [])).1 := by
  unfold taken at h
  simp only [State.handle, h]
  rfl

/-- A refused command of a new SEQ is logged, its reply is cached and waits. -/
theorem cmdRow_refused {reason detail : Nat} (hr : s.boot.inReset = false) (hc : s.noCloentim = false) (hp : c.partner < 4)
    (hnew : (taken s c).cached (seqSpace c.partner) c.seq = none) (hfirst : (taken s c).earlierCopy c.partner c.seq s.now = none)
    (h : (taken s c).refusal c = some (reason, detail)) :
    s.cmdRow c true run = .next ((((taken s c).logRefusal c.partner c reason detail).cachePut (seqSpace c.partner)
      { seq := c.seq, crc := cmdCrc c, reply := replyOf s c 5 0 [], placed := false }).refuseLater (replyOf s c 5 0 [])).settleErr := by
  rw [cmdRow_taken hr hc hp, handle_new s c run hnew hfirst, State.handleNew, h]
  rfl

end

end Sys2Proof.Machine

namespace Sys2Proof.Claims
open Sys2Proof Sys2Proof.Machine

/-- Settles O1: each check, once those before it pass, is what the handling answers. -/
theorem commandChecksDecideInOrder : Obligations.CommandChecksDecideInOrder := by
  unfold Obligations.CommandChecksDecideInOrder
  intro ext s c row hrow hmine hnew
  obtain ⟨run, hexec⟩ := exec_commandRow row hrow c s
  rw [hexec, hmine]
  exact ⟨fun hh => cmdRow_checked hnew (handled_badHeader hh),
    fun hh ho => cmdRow_checked hnew (handled_notPermitted hh ho),
    fun hh ho hl => cmdRow_checked hnew (handled_badLength hh ho hl),
    fun hh ho hl _ hb => cmdRow_checked hnew (handled_busyPhase hh ho hl (phaseBusy_iff.2 hb))⟩

/-- Settles O2: the cached entry decides before anything is run. -/
theorem retriesAreNotExecutedAgain : Obligations.RetriesAreNotExecutedAgain := by
  unfold Obligations.RetriesAreNotExecutedAgain
  intro ext s c e row hrow hmine hreset hcl hp hcached
  obtain ⟨run, hexec⟩ := exec_commandRow row hrow c s
  rw [hexec, hmine, cmdRow_taken hreset hcl hp, handle_cached hcached]
  refine ⟨fun hplaced hcrc hst => ?_, fun hplaced hcrc hst => ?_, fun hplaced hcrc => ?_, fun hplaced => ?_⟩
  · rw [hplaced, Bool.not_true, if_neg Bool.false_ne_true, if_pos hcrc]
    exact congrArg (fun u : State => Host.Outcome.next u.settleErr) (if_pos hst)
  · rw [hplaced, Bool.not_true, if_neg Bool.false_ne_true, if_pos hcrc]
    exact congrArg (fun u : State => Host.Outcome.next u.settleErr) (if_neg hst)
  · rw [hplaced, Bool.not_true, if_neg Bool.false_ne_true, if_neg hcrc]
    rfl
  · rw [hplaced, Bool.not_false, if_pos rfl]

/-- Settles O3: the refusal decision comes before every other check. -/
theorem refusedCommandsOnlyLog : Obligations.RefusedCommandsOnlyLog := by
  unfold Obligations.RefusedCommandsOnlyLog
  intro ext s c reason detail row hrow hmine hreset hcl hp hnew hfirst href
  obtain ⟨run, hexec⟩ := exec_commandRow row hrow c s
  rw [hexec, hmine]
  exact cmdRow_refused hreset hcl hp hnew hfirst href

end Sys2Proof.Claims
end

section
/-! PROOFS. Commands that set the service policy, the schedulers, the time counter, and registers of power and debugging (R202, R206, R388, R404, R447, R454,
R471, R495). -/

namespace Sys2Proof.Machine
open Sys2Proof Sys2Proof.Claims

/-! ### The rows -/

theorem exec_cmdServiceStrict (s : State) (c : Cmd) :
    exec (.cmdServiceStrict c) s = s.cmdRow c (c.opcode == 0x0006 && !bit (c.word 0) 0) State.cmdServiceStrict := rfl
theorem exec_cmdServiceRoundRobin (s : State) (c : Cmd) :
    exec (.cmdServiceRoundRobin c) s = s.cmdRow c (c.opcode == 0x0006 && bit (c.word 0) 0) State.cmdServiceRound := rfl
theorem exec_schedModeNormal (s : State) (c : Cmd) :
    exec (.schedModeNormal c) s = s.cmdRow c (c.opcode == 0x0230 && !bit (c.word 0) 0) State.cmdSchedMode := rfl
theorem exec_schedModeStrict (s : State) (c : Cmd) :
    exec (.schedModeStrict c) s = s.cmdRow c (c.opcode == 0x0230 && bit (c.word 0) 0) State.cmdSchedMode := rfl
theorem exec_queueSet (s : State) (c : Cmd) : exec (.queueSet c) s = s.cmdRow c (c.opcode == 0x0231) State.cmdQueueSet := rfl
theorem exec_timeAlignSet (s : State) (c : Cmd) :
    exec (.timeAlignSet c) s = s.cmdRow c (c.opcode == 0x0310 && !bit (c.word 0) 0) State.cmdTimeAlign := rfl
theorem exec_timeAlignStep (s : State) (c : Cmd) :
    exec (.timeAlignStep c) s = s.cmdRow c (c.opcode == 0x0310 && bit (c.word 0) 0) State.cmdTimeAlign := rfl
theorem exec_klnDebug (s : State) (c : Cmd) : exec (.klnDebug c) s = s.cmdRow c (c.opcode == 0x0282) State.cmdKlnDebug := rfl
theorem exec_pwrTolerance (s : State) (c : Cmd) : exec (.pwrTolerance c) s = s.cmdRow c (c.opcode == 0x0301) State.cmdPwrTolerance := rfl
theorem exec_pwrCapArm (s : State) (c : Cmd) : exec (.pwrCapArm c) s = s.cmdRow c (c.opcode == 0x0302 && !bit (c.word 0) 8) State.cmdPwrCapArm := rfl
theorem exec_pwrCapClear (s : State) (c : Cmd) : exec (.pwrCapClear c) s = s.cmdRow c (c.opcode == 0x0302 && bit (c.word 0) 8) State.cmdPwrCapArm := rfl

section
variable {s t : State} {c : Cmd} {op status : Nat} {mine : Bool} {run : State → Cmd → Ans} {ws : List Word}

/-! ### Rows that answer only the packets of one ACTION or MODE -/

/-- A packet of the row's opcode that meets the row's own condition. -/
theorem mine_of (hr : Ready s c op) {b : Bool} (h : b = true) : (c.opcode == op && b) = true := by
  rw [ready_opcode s c op hr, beq_self_eq_true, h, Bool.and_self]

theorem mine_of_not (hr : Ready s c op) {b : Bool} (h : b = false) : (c.opcode == op && !b) = true := mine_of hr (by rw [h, Bool.not_false])

theorem opcode_beq (hr : Ready s c op) : (c.opcode == op) = true := beq_iff_eq.2 (ready_opcode s c op hr)

/-- A row whose command answers OK with words from the state `t`. -/
theorem cmdRow_ok (hr : Ready s c op) (hm : mine = true) (h : run (taken s c) c = t.okAns ws) :
    s.cmdRow c mine run = .next (answered s t c ws).settleErr :=
  cmdRow_answers s c mine run op t Status.ok 0 _ hr hm h

/-- A row whose command answers a status, with nothing done. -/
theorem cmdRow_no (hr : Ready s c op) (hm : mine = true) (h : run (taken s c) c = (taken s c).noAns status) :
    s.cmdRow c mine run = .next (replied s (taken s c) c status 0 []).settleErr :=
  cmdRow_answers s c mine run op _ status 0 [] hr hm h

/-- A row whose command leaves its reply to `keep`: the reply is cached, and not placed. -/
theorem cmdRow_later {keep : Reply → State → State} (hr : Ready s c op) (hm : mine = true)
    (h : run (taken s c) c = { st := t, status := status, later := some keep }) :
    s.cmdRow c mine run = .next (keep (replyOf s c status 0 []) (t.cachePut (seqSpace c.partner)
      { seq := c.seq, crc := cmdCrc c, reply := replyOf s c status 0 [], placed := false })).settleErr := by
  obtain ⟨hn, hop, hheader, hpermitted, hplen, hphase⟩ := hr
  obtain ⟨_, _, _, _, _, hrefusal⟩ := id hn
  subst hop
  rw [cmdRow_new s c mine run hn hm, State.handleNew, hrefusal]
  simp only [State.handled, hheader, hpermitted, hplen, hphase, Bool.not_true, Bool.false_eq_true, if_false, h]
  rfl

/-! ### CMD_SERVICE (R404, R471) -/

/-- The policy becomes strict priority. -/
def State.serviceStrict (s : State) : State := ({ s with boot := { s.boot with service := false } } : State).fset Fld.cmdCtrl_RR 0 0 0

/-- The policy becomes round robin. -/
def State.serviceRobin (s : State) : State := ({ s with boot := { s.boot with service := true } } : State).fset Fld.cmdCtrl_RR 0 0 1

theorem cmdServiceStrict_eq (hw : c.word 0 = 0) :
    s.cmdServiceStrict c = (if s.phase = Phase.normal then State.each (asleep s) State.wake (s.serviceStrict.phaseSet Phase.ready) else s.serviceStrict).okAns [] :=
  if_neg (not_not_intro hw)

theorem cmdServiceRound_eq (hw : c.word 0 = 1) :
    s.cmdServiceRound c = (if s.serviceRobin.phase = Phase.ready then s.serviceRobin.phaseSet Phase.normal else s.serviceRobin).okAns [] := by
  have hservice : s.serviceRobin.boot.service = true := rfl
  rw [State.cmdServiceRound, if_neg (not_not_intro hw)]
  change (State.serviceStart s.serviceRobin).okAns [] = _
  simp only [State.serviceStart, hservice, and_true]

/-! ### SCHED_MODE (R202) and QUEUE_SET (R206) -/

theorem bit_zero_iff (w : Word) : bit w 0 = (w.toNat % 2 == 1) := by
  simp [bit_eq_bits, bits]

theorem cmdSchedMode_badParam (h : 1 < (c.word 0).toNat ∨ bits (c.word 2) 63 60 ≠ 0) : s.cmdSchedMode c = s.noAns Status.badParam := if_pos h

/-- The ports that SCHED_MODE names and that send no packet take the mode. -/
def schedSet (s : State) (c : Cmd) (strict : Bool) : State := State.each ((schedPorts c).filter s.egressFree) (fun s p => s.setMode p strict) s

theorem cmdSchedMode_free (h : ¬ (1 < (c.word 0).toNat ∨ bits (c.word 2) 63 60 ≠ 0)) (hb : (schedPorts c).filter (fun p => !s.egressFree p) = []) :
    s.cmdSchedMode c = (schedSet s c (bit (c.word 0) 0)).okAns [] := by
  rw [State.cmdSchedMode, if_neg h]
  exact if_pos (List.isEmpty_iff.2 hb)

/-- A SCHED_MODE of which these egresses wait for their next dispatch opportunity, and its reply with them. -/
def State.modeWaits (s : State) (egresses : List Nat) (strict : Bool) (r : Reply) : State :=
  { s with sw := { s.sw with modes := s.sw.modes ++ [{ egresses := egresses, strict := strict, reply := r }] } }

theorem cmdSchedMode_busy (h : ¬ (1 < (c.word 0).toNat ∨ bits (c.word 2) 63 60 ≠ 0)) (hb : (schedPorts c).filter (fun p => !s.egressFree p) ≠ []) :
    s.cmdSchedMode c = { st := schedSet s c (bit (c.word 0) 0), status := Status.ok,
                         later := some (fun r u => u.modeWaits ((schedPorts c).filter (fun p => !s.egressFree p)) (bit (c.word 0) 0) r) } := by
  rw [State.cmdSchedMode, if_neg h]
  have hb' : ((schedPorts c).filter (fun p => !s.egressFree p)).isEmpty = false := by rwa [← Bool.not_eq_true, List.isEmpty_iff]
  unfold schedPorts at hb'
  simp only [hb', Bool.false_eq_true, if_false]
  rfl

/-- What R206 asks of a QUEUE_SET's parameters. -/
def QueueForm (c : Cmd) : Prop :=
  zeroOutside (c.word 0) [(63, 39), (13, 0)] = true ∧ zeroOutside (c.word 1) [(43, 32), (13, 0)] = true ∧ bits (c.word 0) 13 0 ≤ 15871 ∧
    bits (c.word 0) 47 40 ≠ 0 ∧ (bit (c.word 0) 39 = true → 1 ≤ bits (c.word 1) 13 0 ∧ bits (c.word 1) 13 0 ≤ 16000 ∧ bits (c.word 1) 43 32 ≠ 0)

/-- The model's check of them. -/
theorem queueForm_iff : QueueForm c ↔ (!zeroOutside (c.word 0) [(63, 39), (13, 0)] || !zeroOutside (c.word 1) [(43, 32), (13, 0)]
    || decide (15871 < bits (c.word 0) 13 0) || bits (c.word 0) 47 40 == 0
    || (bit (c.word 0) 39 && (bits (c.word 1) 13 0 == 0 || decide (16000 < bits (c.word 1) 13 0) || bits (c.word 1) 43 32 == 0))) = false := by
  simp only [QueueForm, Bool.or_eq_false_iff, Bool.and_eq_false_imp, Bool.not_eq_false', decide_eq_false_iff_not, beq_eq_false_iff_ne, Nat.not_lt,
    Nat.one_le_iff_ne_zero, and_assoc]

theorem cmdQueueSet_badForm (h : ¬ QueueForm c) : s.cmdQueueSet c = s.noAns Status.badParam := if_pos (eq_true_of_ne_false (mt queueForm_iff.2 h))

theorem cmdQueueSet_stale (h : QueueForm c) (hr : bits (c.word 0) 63 56 ≠ s.queueRole (bits (c.word 0) 13 0)) :
    s.cmdQueueSet c = s.noAns Status.staleRole := by
  simp only [State.cmdQueueSet, queueForm_iff.1 h, Bool.false_eq_true, if_false, if_pos hr]

theorem cmdQueueSet_ok (h : QueueForm c) (hr : bits (c.word 0) 63 56 = s.queueRole (bits (c.word 0) 13 0)) :
    s.cmdQueueSet c = ({ s with sw := { s.sw with qsets := s.sw.qsets ++ [(bits (c.word 0) 13 0, BitVec.ofNat 64 (bits (c.word 0) 55 48 * 2 ^ 56
      + bits (c.word 0) 47 40 * 2 ^ 48 + bits (c.word 0) 39 39 * 2 ^ 47 + bits (c.word 1) 43 32 * 2 ^ 32 + bits (c.word 1) 13 0))] } } : State).okAns [] := by
  simp only [State.cmdQueueSet, queueForm_iff.1 h, hr, Bool.false_eq_true, ne_eq, not_true_eq_false, if_false]

/-! ### TIME_ALIGN (R495) -/

/-- R495 does not allow the parameters: a reserved bit or MODE, or an OFFSET beyond 2^31. -/
def TimeAlignBad (c : Cmd) : Prop := 1 < (c.word 0).toNat ∨ ((c.word 0).toNat = 1 ∧ 2 ^ 31 < (signed 64 (c.word 1).toNat).natAbs)

theorem not_timeAlignBad_set (hw : c.word 0 = 0) : ¬ TimeAlignBad c := by
  rw [TimeAlignBad, hw]
  rintro (h | ⟨h, _⟩) <;> exact absurd h (by decide)

theorem not_timeAlignBad_step (hw : c.word 0 = 1) (hd : (signed 64 (c.word 1).toNat).natAbs ≤ 2 ^ 31) : ¬ TimeAlignBad c := by
  rw [TimeAlignBad, hw]
  rintro (h | ⟨_, h⟩)
  · exact absurd h (by decide)
  · exact absurd h (Nat.not_lt.2 hd)

theorem cmdTimeAlign_badParam (h : TimeAlignBad c) : s.cmdTimeAlign c = s.noAns Status.badParam := if_pos h

theorem cmdTimeAlign_busy (h : ¬ TimeAlignBad c) (hh : s.holding = true) : s.cmdTimeAlign c = s.noAns Status.busy :=
  (if_neg h).trans (if_pos hh)

theorem cmdTimeAlign_set (hw : c.word 0 = 0) (hh : s.holding = false) : s.cmdTimeAlign c = (s.timeSet (c.word 1)).okAns [] :=
  (if_neg (not_timeAlignBad_set hw)).trans ((if_neg (ne_true_of_eq_false hh)).trans (if_pos (by rw [hw]; rfl)))

theorem cmdTimeAlign_step (hw : c.word 0 = 1) (hh : s.holding = false) (hd : (signed 64 (c.word 1).toNat).natAbs ≤ 2 ^ 31) :
    s.cmdTimeAlign c = (s.timeStep (signed 64 (c.word 1).toNat)).okAns [] :=
  (if_neg (not_timeAlignBad_step hw hd)).trans ((if_neg (ne_true_of_eq_false hh)).trans (if_neg (by rw [hw]; decide)))

theorem timeStep_forward {d : Int} (h : 0 ≤ d) : s.timeStep d =
    ((s.windowsMove d).fset Fld.telTctrl_LAST_STEP 0 0 (BitVec.ofInt 32 d).toNat).wr .telTime 0 0 (BitVec.ofInt 64 (s.time + d)) := if_pos h

theorem timeStep_hold {d : Int} (h : d < 0) : s.timeStep d =
    ({ (s.windowsMove d).fset Fld.telTctrl_LAST_STEP 0 0 (BitVec.ofInt 32 d).toNat with
      tel := { ((s.windowsMove d).fset Fld.telTctrl_LAST_STEP 0 0 (BitVec.ofInt 32 d).toNat).tel with hold := some (s.now + d.natAbs) } } : State).fset
        Fld.telTctrl_HOLDING 0 0 1 := if_neg (Int.not_le.2 h)

/-! ### PWR_TOLERANCE (R447) and PWR_CAP_ARM (R454) -/

theorem cmdPwrTolerance_badParam (h : zeroOutside (c.word 0) [(31, 16), (3, 0)] = false ∨ 9 < bits (c.word 0) 3 0) :
    s.cmdPwrTolerance c = s.noAns Status.badParam := by
  refine if_pos ?_
  simpa only [Bool.or_eq_true, Bool.not_eq_true', decide_eq_true_eq] using h

theorem cmdPwrTolerance_ok (hz : zeroOutside (c.word 0) [(31, 16), (3, 0)] = true) (hf : bits (c.word 0) 3 0 ≤ 9) :
    s.cmdPwrTolerance c =
      let s1 := s.fset Fld.pwrFunc_LAT (bits (c.word 0) 3 0) 0 (bits (c.word 0) 31 16)
      (State.each ((funcDoms (bits (c.word 0) 3 0)).filter (fun d => decide (s1.tol (bits (c.word 0) 3 0) < wakeLatency (bits (c.word 0) 3 0) (s1.domState d))))
        State.wake s1).okAns [] := by
  simp only [State.cmdPwrTolerance, hz, decide_eq_false (Nat.not_lt.2 hf), Bool.not_true, Bool.or_false, Bool.false_eq_true, if_false]

theorem cmdPwrCapArm_reserved (hz : zeroOutside (c.word 0) [(31, 16), (8, 8), (3, 0)] = false) : s.cmdPwrCapArm c = s.noAns Status.badParam := by
  simp only [State.cmdPwrCapArm, hz, Bool.not_false, if_true]

theorem cmdPwrCapArm_range (hb : bit (c.word 0) 8 = false) (h : bit (c.word 0) 3 = true ∨ bits (c.word 0) 31 16 < 300 ∨ 1900 < bits (c.word 0) 31 16) :
    s.cmdPwrCapArm c = s.noAns Status.badParam := by
  have h' : (bit (c.word 0) 3 || decide (bits (c.word 0) 31 16 < 300) || decide (1900 < bits (c.word 0) 31 16)) = true := by
    simpa only [Bool.or_eq_true, decide_eq_true_eq, or_assoc] using h
  simp only [State.cmdPwrCapArm, hb, h', Bool.false_eq_true, if_false, if_true, ite_self]

theorem cmdPwrCapArm_clear (hz : zeroOutside (c.word 0) [(31, 16), (8, 8), (3, 0)] = true) (hb : bit (c.word 0) 8 = true) :
    s.cmdPwrCapArm c = (s.wr .pwrCap 0 0 0).okAns [] := by
  simp only [State.cmdPwrCapArm, hz, hb, Bool.not_true, Bool.false_eq_true, if_false, if_true]

theorem cmdPwrCapArm_arm (hz : zeroOutside (c.word 0) [(31, 16), (8, 8), (3, 0)] = true) (hb : bit (c.word 0) 8 = false) (h3 : bit (c.word 0) 3 = false)
    (hlo : 300 ≤ bits (c.word 0) 31 16) (hhi : bits (c.word 0) 31 16 ≤ 1900) :
    s.cmdPwrCapArm c = (((s.fset Fld.pwrCap_CAP 0 0 (bits (c.word 0) 31 16)).fset Fld.pwrCap_ARMED 0 0 1).fset Fld.pwrCap_TRIG 0 0 (bits (c.word 0) 3 0)).okAns [] := by
  simp only [State.cmdPwrCapArm, hz, hb, h3, decide_eq_false (Nat.not_lt.2 hlo), decide_eq_false (Nat.not_lt.2 hhi), Bool.not_true, Bool.or_false,
    Bool.false_eq_true, if_false]

end

end Sys2Proof.Machine

namespace Sys2Proof.Claims
open Sys2Proof Sys2Proof.Machine

/-- Settles O5: the policy is set first; the phase that it leaves decides what else is done. -/
theorem serviceCommandsSetPolicyAndPhase : Obligations.ServiceCommandsSetPolicyAndPhase := by
  unfold Obligations.ServiceCommandsSetPolicyAndPhase
  intro s c hr t strict robin
  have hstrict (hw : c.word 0 = 0) : (c.opcode == 0x0006 && !bit (c.word 0) 0) = true := mine_of_not hr (by rw [hw]; rfl)
  have hrobin (hw : c.word 0 = 1) : (c.opcode == 0x0006 && bit (c.word 0) 0) = true := mine_of hr (by rw [hw]; rfl)
  refine ⟨fun hw hp => ?_, fun hw hp => ?_, fun hw hp => ?_, fun hw hp => ?_⟩
  · exact (exec_cmdServiceStrict s c).trans (cmdRow_ok hr (hstrict hw) ((cmdServiceStrict_eq hw).trans (congrArg (State.okAns · []) (if_neg hp))))
  · exact (exec_cmdServiceStrict s c).trans (cmdRow_ok hr (hstrict hw) ((cmdServiceStrict_eq hw).trans (congrArg (State.okAns · []) (if_pos hp))))
  · exact (exec_cmdServiceRoundRobin s c).trans (cmdRow_ok hr (hrobin hw) ((cmdServiceRound_eq hw).trans (congrArg (State.okAns · []) (if_neg hp))))
  · exact (exec_cmdServiceRoundRobin s c).trans (cmdRow_ok hr (hrobin hw) ((cmdServiceRound_eq hw).trans (congrArg (State.okAns · []) (if_pos hp))))

/-- A row of SCHED_MODE handles the packets of its MODE's bit 0. -/
theorem schedRow_exec {s : State} {c : Cmd} {m : Nat} {i : Instr} (hr : Ready s c 0x0230) (hi : SchedRow c m i) (hm : (c.word 0).toNat % 2 = m) :
    bit (c.word 0) 0 = (m == 1) ∧ ∃ mine, mine = true ∧ exec i s = s.cmdRow c mine State.cmdSchedMode := by
  have hb : bit (c.word 0) 0 = (m == 1) := by rw [bit_zero_iff, hm]
  refine ⟨hb, ?_⟩
  obtain ⟨rfl, rfl⟩ | ⟨rfl, rfl⟩ := hi
  · exact ⟨_, mine_of_not hr hb, exec_schedModeNormal s c⟩
  · exact ⟨_, mine_of hr hb, exec_schedModeStrict s c⟩

/-- Settles O6: SCHED_MODE by whether a named egress sends a packet, QUEUE_SET by its form and the queue's role epoch. -/
theorem schedulerCommandsSetPortsAndQueues : Obligations.SchedulerCommandsSetPortsAndQueues := by
  unfold Obligations.SchedulerCommandsSetPortsAndQueues
  intro s c t
  refine ⟨fun m i hr hi hm => ?sched, ?queue⟩
  case sched =>
    obtain ⟨hbit, mine, hmine, hexec⟩ := schedRow_exec hr hi hm
    intro now busy set held
    rw [hexec]
    refine ⟨fun hbad => cmdRow_no hr hmine (cmdSchedMode_badParam hbad), fun hw hres hfree => ?_, fun hw hres hbusy => ?_⟩
    · have hgood : ¬ (1 < (c.word 0).toNat ∨ bits (c.word 2) 63 60 ≠ 0) := by omega
      exact cmdRow_ok hr hmine (by rw [cmdSchedMode_free hgood hfree, hbit]; rfl)
    · have hgood : ¬ (1 < (c.word 0).toNat ∨ bits (c.word 2) 63 60 ≠ 0) := by omega
      have hlater := cmdSchedMode_busy (s := t) hgood hbusy
      rw [hbit] at hlater
      exact cmdRow_later hr hmine hlater
  case queue =>
    rintro q rate burst hr rfl rfl rfl
    intro good
    rw [exec_queueSet]
    exact ⟨fun h => cmdRow_no hr (opcode_beq hr) (cmdQueueSet_badForm h), fun h hrole => cmdRow_ok hr (opcode_beq hr) (cmdQueueSet_ok h hrole),
      fun h hrole => cmdRow_no hr (opcode_beq hr) (cmdQueueSet_stale h hrole)⟩

/-- Settles O7: by MODE, the hold that runs, and the sign of OFFSET. -/
theorem timeAlignSetsStepsOrHolds : Obligations.TimeAlignSetsStepsOrHolds := by
  unfold Obligations.TimeAlignSetsStepsOrHolds
  intro s c hr t d stepped
  have hset (hw : c.word 0 = 0) : (c.opcode == 0x0310 && !bit (c.word 0) 0) = true := mine_of_not hr (by rw [hw]; rfl)
  have hstep (hw : c.word 0 = 1) : (c.opcode == 0x0310 && bit (c.word 0) 0) = true := mine_of hr (by rw [hw]; rfl)
  rw [exec_timeAlignSet, exec_timeAlignStep]
  refine ⟨fun hw hh => cmdRow_ok hr (hset hw) (cmdTimeAlign_set hw hh), fun hw hh hd hpos => ?_, fun hw hh hd hneg => ?_, fun hw hh => ?_,
    fun hw hh hd => ?_, fun hw hd => ?_, fun hw => ⟨fun hb => ?_, fun hb => ?_⟩⟩
  · exact cmdRow_ok hr (hstep hw) (by rw [cmdTimeAlign_step hw hh hd, timeStep_forward hpos])
  · exact cmdRow_ok hr (hstep hw) (by rw [cmdTimeAlign_step hw hh hd, timeStep_hold hneg])
  · exact cmdRow_no hr (hset hw) (cmdTimeAlign_busy (not_timeAlignBad_set hw) hh)
  · exact cmdRow_no hr (hstep hw) (cmdTimeAlign_busy (not_timeAlignBad_step hw hd) hh)
  · exact cmdRow_no hr (hstep hw) (cmdTimeAlign_badParam (.inr ⟨by rw [hw]; rfl, hd⟩))
  · exact cmdRow_no hr (mine_of_not hr hb) (cmdTimeAlign_badParam (.inl hw))
  · exact cmdRow_no hr (mine_of hr hb) (cmdTimeAlign_badParam (.inl hw))

/-- Settles O9: by each command's parameter word. -/
theorem powerAndDebugCommandsSetRegisters : Obligations.PowerAndDebugCommandsSetRegisters := by
  unfold Obligations.PowerAndDebugCommandsSetRegisters
  intro s c t w
  rw [exec_klnDebug, exec_pwrTolerance, exec_pwrCapArm, exec_pwrCapClear]
  refine ⟨fun hr => cmdRow_ok hr (opcode_beq hr) rfl, ?tolerance, ?arm, fun hr hz hb => cmdRow_ok hr (mine_of hr hb) (cmdPwrCapArm_clear hz hb),
    fun hr h => cmdRow_no hr (opcode_beq hr) (cmdPwrTolerance_badParam h), fun hr hb h => cmdRow_no hr (mine_of_not hr hb) ?armBad,
    fun hr hb hz => cmdRow_no hr (mine_of hr hb) (cmdPwrCapArm_reserved hz)⟩
  case tolerance =>
    rintro f hr hz rfl hf
    exact cmdRow_ok hr (opcode_beq hr) (cmdPwrTolerance_ok hz hf)
  case arm =>
    rintro cap hr hz hb h3 rfl hlo hhi
    exact cmdRow_ok hr (mine_of_not hr hb) (cmdPwrCapArm_arm hz hb h3 hlo hhi)
  case armBad =>
    obtain hz | hrange := h
    · exact cmdPwrCapArm_reserved hz
    · exact cmdPwrCapArm_range hb hrange

end Sys2Proof.Claims
end

section
/-! PROOFS. Commands of translation, faults, rings, registers and Spindle threads (R77, R78, R94, R98, R107, R123 to R128, R233, R235, R276, R416). -/

namespace Sys2Proof.Machine
open Sys2Proof Sys2Proof.Claims

/-! ### The rows -/

theorem exec_xlateInval (s : State) (c : Cmd) : exec (.xlateInval c) s = s.cmdRow c (c.opcode == 0x0213) State.cmdXlateInval := rfl
theorem exec_faultResume (s : State) (c : Cmd) (ext : List (List Word)) :
    exec (.faultResume c ext) s = s.cmdRow c (c.opcode == 0x0214) (fun s c => s.cmdFaultResume c ext) := rfl
theorem exec_ringFlush (s : State) (c : Cmd) : exec (.ringFlush c) s = s.cmdRow c (c.opcode == 0x0220) State.cmdRingFlush := rfl
theorem exec_ringCtrlOpen (s : State) (c : Cmd) :
    exec (.ringCtrlOpen c) s = s.cmdRow c (c.opcode == 0x0221 && bits (c.word 0) 17 16 == 0) State.cmdRingCtrl := rfl
theorem exec_ringCtrlRun (s : State) (c : Cmd) :
    exec (.ringCtrlRun c) s = s.cmdRow c (c.opcode == 0x0221 && bits (c.word 0) 17 16 == 1) State.cmdRingCtrl := rfl
theorem exec_ringCtrlClose (s : State) (c : Cmd) :
    exec (.ringCtrlClose c) s = s.cmdRow c (c.opcode == 0x0221 && bits (c.word 0) 17 16 == 2) State.cmdRingCtrl := rfl
theorem exec_regWrite (s : State) (c : Cmd) : exec (.regWrite c) s = s.cmdRow c (c.opcode == 0x0011) State.cmdRegWrite := rfl
theorem exec_spnProgLoad (s : State) (c : Cmd) : exec (.spnProgLoad c) s = s.cmdRow c (c.opcode == 0x0240) State.cmdProgLoad := rfl
theorem exec_spnThreadStart (s : State) (c : Cmd) :
    exec (.spnThreadStart c) s = s.cmdRow c (c.opcode == 0x0241 && bits (c.word 0) 47 46 == 0) State.cmdThreadStart := rfl
theorem exec_spnThreadStop (s : State) (c : Cmd) :
    exec (.spnThreadStop c) s = s.cmdRow c (c.opcode == 0x0241 && bits (c.word 0) 47 46 == 1) State.cmdThreadStop := rfl
theorem exec_spnThreadSetrole (s : State) (c : Cmd) :
    exec (.spnThreadSetrole c) s = s.cmdRow c (c.opcode == 0x0241 && bits (c.word 0) 47 46 == 2) State.cmdThreadSetrole := rfl

section
variable {s : State} {c : Cmd} {op k : Nat} {mine : Bool} {run : State → Cmd → Ans} {work : Nat → State → State}

/-! ### Deferred commands (R405, R406) -/

/-- With a slot free, a deferred command is accepted, and its work begins with the slot's new ticket. -/
theorem defer_of_slot (h : s.ticketSlot = some k) (work : Nat → State → State) :
    s.defer c work = { st := work (s.ticketNew k c).1 (s.ticketNew k c).2, status := Status.accepted, ticket := (s.ticketNew k c).1 } := by
  simp only [State.defer, h]

/-- A row whose command is accepted, and of which `follow` follows the reply. -/
theorem cmdRow_acceptedThen {follow : State → State} (hr : Ready s c op) (hm : mine = true)
    (h : run (taken s c) c = { st := work (ticketed s k c).1 (ticketed s k c).2, status := Status.accepted, ticket := (ticketed s k c).1, after := follow }) :
    s.cmdRow c mine run = .next (accepted s k c work follow).settleErr := by
  rw [cmdRow_ready s c mine run op hr hm (by rw [h]), h]
  rfl

/-- A row whose command is accepted. -/
theorem cmdRow_accepted (hr : Ready s c op) (hm : mine = true) (hk : (taken s c).ticketSlot = some k)
    (h : run (taken s c) c = (taken s c).defer c work) : s.cmdRow c mine run = .next (accepted s k c work).settleErr :=
  cmdRow_acceptedThen hr hm (h.trans (defer_of_slot hk work))

/-! ### XLATE_INVAL (R77, R78) -/

/-- What R77 asks of the parameter word. -/
def XlateForm (w : Word) : Prop := zeroOutside w [(16, 16), (12, 12), (11, 0)] = true ∧ (bit w 12 = true → bits w 11 0 ≤ 255)

theorem xlateForm_iff {w : Word} :
    XlateForm w ↔ (!zeroOutside w [(16, 16), (12, 12), (11, 0)] || (bit w 12 && decide (255 < bits w 11 0))) = false := by
  simp only [XlateForm, Bool.or_eq_false_iff, Bool.and_eq_false_imp, Bool.not_eq_false', decide_eq_false_iff_not, Nat.not_lt]

theorem cmdXlateInval_badForm (h : ¬ XlateForm (c.word 0)) : s.cmdXlateInval c = s.noAns Status.badParam :=
  if_pos (eq_true_of_ne_false (mt xlateForm_iff.2 h))

theorem cmdXlateInval_atOnce (h : XlateForm (c.word 0)) (hd : bit (c.word 0) 16 = false) :
    s.cmdXlateInval c = (xlatCleared s c s).okAns [] :=
  (if_neg (ne_true_of_eq_false (xlateForm_iff.1 h))).trans (if_neg (ne_true_of_eq_false hd))

/-- The drain of an XLATE_INVAL keeps the requests that used the space when the command was taken. -/
def xlatDrained (t : State) (c : Cmd) (n : Nat) (u : State) : State :=
  let v := xlatCleared t c u
  let users := (xlatUnits t c).map (fun n => t.xlatUsers n (xlatSpace c))
  { v with xlat := { v.xlat with drains := v.xlat.drains ++ [{ ticket := n, reqs := users.flatMap (·.1), tgts := users.flatMap (·.2) }] } }

theorem cmdXlateInval_drains (h : XlateForm (c.word 0)) (hd : bit (c.word 0) 16 = true) : s.cmdXlateInval c = s.defer c (xlatDrained s c) :=
  (if_neg (ne_true_of_eq_false (xlateForm_iff.1 h))).trans (if_pos hd)

/-! ### FAULT_RESUME (R94, R98, R107, R236) -/

theorem resumeAll_named {α : Type} {all : Bool} {l : List α} {f : State → α → State} (h : all = true ∨ l ≠ []) :
    s.resumeAll all l f = (State.each l f s).okAns [] := by
  refine if_neg ?_
  rw [Bool.and_eq_true, List.isEmpty_iff, Bool.not_eq_true']
  rintro ⟨hempty, hall⟩
  exact h.elim (fun ha => Bool.false_ne_true (hall.symm.trans ha)) (fun hl => hl hempty)

theorem resumeAll_none {α : Type} {all : Bool} {l : List α} {f : State → α → State} (ha : all = false) (hl : l = []) :
    s.resumeAll all l f = s.noAns Status.badParam := by
  rw [State.resumeAll, ha, hl]
  rfl

variable {ext : List (List Word)}

theorem cmdFaultResume_slots (hf : resumeFormOk c = true) (hk : bits (c.word 0) 13 12 = 0) (hh : s.epbHeld (bits (c.word 0) 7 0) = false) :
    s.cmdFaultResume c ext = s.resumeAll (bit (c.word 0) 17)
      (s.heldSlots (bits (c.word 0) 7 0) (if bit (c.word 0) 17 then none else some (bits (c.word 1) 31 0)))
      (fun s k => s.wakeSlot (bits (c.word 0) 7 0) k (bit (c.word 0) 16)) := by
  simp only [State.cmdFaultResume, hf, hk, hh, Bool.not_true, Bool.false_eq_true, if_false, if_true]

theorem cmdFaultResume_parks (hf : resumeFormOk c = true) (hk : bits (c.word 0) 13 12 = 1) (hh : s.epbHeld (bits (c.word 0) 7 0) = false) :
    s.cmdFaultResume c ext = s.resumeAll (bit (c.word 0) 17)
      (s.heldParks (bits (c.word 0) 7 0) (if bit (c.word 0) 17 then none else some (bits (c.word 1) 37 32, bits (c.word 1) 31 0)))
      (fun s p => if p.mover.ni then s.niResume (bits (c.word 0) 7 0) p (bit (c.word 0) 16) else s.descResume (bits (c.word 0) 7 0) p (bit (c.word 0) 16)) := by
  simp only [State.cmdFaultResume, hf, hk, hh, Bool.not_true, Bool.false_eq_true, if_false, if_true, Nat.one_ne_zero]

theorem cmdFaultResume_threads (hf : resumeFormOk c = true) (hk : bits (c.word 0) 13 12 = 2) (hh : s.clusterHeld (bits (c.word 0) 7 0 / 16) = false) :
    s.cmdFaultResume c ext = s.resumeAll (bit (c.word 0) 17)
      (s.heldThreads (bits (c.word 0) 7 0) (if bit (c.word 0) 17 then none else some (bits (c.word 1) 3 0))).zipIdx
      (fun s x => s.thrResume x.1 (bit (c.word 0) 16) (ext.getD x.2 [])) := by
  have h0 : ¬ (2 : Nat) = 0 := by decide
  have h1 : ¬ (2 : Nat) = 1 := by decide
  simp only [State.cmdFaultResume, hf, hk, hh, Bool.not_true, Bool.false_eq_true, if_false, if_neg h0, if_neg h1]

/-- A row of FAULT_RESUME whose work is the list `l`: with ALL, or where work is named, it is done; where none is named, BAD_PARAM. -/
theorem faultResume_row {α : Type} {all : Bool} {l : List α} {f : State → α → State} (hr : Ready s c 0x0214)
    (h : (taken s c).cmdFaultResume c ext = (taken s c).resumeAll all l f) :
    (all = true ∨ l ≠ [] → exec (.faultResume c ext) s = .next (answered s (State.each l f (taken s c)) c []).settleErr) ∧
      (all = false → l = [] → exec (.faultResume c ext) s = .next (replied s (taken s c) c Status.badParam 0 []).settleErr) := by
  rw [exec_faultResume]
  exact ⟨fun hl => cmdRow_ok hr (opcode_beq hr) (h.trans (resumeAll_named hl)),
    fun ha hl => cmdRow_no hr (opcode_beq hr) (h.trans (resumeAll_none ha hl))⟩

/-! ### RING_FLUSH and RING_CTRL (R123 to R128, R276) -/

section
variable {n r : Nat} (hn : bits (c.word 0) 13 8 = n) (hr : bits (c.word 0) 5 0 = r) (hheld : s.epbHeld n = false)
include hn hr hheld

theorem cmdRingFlush_ok (hz : zeroOutside (c.word 0) [(14, 14), (13, 8), (5, 0)] = true) (hs : s.ringState n r ≠ RingSt.off) :
    s.cmdRingFlush c =
      { st := (s.ringFlush n r (bit (c.word 0) 14) 8).2.2, status := Status.flushed
        results := bytesOfWords [BitVec.ofNat 64 (s.ringTail n r * 2 ^ 32 + (s.ringFlush n r (bit (c.word 0) 14) 8).1 % 2 ^ 32),
          BitVec.ofNat 64 (s.ringFlush n r (bit (c.word 0) 14) 8).2.1] } := by
  simp only [State.cmdRingFlush, hn, hr, hz, hheld, beq_eq_false_iff_ne.2 hs, Bool.not_true, Bool.or_false, Bool.false_eq_true, if_false]

variable (hz : zeroOutside (c.word 0) [(17, 16), (13, 8), (5, 0)] = true)
include hz

theorem cmdRingCtrl_open (ha : bits (c.word 0) 17 16 = 0) : s.cmdRingCtrl c = s.ringOpen n r := by
  simp only [State.cmdRingCtrl, State.ringCtrlOk, hn, hr, hz, hheld, ha, Bool.not_false, Bool.and_self, Bool.not_true, Bool.false_eq_true, if_false, if_true]

theorem cmdRingCtrl_run (ha : bits (c.word 0) 17 16 = 1) : s.cmdRingCtrl c = s.ringRun n r := by
  simp only [State.cmdRingCtrl, State.ringCtrlOk, hn, hr, hz, hheld, ha, Bool.not_false, Bool.and_self, Bool.not_true, Bool.false_eq_true, if_false, if_true,
    Nat.one_ne_zero]

theorem cmdRingCtrl_close (ha : bits (c.word 0) 17 16 = 2) : s.cmdRingCtrl c = s.ringClose n r := by
  have h0 : ¬ (2 : Nat) = 0 := by decide
  have h1 : ¬ (2 : Nat) = 1 := by decide
  simp only [State.cmdRingCtrl, State.ringCtrlOk, hn, hr, hz, hheld, ha, Bool.not_false, Bool.and_self, Bool.not_true, Bool.false_eq_true, if_false, if_true,
    if_neg h0, if_neg h1]

end

variable {n r : Nat}

theorem ringOpen_carrier (h : s.ringCarries n r = true) : s.ringOpen n r = s.noAns Status.busy := by
  simp only [State.ringOpen, h, if_true]

theorem ringOpen_off (h : s.ringCarries n r = false) (hs : s.ringState n r = RingSt.off) (hc : s.ringConfigOk n r = true)
    (he : s.engMinSum n r + s.fget Fld.epbRingCfg_ENG_MIN n r ≤ 8) :
    s.ringOpen n r = ((((((((s.fset Fld.epbRingTail_TAIL n r 0).fset Fld.epbRingLow_LOW n r 0).fset Fld.epbRingFetch_FETCH n r 0).fset
      Fld.epbRingFill_FILL n r 0).epbMod n (fun e => { e with ringDone := tblDel e.ringDone r })).fset Fld.epbRingStat_STATE n r RingSt.run).ringShow n r)).okAns [] := by
  simp only [State.ringOpen, h, hs, hc, if_neg (Nat.not_lt.2 he), Bool.false_eq_true, Bool.true_eq_false, if_false, if_true, ne_eq, not_true_eq_false,
    false_and, and_false]

theorem ringOpen_flushed (h : s.ringCarries n r = false) (hs : s.ringState n r = RingSt.flushed)
    (he : s.engMinSum n r + s.fget Fld.epbRingCfg_ENG_MIN n r ≤ 8) :
    s.ringOpen n r = ((((s.fset Fld.epbRingFill_FILL n r (8 * s.ringTail n r)).fset Fld.epbRingStat_STATE n r
      (if 0 < s.ringParks n r then RingSt.held else RingSt.run)).ringShow n r)).okAns [] := by
  have hoff : RingSt.flushed ≠ RingSt.off := by decide
  simp only [State.ringOpen, h, hs, hoff, if_neg (Nat.not_lt.2 he), Bool.false_eq_true, if_false, ne_eq, not_true_eq_false, false_and, and_false]

theorem ringRun_halted (h : s.ringState n r = RingSt.halted) :
    s.ringRun n r = (s.fset Fld.epbRingStat_STATE n r (if 0 < s.ringParks n r then RingSt.held else RingSt.run)).okAns [] :=
  if_neg (not_not_intro h)

theorem ringClose_idle (h : s.ringState n r ≠ RingSt.off) (hu : s.ringUse n r + s.ringParks n r + s.ringResumes n r = 0) :
    s.ringClose n r = ((s.fset Fld.epbRingStat_STATE n r RingSt.off).ringShow n r).okAns [] :=
  (if_neg h).trans (if_neg (Nat.not_lt.2 (Nat.le_of_eq hu)))

theorem ringClose_busy (h : s.ringState n r ≠ RingSt.off) (hu : 0 < s.ringUse n r + s.ringParks n r + s.ringResumes n r) :
    s.ringClose n r = s.noAns Status.busy :=
  (if_neg h).trans (if_pos hu)

/-! ### REG_WRITE (R416) -/

theorem firstFail_none {t : State} {l : List (RegAt × Word)} (h : ∀ e ∈ l, s.regCheck t e.1 e.2 = Status.ok) : s.firstFail t l = none := by
  induction l with
  | nil => rfl
  | cons e l ih =>
    obtain ⟨he, hl⟩ := List.forall_mem_cons.1 h
    exact (if_pos he).trans (ih hl)

/-- The first register that fails its check is the one named. -/
theorem firstFail_split {t : State} {pre post : List (RegAt × Word)} {e : RegAt × Word} (hpre : ∀ x ∈ pre, s.regCheck t x.1 x.2 = Status.ok)
    (he : s.regCheck t e.1 e.2 ≠ Status.ok) : s.firstFail t (pre ++ e :: post) = some (s.regCheck t e.1 e.2, regAddr e.1.reg e.1.i e.1.j) := by
  induction pre with
  | nil => exact if_neg he
  | cons x pre ih =>
    obtain ⟨hx, hl⟩ := List.forall_mem_cons.1 hpre
    exact (if_pos hx).trans (ih hl)

theorem cmdRegWrite_outside (h : regWriteList c = none) : s.cmdRegWrite c = s.noAns Status.badParam := by
  simp only [State.cmdRegWrite, h]

theorem cmdRegWrite_applies {l : List (RegAt × Word)} (h : regWriteList c = some l) (hf : s.firstFail (s.regsAfter l) l = none) :
    s.cmdRegWrite c = (State.each l (fun s e => s.regApply e.1 e.2) s).okAns [] := by
  simp only [State.cmdRegWrite, h, hf]
  rfl

theorem cmdRegWrite_fails {l : List (RegAt × Word)} {status addr : Nat} (h : regWriteList c = some l)
    (hf : s.firstFail (s.regsAfter l) l = some (status, addr)) :
    s.cmdRegWrite c = { st := s, status := status, results := bytesOfWords [BitVec.ofNat 64 addr] } := by
  simp only [State.cmdRegWrite, h, hf]

/-! ### SPN_PROG_LOAD (R233) and SPN_THREAD (R235) -/

/-- An address in the pool of this GX3200. -/
def PoolAddr (s : State) (a : Nat) : Prop := gfaXyp a = s.xyp ∧ 112 ≤ gfaE a ∧ gfaE a ≤ 119

/-- What R233 asks of an SPN_PROG_LOAD: clusters are named, and the image has a good length and lies in the pool. -/
def ProgForm (s : State) (c : Cmd) : Prop :=
  zeroOutside (c.word 0) [(15, 0)] = true ∧ setBitsOf (c.word 0) 16 ≠ [] ∧ 0 < (c.word 2).toNat ∧ (c.word 2).toNat ≤ 262144 ∧ (c.word 2).toNat % 8 = 0 ∧
    PoolAddr s (c.word 1).toNat ∧ PoolAddr s ((c.word 1).toNat + (c.word 2).toNat - 1)

theorem cmdProgLoad_form (h : ProgForm s c) : s.cmdProgLoad c =
    if (setBitsOf (c.word 0) 16).any s.clusterBusy then s.noAns Status.busy
    else s.defer c (fun n u =>
      { u with spn := { u.spn with loads := u.spn.loads ++ [{ ticket := n, cmask := (c.word 0).toNat, src := (c.word 1).toNat, len := (c.word 2).toNat }] } }) := by
  obtain ⟨hz, hcs, hpos, hmax, hmod, ⟨hx, hlo, hhi⟩, hx2, hlo2, hhi2⟩ := h
  have hcs' : (setBitsOf (c.word 0) 16).isEmpty = false := by rwa [← Bool.not_eq_true, List.isEmpty_iff]
  have hpos' : ((c.word 2).toNat == 0) = false := beq_eq_false_iff_ne.2 (Nat.ne_of_gt hpos)
  have hmax' : decide (262144 < (c.word 2).toNat) = false := decide_eq_false (Nat.not_lt.2 hmax)
  simp only [State.cmdProgLoad, hz, hcs', hpos', hmax', hmod, hx, hlo, hhi, hx2, hlo2, hhi2, bne_self_eq_false, beq_self_eq_true, decide_true, Bool.and_self,
    Bool.not_true, Bool.or_self, Bool.false_eq_true, if_false]

/-- Each row of SPN_THREAD answers the status of the checks that every ACTION shares. -/
theorem cmdThread_checked {status : Nat} (h : s.threadCheck c = status) (hs : status ≠ Status.ok) :
    s.cmdThreadStart c = s.noAns status ∧ s.cmdThreadStop c = s.noAns status ∧ s.cmdThreadSetrole c = s.noAns status := by
  subst h
  exact ⟨if_pos hs, if_pos hs, if_pos hs⟩

theorem cmdThreadStart_ok (h : s.threadCheck c = Status.ok) (hs : s.startCheck c = Status.ok) :
    s.cmdThreadStart c = (State.each (threadsOf c) (fun s q => s.thrStart c q) s).okAns [] :=
  (if_neg (not_not_intro h)).trans (if_neg (not_not_intro hs))

theorem cmdThreadStop_ok (h : s.threadCheck c = Status.ok) : s.cmdThreadStop c = (State.each (threadsOf c) State.thrStop s).okAns [] :=
  if_neg (not_not_intro h)

theorem cmdThreadSetrole_ok (h : s.threadCheck c = Status.ok) : s.cmdThreadSetrole c =
    (State.each (threadsOf c) (fun s q => (s.thrStop q).thrSet Fld.spnThrW0_ROLE q (bits (c.word 0) 55 48)) s).okAns [] :=
  if_neg (not_not_intro h)

end

end Sys2Proof.Machine

namespace Sys2Proof.Claims
open Sys2Proof Sys2Proof.Machine

/-- Settles O10: with DRAIN the same clearing is the work of a ticket. -/
theorem xlateInvalDropsTheSpace : Obligations.XlateInvalDropsTheSpace := by
  unfold Obligations.XlateInvalDropsTheSpace
  intro s c hr t good
  rw [exec_xlateInval]
  exact ⟨fun h => cmdRow_no hr (opcode_beq hr) (cmdXlateInval_badForm h),
    fun h hd => cmdRow_ok hr (opcode_beq hr) (cmdXlateInval_atOnce h hd),
    fun k h hd hk => cmdRow_accepted hr (opcode_beq hr) hk (cmdXlateInval_drains h hd)⟩

/-- Settles O11: each KIND gives the list of the work that is named. -/
theorem faultResumeTakesTheWorkNamed : Obligations.FaultResumeTakesTheWorkNamed := by
  unfold Obligations.FaultResumeTakesTheWorkNamed
  intro s c ext hr hf t u all abort
  refine ⟨fun hk hh => ?slots, fun hk hh => ?parks, fun hk hh => ?threads⟩
  case slots => exact faultResume_row hr (cmdFaultResume_slots hf hk hh)
  case parks => exact faultResume_row hr (cmdFaultResume_parks hf hk hh)
  case threads =>
    intro l
    have hzip : l.zipIdx = [] ↔ l = [] := List.zipIdx_eq_nil_iff
    have h := faultResume_row hr (cmdFaultResume_threads (ext := ext) hf hk hh)
    exact ⟨fun hl => h.1 (hl.imp_right (mt hzip.1)), fun ha hl => h.2 ha (hzip.2 hl)⟩

/-- Settles O12: each command and ACTION by the ring's state. -/
theorem ringCommandsMoveTheRing : Obligations.RingCommandsMoveTheRing := by
  unfold Obligations.RingCommandsMoveTheRing
  intro s c n r hn hr hheld t resumed zero
  refine ⟨fun hready hz hs => ?flush, fun hready hz => ?ctrl⟩
  case flush =>
    rw [exec_ringFlush]
    exact cmdRow_answers s c _ _ _ _ _ 0 _ hready (opcode_beq hready) (cmdRingFlush_ok hn hr hheld hz hs)
  case ctrl =>
    rw [exec_ringCtrlOpen, exec_ringCtrlRun, exec_ringCtrlClose]
    have hmine {a : Nat} (ha : bits (c.word 0) 17 16 = a) : (c.opcode == 0x0221 && bits (c.word 0) 17 16 == a) = true :=
      mine_of hready (beq_iff_eq.2 ha)
    have hopen := cmdRingCtrl_open hn hr hheld hz
    have hclose := cmdRingCtrl_close hn hr hheld hz
    exact ⟨fun ha hcar => cmdRow_no hready (hmine ha) ((hopen ha).trans (ringOpen_carrier hcar)),
      fun ha hcar hs hcfg hmin => cmdRow_ok hready (hmine ha) ((hopen ha).trans (ringOpen_off hcar hs hcfg hmin)),
      fun ha hcar hs hmin => cmdRow_ok hready (hmine ha) ((hopen ha).trans (ringOpen_flushed hcar hs hmin)),
      fun ha hs => cmdRow_ok hready (hmine ha) ((cmdRingCtrl_run hn hr hheld hz ha).trans (ringRun_halted hs)),
      fun ha hs hu => cmdRow_ok hready (hmine ha) ((hclose ha).trans (ringClose_idle hs hu)),
      fun ha hs hu => cmdRow_no hready (hmine ha) ((hclose ha).trans (ringClose_busy hs hu))⟩

/-- Settles O13: the first failing register, if there is one, decides. -/
theorem regWriteAppliesAllOrNothing : Obligations.RegWriteAppliesAllOrNothing := by
  unfold Obligations.RegWriteAppliesAllOrNothing
  intro s c hr t
  rw [exec_regWrite]
  refine ⟨fun h => cmdRow_no hr (opcode_beq hr) (cmdRegWrite_outside h), fun l hl => ⟨fun hall => ?_, fun pre e post hsplit hpre he => ?_⟩⟩
  · exact cmdRow_ok hr (opcode_beq hr) (cmdRegWrite_applies hl (firstFail_none hall))
  · refine cmdRow_answers s c _ _ _ _ _ 0 _ hr (opcode_beq hr) (cmdRegWrite_fails hl ?_)
    exact (congrArg (State.firstFail _ _) hsplit).trans (firstFail_split hpre he)

/-- Settles O14: SPN_PROG_LOAD by whether a cluster named is busy, SPN_THREAD by its checks. -/
theorem spindleCommandsLoadStartStop : Obligations.SpindleCommandsLoadStartStop := by
  unfold Obligations.SpindleCommandsLoadStartStop
  intro s c t
  have hmine {a : Nat} (hr : Ready s c 0x0241) (ha : bits (c.word 0) 47 46 = a) : (c.opcode == 0x0241 && bits (c.word 0) 47 46 == a) = true :=
    mine_of hr (beq_iff_eq.2 ha)
  rw [exec_spnThreadStart, exec_spnThreadStop, exec_spnThreadSetrole]
  refine ⟨?load, ?stale, fun hr ha h hs => cmdRow_ok hr (hmine hr ha) (cmdThreadStart_ok h hs), fun hr ha h => cmdRow_ok hr (hmine hr ha) (cmdThreadStop_ok h),
    fun hr ha h => cmdRow_ok hr (hmine hr ha) (cmdThreadSetrole_ok h)⟩
  case load =>
    rintro k src len hr hz hcs rfl rfl hpos hmax hmod hx hlo hhi hx2 hlo2 hhi2 hk
    have hform := cmdProgLoad_form (s := t) ⟨hz, hcs, hpos, hmax, hmod, ⟨hx, hlo, hhi⟩, hx2, hlo2, hhi2⟩
    rw [exec_spnProgLoad]
    refine ⟨fun hidle => cmdRow_accepted hr (opcode_beq hr) hk (hform.trans (if_neg ?_)), fun hbusy => cmdRow_no hr (opcode_beq hr) (hform.trans (if_pos ?_))⟩
    · rw [Bool.not_eq_true, List.any_eq_false]
      exact fun x hx => ne_true_of_eq_false (hidle x hx)
    · exact List.any_eq_true.2 hbusy
  case stale =>
    intro a i hr ha hi h
    obtain ⟨hstart, hstop, hset⟩ := cmdThread_checked h (by decide)
    obtain ⟨rfl, rfl⟩ | ⟨rfl, rfl⟩ | ⟨rfl, rfl⟩ := hi
    · exact (exec_spnThreadStart s c).trans (cmdRow_no hr (hmine hr ha) hstart)
    · exact (exec_spnThreadStop s c).trans (cmdRow_no hr (hmine hr ha) hstop)
    · exact (exec_spnThreadSetrole s c).trans (cmdRow_no hr (hmine hr ha) hset)

end Sys2Proof.Claims
end

section
/-! PROOFS. Deferred commands, Rick commands and streams, and COPPICE_CTRL (R297, R315 to R318, R322, R369, R378, R383, R448, R467, R474, R482, R493, R523,
R524): each is accepted with its work, or answered. -/

namespace Sys2Proof.Machine
open Sys2Proof Sys2Proof.Claims

/-! ### The rows -/

theorem exec_resetUnitPulse (s : State) (c : Cmd) :
    exec (.resetUnitPulse c) s = s.cmdRow c (c.opcode == 0x0100 && bits (c.word 0) 21 20 == 0) State.cmdResetUnit := rfl
theorem exec_resetUnitAssert (s : State) (c : Cmd) :
    exec (.resetUnitAssert c) s = s.cmdRow c (c.opcode == 0x0100 && bits (c.word 0) 21 20 == 1) State.cmdResetUnit := rfl
theorem exec_resetUnitRelease (s : State) (c : Cmd) :
    exec (.resetUnitRelease c) s = s.cmdRow c (c.opcode == 0x0100 && bits (c.word 0) 21 20 == 2) State.cmdResetUnit := rfl
theorem exec_rickWrite (s : State) (c : Cmd) : exec (.rickWrite c) s = s.cmdRow c (c.opcode == 0x0260) State.cmdRickWrite := rfl
theorem exec_rickSeal (s : State) (c : Cmd) : exec (.rickSeal c) s = s.cmdRow c (c.opcode == 0x0261) State.cmdRickSeal := rfl
theorem exec_rickRead (s : State) (c : Cmd) : exec (.rickRead c) s = s.cmdRow c (c.opcode == 0x0262) State.cmdRickRead := rfl
theorem exec_rickDelete (s : State) (c : Cmd) : exec (.rickDelete c) s = s.cmdRow c (c.opcode == 0x0263) State.cmdRickDelete := rfl
theorem exec_rsvStreamStart (s : State) (c : Cmd) :
    exec (.rsvStreamStart c) s = s.cmdRow c (c.opcode == 0x0264 && bits (c.word 0) 59 58 == 0) State.cmdStreamStart := rfl
theorem exec_rsvStreamStop (s : State) (c : Cmd) :
    exec (.rsvStreamStop c) s = s.cmdRow c (c.opcode == 0x0264 && bits (c.word 0) 59 58 == 1) State.cmdStreamStop := rfl
theorem exec_hbmRegionSet (s : State) (c : Cmd) : exec (.hbmRegionSet c) s = s.cmdRow c (c.opcode == 0x0250) State.cmdRegionSet := rfl
theorem exec_optSearch (s : State) (c : Cmd) : exec (.optSearch c) s = s.cmdRow c (c.opcode == 0x0270) State.cmdOptSearch := rfl
theorem exec_klnSpdm (s : State) (c : Cmd) : exec (.klnSpdm c) s = s.cmdRow c (c.opcode == 0x0280) State.cmdKlnSpdm := rfl
theorem exec_klnUnbind (s : State) (c : Cmd) : exec (.klnUnbind c) s = s.cmdRow c (c.opcode == 0x0281) State.cmdKlnUnbind := rfl
theorem exec_pwrSet (s : State) (c : Cmd) : exec (.pwrSet c) s = s.cmdRow c (c.opcode == 0x0300) State.cmdPwrSet := rfl
theorem exec_sbdXfer (s : State) (c : Cmd) : exec (.sbdXfer c) s = s.cmdRow c (c.opcode == 0x0320) State.cmdSbdXfer := rfl
theorem exec_crcFeed (s : State) (c : Cmd) : exec (.crcFeed c) s = s.cmdRow c (c.opcode == 0x0311) State.cmdCrcFeed := rfl
theorem exec_coppiceCtrlOff (s : State) (c : Cmd) :
    exec (.coppiceCtrlOff c) s = s.cmdRow c (c.opcode == 0x02A0 && bits (c.word 2) 1 0 == 0) State.cmdCoppice := rfl
theorem exec_coppiceCtrlSource (s : State) (c : Cmd) :
    exec (.coppiceCtrlSource c) s = s.cmdRow c (c.opcode == 0x02A0 && bits (c.word 2) 1 0 == 1) State.cmdCoppice := rfl
theorem exec_coppiceCtrlShadow (s : State) (c : Cmd) :
    exec (.coppiceCtrlShadow c) s = s.cmdRow c (c.opcode == 0x02A0 && bits (c.word 2) 1 0 == 2) State.cmdCoppice := rfl
theorem exec_coppiceCtrlPromote (s : State) (c : Cmd) :
    exec (.coppiceCtrlPromote c) s = s.cmdRow c (c.opcode == 0x02A0 && bits (c.word 2) 1 0 == 3) State.cmdCoppice := rfl

section
variable {s : State} {c : Cmd} {k : Nat}

/-! ### RESET_UNIT (R467, R474) -/

section
variable {u : RUnit} (hz : zeroOutside (c.word 0) [(21, 0)] = true) (hu : resetUnit (bits (c.word 0) 3 0) (bits (c.word 0) 19 4) = some u)
include hz hu

theorem cmdResetUnit_pulse (ha : bits (c.word 0) 21 20 = 0) : s.cmdResetUnit c = s.cmdResetPulse c u := by
  simp only [State.cmdResetUnit, resetCmdUnit, resetAction, hu, hz, ha]
  rfl

theorem cmdResetUnit_assert (ha : bits (c.word 0) 21 20 = 1) (hd : u ≠ .device) : s.cmdResetUnit c = s.cmdResetAssert c u := by
  simp only [State.cmdResetUnit, resetCmdUnit, resetAction, hu, hz, ha, beq_eq_false_iff_ne.2 hd]
  rfl

theorem cmdResetUnit_release (ha : bits (c.word 0) 21 20 = 2) (hd : u ≠ .device) : s.cmdResetUnit c = s.cmdResetRelease c u := by
  simp only [State.cmdResetUnit, resetCmdUnit, resetAction, hu, hz, ha, beq_eq_false_iff_ne.2 hd]
  rfl

end

variable {u : RUnit}

theorem perstNow_device : s.perstNow .device = false := rfl

theorem cmdResetPulse_joins (h : s.perstNow u = true) : s.cmdResetPulse c u = s.defer c (fun n v =>
    { v with boot := { v.boot with held := tblMod {} v.boot.held u.num (fun x => { x with ticket := some n }) } }) := if_pos h

theorem cmdResetPulse_busy (h : s.perstNow u = false) (hb : s.resetBusy u = true) : s.cmdResetPulse c u = s.noAns Status.busy :=
  (if_neg (ne_true_of_eq_false h)).trans (if_pos hb)

theorem cmdResetPulse_unit (hd : u ≠ .device) (h : s.perstNow u = false) (hb : s.resetBusy u = false) :
    s.cmdResetPulse c u = s.defer c (fun n v => ((v.winClear u.key.1 u.key.2).unitReset u 0 (some n)).settleErr) :=
  (if_neg (ne_true_of_eq_false h)).trans ((if_neg (ne_true_of_eq_false hb)).trans (if_neg hd))

theorem cmdResetPulse_device (hk : s.ticketSlot = some k) (hb : s.resetBusy .device = false) :
    s.cmdResetPulse c .device =
      { st := (s.ticketNew k c).2, status := Status.accepted, ticket := (s.ticketNew k c).1, after := State.warmReset } := by
  simp only [State.cmdResetPulse, perstNow_device, hb, defer_of_slot hk, Bool.false_eq_true, if_false, if_true]

theorem cmdResetAssert_busy (hb : s.resetBusy u = true) : s.cmdResetAssert c u = s.noAns Status.busy := if_pos hb

theorem cmdResetAssert_holds (hk : s.ticketSlot = some k) (hb : s.resetBusy u = false) :
    s.cmdResetAssert c u =
      { st := (((s.ticketNew k c).2.winClear u.key.1 u.key.2).unitReset u 1 none).settleErr, status := Status.accepted, ticket := (s.ticketNew k c).1
        after := fun v => v.completeTicket (s.ticketNew k c).1 Status.ok [] } := by
  simp only [State.cmdResetAssert, hb, defer_of_slot hk, Bool.false_eq_true, if_false, if_true]
  rfl

theorem cmdResetRelease_notHeld (h : s.unitHeld u = false) : s.cmdResetRelease c u = s.noAns Status.badParam := by
  simp only [State.cmdResetRelease, h, Bool.not_false, if_true]

theorem cmdResetRelease_held (h : s.unitHeld u = true) : s.cmdResetRelease c u = s.defer c (fun n v =>
    { v with boot := { v.boot with held := tblMod {} v.boot.held u.num (fun h => { h with how := 0, ticket := some n }) } }) := by
  simp only [State.cmdResetRelease, h, Bool.not_true, Bool.false_eq_true, if_false]

/-! ### Rick commands (R315 to R318) -/

theorem rickAnswer_unbound {ok busy quota : Bool} {begin_ : State → State} (hr : s.rickState ≠ Rick.recovering) (hb : s.bound = false) :
    s.rickAnswer c ok busy quota begin_ = s.noAns Status.notBound := by
  simp only [State.rickAnswer, beq_eq_false_iff_ne.2 hr, hb, Bool.not_false, Bool.false_eq_true, if_false, if_true]

/-- A Rick command that may begin waits among the Rick's commands. -/
theorem rickAnswer_begins {begin_ : State → State} (h : RickFree s c) :
    s.rickAnswer c true false false begin_ = s.defer c (fun n u => begin_ (rickBegun c n u)) := by
  obtain ⟨hb, hobj, hrun⟩ := h
  simp only [State.rickAnswer, hb, hobj, hrun]
  rfl

/-! ### RSV_STREAM (R322) -/

theorem cmdStreamStart_notBound (hr : s.rickState ≠ Rick.recovering) (hb : s.fget Fld.klnState_BSTATE ≠ 2) :
    s.cmdStreamStart c = s.noAns Status.notBound := (if_neg hr).trans (if_pos hb)

theorem cmdStreamStart_starts (hb : s.fget Fld.klnState_BSTATE = 2) (hs : s.strmState (strmOf c) = 0) (hr : s.rickState = Rick.run)
    (hok : s.streamOk c = true) : s.cmdStreamStart c =
      (((s.strmPut (strmOf c) { words := (List.range 5).map c.word, run := (s.strm (strmOf c)).run + 1 }).wr .rsvStrStat (strmOf c) 0
        (BitVec.ofNat 64 (2 ^ 61))).wr .rsvStrCfg (strmOf c) 0
        (BitVec.ofNat 64 (bits (c.word 1) 63 52 * 2 ^ 52 + bits (c.word 1) 51 32 * 2 ^ 32 + bits (c.word 0) 31 0))).okAns [] := by
  have hrec : Rick.run ≠ Rick.recovering := by decide
  simp only [State.cmdStreamStart, hb, hs, hr, hok, hrec, ne_eq, not_true_eq_false, or_self, Bool.true_eq_false, if_false]

theorem cmdStreamStop_failed (h : s.strmState (strmOf c) = 3) : s.cmdStreamStop c =
    ((s.unpin (fun p => p.strm == strmOf c)).fset Fld.rsvStrStat_STATE (strmOf c) 0 0).rsvRetry.okAns [] :=
  congrArg (State.okAns · []) (if_pos h)

theorem cmdStreamStop_stops (h : s.strmState (strmOf c) ≠ 3) : s.cmdStreamStop c = (s.streamStop (strmOf c)).okAns [] :=
  congrArg (State.okAns · []) (if_neg h)

/-! ### The other deferred commands -/

theorem cmdRegionSet_begins (hk : s.ticketSlot = some k) (hok : regionOk c = true) (hb : s.regionBusy c = false) :
    s.cmdRegionSet c =
      { st := State.each (regionStacks c) (fun v x => v.regionBegin (regionSizes c) (s.ticketNew k c).1 x) (s.ticketNew k c).2, status := Status.accepted
        ticket := (s.ticketNew k c).1, after := fun v => State.each (regionStacks c) State.regionTry v } := by
  simp only [State.cmdRegionSet, hok, hb, defer_of_slot hk, Bool.not_true, Bool.false_eq_true, if_false, if_true]

theorem cmdOptSearch_begins (hz : zeroOutside (c.word 0) [(36, 32), (4, 0)] = true) (hm : bits (c.word 0) 36 32 ≠ 0)
    (hb : s.groupSearching (bits (c.word 0) 4 0) = false) :
    s.cmdOptSearch c = s.defer c (fun n u => u.optSearch (bits (c.word 0) 4 0) (bits (c.word 0) 36 32) n) := by
  simp only [State.cmdOptSearch, hz, hb, beq_eq_false_iff_ne.2 hm, Bool.not_true, Bool.or_self, Bool.false_eq_true, if_false]

/-- The ticket of a command changes no register, so it leaves the binding as it is. -/
theorem ticketNew_bstate (k : Nat) : (s.ticketNew k c).2.bstate = s.bstate := rfl

theorem cmdKlnUnbind_waits (hk : s.ticketSlot = some k) (hb : s.bstate = Bind.unbinding) :
    s.cmdKlnUnbind c =
      { st := { (s.ticketNew k c).2 with kln := { (s.ticketNew k c).2.kln with unbinds := (s.ticketNew k c).2.kln.unbinds ++ [(s.ticketNew k c).1] } }
        status := Status.accepted, ticket := (s.ticketNew k c).1 } := by
  simp only [State.cmdKlnUnbind, defer_of_slot hk, ticketNew_bstate, hb, if_true]

theorem cmdKlnUnbind_begins (hk : s.ticketSlot = some k) (hb : s.bstate ≠ Bind.unbinding) :
    s.cmdKlnUnbind c =
      { st := ({ (s.ticketNew k c).2 with kln := { (s.ticketNew k c).2.kln with
          unbinds := (s.ticketNew k c).2.kln.unbinds ++ [(s.ticketNew k c).1] } } : State).unbindBegin.settleErr
        status := Status.accepted, ticket := (s.ticketNew k c).1 } := by
  simp only [State.cmdKlnUnbind, defer_of_slot hk, ticketNew_bstate, hb, if_false]

theorem cmdPwrSet_sets (hk : s.ticketSlot = some k) (hz : zeroOutside (c.word 0) [(49, 0)] = true) (hz1 : zeroOutside (c.word 1) [(2, 0)] = true)
    (hd : setBitsOf (c.word 0) 50 ≠ []) (hlim : ∀ d ∈ setBitsOf (c.word 0) 50, bits (c.word 1) 1 0 ≤ domLimit d) :
    s.cmdPwrSet c = { st := powerSet c (s.ticketNew k c).1 (s.ticketNew k c).2, status := Status.accepted, ticket := (s.ticketNew k c).1
                      after := State.pwrSettle } := by
  have hd' : (setBitsOf (c.word 0) 50).isEmpty = false := by rwa [← Bool.not_eq_true, List.isEmpty_iff]
  have hlim' : (setBitsOf (c.word 0) 50).any (fun d => decide (domLimit d < bits (c.word 1) 1 0)) = false :=
    List.any_eq_false.2 fun d hd => by rw [decide_eq_true_eq]; exact Nat.not_lt.2 (hlim d hd)
  simp only [State.cmdPwrSet, hz, hz1, hd', hlim', defer_of_slot hk, Bool.not_true, Bool.or_self, Bool.false_eq_true, if_false]
  rfl

theorem cmdSbdXfer_waits (hz : zeroOutside (c.word 0) [(31, 24), (23, 16), (8, 8), (6, 0)] = true)
    (hpos : 0 < bits (c.word 0) 23 16 + bits (c.word 0) 31 24) (hp : c.plen = 8 + bits (c.word 0) 23 16) (hb : s.busDown = false) :
    s.cmdSbdXfer c = s.defer c (fun n u => { u with sbd := { u.sbd with xfers := u.sbd.xfers ++
      [{ ticket := n, addr := bits (c.word 0) 6 0, pec := bit (c.word 0) 8, data := (c.params.drop 8).take (bits (c.word 0) 23 16)
         rlen := bits (c.word 0) 31 24 }] } }) := by
  have hpos' : (bits (c.word 0) 23 16 + bits (c.word 0) 31 24 == 0) = false := beq_eq_false_iff_ne.2 (Nat.ne_of_gt hpos)
  simp only [State.cmdSbdXfer, hz, hpos', hp, hb, bne_self_eq_false, Bool.not_true, Bool.or_self, Bool.false_eq_true, if_false]

theorem cmdCrcFeed_claims (hz : zeroOutside (c.word 0) [(8, 8), (3, 0)] = true) (hz2 : zeroOutside (c.word 2) [(32, 0)] = true)
    (hlo : 1 ≤ bits (c.word 2) 32 0) (hhi : bits (c.word 2) 32 0 ≤ 2 ^ 32) (hpool : s.inPool (c.word 1).toNat (bits (c.word 2) 32 0) = true)
    (hbound : s.bound = true → gfaOff (c.word 1).toNat < 2 ^ 32) (hfree : s.crcFree (bits (c.word 0) 3 0) = true) :
    s.cmdCrcFeed c = s.defer c (fun n u =>
      let v := u.crcClaim (bits (c.word 0) 3 0) 2 0 0 (bit (c.word 0) 8)
      { v with crc := { v.crc with feeds := tblPut v.crc.feeds (bits (c.word 0) 3 0) { ticket := n, addr := (c.word 1).toNat, left := bits (c.word 2) 32 0 } } }) := by
  have hpos : (bits (c.word 2) 32 0 == 0) = false := beq_eq_false_iff_ne.2 (Nat.ne_of_gt hlo)
  have hmax : decide (2 ^ 32 < bits (c.word 2) 32 0) = false := decide_eq_false (Nat.not_lt.2 hhi)
  have hreach : (s.bound && decide (2 ^ 32 ≤ gfaOff (c.word 1).toNat)) = false := by
    simpa only [Bool.and_eq_false_imp, decide_eq_false_iff_not, Nat.not_le] using hbound
  simp only [State.cmdCrcFeed, hz, hz2, hpos, hmax, hpool, hreach, hfree, Bool.not_true, Bool.or_self, Bool.false_eq_true, if_false]

/-! ### COPPICE_CTRL (R523, R524) -/

/-- What R524 asks of a COPPICE_CTRL in a state: a tenant is bound, and no reserved bit is set. -/
structure CoppiceForm (s : State) (c : Cmd) : Prop where
  bound : s.bound = true
  word0 : zeroOutside (c.word 0) [(17, 17), (15, 0)] = true
  word1 : zeroOutside (c.word 1) [(11, 8), (6, 0)] = true
  word2 : zeroOutside (c.word 2) [(1, 0)] = true

/-- CLEAR sets the counts and the sum to 0. -/
def coppiceCleared (c : Cmd) (u : State) : State := if bit (c.word 0) 17 then u.copClear else u

/-- A COPPICE_CTRL of a good form whose transition is listed, and whose channel, link and threads are free for it, is accepted. -/
theorem cmdCoppice_accepted {m a : Nat} (hf : CoppiceForm s c) (hk : s.ticketSlot = some k) (hm : s.fget Fld.hubCoppiceCtrl_MODE = m)
    (ha : bits (c.word 2) 1 0 = a) (hmask : (bits (c.word 0) 15 0 == 0 && (a == 1 || a == 2)) = false) (hlisted : copListed m a = true)
    (hthreads : (m == 2 && a == 0 && s.copThreads (s.fget Fld.hubCoppiceCtrl_CMASK)) = false)
    (hbusy : (m == 0 && (a == 1 || a == 2) && !s.crcFree (bits (c.word 1) 11 8) || m == 2 && (a == 0 || a == 3) && !s.copLinkDown) = false) :
    s.cmdCoppice c =
      { st := (coppiceCleared c (s.ticketNew k c).2).copAct m a (bits (c.word 0) 15 0) (bits (c.word 1) 11 8) (bits (c.word 1) 6 0) (s.ticketNew k c).1
        status := Status.accepted, ticket := (s.ticketNew k c).1
        after := fun v => if m = 1 ∧ a = 0 then v else v.completeTicket (s.ticketNew k c).1 Status.ok [] } := by
  obtain ⟨hb, h0, h1, h2⟩ := hf
  simp only [State.cmdCoppice, hb, h0, h1, h2, hk, hm, ha, hmask, hlisted, hthreads, hbusy, Bool.not_true, Bool.or_self, Bool.false_eq_true, if_false]
  rfl

/-- From mode NONE, SOURCE and SHADOW are entered. -/
theorem copAct_enters {a cmask ch link n : Nat} (ha : a ≠ 0) : s.copAct 0 a cmask ch link n = s.copEnter a cmask ch link :=
  (if_neg (fun h => absurd h.1 (by decide))).trans ((if_neg ha.symm).trans (if_pos rfl))

/-- From mode SHADOW, OFF and PROMOTE leave. -/
theorem copAct_leaves {a cmask ch link n : Nat} (ha : 2 ≠ a) : s.copAct 2 a cmask ch link n = s.copLeave :=
  (if_neg (fun h => absurd h.1 (by decide))).trans ((if_neg ha).trans (if_neg (by decide)))

/-- The answer of a COPPICE_CTRL that completes at once. -/
theorem coppice_completes {m a : Nat} {u : State} {n : Nat} (h : ¬ (m = 1 ∧ a = 0)) :
    ({ st := u, status := Status.accepted, ticket := n, after := fun v => if m = 1 ∧ a = 0 then v else v.completeTicket n Status.ok [] } : Ans) =
      { st := u, status := Status.accepted, ticket := n, after := fun v => v.completeTicket n Status.ok [] } := by
  simp only [if_neg h]

/-- SOURCE or SHADOW is entered from NONE, and the command completes at once. -/
theorem cmdCoppice_enters {a : Nat} (hf : CoppiceForm s c) (hk : s.ticketSlot = some k) (hm : s.fget Fld.hubCoppiceCtrl_MODE = 0)
    (ha : bits (c.word 2) 1 0 = a) (hmode : a = 1 ∨ a = 2) (hmask : bits (c.word 0) 15 0 ≠ 0) (hfree : s.crcFree (bits (c.word 1) 11 8) = true) :
    s.cmdCoppice c =
      { st := (coppiceCleared c (s.ticketNew k c).2).copEnter a (bits (c.word 0) 15 0) (bits (c.word 1) 11 8) (bits (c.word 1) 6 0)
        status := Status.accepted, ticket := (s.ticketNew k c).1, after := fun v => v.completeTicket (s.ticketNew k c).1 Status.ok [] } := by
  have ha0 : a ≠ 0 := by omega
  have hlisted : copListed 0 a = true := by obtain rfl | rfl := hmode <;> rfl
  rw [cmdCoppice_accepted hf hk hm ha (by rw [beq_eq_false_iff_ne.2 hmask]; rfl) hlisted rfl (by rw [hfree]; simp), copAct_enters ha0,
    coppice_completes (fun h => ha0 h.2)]

/-- SHADOW is left by OFF, with its threads idle, or by PROMOTE, with the link down, and the command completes at once. -/
theorem cmdCoppice_leaves {a : Nat} (hf : CoppiceForm s c) (hk : s.ticketSlot = some k) (hm : s.fget Fld.hubCoppiceCtrl_MODE = 2)
    (ha : bits (c.word 2) 1 0 = a) (hmode : a = 0 ∧ s.copThreads (s.fget Fld.hubCoppiceCtrl_CMASK) = false ∨ a = 3) (hdown : s.copLinkDown = true) :
    s.cmdCoppice c =
      { st := (coppiceCleared c (s.ticketNew k c).2).copLeave
        status := Status.accepted, ticket := (s.ticketNew k c).1, after := fun v => v.completeTicket (s.ticketNew k c).1 Status.ok [] } := by
  have ha2 : 2 ≠ a := by omega
  have hmask : (a == 1 || a == 2) = false := by obtain ⟨rfl, -⟩ | rfl := hmode <;> rfl
  have hlisted : copListed 2 a = true := by obtain ⟨rfl, -⟩ | rfl := hmode <;> rfl
  have hthreads : (2 == 2 && a == 0 && s.copThreads (s.fget Fld.hubCoppiceCtrl_CMASK)) = false := by
    obtain ⟨-, h⟩ | rfl := hmode
    · rw [h, Bool.and_false]
    · rfl
  rw [cmdCoppice_accepted hf hk hm ha (by rw [hmask, Bool.and_false]) hlisted hthreads (by rw [hdown]; simp), copAct_leaves ha2,
    coppice_completes (fun h => absurd h.1 (by decide))]

/-- SOURCE is left at once, and the completion waits for the copies. -/
theorem cmdCoppice_leavesSource (hf : CoppiceForm s c) (hk : s.ticketSlot = some k) (hm : s.fget Fld.hubCoppiceCtrl_MODE = 1)
    (ha : bits (c.word 2) 1 0 = 0) :
    s.cmdCoppice c =
      { st := (coppiceCleared c (s.ticketNew k c).2).copAct 1 0 (bits (c.word 0) 15 0) (bits (c.word 1) 11 8) (bits (c.word 1) 6 0) (s.ticketNew k c).1
        status := Status.accepted, ticket := (s.ticketNew k c).1 } :=
  cmdCoppice_accepted hf hk hm ha (Bool.and_false _) rfl rfl rfl

end

end Sys2Proof.Machine

namespace Sys2Proof.Claims
open Sys2Proof Sys2Proof.Machine

/-- Settles O15: each ACTION by what of the unit is in reset or held. -/
theorem resetUnitCommandsResetHoldAndRelease : Obligations.ResetUnitCommandsResetHoldAndRelease := by
  unfold Obligations.ResetUnitCommandsResetHoldAndRelease
  intro s c u k hr hz hu hk t n
  have hmine {a : Nat} (ha : bits (c.word 0) 21 20 = a) : (c.opcode == 0x0100 && bits (c.word 0) 21 20 == a) = true := mine_of hr (beq_iff_eq.2 ha)
  rw [exec_resetUnitPulse, exec_resetUnitAssert, exec_resetUnitRelease]
  have hpulse := fun ha => cmdResetUnit_pulse (s := t) hz hu ha
  have hassert := fun ha hd => cmdResetUnit_assert (s := t) hz hu ha hd
  have hrelease := fun ha hd => cmdResetUnit_release (s := t) hz hu ha hd
  refine ⟨fun ha hp => cmdRow_accepted hr (hmine ha) hk ((hpulse ha).trans (cmdResetPulse_joins hp)),
    fun ha hd hp hb => cmdRow_accepted hr (hmine ha) hk ((hpulse ha).trans (cmdResetPulse_unit hd hp hb)), fun ha hd hb => ?device,
    fun ha hp hb => cmdRow_no hr (hmine ha) ((hpulse ha).trans (cmdResetPulse_busy hp hb)),
    fun ha hd hb => cmdRow_acceptedThen (work := fun _ v => ((v.winClear u.key.1 u.key.2).unitReset u 1 none).settleErr) hr (hmine ha)
      ((hassert ha hd).trans (cmdResetAssert_holds hk hb)),
    fun ha hd hb => cmdRow_no hr (hmine ha) ((hassert ha hd).trans (cmdResetAssert_busy hb)),
    fun ha hd hh => cmdRow_accepted hr (hmine ha) hk ((hrelease ha hd).trans (cmdResetRelease_held hh)),
    fun ha hd hh => cmdRow_no hr (hmine ha) ((hrelease ha hd).trans (cmdResetRelease_notHeld hh))⟩
  case device =>
    subst hd
    exact cmdRow_acceptedThen (work := fun _ v => v) hr (hmine ha) ((hpulse ha).trans (cmdResetPulse_device hk hb))

/-- Settles O16: a Rick command waits among the Rick's commands; a stream is started from its parameters, or stopped. -/
theorem rickAndStreamCommandsBegin : Obligations.RickAndStreamCommandsBegin := by
  unfold Obligations.RickAndStreamCommandsBegin
  refine ⟨fun s c k hk => ?rick, fun s c i hr hi => ?stream⟩
  case rick =>
    intro t
    rw [exec_rickWrite, exec_rickSeal, exec_rickRead, exec_rickDelete]
    refine ⟨fun hr hfree hok hroom => ?write, fun hr hfree hok => ?sealing, fun hr hfree hok => ?read, fun hr hfree hok hnames => ?delete,
      fun op i hr hrec hb hi => ?unbound⟩
    case write =>
      have hroom' : decide (t.fget Fld.rickFree_FREE < rickCount c) = false := decide_eq_false (Nat.not_lt.2 hroom)
      refine cmdRow_accepted hr (opcode_beq hr) hk (.trans ?_ (rickAnswer_begins (begin_ := fun u => u.rickCreate c) hfree))
      rw [State.cmdRickWrite, hok, hroom']
    case sealing =>
      refine cmdRow_accepted hr (opcode_beq hr) hk (.trans ?_ (rickAnswer_begins (begin_ := id) hfree))
      rw [State.cmdRickSeal, hok]
    case read =>
      refine cmdRow_accepted hr (opcode_beq hr) hk (.trans ?_ (rickAnswer_begins (begin_ := id) hfree))
      rw [State.cmdRickRead, hok]
    case delete =>
      refine cmdRow_accepted hr (opcode_beq hr) hk (.trans ?_ (rickAnswer_begins (begin_ := fun u => u.objDeleting (rickObj c)) hfree))
      rw [State.cmdRickDelete, hok, hnames]
    case unbound =>
      have hno {ok busy quota : Bool} {begin_ : State → State} := rickAnswer_unbound (c := c) (ok := ok) (busy := busy) (quota := quota)
        (begin_ := begin_) hrec hb
      obtain ⟨rfl, rfl⟩ | ⟨rfl, rfl⟩ | ⟨rfl, rfl⟩ | ⟨rfl, rfl⟩ := hi
      · exact (exec_rickWrite s c).trans (cmdRow_no hr (opcode_beq hr) hno)
      · exact (exec_rickSeal s c).trans (cmdRow_no hr (opcode_beq hr) hno)
      · exact (exec_rickRead s c).trans (cmdRow_no hr (opcode_beq hr) hno)
      · exact (exec_rickDelete s c).trans (cmdRow_no hr (opcode_beq hr) hno)
  case stream =>
    subst hi
    intro t v
    have hmine {a : Nat} (ha : bits (c.word 0) 59 58 = a) : (c.opcode == 0x0264 && bits (c.word 0) 59 58 == a) = true := mine_of hr (beq_iff_eq.2 ha)
    rw [exec_rsvStreamStart, exec_rsvStreamStop]
    exact ⟨fun ha hb hs hrun hok => cmdRow_ok hr (hmine ha) (cmdStreamStart_starts hb hs hrun hok),
      fun ha hrec hb => cmdRow_no hr (hmine ha) (cmdStreamStart_notBound hrec hb),
      fun ha h => cmdRow_ok hr (hmine ha) (cmdStreamStop_failed h), fun ha h => cmdRow_ok hr (hmine ha) (cmdStreamStop_stops h)⟩

/-- Settles O17: with its parameters good and nothing in its way, each command defers its work. -/
theorem deferredCommandsBeginTheirWork : Obligations.DeferredCommandsBeginTheirWork := by
  unfold Obligations.DeferredCommandsBeginTheirWork
  intro s c k hk t w
  rw [exec_hbmRegionSet, exec_optSearch, exec_klnSpdm, exec_klnUnbind, exec_pwrSet, exec_sbdXfer, exec_crcFeed]
  refine ⟨fun hr hok hb => ?region, ?search, fun hr => cmdRow_accepted hr (opcode_beq hr) hk rfl, fun hr hb => ?waits, fun hr hb => ?begins,
    fun hr hz hz1 hd hlim => cmdRow_acceptedThen hr (opcode_beq hr) (cmdPwrSet_sets hk hz hz1 hd hlim), ?xfer, ?feed⟩
  case region =>
    exact cmdRow_acceptedThen (work := fun n u => State.each (regionStacks c) (fun s x => s.regionBegin (regionSizes c) n x) u) hr (opcode_beq hr)
      (cmdRegionSet_begins hk hok hb)
  case search =>
    rintro g hr hz hm rfl hb
    exact cmdRow_accepted hr (opcode_beq hr) hk (cmdOptSearch_begins hz hm hb)
  case waits =>
    exact cmdRow_acceptedThen (work := fun n u => { u with kln := { u.kln with unbinds := u.kln.unbinds ++ [n] } }) hr (opcode_beq hr)
      (cmdKlnUnbind_waits hk hb)
  case begins =>
    exact cmdRow_acceptedThen (work := fun n u => ({ u with kln := { u.kln with unbinds := u.kln.unbinds ++ [n] } } : State).unbindBegin.settleErr) hr
      (opcode_beq hr) (cmdKlnUnbind_begins hk hb)
  case xfer =>
    rintro wl rl hr hz rfl rfl hpos hp hb
    exact cmdRow_accepted hr (opcode_beq hr) hk (cmdSbdXfer_waits hz hpos hp hb)
  case feed =>
    rintro ch addr len hr hz rfl rfl hz2 rfl hlo hhi hpool hbound hfree
    exact cmdRow_accepted hr (opcode_beq hr) hk (cmdCrcFeed_claims hz hz2 hlo hhi hpool hbound hfree)

/-- Settles O18: each listed transition is accepted, and does what its mode and ACTION say. -/
theorem coppiceCommandsChangeMode : Obligations.CoppiceCommandsChangeMode := by
  unfold Obligations.CoppiceCommandsChangeMode
  intro s c k hr hb h0 h1 h2 hk t m n a mask ch clear done
  have hform : CoppiceForm t c := ⟨hb, h0, h1, h2⟩
  have hmine {a : Nat} (ha : bits (c.word 2) 1 0 = a) : (c.opcode == 0x02A0 && bits (c.word 2) 1 0 == a) = true := mine_of hr (beq_iff_eq.2 ha)
  rw [exec_coppiceCtrlSource, exec_coppiceCtrlShadow, exec_coppiceCtrlOff, exec_coppiceCtrlPromote]
  refine ⟨fun ha hm hmask hfree => ?source, fun ha hm hmask hfree => ?shadow, fun ha hm hthreads hdown => ?offShadow, fun ha hm hdown => ?promote,
    fun ha hm => ?offSource⟩
  case source =>
    exact cmdRow_acceptedThen (work := fun _ u => (coppiceCleared c u).copEnter 1 mask ch (bits (c.word 1) 6 0)) hr (hmine ha)
      (cmdCoppice_enters hform hk hm ha (.inl rfl) hmask hfree)
  case shadow =>
    exact cmdRow_acceptedThen (work := fun _ u => (coppiceCleared c u).copEnter 2 mask ch (bits (c.word 1) 6 0)) hr (hmine ha)
      (cmdCoppice_enters hform hk hm ha (.inr rfl) hmask hfree)
  case offShadow =>
    exact cmdRow_acceptedThen (work := fun _ u => (coppiceCleared c u).copLeave) hr (hmine ha)
      (cmdCoppice_leaves hform hk hm ha (.inl ⟨rfl, hthreads⟩) hdown)
  case promote =>
    exact cmdRow_acceptedThen (work := fun _ u => (coppiceCleared c u).copLeave) hr (hmine ha)
      (cmdCoppice_leaves hform hk hm ha (.inr rfl) hdown)
  case offSource =>
    exact cmdRow_acceptedThen (work := fun n u => (coppiceCleared c u).copAct 1 0 mask ch (bits (c.word 1) 6 0) n) hr (hmine ha)
      (cmdCoppice_leavesSource hform hk hm ha)

end Sys2Proof.Claims
end

section
/-! PROOFS. Reset, boot, the test access port, and how commands, Embers and host accesses reach Cloentim (R392, R398 to R404, R413, R417, R418, R442, R465 to
R471, R504, R506, R515, R516): one equation per case of each row. -/

namespace Sys2Proof.Machine
open Sys2Proof Sys2Proof.Claims

/-- A row that settles what its function leaves. -/
theorem settled_of_eq {t u : State} (h : t = u) : t.settled = .next u.settleErr := congrArg State.settled h

/-- A row that leaves what its function leaves. -/
theorem next_of_eq {t u : State} (h : t = u) : (Host.Outcome.next t : Res) = .next u := congrArg _ h

/-! ### The rows -/

theorem exec_coldReset (s : State) : exec .coldReset s = .next s.pkgReset := rfl
theorem exec_extest (s : State) (lands : List Bool) : exec (.extest lands) s = .next (s.jtagExtest lands) := rfl
theorem exec_clamp (s : State) : exec .clamp s = .next (s.jtagHold 0x04 .held) := rfl
theorem exec_highz (s : State) : exec .highz s = .next (s.jtagHold 0x05 .floated) := rfl
theorem exec_privateInstruction (s : State) (code : Nat) : exec (.privateInstruction code) s =
    if s.fget Fld.klnState_DEBUG_OPEN = 1 ∧ 0x80 ≤ code ∧ code ≤ 0xFE then .refused (.privateJtag code) else .next (s.jtagBypass code) := rfl
theorem exec_refusalReply (s : State) : exec .refusalReply s = .next s.refusalReply := rfl
theorem exec_pkgResetDeassert (s : State) (a b : Nat) : exec (.pkgResetDeassert a b) s = .next (s.pkgDeassert a b) := rfl
theorem exec_cloentimStart (s : State) (failed : List (Nat × Nat)) : exec (.cloentimStart failed) s = (s.cloentimStart failed).settled := rfl
theorem exec_bootUnitsDone (s : State) : exec .bootUnitsDone s = .next s.unitsDone := rfl
theorem exec_bootSlow (s : State) : exec .bootSlow s = .next s.bootSlow := rfl
theorem exec_unitOutOfReset (s : State) (kind idx : Nat) : exec (.unitOutOfReset kind idx) s = (s.unitLeaves kind idx).settled := rfl
theorem exec_rootUnlock (s : State) (cause : Nat) : exec (.rootUnlock cause) s = (s.rootUnlock cause).settled := rfl
theorem exec_rootRelock (s : State) : exec .rootRelock s = s.rootRelock.settled := rfl
theorem exec_mboxRspHeadWrite (s : State) (head : Nat) : exec (.mboxRspHeadWrite head) s = .next (s.mboxRspHead (head % 2 ^ 32)) := rfl
theorem exec_commandTake (s : State) (mb : Cmd) (ext : List (List Word)) : exec (.commandTake mb ext) s = (s.takeNext mb ext).settled := rfl
theorem exec_arriveSideband (s : State) (c : Cmd) : exec (.commandArrive 3 c) s = (s.arrive 3 3 c).settled := rfl

section
variable {s : State} {p h : Nat}

theorem exec_ember (hp : p < 2) (c : Cmd) : exec (.ember p c) s = (s.emberIn p c).settled := congrArg State.settled (if_pos hp)
theorem exec_emberMiss (hp : p < 2) (down : Bool) : exec (.emberMiss p down) s = (s.emberMiss p down).settled := congrArg State.settled (if_pos hp)
theorem exec_mgmtPortLinkUp (hp : p < 2) (hr : s.boot.inReset = false) : exec (.mgmtPortLinkUp p) s = .next (s.fset Fld.cmdMpStat_LINK p 0 1) :=
  next_of_eq (if_pos ⟨hp, hr⟩)
theorem exec_hostPortReset (hh : h < 2) (perst : Bool) : exec (.hostPortReset h perst) s = (s.hostPortReset h perst).settled := if_pos hh
theorem exec_hostPerstDeassert (hh : h < 2) : exec (.hostPerstDeassert h) s = (s.perstDeassert h).settled := if_pos hh
theorem exec_mboxCommit (hh : h < 2) (tail : Nat) : exec (.mboxCommit h tail) s = .next (s.mboxCommit h tail) := next_of_eq (if_pos hh)
theorem exec_registerWrite (hh : h < 2) (addr len val : Nat) : exec (.registerWrite h addr len val) s = (s.barWrite h addr len val).settled :=
  congrArg State.settled (if_pos hh)
theorem exec_barRead (hh : h < 2) (id addr len : Nat) : exec (.barRead h id addr len) s = .next (s.barRead h id addr len) := next_of_eq (if_pos hh)
theorem exec_commandArrive (hp : p < 2) (c : Cmd) : exec (.commandArrive p c) s = (s.mpArrive p c).settled := congrArg State.settled (if_pos hp)
theorem exec_mgmtFrameReceive (hp : p < 2) (ety src dst len : Nat) (c : Cmd) :
    exec (.mgmtFrameReceive p ety src dst len c) s = (s.frame p ety dst len { c with src := src }).settled := congrArg State.settled (if_pos hp)

/-! ### The test access port (R515, R516) -/

theorem jtagExtest_inReset {lands : List Bool} (h : s.boot.rstLow = true) : s.jtagExtest lands =
    { s with jtag := { s.jtag with ir := 0x00, captured := lands, lands := .driven }, out := s.out ++ [.tdo lands] } := if_pos h
theorem jtagHold_inReset {code : Nat} {l : Lands} (h : s.boot.rstLow = true) : s.jtagHold code l =
    { s with jtag := { s.jtag with ir := code, lands := l }, out := s.out ++ [.tdo [false]] } := if_pos h
theorem jtagExtest_bypass {lands : List Bool} (h : s.boot.rstLow = false) : s.jtagExtest lands = s.jtagBypass 0x00 :=
  if_neg (by rw [h]; exact Bool.false_ne_true)
theorem jtagHold_bypass {code : Nat} {l : Lands} (h : s.boot.rstLow = false) : s.jtagHold code l = s.jtagBypass code :=
  if_neg (by rw [h]; exact Bool.false_ne_true)

/-! ### Boot (R468, R469, R471) -/

/-- PKG_RESET_N is deasserted, and the regulator bus begins to be recovered. -/
def booted (s : State) : State :=
  ({ s with boot := { s.boot with inReset := false, rstLow := false, started := s.now }, jtag := { s.jtag with lands := .functional } } : State).recover

/-- Out of a reset that no brownout holds, Kindling takes the first slot that it accepts. -/
theorem pkgDeassert_boots {a b : Nat} (hr : s.boot.inReset = true) (hb : s.boot.brown = false) : s.pkgDeassert a b =
    if a = 3 then (booted s).kindled 0 else if b = 3 then ((booted s).errRec 0 0x70 0 14 [a, 0]).kindled 1 else (booted s).fset Fld.cmdBootW0_PHASE 0 0 5 :=
  if_neg (by rw [hr, hb]; exact Bool.false_ne_true)

theorem cloentimStart_boots {failed : List (Nat × Nat)} (hr : s.boot.inReset = false) (hp : s.phase = 0) :
    s.cloentimStart failed = if s.fget Fld.cmdBootW0_CAUSE = 2 then s.bootWarm else s.bootUnbind failed :=
  if_neg (not_or_intro (by rw [hr]; exact Bool.false_ne_true) (not_not_intro hp))

/-- The state in phase READY, at the time that BOOT shows. -/
def readied (s : State) : State := (s.fset Fld.cmdBootW0_PHASE 0 0 3).wr .cmdBootW1 0 0 (s.rd .telTime)

theorem readied_phase : (readied s).phase = 3 := by
  rw [State.phase, readied, State.fget, State.rd_wr, if_neg (by decide)]
  exact State.fget_fset_same s Fld.cmdBootW0_PHASE 0 0 3 (by decide) (by decide)

theorem unitsDone_readies (hp : s.phase = 2) (hr : s.rickState = Rick.run) (ho : s.opt.search = []) : s.unitsDone = (readied s).serviceStart :=
  if_pos ⟨hp, hr, List.isEmpty_iff.2 ho⟩

theorem bootSlow_records (hr : s.boot.inReset = false) (hp : s.phase = p) (hle : p ≤ 2) (hn : p ∉ s.boot.slow)
    (hlim : s.boot.started + us (phaseLimit p) ≤ s.now) :
    s.bootSlow = ({ s with boot := { s.boot with slow := s.boot.slow ++ [p] } } : State).errRec 0 0x73 0 14 [p] := by
  have hlate : decide (2 < p) = false := decide_eq_false (Nat.not_lt.2 hle)
  have hnew : s.boot.slow.contains p = false := by simpa using hn
  have htime : decide (s.now < s.boot.started + us (phaseLimit p)) = false := decide_eq_false (Nat.not_lt.2 hlim)
  simp only [State.bootSlow, hp, hr, hlate, hnew, htime, Bool.or_self, Bool.false_eq_true, if_false]

/-! ### Host ports and the root PLL (R442, R465, R466) -/

theorem hostPortReset_joins (hr : s.boot.inReset = false) (hp : s.hostPulsed h = true) : s.hostPortReset h true =
    { s with boot := { s.boot with held := tblMod {} s.boot.held (RUnit.host h).num (fun x => { x with how := 3 }) } } := by
  simp only [State.hostPortReset, hr, hp, Bool.false_eq_true, if_false, Bool.and_self, if_true]

theorem hostPortReset_perst (hr : s.boot.inReset = false) (hp : s.hostPulsed h = false) (hb : s.resetBusy (.host h) = false) :
    s.hostPortReset h true = s.unitReset (.host h) 3 none := by
  simp only [State.hostPortReset, hr, hp, hb, Bool.false_eq_true, if_false, Bool.and_false, if_true]

theorem hostPortReset_hot (hr : s.boot.inReset = false) (hb : s.resetBusy (.host h) = false) :
    s.hostPortReset h false = (s.unitReset (.host h) 3 none).unitOut (.host h) { since := s.now, how := 3 } := by
  simp only [State.hostPortReset, hr, hb, Bool.false_eq_true, if_false, Bool.false_and]

theorem perstDeassert_releases {x : Hold} (hx : tblFind s.boot.held (RUnit.host h).num = some x) (hhow : x.how = 3) :
    s.perstDeassert h = s.unitOut (.host h) x := by
  simp only [State.perstDeassert, hx, hhow, if_true]

theorem unitLeaves_out {kind idx : Nat} {u : RUnit} {x : Hold} (hu : resetUnit kind idx = some u) (hd : u ≠ .device)
    (hx : tblFind s.boot.held u.num = some x) (hhow : x.how = 0 ∨ x.how = 2) : s.unitLeaves kind idx = s.unitOut u x := by
  simp only [State.unitLeaves, hu, if_neg hd, hx, if_pos hhow]

theorem rootUnlock_records {cause : Nat} (hc : cause ≤ 1) (hr : s.boot.inReset = false) (hu : s.boot.unlocked = none) :
    s.rootUnlock cause = ({ s with boot := { s.boot with unlocked := some cause } } : State).errRec 4 0x50 0 14 [cause, 0] := by
  have hrange : decide (1 < cause) = false := decide_eq_false (Nat.not_lt.2 hc)
  simp only [State.rootUnlock, hr, hu, hrange, Option.isSome_none, Bool.or_self, Bool.false_eq_true, if_false]

theorem rootRelock_records {cause : Nat} (hu : s.boot.unlocked = some cause) :
    s.rootRelock = ({ s with boot := { s.boot with unlocked := none } } : State).errRec 0 0x50 0 14 [cause, 1] := by
  simp only [State.rootRelock, hu]

/-! ### Embers and REFUSED replies (R392, R413) -/

/-- An Ember of a good form on a port whose link is up is recorded; a port that was LOST posts EMBER_BACK. -/
theorem emberIn_records {c : Cmd} (hr : s.boot.inReset = false) (hl : s.fget Fld.cmdMpStat_LINK p ≠ 0) (ho : c.opcode = 0x0004) (hn : c.plen = 16)
    (hz : c.resv = 0) : s.emberIn p c =
      let seen := (((s.wr .cmdMpEmber p 0 (c.word 1)).wr .cmdMpEmbert p 0 (s.rd .telTime)).fset Fld.cmdMpStat_EMBER p 0 1)
      let alive : State := { seen with cmd := { seen.cmd with emberAt := tblPut seen.cmd.emberAt p s.now } }
      if s.fget Fld.cmdMpStat_EMBER p = 2 then State.each [0, 1, 2] (fun s k => s.eventTo k 0x0F02 (s.emberBody p)) alive else alive := by
  have hlink : (s.fget Fld.cmdMpStat_LINK p == 0) = false := beq_eq_false_iff_ne.2 hl
  have hcond : (s.boot.inReset || s.fget Fld.cmdMpStat_LINK p == 0 || c.opcode != 0x0004 || c.plen != 16 || c.resv != 0) = false := by
    rw [hr, hlink, ho, hn, hz]; rfl
  exact if_neg (by rw [hcond]; exact Bool.false_ne_true)

theorem emberMiss_due (ha : s.fget Fld.cmdMpStat_EMBER p = 1) (hd : tblGet 0 s.cmd.emberAt p + us (100 * s.fget Fld.cmdMpCfg_EMBER_MISS p) ≤ s.now)
    (hs : s.soon (bringsEmber p) = false) : s.emberMiss p false = s.emberLost p := by
  have hdue : s.emberDue p = true := decide_eq_true hd
  exact if_pos ⟨ha, .inr (by rw [hdue, hs]; rfl)⟩

theorem emberMiss_down (ha : s.fget Fld.cmdMpStat_EMBER p = 1) : s.emberMiss p true = (s.fset Fld.cmdMpStat_LINK p 0 0).emberLost p :=
  if_pos ⟨ha, .inl rfl⟩

/-- The Ember of a port lies in none of the registers that placing a packet counts in. -/
theorem mpEmber_apart (hp : p < 2) {k : Nat} (hk : k < 3) : regAddr .cmdMpEmber p 0 ≠ regAddr .cmdMpFrames k 0 ∧
    regAddr .cmdMpEmber p 0 ≠ regAddr .cmdMboxLost 0 0 ∧ regAddr .cmdMpEmber p 0 ≠ regAddr .cmdMboxRspTail 0 0 ∧
    regAddr .cmdMpEmber p 0 ≠ regAddr .cmdPstatErr k 0 ∧ regAddr .cmdMpEmber p 0 ≠ regAddr .cmdMpStat k 0 := by
  revert p k
  decide

theorem rd_mpEmber_fset {f : Fld} {i v : Nat} (hf : regAddr .cmdMpEmber p 0 ≠ regAddr f.reg i 0) :
    (s.fset f i 0 v).rd .cmdMpEmber p = s.rd .cmdMpEmber p := by
  rw [State.rd_fset, if_neg hf]

theorem placeAt_mpEmber {r : Reply} (hp : p < 2) (hr : r.partner < 3) : (s.placeAt r).1.rd .cmdMpEmber p = s.rd .cmdMpEmber p := by
  obtain ⟨hframes, hlost, htail, -, -⟩ := mpEmber_apart hp hr
  rw [State.placeAt]
  split
  · split
    · rfl
    · exact rd_mpEmber_fset hframes
  split
  · split
    · exact rd_mpEmber_fset hlost
    split
    · split
      · rfl
      · exact rd_mpEmber_fset hlost
    · exact rd_mpEmber_fset htail
  · omega

/-- An event to a partner leaves the last Ember of a port. -/
theorem eventTo_mpEmber {k code : Nat} {body : List Byte} (hp : p < 2) (hk : k < 3) :
    (s.eventTo k code body).rd .cmdMpEmber p = s.rd .cmdMpEmber p := by
  obtain ⟨-, -, -, herr, -⟩ := mpEmber_apart hp hk
  rw [State.eventTo]
  split
  next t h => exact (congrArg (fun u : State × Bool => u.1.rd .cmdMpEmber p) h).symm.trans (placeAt_mpEmber hp hk)
  next t h => exact (rd_mpEmber_fset herr).trans ((congrArg (fun u : State × Bool => u.1.rd .cmdMpEmber p) h).symm.trans (placeAt_mpEmber hp hk))

/-- The state of a port whose Embers are lost, before its events. -/
def emberLostAt (p : Nat) (s : State) : State := (s.fset Fld.cmdMpStat_EMBER p 0 2).fsat Fld.cmdMpStat_LOSSES p 0 1

theorem emberLostAt_mpEmber (hp : p < 2) : (emberLostAt p s).rd .cmdMpEmber p = s.rd .cmdMpEmber p := by
  obtain ⟨-, -, -, -, hstat⟩ := mpEmber_apart hp (k := p) (by omega)
  exact (rd_mpEmber_fset hstat).trans (rd_mpEmber_fset hstat)

/-- EMBER_LOST carries the last Ember that the port had, to the other port and to the mailbox. -/
theorem emberLost_events (hp : p < 2) : s.emberLost p =
    (State.each [1 - p, 2] (fun u k => u.eventTo k 0x0F01 (s.emberBody p)) (emberLostAt p s)).errRec 0 0x08 12 p
      [((State.each [1 - p, 2] (fun u k => u.eventTo k 0x0F01 (s.emberBody p)) (emberLostAt p s)).rd .cmdMpEmber p).toNat] := by
  have hfirst : (emberLostAt p s).emberBody p = s.emberBody p := by rw [State.emberBody, emberLostAt_mpEmber hp]; rfl
  have hsecond : ((emberLostAt p s).eventTo (1 - p) 0x0F01 (s.emberBody p)).emberBody p = s.emberBody p := by
    rw [State.emberBody, eventTo_mpEmber hp (by omega), emberLostAt_mpEmber hp]; rfl
  have heach : State.each [1 - p, 2] (fun u k => u.eventTo k 0x0F01 (u.emberBody p)) (emberLostAt p s) =
      State.each [1 - p, 2] (fun u k => u.eventTo k 0x0F01 (s.emberBody p)) (emberLostAt p s) := by
    simp only [State.each, List.foldl, hfirst, hsecond]
  rw [← heach]
  rfl

theorem refusalReply_places {r : Reply} {t : Nat} {rest : List (Reply × Nat)} (hl : s.cmd.refused = (r, t) :: rest) (ht : t + us 20 ≤ s.now) :
    s.refusalReply = ({ s with cmd := { s.cmd with refused := rest } } : State).placeHeld r := by
  simp only [State.refusalReply, hl, if_neg (Nat.not_lt.2 ht)]

/-! ### Host accesses (R401, R417, R418, R422) -/

theorem mboxCommit_commits {tail : Nat} (he : s.fget Fld.cmdMboxRspCtrl_EN = 1) (hs : s.soon clearsEn = false)
    (hn : (tail % 2 ^ 32 + 2 ^ 32 - s.fget Fld.cmdMboxReqHead_REQ_HEAD) % 2 ^ 32 ≤ 16) :
    s.mboxCommit h tail = s.fset Fld.cmdMboxReqTail_REQ_TAIL 0 0 tail := by
  simp only [State.mboxCommit, State.mboxCommitOk, he, hs, decide_eq_true hn, beq_self_eq_true, Bool.not_false, Bool.and_self, if_true]

theorem mboxCommit_discards {tail : Nat} (hn : s.fget Fld.cmdMboxRspCtrl_EN ≠ 1 ∨ s.soon clearsEn = true ∨
      16 < (tail % 2 ^ 32 + 2 ^ 32 - s.fget Fld.cmdMboxReqHead_REQ_HEAD) % 2 ^ 32) : s.mboxCommit h tail = s.barDiscard h := by
  refine if_neg ?_
  rw [State.mboxCommitOk, Bool.and_eq_true, Bool.and_eq_true, beq_iff_eq, decide_eq_true_eq, Bool.not_eq_true']
  rintro ⟨⟨he, hle⟩, hs⟩
  obtain h1 | h1 | h1 := hn
  · exact h1 he
  · exact Bool.false_ne_true (hs.symm.trans h1)
  · exact Nat.not_le.2 h1 hle

/-- The mailbox's control register. -/
def mboxCtrlAt : RegAt := { reg := .cmdMboxRspCtrl, i := 0, j := 0, off := 0 }

/-- No rule of a unit that is off, of an EPB or of the HUB block applies to the mailbox's control register. -/
theorem regApply_mboxCtrl (raw : Word) :
    s.regApply mboxCtrlAt raw = s.mboxCtrl (regMerge .cmdMboxRspCtrl (s.rd .cmdMboxRspCtrl) raw) := rfl

theorem exec_mboxEnable {ctrl : Nat} {w : Word} (hw : w = BitVec.ofNat 64 (ctrl % 2 ^ 32))
    (hc : s.regCheck (s.regsAfter [(mboxCtrlAt, w)]) mboxCtrlAt w = Status.ok) :
    exec (.mboxEnable ctrl) s = (s.mboxCtrl (regMerge .cmdMboxRspCtrl (s.rd .cmdMboxRspCtrl) w)).settled := by
  subst hw
  exact congrArg State.settled ((if_pos hc).trans (regApply_mboxCtrl _))

theorem barWrite_applies {addr len val : Nat} {l : List (RegAt × Word)} (hu : s.hostUp h = true) (hl : s.barList addr len val = some l)
    (hn : ∀ e ∈ l, e.1.reg ≠ .cmdMboxReqTail) : s.barWrite h addr len val = State.each l (fun s e => s.regApply e.1 e.2) s := by
  have heach : ∀ t : State, State.each l (fun s e => if e.1.reg = .cmdMboxReqTail then s.mboxCommit h (bits e.2 31 0) else s.regApply e.1 e.2) t =
      State.each l (fun s e => s.regApply e.1 e.2) t := by
    clear hl
    induction l with
    | nil => exact fun _ => rfl
    | cons e l ih =>
      intro t
      have hthis : (if e.1.reg = .cmdMboxReqTail then t.mboxCommit h (bits e.2 31 0) else t.regApply e.1 e.2) = t.regApply e.1 e.2 :=
        if_neg (hn e (List.mem_cons_self ..))
      exact (ih (fun x hx => hn x (List.mem_cons_of_mem _ hx)) _).trans (congrArg _ hthis)
  simp only [State.barWrite, hu, hl, heach, Bool.not_true, Bool.false_eq_true, if_false]

theorem barWrite_discards {addr len val : Nat} (hu : s.hostUp h = true) (hl : s.barList addr len val = none) (hr : barRing addr len val = none) :
    s.barWrite h addr len val = s.fsat Fld.cmdBarstat_DISCARDW h 0 1 := by
  simp only [State.barWrite, hu, hl, hr, Bool.not_true, Bool.false_eq_true, if_false, State.barDiscard]

theorem barWrite_discardsCommit {addr len val n : Nat} (hu : s.hostUp h = true) (hl : s.barList addr len val = none)
    (hr : barRing addr len val = some n) : s.barWrite h addr len val = (s.fsat Fld.cmdBarstat_DISCARDW h 0 1).fsat Fld.epbRingRej_REJ n 0 1 := by
  simp only [State.barWrite, hu, hl, hr, Bool.not_true, Bool.false_eq_true, if_false, State.barDiscard]

theorem barShape_iff {addr len : Nat} : barShape addr len = true ↔ (len = 4 ∨ len = 8) ∧ addr % len = 0 := by
  simp only [barShape, Bool.and_eq_true, Bool.or_eq_true, beq_iff_eq]

theorem barRead_reads {id addr len : Nat} (hu : s.hostUp h = true) (hs : barShape addr len = true) :
    s.barRead h id addr len = s.emit (.barCpl h id false (s.regBytesAt addr len)) := by
  simp only [State.barRead, hu, hs, Bool.not_true, Bool.false_eq_true, if_false, if_true]

theorem barRead_aborts {id addr len : Nat} (hu : s.hostUp h = true) (hs : barShape addr len = false) :
    s.barRead h id addr len = (s.fsat Fld.cmdBarstat_BADACC h 0 1).emit (.barCpl h id true []) := by
  simp only [State.barRead, hu, hs, Bool.not_true, Bool.false_eq_true, if_false]

/-! ### Arrival and taking of commands (R398, R399, R404) -/

@[simp] theorem placeAt_queues (r : Reply) : (s.placeAt r).1.cmd.queues = s.cmd.queues := by
  unfold State.placeAt State.mboxWrite
  repeat' split
  all_goals rfl

/-- The queue of partner `k` takes a command, which arrived on port `k`. -/
def joined (s : State) (k : Nat) (c : Cmd) : State :=
  { s with cmd := { s.cmd with queues := tblPut s.cmd.queues k (s.queueOf k ++ [{ cmd := c, port := k, time := s.now }]) } }

/-- A command that a full queue does not take is answered BUSY and counted. -/
def notJoined (s : State) (k : Nat) (c : Cmd) : State :=
  ((s.fsat Fld.cmdPstatErr_FULL k 0 1).placeAt (s.replyTo k c (Status.busy, 0, []))).1

theorem joined_queueOf {c : Cmd} : ((joined s p c).queueOf p).length = (s.queueOf p).length + 1 := by
  simp only [State.queueOf, joined, tblGet_put, if_true, List.length_append, List.length_singleton]

theorem notJoined_queueOf {c : Cmd} : (notJoined s p c).queueOf p = s.queueOf p := by
  rw [State.queueOf, notJoined, placeAt_queues]; rfl

theorem arrive_joins {c : Cmd} (hr : s.boot.inReset = false) (hn : s.noCloentim = false) (hroom : (s.queueOf p).length < queueDepth p) :
    s.arrive p p c = joined s p c := by
  simp only [State.arrive, hr, hn, if_neg (Nat.not_le.2 hroom), Bool.false_eq_true, if_false]
  rfl

theorem arrive_full {c : Cmd} (hr : s.boot.inReset = false) (hn : s.noCloentim = false) (hfull : queueDepth p ≤ (s.queueOf p).length) :
    s.arrive p p c = notJoined s p c := by
  simp only [State.arrive, hr, hn, if_pos hfull, Bool.false_eq_true, if_false]
  rfl

/-- The queues of the management ports hold 16 commands. -/
theorem queueDepth_mgmt (hp : p < 2) : queueDepth p = 16 := if_neg (by omega)

theorem mpArrive_joins {c : Cmd} (hp : p < 2) (hr : s.boot.inReset = false) (hn : s.noCloentim = false) (ho : c.opcode ≠ 0x0004)
    (hroom : (s.queueOf p).length < 16) : s.mpArrive p c = (joined s p c).fsat Fld.cmdMpFrames_RX p 0 1 := by
  simp only [State.mpArrive, if_neg ho, arrive_joins hr hn (queueDepth_mgmt hp ▸ hroom), joined_queueOf, Nat.lt_succ_self, if_true]

theorem mpArrive_full {c : Cmd} (hp : p < 2) (hr : s.boot.inReset = false) (hn : s.noCloentim = false) (ho : c.opcode ≠ 0x0004)
    (hfull : 16 ≤ (s.queueOf p).length) : s.mpArrive p c = notJoined s p c := by
  simp only [State.mpArrive, if_neg ho, arrive_full hr hn (queueDepth_mgmt hp ▸ hfull), notJoined_queueOf, Nat.lt_irrefl, if_false]

theorem frameOk_iff {ety src dst len plen : Nat} : s.frameOk p ety src dst len plen = true ↔
    ety = s.fget Fld.cmdMpCfg_ETYPE p ∧ dst = s.fget Fld.cmdMpMac_MAC p ∧
      (s.fget Fld.cmdMpCfg_PEER_EN p = 0 ∨ src = s.fget Fld.cmdMpPeer_PEER_MAC p) ∧ 16 + plen ≤ len := by
  simp only [State.frameOk, Bool.and_eq_true, Bool.or_eq_true, beq_iff_eq, decide_eq_true_eq, and_assoc]

/-- A frame on a port whose link is up brings its command where it passes the filters, and is counted where not. -/
theorem frame_linkUp {ety dst len : Nat} {c : Cmd} (hr : s.boot.inReset = false) (hl : s.fget Fld.cmdMpStat_LINK p ≠ 0) :
    s.frame p ety dst len c = if s.frameOk p ety c.src dst len c.plen then s.mpArrive p c else s.fsat Fld.cmdMpFrames_DISCARD p 0 1 :=
  if_neg (by rw [hr, beq_eq_false_iff_ne.2 hl]; exact Bool.false_ne_true)

/-- Under strict priority Cloentim serves the partner with a command waiting whose number is lowest. -/
theorem nextPartner_strict (hs : s.fget Fld.cmdCtrl_RR ≠ 1) (hp : p < 4) (hw : s.cmdWaiting p = true) (hlow : ∀ k < p, s.cmdWaiting k = false) :
    s.nextPartner = some p := by
  rw [State.nextPartner, if_neg hs, List.find?_range_eq_some]
  exact ⟨hw, List.mem_range.2 hp, fun k hk => by rw [hlow k hk]; rfl⟩

/-- Under round robin it serves the first one after the partner served last. -/
theorem nextPartner_robin {i : Nat} (hs : s.fget Fld.cmdCtrl_RR = 1) (hi : i < 4) (hw : s.cmdWaiting ((s.cmd.lastServed + 1 + i) % 4) = true)
    (hfirst : ∀ k < i, s.cmdWaiting ((s.cmd.lastServed + 1 + k) % 4) = false) : s.nextPartner = some ((s.cmd.lastServed + 1 + i) % 4) := by
  have hfind : (List.range 4).find? (s.cmdWaiting ∘ fun i => (s.cmd.lastServed + 1 + i) % 4) = some i :=
    List.find?_range_eq_some.2 ⟨hw, List.mem_range.2 hi, fun k hk => by rw [Function.comp_apply, hfirst k hk]; rfl⟩
  rw [State.nextPartner, if_pos hs, List.find?_map, hfind]
  rfl

/-- With nothing waiting it serves none. -/
theorem nextPartner_none (hn : ∀ p < 4, s.cmdWaiting p = false) : s.nextPartner = none := by
  rw [State.nextPartner, List.find?_eq_none]
  intro p hp
  have hlt : p < 4 := by
    split at hp
    · obtain ⟨i, -, rfl⟩ := List.mem_map.1 hp
      exact Nat.mod_lt _ (by decide)
    · exact List.mem_range.1 hp
  rw [hn p hlt]
  exact Bool.false_ne_true

theorem takeNext_takes {mb : Cmd} {ext : List (List Word)} {q : Queued} {t : State} (hr : s.boot.inReset = false) (hn : s.noCloentim = false)
    (hp : s.nextPartner = some p) (ht : s.takeFrom p mb = some (q, t)) : s.takeNext mb ext = t.handle p q.port q.time q.cmd (runCmd ext) := by
  simp only [State.takeNext, hr, hn, hp, ht, Bool.or_self, Bool.false_eq_true, if_false]

theorem takeNext_none {mb : Cmd} {ext : List (List Word)} (hr : s.boot.inReset = false) (hn : s.noCloentim = false)
    (hp : s.nextPartner = none) : s.takeNext mb ext = s := by
  simp only [State.takeNext, hr, hn, hp, Bool.or_self, Bool.false_eq_true, if_false]

/-- The mailbox's command is that of slot REQ_HEAD, which advances. -/
theorem takeFrom_mailbox {mb : Cmd} : s.takeFrom 2 mb =
    some ({ cmd := mb, port := 2, time := s.now }, ({ s with cmd := { s.cmd with lastServed := 2 } } : State).fwrap Fld.cmdMboxReqHead_REQ_HEAD 0 0 1) := rfl

theorem takeFrom_queue {mb : Cmd} {q : Queued} {rest : List Queued} (hq : s.queueOf p = q :: rest) (hp : p ≠ 2) : s.takeFrom p mb =
    some (q, { s with cmd := { s.cmd with lastServed := p, queues := tblPut s.cmd.queues p rest } }) := by
  simp only [State.takeFrom, if_neg hp, hq]

end

end Sys2Proof.Machine

namespace Sys2Proof.Claims
open Sys2Proof Sys2Proof.Machine

/-- Settles O22: a cold reset outside a reset, and one within it. -/
theorem coldResetsKeepOnlyWhatIsNonVolatile : Obligations.ColdResetsKeepOnlyWhatIsNonVolatile := by
  unfold Obligations.ColdResetsKeepOnlyWhatIsNonVolatile
  intro s n bare cold
  rw [exec_coldReset]
  exact ⟨rfl, rfl, fun h => next_of_eq (if_neg (by rw [h]; exact Bool.false_ne_true)), fun h => next_of_eq (if_pos h), rfl⟩

/-- Settles O25: each instruction by whether PKG_RESET_N is asserted, and one of the codes 0x80 to 0xFE by whether it is open. -/
theorem jtagInstructionsSelectAndCapture : Obligations.JtagInstructionsSelectAndCapture := by
  unfold Obligations.JtagInstructionsSelectAndCapture
  intro s ir bypassed
  rw [exec_clamp, exec_highz]
  refine ⟨rfl, fun _ _ => rfl, fun lands h => ?driven, fun h => next_of_eq (jtagHold_inReset h), fun h => next_of_eq (jtagHold_inReset h),
    fun lands h => ⟨?undriven, next_of_eq (jtagHold_bypass h), next_of_eq (jtagHold_bypass h)⟩, rfl, fun code h => ?closed, fun code h h1 h2 => ?opened⟩
  case driven => exact (exec_extest s lands).trans (next_of_eq (jtagExtest_inReset h))
  case undriven => exact (exec_extest s lands).trans (next_of_eq (jtagExtest_bypass h))
  case closed => exact (exec_privateInstruction s code).trans (if_neg (fun hc => h hc.1))
  case opened => exact (exec_privateInstruction s code).trans (if_pos ⟨h, h1, h2⟩)

/-- Settles O20: an Ember by what its port was, a miss by its cause, and the oldest REFUSED reply. -/
theorem embersAndRefusedRepliesFollowTheClock : Obligations.EmbersAndRefusedRepliesFollowTheClock := by
  unfold Obligations.EmbersAndRefusedRepliesFollowTheClock
  intro s p c hp seen alive lost marked
  rw [exec_ember hp, exec_emberMiss hp, exec_emberMiss hp, exec_refusalReply]
  exact ⟨fun hr hl ho hn hz he => settled_of_eq ((emberIn_records hr hl ho hn hz).trans (if_neg he)),
    fun hr hl ho hn hz he => settled_of_eq ((emberIn_records hr hl ho hn hz).trans (if_pos he)),
    fun ha hd hs => settled_of_eq ((emberMiss_due ha hd hs).trans (emberLost_events hp)),
    fun ha => settled_of_eq ((emberMiss_down ha).trans (emberLost_events hp)), exec_mgmtPortLinkUp hp,
    fun r t rest hl ht => next_of_eq (refusalReply_places hl ht)⟩

/-- Settles O23: each step of the boot by what Kindling finds, the cause, and the service that is wanted. -/
theorem bootGoesThroughItsPhases : Obligations.BootGoesThroughItsPhases := by
  unfold Obligations.BootGoesThroughItsPhases
  intro s up
  refine ⟨fun b hr hb => ?slotA, fun a ha hr hb => ?slotB, fun a b ha hb3 hr hb => ?neither, fun f hr hp hc => ?boot, fun f hr hp hc => ?warm,
    fun hp hr ho => ?units, fun p hr hp hle hn hlim => (exec_bootSlow s).trans (next_of_eq (bootSlow_records hr hp hle hn hlim))⟩
  case slotA => exact (exec_pkgResetDeassert s 3 b).trans (next_of_eq (pkgDeassert_boots hr hb))
  case slotB => exact (exec_pkgResetDeassert s a 3).trans (next_of_eq ((pkgDeassert_boots hr hb).trans ((if_neg ha).trans (if_pos rfl))))
  case neither => exact (exec_pkgResetDeassert s a b).trans (next_of_eq ((pkgDeassert_boots hr hb).trans ((if_neg ha).trans (if_neg hb3))))
  case boot => exact (exec_cloentimStart s f).trans (settled_of_eq ((cloentimStart_boots hr hp).trans (if_neg hc)))
  case warm => exact (exec_cloentimStart s f).trans (settled_of_eq ((cloentimStart_boots hr hp).trans (if_pos hc)))
  case units =>
    rw [exec_bootUnitsDone, unitsDone_readies hp hr ho]
    refine ⟨fun hs => next_of_eq (if_neg (fun h => ?_)), fun hs => next_of_eq (if_pos ⟨readied_phase, hs⟩)⟩
    exact Bool.false_ne_true (hs.symm.trans h.2)

/-- Settles O24: each reset of a host port, a unit's release, and the root PLL's two events. -/
theorem hostPortResetsAndRootClock : Obligations.HostPortResetsAndRootClock := by
  unfold Obligations.HostPortResetsAndRootClock
  intro s
  refine ⟨fun h hh hr hp hb => ?perst, fun h hh hr hp => ?joins, fun h hh hr hb => ?hot, fun h x hh hx hhow => ?deassert,
    fun kind idx u x hu hd hx hhow => (exec_unitOutOfReset s kind idx).trans (settled_of_eq (unitLeaves_out hu hd hx hhow)),
    fun cause hc hr hu => (exec_rootUnlock s cause).trans (settled_of_eq (rootUnlock_records hc hr hu)),
    fun cause hu => (exec_rootRelock s).trans (settled_of_eq (rootRelock_records hu))⟩
  case perst => exact (exec_hostPortReset hh true).trans (settled_of_eq (hostPortReset_perst hr hp hb))
  case joins => exact (exec_hostPortReset hh true).trans (settled_of_eq (hostPortReset_joins hr hp))
  case hot => exact (exec_hostPortReset hh false).trans (settled_of_eq (hostPortReset_hot hr hb))
  case deassert => exact (exec_hostPerstDeassert hh).trans (settled_of_eq (perstDeassert_releases hx hhow))

/-- Settles O21: each access by what R401, R418 and R422 ask of it. -/
theorem hostRegisterAccesses : Obligations.HostRegisterAccesses := by
  unfold Obligations.HostRegisterAccesses
  intro s hp hh
  refine ⟨fun tail he hs hn => (exec_mboxCommit hh tail).trans (next_of_eq (mboxCommit_commits he hs hn)),
    fun tail hn => (exec_mboxCommit hh tail).trans (next_of_eq (mboxCommit_discards hn)), fun head => exec_mboxRspHeadWrite s head,
    fun ctrl w hw hc => ?control, fun addr len val l hu hl hn => (exec_registerWrite hh ..).trans (settled_of_eq (barWrite_applies hu hl hn)),
    fun addr len val hu hl hring => ?discarded, fun addr len val n hu hl hring => ?ring, fun addr len id hu hlen hal => ?read,
    fun addr len id hu hbad => ?abort⟩
  case control =>
    rw [exec_mboxEnable hw hc]
    refine ⟨fun h0 h1 => settled_of_eq (if_pos ⟨h0, h1⟩), fun hn => settled_of_eq (if_neg fun h => ?_)⟩
    exact hn.elim (absurd h.1) (absurd h.2)
  case discarded => exact (exec_registerWrite hh ..).trans (settled_of_eq (barWrite_discards hu hl hring))
  case ring => exact (exec_registerWrite hh ..).trans (settled_of_eq (barWrite_discardsCommit hu hl hring))
  case read => exact (exec_barRead hh id addr len).trans (next_of_eq (barRead_reads hu (barShape_iff.2 ⟨hlen, hal⟩)))
  case abort =>
    have hshape : barShape addr len = false := Bool.not_eq_true _ ▸ mt barShape_iff.1 hbad
    exact (exec_barRead hh id addr len).trans (next_of_eq (barRead_aborts hu hshape))

/-- Settles O19: a frame and a command by the room of the queue; the partner that comes first, with its oldest command. -/
theorem commandsArriveAndAreTakenInOrder : Obligations.CommandsArriveAndAreTakenInOrder := by
  unfold Obligations.CommandsArriveAndAreTakenInOrder
  refine ⟨fun s p ety src dst len c hp hr hn ho => ?arrive, fun s mb ext p hr hn horder => ?take, fun s mb ext hr hn hnone =>
    (exec_commandTake s mb ext).trans (settled_of_eq (takeNext_none hr hn (nextPartner_none hnone)))⟩
  case arrive =>
    intro fromFrame q joins full filters
    have hframe (hl : s.fget Fld.cmdMpStat_LINK p ≠ 0) := (exec_mgmtFrameReceive hp ety src dst len c).trans (congrArg State.settled (frame_linkUp hr hl))
    have hpass (hl : s.fget Fld.cmdMpStat_LINK p ≠ 0) (hf : filters) := (hframe hl).trans (congrArg State.settled (if_pos (frameOk_iff.2 hf)))
    refine ⟨fun hl hf hroom => (hpass hl hf).trans (settled_of_eq (mpArrive_joins hp hr hn ho hroom)),
      fun hl hf hfull => (hpass hl hf).trans (settled_of_eq (mpArrive_full hp hr hn ho hfull)),
      fun hl hf => (hframe hl).trans (settled_of_eq (if_neg (mt frameOk_iff.1 hf))),
      fun hroom => (exec_commandArrive hp c).trans (settled_of_eq (mpArrive_joins hp hr hn ho hroom)),
      fun hfull => (exec_commandArrive hp c).trans (settled_of_eq (mpArrive_full hp hr hn ho hfull)),
      fun hroom => (exec_arriveSideband s c).trans (settled_of_eq (arrive_joins hr hn hroom)),
      fun hfull => (exec_arriveSideband s c).trans (settled_of_eq (arrive_full hr hn hfull))⟩
  case take =>
    intro s1
    have hnext : s.nextPartner = some p := by
      obtain ⟨hs, hp, hw, hlow⟩ | ⟨hs, i, hi, rfl, hw, hfirst⟩ := horder
      · exact nextPartner_strict hs hp hw hlow
      · exact nextPartner_robin hs hi hw hfirst
    refine ⟨fun q rest hp hq => (exec_commandTake s mb ext).trans (settled_of_eq (takeNext_takes hr hn hnext (takeFrom_queue hq hp))), ?_⟩
    rintro rfl
    exact (exec_commandTake s mb ext).trans (settled_of_eq (takeNext_takes hr hn hnext takeFrom_mailbox))

end Sys2Proof.Claims
end

section
/-! PROOFS. The regulator bus, the tray bus and the image loader (R453, R477 to R487): each transaction by the state of its bus. -/

namespace Sys2Proof.Machine
open Sys2Proof Sys2Proof.Claims

/-! ### The rows -/

theorem exec_regulatorPoll (s : State) (outs : List PollRead) : exec (.regulatorPoll outs) s = (s.poll outs).settled := rfl
theorem exec_regulatorAlert (s : State) (addr sw : Nat) : exec (.regulatorAlert addr sw) s = (s.alert addr sw).settled := rfl
theorem exec_sbdXferDone (s : State) (st : Nat) (data : List Byte) : exec (.sbdXferDone st data) s = (s.xferDone st data).settled := rfl
theorem exec_busRecoveryAttempt (s : State) (ok : Bool) (pulses : Nat) (scl : Bool) :
    exec (.busRecoveryAttempt ok pulses scl) s = (s.attempt ok pulses scl).settled := rfl
theorem exec_revive (s : State) : exec .revive s = .next s.reviveWrite := rfl
theorem exec_sbWrite (s : State) (len : Nat) (c : Cmd) : exec (.sbWrite len c) s = (s.trayWrite len c).settled := rfl
theorem exec_sbRead (s : State) : exec .sbRead s = .next s.trayRead := rfl
theorem exec_imageErase (s : State) (slot off : Nat) : exec (.imageErase slot off) s = .next (s.imageErase slot off) := rfl
theorem exec_imageProgram (s : State) (slot off : Nat) (data : List Byte) :
    exec (.imageProgram slot off data) s = .next (s.imageProgram slot off data) := rfl
theorem exec_imageReadStatus (s : State) : exec .imageReadStatus s =
    .next (if s.boot.inReset then s else s.emit (.tray [if s.sbd.load.isSome then 1 else if s.sbd.loadErr then 2 else 0])) := rfl
theorem exec_imageLoaderDone (s : State) (err : Bool) : exec (.imageLoaderDone err) s = (s.loaderDone err).settled := rfl

section
variable {s : State} {i addr sw k t pulses len slot off : Nat} {es : List Nat} {outs : List PollRead} {data : List Byte} {c : Cmd}

/-! ### The regulator bus (R453, R478 to R483) -/

/-- The status of the bus lies apart from a regulator's readings. -/
theorem sbdStat_apart (hi : i < 16) : regAddr .sbdStat 0 0 ≠ regAddr .sbdRegW1 i 0 := by
  revert i
  decide

/-- What a read that succeeds shows of regulator `i`. -/
def pollShown (outs : List PollRead) (s : State) (i : Nat) : State :=
  (s.fset Fld.sbdRegW1_IOUT i 0 (ioutOf (outs.getD i {}).iout)).fset Fld.sbdRegW1_VOUT i 0 (voutOf (tblGet 0 s.sbd.vmodes i) (outs.getD i {}).vout)

theorem pollShown_free (hi : i < 16) (hb : BusFree s) : BusFree (pollShown outs s i) := by
  obtain ⟨hdown, htries⟩ := hb
  refine ⟨?_, htries⟩
  rw [← hdown, State.busDown, State.busDown, pollShown, State.fget_fset_other _ _ _ _ _ _ _ _ (sbdStat_apart hi),
    State.fget_fset_other _ _ _ _ _ _ _ _ (sbdStat_apart hi)]

theorem pollOne_shows (hb : BusFree s) (hst : (outs.getD i {}).st = 0) : s.pollOne i (outs.getD i {}) = pollShown outs s i := by
  obtain ⟨hdown, htries⟩ := hb
  simp only [State.pollOne, hdown, htries, hst, Option.isSome_none, Bool.or_self, Bool.false_eq_true, if_false, if_true]
  rfl

/-- With the bus free and every read a success, a poll shows each regulator that it names. -/
theorem pollAll_shows (hlt : ∀ i ∈ es, i < 16) (hst : ∀ i ∈ es, (outs.getD i {}).st = 0) (hb : BusFree s) :
    State.each es (fun s i => s.pollOne i (outs.getD i {})) s = State.each es (pollShown outs) s := by
  induction es generalizing s with
  | nil => rfl
  | cons i es ih =>
    have hone := pollOne_shows hb (hst i (List.mem_cons_self ..))
    have hrest := ih (fun j hj => hlt j (List.mem_cons_of_mem _ hj)) (fun j hj => hst j (List.mem_cons_of_mem _ hj))
      (pollShown_free (outs := outs) (hlt i (List.mem_cons_self ..)) hb)
    exact (congrArg (State.each es _) hone).trans hrest

theorem readModes_free {s : State} (hb : BusFree s) : BusFree (s.readModes es outs) := by
  rw [State.readModes]
  split
  · exact hb
  · exact hb

/-- The entries of the regulators that a poll reads. -/
def polled (s : State) : List Nat := (List.range 16).filter (fun i => s.fget Fld.sbdRegW0_EN i == 1)

theorem polled_lt (h : i ∈ polled s) : i < 16 := List.mem_range.1 (List.mem_filter.1 h).1

/-- The state in which a poll of a free bus begins its reads. -/
def pollStart (s : State) (outs : List PollRead) : State := ({ s with sbd := { s.sbd with pollAt := s.now } } : State).readModes (polled s) outs

/-- The comparison that ends a poll, after which the readings are those of `u`. -/
def pollEnd (s u : State) (failed : Bool) : State :=
  u.pollCompare failed ((((polled s).filter (fun i => s.fget Fld.sbdRegW0_RAIL i == 0)).map (fun i => u.fget Fld.sbdRegW1_IOUT i)).sum / 10)

theorem poll_shows (hr : s.boot.inReset = false) (hb : BusFree s) (hd : s.pollDue = true) (hs : s.soon alerts = false)
    (hst : ∀ i ∈ polled s, (outs.getD i {}).st = 0) :
    s.poll outs = pollEnd s (State.each (polled s) (pollShown outs) (pollStart s outs)) false := by
  have hfree : BusFree (pollStart s outs) := readModes_free (s := { s with sbd := { s.sbd with pollAt := s.now } }) hb
  have hall := pollAll_shows (fun i hi => polled_lt hi) hst hfree
  have hgo : ¬ (s.boot.inReset = true ∨ s.pollDue = false ∨ s.soon alerts = true) := by simp [hr, hd, hs]
  have hnone : (polled s).any (fun i => (outs.getD i {}).st != 0) = false :=
    List.any_eq_false.2 (fun i hi => by rw [hst i hi]; decide)
  have hstop : (s.busDown || s.sbd.tries.isSome) = false := by rw [hb.1, hb.2]; rfl
  calc s.poll outs
      = pollEnd s (State.each (polled s) (fun s i => s.pollOne i (outs.getD i {}))
          (if s.busDown || s.sbd.tries.isSome then { s with sbd := { s.sbd with pollAt := s.now } } else pollStart s outs))
          (s.busDown || s.sbd.tries.isSome || (polled s).any (fun i => (outs.getD i {}).st != 0)) := if_neg hgo
    _ = pollEnd s (State.each (polled s) (fun s i => s.pollOne i (outs.getD i {})) (pollStart s outs)) false := by
        rw [hstop, hnone]; rfl
    _ = pollEnd s (State.each (polled s) (pollShown outs) (pollStart s outs)) false := congrArg (pollEnd s · false) hall

/-- The first alert of an enabled entry that reports a phase fault. -/
theorem alert_phaseFault (hr : s.boot.inReset = false) (hb : BusFree s)
    (he : (List.range 16).find? (fun i => s.fget Fld.sbdRegW0_EN i == 1 && s.fget Fld.sbdRegW0_ADDR i == addr) = some i)
    (hn : tblFind s.sbd.alertAt i = none) (hm : sw &&& s.fget Fld.sbdRegW0_PHASE_MASK i ≠ 0) :
    s.alert addr sw = ((({ s with sbd := { s.sbd with alertAt := tblPut s.sbd.alertAt i s.now } } : State).fset
        Fld.sbdRegW1_STATUS i 0 sw).errRec 0 0x57 0 14 [addr, sw]).capTrigger 0 := by
  obtain ⟨hdown, htries⟩ := hb
  simp only [State.alert, hr, hdown, htries, he, Option.getD_some, hn, if_pos hm, Option.isSome_none, Bool.or_self, Bool.false_eq_true, if_false, if_true]

section
variable {x : Xfer} {rest : List Xfer}

/-- The oldest transfer has gone out. -/
def xferSent (s : State) (x : Xfer) (rest : List Xfer) : State :=
  ({ s with sbd := { s.sbd with xfers := rest } } : State).emit (.regXfer x.addr x.pec x.data x.rlen)

theorem xferDone_ok (hx : s.sbd.xfers = x :: rest) (hlen : data.length = x.rlen) :
    s.xferDone 0 data = (xferSent s x rest).completeTicket x.ticket Status.ok data := by
  simp only [State.xferDone, hx, if_neg (by decide : ¬ 4 ≤ 0), hlen, and_self, if_true]
  rfl

theorem xferDone_fails {st : Nat} (hx : s.sbd.xfers = x :: rest) (hst : st = 1 ∨ st = 2) :
    s.xferDone st data = (xferSent s x rest).completeTicket x.ticket Status.fault [] := by
  have h4 : ¬ 4 ≤ st := by omega
  have hbad : ¬ (st = 0 ∧ data.length = x.rlen) := by omega
  have hstuck : ¬ (st = 3 ∧ s.busDown = false) := by omega
  simp only [State.xferDone, hx, if_neg h4, if_neg hbad, if_neg hstuck]
  rfl

end

/-- An attempt is not too early: it is the first, or 1 ms after the last. -/
theorem attempt_due (h : k = 0 ∨ t + us 1000 ≤ s.now) : ¬ (k ≠ 0 ∧ s.now < t + us 1000) := by omega

theorem attempt_recovers {scl : Bool} (hx : s.sbd.tries = some (k, t)) (hd : k = 0 ∨ t + us 1000 ≤ s.now) :
    s.attempt true pulses scl = ((({ s with sbd := { s.sbd with tries := none, vmode := false } } : State).fset Fld.sbdStat_DOWN 0 0 0).errRec 0 0x61 0 14
      [k + 1, pulses]).recoverEnd := by
  simp only [State.attempt, hx, if_neg (attempt_due hd), if_true]

theorem attempt_fails {scl : Bool} (hx : s.sbd.tries = some (k, t)) (hd : k = 0 ∨ t + us 1000 ≤ s.now) :
    s.attempt false pulses scl = if scl = true ∨ 2 ≤ k then (s.busStuck scl (k + 1)).recoverEnd
      else { s with sbd := { s.sbd with tries := some (k + 1, s.now) } } := by
  simp only [State.attempt, hx, if_neg (attempt_due hd), Bool.false_eq_true, if_false]

theorem reviveWrite_again (h : s.sbd.tries ≠ none) : s.reviveWrite = { s with sbd := { s.sbd with again := true } } :=
  if_pos (Option.isSome_iff_ne_none.2 h)

theorem reviveWrite_starts (hd : s.busDown = true) (h : s.sbd.tries = none) :
    s.reviveWrite = { s with sbd := { s.sbd with tries := some (0, s.now) } } := by
  simp only [State.reviveWrite, h, hd, Option.isSome_none, Bool.false_eq_true, if_false, if_true]
  rfl

/-! ### The tray bus (R477, R479, R484) -/

theorem trayWrite_room (hr : s.boot.inReset = false) (hroom : s.cmd.sbBuf.length < 4) :
    s.trayWrite len c = if len ≠ 16 + c.plen ∨ 4112 < len then s.fsat Fld.sbdStat_SHORT 0 0 1 else s.arrive 3 3 c := by
  refine if_neg ?_
  rw [hr]
  rintro (h | h)
  · exact Bool.false_ne_true h
  · omega

theorem trayRead_oldest {r : Reply} {rest : List Reply} (hr : s.boot.inReset = false) (hb : s.cmd.sbBuf = r :: rest) :
    s.trayRead = ({ s with cmd := { s.cmd with sbBuf := rest } } : State).emit (.tray (bytesOfWords (replyHeader r) ++ r.body)) := by
  simp only [State.trayRead, hr, hb, Bool.false_eq_true, if_false]

theorem trayRead_empty (hr : s.boot.inReset = false) (hb : s.cmd.sbBuf = []) : s.trayRead = s.emit (.tray (List.replicate 16 0)) := by
  simp only [State.trayRead, hr, hb, Bool.false_eq_true, if_false]

theorem trayTakes (hr : s.boot.inReset = false) (hi : s.i3c = false) : (s.boot.inReset || s.i3c) = false := by rw [hr, hi]; rfl

/-- A CCC read of the target in I3C mode. -/
theorem ccc_reads {n v : Nat} (hi : s.i3c = true) : s.ccc n v = { s with out := s.out ++ [.tray (toBytes n v).reverse] } := if_pos hi

/-! ### The image loader (R485) -/

theorem loaderTakes_iff : s.loaderTakes slot off = true ↔ s.boot.inReset = false ∧ s.bound = false ∧ s.sbd.load = none ∧ slot < 2 ∧ off % 256 = 0 ∧
    (s.phase = 5 ∨ slot ≠ s.fget Fld.cmdBootW0_IMAGE) := by
  simp only [State.loaderTakes, State.phase, Bool.and_eq_true, Bool.not_eq_true', Option.isNone_iff_eq_none, decide_eq_true_eq, Bool.or_eq_true,
    beq_iff_eq, bne_iff_ne, and_assoc, ne_eq]

theorem loaderTakes_inReset (hr : s.boot.inReset = true) : ¬ s.loaderTakes slot off = true :=
  fun h => absurd (hr.symm.trans (loaderTakes_iff.1 h).1) (by decide)

theorem loaderDone_ends {erase err : Bool} (hl : s.sbd.load = some (erase, slot)) : s.loaderDone err =
    if erase = true ∧ err = false then ({ s with sbd := { s.sbd with load := none, loadErr := err } } : State).errRec 0 0x64 0 14 [slot]
    else { s with sbd := { s.sbd with load := none, loadErr := err } } := by
  simp only [State.loaderDone, hl]

end

end Sys2Proof.Machine

namespace Sys2Proof.Claims
open Sys2Proof Sys2Proof.Machine

/-- Settles O26: each event of the regulator bus, with the bus free or in a recovery. -/
theorem regulatorBusPollsAlertsAndRecovers : Obligations.RegulatorBusPollsAlertsAndRecovers := by
  unfold Obligations.RegulatorBusPollsAlertsAndRecovers
  intro s es
  refine ⟨fun outs hr hb hd hs hst => (exec_regulatorPoll s outs).trans (settled_of_eq (poll_shows hr hb (decide_eq_true hd) hs hst)),
    fun addr sw i hr hb he hn hm => (exec_regulatorAlert s addr sw).trans (settled_of_eq (alert_phaseFault hr hb he hn hm)),
    fun x rest data hx hlen => (exec_sbdXferDone s 0 data).trans (settled_of_eq (xferDone_ok hx hlen)),
    fun x rest st data hx hst => (exec_sbdXferDone s st data).trans (settled_of_eq (xferDone_fails hx hst)),
    fun k t pulses scl hx hd => (exec_busRecoveryAttempt s true pulses scl).trans (settled_of_eq (attempt_recovers hx hd)),
    fun k t pulses hx hd hk => ?another, fun t pulses scl hx hd => ?last,
    fun hd hx => (exec_revive s).trans (next_of_eq (reviveWrite_starts hd hx)), fun hx => (exec_revive s).trans (next_of_eq (reviveWrite_again hx))⟩
  case another =>
    have hmore : ¬ (false = true ∨ 2 ≤ k) := by simp; omega
    exact (exec_busRecoveryAttempt s false pulses false).trans (settled_of_eq ((attempt_fails hx hd).trans (if_neg hmore)))
  case last =>
    exact (exec_busRecoveryAttempt s false pulses scl).trans (settled_of_eq ((attempt_fails hx (.inr hd)).trans (if_pos (.inr (Nat.le_refl 2)))))

/-- Settles O27: the tray bus in its two modes, the image loader, and both in a cold reset. -/
theorem trayBusAndImageLoader : Obligations.TrayBusAndImageLoader := by
  unfold Obligations.TrayBusAndImageLoader
  refine ⟨fun s => ⟨fun len c hr hroom hlen hmax => ?command, fun len c hr hroom hbad => ?short, fun r rest hr hb => next_of_eq (trayRead_oldest hr hb),
    fun hr hb => next_of_eq (trayRead_empty hr hb), rfl, fun ev hi hev => ⟨next_of_eq (if_pos ⟨hi, hev⟩), next_of_eq (if_pos ⟨hi, hev⟩)⟩, rfl,
    fun a hr hi => ?address, fun hi => ?ccc⟩, fun s slot off => ⟨fun hr hb hl hs ho hslot => ?takes, fun erase err hl => ⟨fun hr => ?busy, ?done⟩,
    fun hr hl => ?status⟩, fun s len a slot off c data hr => ?reset⟩
  case command =>
    exact (exec_sbWrite s len c).trans (settled_of_eq ((trayWrite_room hr hroom).trans (if_neg (by omega))))
  case short => exact (exec_sbWrite s len c).trans (settled_of_eq ((trayWrite_room hr hroom).trans (if_pos hbad)))
  case address =>
    have htakes : ¬ (s.boot.inReset || s.i3c) = true := by rw [trayTakes hr hi]; exact Bool.false_ne_true
    exact ⟨next_of_eq (if_neg htakes), next_of_eq (if_neg htakes)⟩
  case ccc =>
    exact ⟨fun len => ⟨next_of_eq (if_pos hi), next_of_eq (if_pos hi)⟩, next_of_eq (ccc_reads hi), next_of_eq (ccc_reads hi), next_of_eq (ccc_reads hi),
      next_of_eq (ccc_reads hi), next_of_eq (ccc_reads hi), next_of_eq ((if_pos hi).trans (ccc_reads hi))⟩
  case takes =>
    have htakes := loaderTakes_iff.2 ⟨hr, hb, hl, hs, ho, hslot⟩
    exact ⟨(exec_imageErase s slot off).trans (next_of_eq (if_pos htakes)), fun data hd =>
      (exec_imageProgram s slot off data).trans (next_of_eq (if_pos ⟨htakes, hd⟩))⟩
  case busy => rw [exec_imageReadStatus, hr, hl]; rfl
  case done =>
    rw [exec_imageLoaderDone, loaderDone_ends hl, settled_eq]
    split
    next h => rw [h.2]
    next => rfl
  case status => rw [exec_imageReadStatus, hr, hl]; rfl
  case reset =>
    rw [exec_sbRead, exec_imageErase, exec_imageProgram, exec_imageReadStatus]
    have hin : (s.boot.inReset || s.i3c) = true := by rw [hr]; rfl
    exact ⟨(exec_sbWrite s len c).trans (settled_of_eq (if_pos (.inl hr))), next_of_eq (if_pos hr), next_of_eq (if_pos hin), next_of_eq (if_pos hin),
      next_of_eq (if_neg (loaderTakes_inReset hr)), next_of_eq (if_neg (fun h => loaderTakes_inReset hr h.1)), next_of_eq (if_pos hr)⟩

end Sys2Proof.Claims
end

section
/-! PROOFS. Power and heat (R445, R446, R448 to R450, R452, R453, R455 to R458, R471, R514): the choice of states, the wakes, the Damper, Smoulder and thermal
control, one equation per case. -/

namespace Sys2Proof.Machine
open Sys2Proof Sys2Proof.Claims

/-! ### The rows -/

theorem exec_powerChoice (s : State) : exec .powerChoice s = s.powerChoice.settled := rfl
theorem exec_damperSlot (s : State) : exec .damperSlot s = s.damperSlot.settled := rfl
theorem exec_domainWakeComplete (s : State) (d : Nat) : exec (.domainWakeComplete d) s = (s.wakeDone d).settled := rfl
theorem exec_pwrSetTimeout (s : State) (n : Nat) : exec (.pwrSetTimeout n) s = (s.pwrSetTimeout n).settled := rfl
theorem exec_powerEstimate (s : State) (n : Nat) : exec (.powerEstimate n) s = .next (s.estimate n) := rfl
theorem exec_retrust (s : State) : exec .retrust s = .next s.retrustWrite := rfl
theorem exec_smoulderTick (s : State) (n : Nat) : exec (.smoulderTick n) s = (s.smoulder n).settled := rfl
theorem exec_thermalSample (s : State) (temps : List Nat) (sensor : Nat) :
    exec (.thermalSample temps sensor) s = (s.thermSample temps sensor).settled := rfl
theorem exec_throttleStep (s : State) : exec .throttleStep s = s.throttle.settled := rfl

section
variable {s : State} {d f st h n i t : Nat}

theorem exec_domainWake (hd : d < 50) : exec (.domainWake d) s = (s.wake d).pwrSettle.settled := if_pos hd

/-! ### The choice of states (R445, R448, R471) -/

/-- A microsecond after the last choice, the forced entries have been carried out. -/
def forcedDone (s : State) : State := State.each s.pwr.forced State.forceOne { s with pwr := { s.pwr with choiceAt := s.now } }

theorem powerChoice_due (hq : s.quenched = false) (hd : s.pwr.choiceAt + us 1 ≤ s.now) : s.powerChoice =
    if s.fget Fld.cmdBootW0_PHASE = 4 then (State.each (List.range 50) State.choose (forcedDone s)).pwrSettle else (forcedDone s).pwrSettle :=
  if_neg (by rw [hq, decide_eq_false (Nat.not_lt.2 hd)]; exact Bool.false_ne_true)

/-- The deepest state permitted is the first of Banked, Drowse and Idle that is. -/
theorem find_deepest (h1 : 1 ≤ st) (h3 : st ≤ 3) (hp : s.permits d f st = true) (hdeeper : ∀ k, st < k → k ≤ 3 → s.permits d f k = false) :
    [3, 2, 1].find? (fun k => s.permits d f k) = some st := by
  obtain rfl | rfl | rfl : st = 3 ∨ st = 2 ∨ st = 1 := by omega
  · simp only [List.find?_cons, hp]
  · simp only [List.find?_cons, hp, hdeeper 3 (by omega) (by omega)]
  · simp only [List.find?_cons, hp, hdeeper 3 (by omega) (by omega), hdeeper 2 (by omega) (by omega)]

theorem choose_deepens (hf : domFunc d = some f) (hfind : [3, 2, 1].find? (fun k => s.permits d f k) = some st)
    (hr : s.pwr.reqs.any (fun r => r.dom == d) = false) (hw : tblFind s.pwr.waking d = none) :
    s.choose d = if s.domState d < st then s.deepen d st else s := by
  simp only [State.choose, hf, hfind, hr, hw, Option.isSome_none, Bool.or_self, and_true]

theorem choose_noFunction (hf : domFunc d = none) : s.choose d = s := by simp only [State.choose, hf]

theorem choose_noState (hf : domFunc d = some f) (hn : ∀ k, 1 ≤ k → k ≤ 3 → s.permits d f k = false) : s.choose d = s := by
  have hfind : [3, 2, 1].find? (fun k => s.permits d f k) = none := by
    simp only [List.find?_cons, hn 3 (by decide) (by decide), hn 2 (by decide) (by decide), hn 1 (by decide) (by decide), List.find?_nil]
  simp only [State.choose, hf, hfind]

/-! ### Wakes (R446, R448 to R450) -/

/-- The wake cause of a domain is recorded. -/
def causeAt (s : State) (d : Nat) : State := { s with pwr := { s.pwr with cause := tblPut s.pwr.cause d s.now } }

theorem wake_active (hs : s.domState d = Pwr.active) : s.wake d = causeAt s d :=
  if_pos (by rw [hs]; exact Bool.or_true _)

theorem wake_awake (hq : s.quenched = false) (hs : s.domState d ≠ Pwr.active) : s.wake d =
    if s.domState d = Pwr.idle then (causeAt s d).domUp d (s.domState d)
    else if s.pwr.reqs.any (fun r => r.dom == d) || (tblFind s.pwr.waking d).isSome then causeAt s d
    else ({ causeAt s d with pwr := { (causeAt s d).pwr with reqs := s.pwr.reqs ++
      [{ dom := d, deep := s.domState d, at_ := s.now, rem := s.wakeStep d (s.domState d) }] } } : State).damperShow :=
  if_neg (by rw [hq, beq_eq_false_iff_ne.2 hs]; exact Bool.false_ne_true)

theorem wake_idle (hq : s.quenched = false) (hs : s.domState d = Pwr.idle) : s.wake d = (causeAt s d).domUp d Pwr.idle :=
  (wake_awake hq (by rw [hs]; decide)).trans ((if_pos hs).trans (by rw [hs]))

theorem wake_queues (hq : s.quenched = false) (hs : s.domState d = Pwr.drowse ∨ s.domState d = Pwr.banked)
    (hr : s.pwr.reqs.any (fun r => r.dom == d) = false) (hw : tblFind s.pwr.waking d = none) : s.wake d =
    ({ causeAt s d with pwr := { (causeAt s d).pwr with reqs := s.pwr.reqs ++
      [{ dom := d, deep := s.domState d, at_ := s.now, rem := s.wakeStep d (s.domState d) }] } } : State).damperShow := by
  have hactive : s.domState d ≠ Pwr.active := by obtain h | h := hs <;> rw [h] <;> decide
  have hidle : s.domState d ≠ Pwr.idle := by obtain h | h := hs <;> rw [h] <;> decide
  rw [wake_awake hq hactive, if_neg hidle, hr, hw]
  rfl

theorem damperSlot_due (hq : s.quenched = false) (hd : s.pwr.slotAt + us (s.fget Fld.pwrDamp_SLOT) ≤ s.now) : s.damperSlot =
    (({ s with pwr := { s.pwr with slotAt := s.now } } : State).damperLoop s.damperBudget (s.pwr.reqs.foldl (fun l r => s.wakeInsert r l) []) 0).damperShow :=
  if_neg (by rw [hq, decide_eq_false (Nat.not_lt.2 hd)]; exact Bool.false_ne_true)

theorem wakeDone_due (hw : tblFind s.pwr.waking d = some t) (ht : t ≤ s.now) : s.wakeDone d =
    (({ s with pwr := { s.pwr with waking := tblDel s.pwr.waking d } } : State).domUp d (s.domState d)).pwrSettle := by
  simp only [State.wakeDone, hw, if_neg (Nat.not_lt.2 ht)]

theorem pwrSetTimeout_due {c : PwrCmd} (hc : s.pwr.cmds.find? (fun x => x.ticket == n) = some c) (ht : c.at_ + us 200000 ≤ s.now) : s.pwrSetTimeout n =
    ({ s with pwr := { s.pwr with cmds := s.pwr.cmds.filter (fun x => x.ticket != n) } } : State).completeTicket n Status.timeout [] := by
  simp only [State.pwrSetTimeout, hc, if_neg (Nat.not_lt.2 ht)]

/-- The reply ring waits while the mailbox's host port is in D3hot. -/
theorem mboxWaits_d3hot (h : s.fget Fld.cmdMboxRspCtrl_HOST ∈ s.boot.d3hot) : s.mboxWaits = true := by
  have hup : s.hostUp (s.fget Fld.cmdMboxRspCtrl_HOST) = false := by
    rw [State.hostUp, List.contains_iff_mem.2 h, Bool.not_true, Bool.and_false, Bool.false_and]
  rw [State.mboxWaits, hup, Bool.not_false, Bool.or_true, Bool.true_or]

/-- A packet for the mailbox that waits goes to the holding buffer while it has room. -/
theorem placeAt_holds {r : Reply} (hr : r.partner = 2) (he : s.fget Fld.cmdMboxRspCtrl_EN = 1) (hw : s.mboxWaits = true)
    (hroom : s.cmd.holding.length < 64) : s.placeAt r = ({ s with cmd := { s.cmd with holding := s.cmd.holding ++ [r] } }, true) := by
  have h01 : ¬ (r.partner = 0 ∨ r.partner = 1) := by omega
  have hen : s.fget Fld.cmdMboxRspCtrl_EN ≠ 0 := by omega
  rw [State.placeAt, if_neg h01, if_pos hr, if_neg hen, hw, Bool.true_or, if_pos rfl, if_pos hroom]

/-! ### Estimates and Smoulder (R452, R453) -/

theorem estimate_due (hr : s.boot.inReset = false) (hd : s.pwr.estAt + us 1 ≤ s.now) : s.estimate n =
    (({ s with pwr := { s.pwr with estAt := s.now } } : State).fset Fld.pwrEst_P 0 0 n).fset Fld.pwrEst_I_EST 0 0 (n * 4 / 3) :=
  if_neg (by rw [hr, decide_eq_false (Nat.not_lt.2 hd)]; exact Bool.false_ne_true)

theorem smoulder_off (hd : s.pwr.smAt + us 1 ≤ s.now) (hoff : s.quenched = true ∨ s.fget Fld.pwrSmoulder_EN = 0) : s.smoulder n =
    ({ s with pwr := { s.pwr with smAt := s.now, env := 0, short := none } } : State).fset Fld.pwrEst_FILLER 0 0 0 :=
  (if_neg (Nat.not_lt.2 hd)).trans (if_pos (by rwa [Bool.or_eq_true, beq_iff_eq]))

/-- The envelope of Smoulder has fallen by FALL, but not below the power. -/
def envFallen (s : State) : Nat := max (1000 * s.fget Fld.pwrEst_P) (s.pwr.env - s.fget Fld.pwrSmoulder_FALL)

/-- The filler work that `n` shows. -/
def fillerAt (s : State) (n : Nat) : State :=
  ({ s with pwr := { s.pwr with smAt := s.now, env := envFallen s } } : State).fset Fld.pwrEst_FILLER 0 0 n

/-- Filler work wakes the cluster domains in Idle. -/
def fillerWakes (s : State) : State := State.each ((funcDoms 2).filter (fun d => s.domState d == Pwr.idle)) State.wake s

/-- With Smoulder enabled the filler work runs where, at throttle level 0, the power is below the target. -/
theorem smoulder_on {filler : Nat} (hd : s.pwr.smAt + us 1 ≤ s.now) (hq : s.quenched = false) (he : s.fget Fld.pwrSmoulder_EN ≠ 0)
    (hf : (if s.fget Fld.pwrTherm_LEVEL = 0 ∧ 1000 * s.fget Fld.pwrEst_P < s.smoulderTarget (envFallen s) then n else 0) = filler) : s.smoulder n =
    (if filler = 0 then fillerAt s filler else fillerWakes (fillerAt s filler)).floorCheck (s.smoulderTarget (envFallen s)) (s.fget Fld.pwrEst_P) filler := by
  have hon : (s.quenched || s.fget Fld.pwrSmoulder_EN == 0) = false := by rw [hq, beq_eq_false_iff_ne.2 he]; rfl
  rw [envFallen] at hf
  simp only [State.smoulder, if_neg (Nat.not_lt.2 hd), hon, hf, Bool.false_eq_true, if_false, fillerWakes, fillerAt, envFallen]

/-! ### Thermal control (R455 to R458, R514) -/

section
variable {temps : List Nat} {sensor : Nat}

/-- A sample that leaves the readings shown in the state `u`. -/
theorem thermSample_due {u : State} (hc : s.pwr.cut = false) (hr : s.boot.inReset = false) (hd : s.pwr.sampleAt + us 10 ≤ s.now)
    (hh : hottest (temps.take 23) 0 (0, 0) = (i, t))
    (hu : ({ s with pwr := { s.pwr with sampleAt := s.now } } : State).tempShow temps i t = u) : s.thermSample temps sensor =
    if 125 ≤ t then ({ u with pwr := { u.pwr with cut := true } } : State).emit .thermTrip
    else State.each [0, 1, 2] (fun s k => s.thermStep t (readingDie i) (if i < 15 then sensor else 0x100 + (i - 15)) k) u := by
  have hgo : (s.pwr.cut || decide (s.now < s.pwr.sampleAt + us 10)) = false := by rw [hc, decide_eq_false (Nat.not_lt.2 hd)]; rfl
  subst hu
  simp only [State.thermSample, hgo, hr, hh, Bool.false_eq_true, if_false]

theorem thermSample_inReset (hc : s.pwr.cut = false) (hr : s.boot.inReset = true) (hd : s.pwr.sampleAt + us 10 ≤ s.now)
    (hh : hottest (temps.take 23) 0 (0, 0) = (i, t)) : s.thermSample temps sensor =
    if 125 ≤ t then ({ s with pwr := { s.pwr with sampleAt := s.now, cut := true } } : State).emit .thermTrip
    else { s with pwr := { s.pwr with sampleAt := s.now } } := by
  simp only [State.thermSample, hc, hr, hh, decide_eq_false (Nat.not_lt.2 hd), Bool.or_self, Bool.false_eq_true, if_false, if_true]

end

/-- The second hit in a row on a threshold not yet reached. -/
def thermHit (s : State) (k : Nat) : State :=
  { s with pwr := { s.pwr with hits := tblPut s.pwr.hits k (tblGet 0 s.pwr.hits k + 1), reached := s.pwr.reached ++ [k] } }

theorem thermStep_reaches {die sensor k : Nat} (ht : thermLimit k ≤ t) (hn : k ∉ s.pwr.reached) (hh : 1 ≤ tblGet 0 s.pwr.hits k) :
    s.thermStep t die sensor k = (thermHit s k).thermReach k die t sensor := by
  have hnew : s.pwr.reached.contains k = false := by simpa using hn
  have htwo : 2 ≤ tblGet 0 s.pwr.hits k + 1 := Nat.succ_le_succ hh
  simp only [State.thermStep, if_pos ht, hnew, htwo, and_self, if_true]
  rfl

theorem throttle_rises {why : Nat} (hw : s.throttleWhy = some why) (hl : s.fget Fld.pwrTherm_LEVEL = n) (h7 : n < 7)
    (hd : s.pwr.stepAt + us 1000 ≤ s.now) : s.throttle = s.throttleTo (n + 1) why := by
  simp only [State.throttle, hw, hl, h7, hd, and_self, if_true]

theorem throttle_falls (hw : s.throttleWhy = none) (hl : s.fget Fld.pwrTherm_LEVEL = n) (h0 : 0 < n) (hd : s.pwr.stepAt + us 10000 ≤ s.now) :
    s.throttle = s.throttleTo (n - 1) s.pwr.stepCap := by
  simp only [State.throttle, hw, hl, h0, hd, and_self, if_true]

end

end Sys2Proof.Machine

namespace Sys2Proof.Claims
open Sys2Proof Sys2Proof.Machine

/-- Settles O28: the choice for a domain, a wake by the state of its domain, and the D-states of a host function. -/
theorem powerChoiceAndWakesMoveDomains : Obligations.PowerChoiceAndWakesMoveDomains := by
  unfold Obligations.PowerChoiceAndWakesMoveDomains
  refine ⟨fun s => ?choice, fun s => ?wake⟩
  case choice =>
    intro forced
    rw [exec_powerChoice]
    exact ⟨fun hq hd hp => settled_of_eq ((powerChoice_due hq hd).trans (if_pos hp)),
      fun hq hd hp => settled_of_eq ((powerChoice_due hq hd).trans (if_neg hp)),
      fun d f st hf h1 h3 hp hdeeper hr hw => choose_deepens hf (find_deepest h1 h3 hp hdeeper) hr hw, fun d hf => choose_noFunction hf,
      fun d f hf hn => choose_noState hf hn⟩
  case wake =>
    intro cause
    have hwake {d : Nat} {u : State} (hd : d < 50) (h : s.wake d = u) := (exec_domainWake hd).trans (settled_of_eq (congrArg State.pwrSettle h))
    exact ⟨fun d hd hq hs => hwake hd (wake_idle hq hs), fun d hd _ hs => hwake hd (wake_active hs),
      fun d hd hq hs hr hw => hwake hd (wake_queues hq hs hr hw), fun hq hd => (exec_damperSlot s).trans (settled_of_eq (damperSlot_due hq hd)),
      fun d t hw ht => (exec_domainWakeComplete s d).trans (settled_of_eq (wakeDone_due hw ht)),
      fun c hc ht => (exec_pwrSetTimeout s c.ticket).trans (settled_of_eq (pwrSetTimeout_due hc ht)),
      fun h hh hn => next_of_eq (if_pos ⟨hh, by simpa using hn⟩), fun r hr he hh hroom => placeAt_holds hr he (mboxWaits_d3hot hh) hroom,
      fun h hh => if_pos (List.contains_iff_mem.2 hh)⟩

/-- Settles O29: an estimate, RETRUST, and Smoulder enabled with and without filler work, or off. -/
theorem smoulderFillsUpToTheTarget : Obligations.SmoulderFillsUpToTheTarget := by
  unfold Obligations.SmoulderFillsUpToTheTarget
  intro s n p env s1
  rw [exec_powerEstimate, exec_smoulderTick]
  refine ⟨fun hr hd => next_of_eq (estimate_due hr hd), exec_retrust s, fun hd hq he => ⟨fun hl hp hn => ?fills, fun hno => ?none⟩,
    fun hd hoff => settled_of_eq (smoulder_off hd hoff)⟩
  case fills => exact settled_of_eq ((smoulder_on hd hq he (if_pos ⟨hl, hp⟩)).trans (by rw [if_neg hn]; rfl))
  case none =>
    have hzero : (if s.fget Fld.pwrTherm_LEVEL = 0 ∧ 1000 * s.fget Fld.pwrEst_P < s.smoulderTarget (envFallen s) then n else 0) = 0 := by
      obtain h | h | rfl := hno
      · exact if_neg (fun hc => h hc.1)
      · exact if_neg (fun hc => Nat.not_lt.2 h hc.2)
      · exact ite_self 0
    exact settled_of_eq ((smoulder_on hd hq he hzero).trans (by rw [if_pos rfl]; rfl))

/-- Settles O30: a sample in and out of a cold reset, a threshold reached, the throttle's steps, and the two ends of a quench. -/
theorem thermalControlThrottlesAndQuenches : Obligations.ThermalControlThrottlesAndQuenches := by
  unfold Obligations.ThermalControlThrottlesAndQuenches
  intro s
  refine ⟨fun temps sensor i t hc hr hd hh => ?sample, fun temps sensor i t hc hr hd hh => ?inReset,
    fun t die sensor k ht hn hh => thermStep_reaches ht hn hh, fun why l hw hl h7 hd => (exec_throttleStep s).trans (settled_of_eq (throttle_rises hw hl h7 hd)),
    fun l hw hl h0 hd => (exec_throttleStep s).trans (settled_of_eq (throttle_falls hw hl h0 hd)), fun hq hr => if_pos ⟨hq, hr⟩,
    fun hq hd => if_pos ⟨hq, hd⟩⟩
  case sample =>
    generalize hu : ({ s with pwr := { s.pwr with sampleAt := s.now } } : State).tempShow temps i t = u
    rw [exec_thermalSample, thermSample_due hc hr hd hh hu]
    exact ⟨fun ht => settled_of_eq (if_pos ht), fun ht => settled_of_eq (if_neg (Nat.not_le.2 ht))⟩
  case inReset =>
    rw [exec_thermalSample, thermSample_inReset hc hr hd hh]
    exact ⟨fun ht => settled_of_eq (if_pos ht), fun ht => settled_of_eq (if_neg (Nat.not_le.2 ht))⟩

end Sys2Proof.Claims
end

section
/-! PROOFS. Check-value channels, the clock and its windows, HBM granules, the Rick and the Reservoir (R78, R297, R302, R305, R309, R315 to R321, R328 to R330,
R417, R425, R432, R433, R490 to R497, R524): each event by what it finds. -/

namespace Sys2Proof.Machine
open Sys2Proof Sys2Proof.Claims

/-! ### The rows -/

theorem exec_crcFeedDone (s : State) (ch : Nat) : exec (.crcFeedDone ch) s = .next (s.feedDone ch) := rfl
theorem exec_crcRestart {s : State} {ch : Nat} (h : ch < 16) : exec (.crcRestart ch) s = .next (s.crcRestartWrite ch) := next_of_eq (if_pos h)
theorem exec_crcConfigWrite (s : State) (ch j v : Nat) : exec (.crcConfigWrite ch j v) s =
    .next (if ch < 16 ∧ j < 3 then s.crcCfgWrite ch j (BitVec.ofNat 64 v) else s) := rfl
theorem exec_timeHoldEnd (s : State) : exec .timeHoldEnd s = .next s.holdEnd := rfl
theorem exec_xlateInvalDrainDone (s : State) (n : Nat) : exec (.xlateInvalDrainDone n) s = .next (s.xlateDrainDone n) := rfl
theorem exec_errCaptureArm (s : State) (d : Nat) : exec (.errCaptureArm d) s = .next (s.captureArm d) := rfl
theorem exec_errWinFirClear (s : State) (i : Nat) : exec (.errWinFirClear i) s = .next (s.firClear i) := rfl
theorem exec_recoveryWindowEnd (s : State) (i : Nat) : exec (.recoveryWindowEnd i) s = .next (s.windowEnd i) := rfl
theorem exec_rickCmdComplete (s : State) (n : Nat) (ue : List Nat) : exec (.rickCmdComplete n ue) s = .next (s.rickComplete n ue) := rfl
theorem exec_journalWrite (s : State) (ticket n : Nat) : exec (.journalWrite ticket n) s = .next (s.journalWrite ticket n) := rfl
theorem exec_nandProgramFail (s : State) (ch block lost : Nat) : exec (.nandProgramFail ch block lost) s = .next (s.programFail ch block lost) := rfl
theorem exec_rickRecovery (s : State) (up : Nat) (torn : List (Nat × Nat)) (free targets luns : Nat) :
    exec (.rickRecovery up torn free targets luns) s = .next (s.rickRecover up torn free targets luns) := rfl
theorem exec_rickQuenchSignal (s : State) : exec .rickQuenchSignal s = .next s.rickQuench := rfl
theorem exec_rickProgramsEnded (s : State) : exec .rickProgramsEnded s = .next s.rickProgramsEnded := rfl
theorem exec_rickQuenchProgTimeout (s : State) : exec .rickQuenchProgTimeout s = .next s.rickProgTimeout := rfl
theorem exec_rickJournalWritten (s : State) : exec .rickJournalWritten s = .next s.rickJournalWritten := rfl
theorem exec_fillComplete (s : State) (k : Nat) (ue : List Nat) : exec (.fillComplete k ue) s = .next (s.fillComplete k ue) := rfl
theorem exec_rsvHeatPeriod (s : State) : exec .rsvHeatPeriod s = .next s.heatHalve := rfl
theorem exec_promotionScan (s : State) : exec .promotionScan s = .next s.promotionScan := rfl

section
variable {s : State} {ch i k g n : Nat}

theorem exec_granuleDrained (h : k < 8) : exec (.granuleDrained k g) s = .next (s.granuleDrained k g) := next_of_eq (if_pos h)
theorem exec_granuleZeroed (h : k < 8) : exec (.granuleZeroed k g) s = .next (s.granuleZeroed k g) := next_of_eq (if_pos h)
theorem exec_scrubStep (h : k < 8) : exec (.scrubStep k) s = .next (s.scrubStep k) := next_of_eq (if_pos h)
theorem exec_controllerZeroFillDone (h : k < 8) : exec (.controllerZeroFillDone k) s = .next (s.zeroFillDone k) := next_of_eq (if_pos h)

/-! ### Check-value channels (R417, R490 to R493) -/

/-- A piece of one line that reads well is fed at once. -/
theorem feedLines_one {addr left fed : Nat} {l : List Byte} (hpos : 0 < left) (hline : addr % 128 + left ≤ 128)
    (hl : s.internalRead addr left none = some l) :
    s.feedLines ch addr left fed (n + 2) = ((s.internalTouch addr left).crcFeed ch l, fed + left, true) := by
  have hmin : min left (128 - addr % 128) = left := Nat.min_eq_left (by omega)
  simp only [State.feedLines, Nat.ne_of_gt hpos, hmin, hl, Nat.sub_self, if_false, if_true]

theorem feedDone_line {f : CrcFeed} {l : List Byte} (hf : tblFind s.crc.feeds ch = some f) (hpos : 0 < f.left) (hline : f.addr % 128 + f.left ≤ 128)
    (hw : s.readWaits f.addr = false) (hl : s.internalRead f.addr f.left none = some l) :
    s.feedDone ch =
      let u := (s.internalTouch f.addr f.left).crcFeed ch l
      let v : State := { u with crc := { u.crc with feeds := tblDel u.crc.feeds ch } }
      (v.crcRelease ch).completeTicket f.ticket Status.ok (bytesOfWords [v.rd .crcValue ch, BitVec.ofNat 64 (f.fed + f.left)]) := by
  simp only [State.feedDone, hf, hw, feedLines_one hpos hline hl, Bool.false_eq_true, if_false, if_true]

theorem crcRestartWrite_free (hf : s.crcFree ch = true) : s.crcRestartWrite ch = s.crcRestart ch := if_pos hf

/-- With no tenant bound, another POLY that is in range for its WIDTH is applied to a free channel. -/
theorem crcCfgWrite_poly {v : Word} (hb : s.bound = false) (hf : s.crcFree ch = true) (hodd : bit v 0 = true) (hlo : 8 ≤ bits (s.rd .crcCfg ch) 6 0)
    (hhi : bits (s.rd .crcCfg ch) 6 0 ≤ 64) (hv : v.toNat < 2 ^ bits (s.rd .crcCfg ch) 6 0) (hi : (s.rd .crcInit ch).toNat < 2 ^ bits (s.rd .crcCfg ch) 6 0)
    (hnew : s.rd .crcPoly ch ≠ v) : s.crcCfgWrite ch 0 v = (s.wr .crcPoly ch 0 v).crcRestart ch := by
  have hcheck : s.crcCfgCheck ch v (s.rd .crcInit ch) (s.rd .crcCfg ch) = Status.ok := by
    have hother : ¬ (v = s.rd .crcPoly ch ∧ s.rd .crcInit ch = s.rd .crcInit ch ∧ s.rd .crcCfg ch = s.rd .crcCfg ch) := fun h => hnew h.1.symm
    have hrange : ¬ (bits (s.rd .crcCfg ch) 6 0 < 8 ∨ 64 < bits (s.rd .crcCfg ch) 6 0 ∨ (!bit v 0) = true ∨
        2 ^ bits (s.rd .crcCfg ch) 6 0 ≤ v.toNat ∨ 2 ^ bits (s.rd .crcCfg ch) 6 0 ≤ (s.rd .crcInit ch).toNat) := by
      rw [hodd]
      simp only [Bool.not_true, Bool.false_eq_true, false_or, not_or, Nat.not_lt, Nat.not_le]
      exact ⟨hlo, hhi, hv, hi⟩
    rw [State.crcCfgCheck, if_neg hother, hf, Bool.not_true, if_neg Bool.false_ne_true, if_neg hrange]
  have hnb : ¬ s.bound = true := by rw [hb]; exact Bool.false_ne_true
  exact (if_neg hnb).trans ((if_pos hcheck).trans (if_neg hnew))

theorem crcCfgWrite_bound {j : Nat} {v : Word} (hb : s.bound = true) : s.crcCfgWrite ch j v = s := if_pos hb

/-! ### The clock and the windows (R78, R425, R432, R433, R494, R495) -/

theorem tick_runs (h : s.timeRuns = true) : s.tick = ({ s with now := s.now + 1 } : State).wr .telTime 0 0 (s.rd .telTime + 1) := if_pos h
theorem tick_stands (h : s.timeRuns = false) : s.tick = { s with now := s.now + 1 } := if_neg (by rw [h]; exact Bool.false_ne_true)

theorem holdEnd_ends (h : s.holding = false) : s.holdEnd = ({ s with tel := { s.tel with hold := none } } : State).fset Fld.telTctrl_HOLDING 0 0 0 :=
  if_neg (by rw [h]; exact Bool.false_ne_true)

theorem xlateDrainDone_found {d : Drained} (hd : s.xlat.drains.find? (fun x => x.ticket == n) = some d) : s.xlateDrainDone n =
    if s.stillUsed d then s
    else ({ s with xlat := { s.xlat with drains := s.xlat.drains.filter (fun x => x.ticket != n) } } : State).completeTicket n Status.ok [] := by
  simp only [State.xlateDrainDone, hd]

theorem firClear_closes (hw : ∃ w ∈ s.err.windows, w.slot = i) (hf : s.fget Fld.errWinW0_FIR i = 1) : s.firClear i = s.winClose i := by
  have hany : s.err.windows.any (fun w => w.slot == i) = true := by simpa using hw
  exact if_pos (by rw [hany, hf]; rfl)

theorem windowEnd_reached (hw : ∃ w ∈ s.err.windows, w.slot = i ∧ w.closeAt ≤ s.now) :
    s.windowEnd i = if s.fget Fld.errWinW0_FIR i = 0 then s.winClose i else s := by
  have hany : s.err.windows.any (fun w => w.slot == i && decide (w.closeAt ≤ s.now)) = true := by simpa using hw
  simp only [State.windowEnd, hany, Bool.true_and, beq_iff_eq]

/-! ### HBM granules (R297, R302, R305) -/

/-- The zero-fill of a granule has ended. -/
def granuleFreed (s : State) (k g : Nat) : State :=
  (({ s with hbm := { s.hbm with draining := tblPut s.hbm.draining k ((tblGet [] s.hbm.draining k).filter (fun d => d.granule != g)) } } : State).hbmZero
    (hbmKey k (g * granuleBytes)) granuleBytes).regionShow k

theorem granuleFreed_draining : tblGet [] (granuleFreed s k g).hbm.draining k = (tblGet [] s.hbm.draining k).filter (fun d => d.granule != g) :=
  (tblGet_put ..).trans (if_pos rfl)

theorem granuleZeroed_frees (hz : ∃ d ∈ tblGet [] s.hbm.draining k, d.granule = g ∧ d.zeroing = true) : s.granuleZeroed k g =
    if (tblGet [] s.hbm.draining k).filter (fun d => d.granule != g) = [] then (granuleFreed s k g).regionEnd k else granuleFreed s k g := by
  have hany : (tblGet [] s.hbm.draining k).any (fun d => d.granule == g && d.zeroing) = true := by simpa using hz
  have htry : (granuleFreed s k g).regionTry k = if (tblGet [] s.hbm.draining k).filter (fun d => d.granule != g) = [] then (granuleFreed s k g).regionEnd k
      else granuleFreed s k g := by
    rw [State.regionTry, granuleFreed_draining]
    simp only [List.isEmpty_iff]
  exact (congrArg (State.regionTry · k) (if_pos hany)).trans htry

/-- While its stack is served and its scrub enabled, the scrub is at a line. -/
theorem scrubStep_serves (he : s.fget Fld.spnHregScrub_SCRUB_EN k ≠ 0) (hr : s.poolReady k = true) : s.scrubStep k =
    let pos := s.fget Fld.spnHregScrubpos_LINE k
    if (List.range 4).any (fun r => (s.grans k r).contains (pos / granuleLines)) then
      (((s.stir (26 + k)).lineAge (hbmKey k (128 * pos) / 128)).touch (hbmKey k (128 * pos)) 128 3).fset
        Fld.spnHregScrubpos_LINE k 0 ((pos + 1) % (384 * granuleLines))
    else s.fset Fld.spnHregScrubpos_LINE k 0 ((pos / granuleLines + 1) * granuleLines % (384 * granuleLines)) :=
  if_neg (not_or_intro he (by rw [hr]; decide))

/-- The granule is in use: a region's table holds it. -/
theorem granuleUsed_iff : (List.range 4).any (fun r => (s.grans k r).contains g) = true ↔ ∃ r < 4, g ∈ s.grans k r := by
  simp only [List.any_eq_true, List.mem_range, List.contains_iff_mem]

theorem zeroFillDone_ends (hk : k ∈ s.hbm.filling) (hh : s.hbmHeld k = false) (hd : s.fget Fld.pwrDomW0_STATE (26 + k) = 0) :
    s.zeroFillDone k = { s with hbm := { s.hbm with filling := s.hbm.filling.filter (· != k) } } :=
  if_pos (by rw [List.contains_iff_mem.2 hk, hh, hd]; rfl)

/-! ### The Rick (R309, R315 to R318, R328 to R330) -/

section
variable {x : RickCmd} {o : RickObj} {ue : List Nat}

/-- A Rick command whose pool memory is served ends by its opcode. -/
theorem rickComplete_ends (hx : s.rickCmd n = some x) (hr : s.rickState = Rick.run) (hw : s.rickWaits x = false) : s.rickComplete n ue =
    if x.op = 0x260 then s.rickWriteEnd x else if x.op = 0x261 then s.rickSealEnd x else if x.op = 0x262 then s.rickReadEnd x ue else s.rickDeleteEnd x ue := by
  have hgo : ¬ (s.rickState ≠ Rick.run ∨ s.rickWaits x = true) := not_or_intro (not_not_intro hr) (by rw [hw]; exact Bool.false_ne_true)
  simp only [State.rickComplete, hx, if_neg hgo]

/-- The journal is written and the event carries LENGTH and further words. -/
theorem rickEnd_events {status : Nat} {more : List Word} : s.rickEnd x status more =
    (({ s with rick := { s.rick with cmds := s.rick.cmds.filter (fun z => z.ticket != x.ticket) } } : State).journalPut).completeTicket x.ticket status
      (bytesOfWords (BitVec.ofNat 64 (objectLength s x.obj) :: more)) := by
  rw [State.rickEnd, objectLength]
  cases s.object x.obj <;> rfl

theorem rickWriteEnd_appends {t : State} {y : RickCmd} (h : s.unitsAppend x (x.count - x.done) = (t, y)) :
    s.rickWriteEnd x = t.rickEnd y (if y.failed then Status.fault else Status.ok) [] := by
  simp only [State.rickWriteEnd, h]

theorem rickSealEnd_manifest {m : List Byte} (hm : s.poolBytes x.addr x.count = some m) (ho : s.object x.obj = some o) : s.rickSealEnd x =
    if manifestOk m x.obj o = false then (s.poolTouch x.addr x.count).rickEnd x Status.badParam []
    else if s.logFull 4 x.obj (digestWords m) then (s.poolTouch x.addr x.count).rickEnd x Status.refused []
    else ((s.poolTouch x.addr x.count).objSeal x.obj o m).rickEnd x Status.ok [] := by
  simp only [State.rickSealEnd, hm, ho]

/-- The copy of the units of a RICK_READ, and whether each one was written. -/
def unitsCopied (s : State) (x : RickCmd) (o : RickObj) (ue : List Nat) : State × Bool :=
  (List.range x.count).foldl (fun (a : State × Bool) j => ((a.1.unitCopy x o ue j).1, a.2 && (a.1.unitCopy x o ue j).2)) (s, true)

/-- The count of the units of a RICK_READ that are bad. -/
def unitsBad (s : State) (x : RickCmd) (o : RickObj) (ue : List Nat) : Nat :=
  ((List.range x.count).filter (fun j => s.unitBad o (x.unit + j) || ue.contains (x.unit + j))).length

theorem rickReadEnd_copies (ho : s.object x.obj = some o) : s.rickReadEnd x ue =
    (unitsCopied s x o ue).1.rickEnd x (if unitsBad s x o ue = 0 ∧ (unitsCopied s x o ue).2 = true then Status.ok else Status.fault)
      [BitVec.ofNat 64 (unitsBad s x o ue)] := by
  rw [State.rickReadEnd, ho]
  rfl

theorem rickDeleteEnd_erases (ho : s.object x.obj = some o) : s.rickDeleteEnd x ue =
    let e := State.each (List.range 32) (fun s ch => s.chanErase x.obj o ue ch) s
    (({ e with rick := { e.rick with objs := tblDel e.rick.objs x.obj, pages := e.rick.pages.filter (fun p => p.2.obj != x.obj) } } : State).objShow
      x.obj).rickEnd x Status.ok [] := by
  rw [State.rickDeleteEnd, ho]

theorem journalWrite_writes {t : State} {y : RickCmd} {m : Nat} (hx : s.rickCmd n = some x) (hr : s.rickState = Rick.run) (hw : s.rickWaits x = false)
    (ho : x.op = 0x260) (hd : x.jAt + s.fget Fld.rickJrnl_JPERIOD * us 1000000 ≤ s.now) (ha : s.unitsAppend x m = (t, y)) :
    s.journalWrite n m = ((t.rickCmdPut { y with jAt := s.now }).journalPut).stir 45 := by
  have hgo : ¬ (x.op ≠ 0x260 ∨ s.rickState ≠ Rick.run ∨ s.rickWaits x = true ∨ s.now < x.jAt + s.fget Fld.rickJrnl_JPERIOD * us 1000000) :=
    not_or_intro (not_not_intro ho) (not_or_intro (not_not_intro hr) (not_or_intro (by rw [hw]; exact Bool.false_ne_true) (Nat.not_lt.2 hd)))
  simp only [State.journalWrite, hx, if_neg hgo, ha]

theorem programFail_retires {block lost : Nat} (hr : s.rickState = Rick.run) (hc : ch < 32) (hb : block ∉ (s.rickChan ch).retired) :
    s.programFail ch block lost =
      ((({ s with rick := { s.rick with chans := tblMod {} s.rick.chans ch (fun c => { c with retired := c.retired ++ [block] }) } } : State).fsat
        Fld.rickRetire_RETIRED 0 0 1).fdec Fld.rickFree_FREE 0 0 lost).errRec 0 0x29 10 ch [block] :=
  if_neg (not_or_intro (not_not_intro hr) (not_or_intro (Nat.not_le.2 hc) (by simpa using hb)))

theorem rickQuench_stops (hr : s.rickState = Rick.run) (hq : s.fget Fld.pwrTherm_QSTATE ≠ 0) : s.rickQuench =
    let t := State.each s.rick.cmds State.rickFlush s.streamsStop
    ({ t with rick := { t.rick with cmds := [], quenchAt := t.now } } : State).fset Fld.rickStat_STATE 0 0 Rick.quenchProg :=
  if_neg (not_or_intro (not_not_intro hr) hq)

end

/-! ### The Reservoir (R319 to R321) -/

/-- A fill checks the billets of its page in order: the state, and those that are bad. -/
def billetsFilled (s : State) (k : Nat) (o : RickObj) (sl : RsvSlot) (ue : List Nat) : State × List Nat :=
  (o.pageBillets sl.page).foldl (fun (a : State × List Nat) b =>
    if (a.1.fillBillet k o sl.obj ue b).2 then ((a.1.fillBillet k o sl.obj ue b).1.billetBad sl.obj b, a.2 ++ [b]) else ((a.1.fillBillet k o sl.obj ue b).1, a.2)) (s, [])

theorem fillComplete_fills {ue : List Nat} {sl : RsvSlot} {o : RickObj} {key : List Byte} (hs : tblFind s.rsv.slots k = some sl)
    (hk : s.kln.weightKey = some key) (ho : s.object sl.obj = some o) (hf : sl.filling = true) (hp : s.poolHeld (k / 65536) = false) :
    s.fillComplete k ue =
      let r := billetsFilled s k o sl ue
      ((({ r.1 with rsv := { r.1.rsv with slots := tblPut r.1.rsv.slots k { sl with filling := false, bad := r.2 } } } : State).fsat
        Fld.rsvCnt_FILLS 0 0 1).rsvShow).rsvRetry := by
  have hgo : ¬ (sl.filling = false ∨ s.poolHeld (k / 65536) = true) := by rw [hf, hp]; decide
  rw [State.fillComplete, hs, hk]
  simp only [ho, if_neg hgo]
  rfl

theorem heatHalve_due (hd : s.rsv.heatAt + s.fget Fld.rsvHeat_PERIOD * us 100 ≤ s.now) : s.heatHalve =
    { s with rsv := { s.rsv with heat := s.rsv.heat.map (fun x => (x.1, { x.2 with heat := x.2.heat / 2 })), heatAt := s.now } } :=
  if_neg (Nat.not_lt.2 hd)

theorem promotionScan_due (he : s.fget Fld.rsvHeat_PROMO_EN ≠ 0) (hh : s.rsvHeld = false) (hl : s.fget Fld.pwrTherm_LEVEL < 4)
    (hd : s.rsv.promoAt + us 10 ≤ s.now) :
    s.promotionScan = (s.hotWays.foldl State.promote ({ s with rsv := { s.rsv with promoAt := s.now } }, 0)).1 :=
  if_neg (not_or_intro he (not_or_intro (by rw [hh]; exact Bool.false_ne_true) (not_or_intro (Nat.not_le.2 hl) (Nat.not_lt.2 hd))))

theorem promotionScan_off (h : s.fget Fld.rsvHeat_PROMO_EN = 0 ∨ s.rsvHeld = true ∨ 4 ≤ s.fget Fld.pwrTherm_LEVEL) : s.promotionScan = s :=
  if_pos (h.imp_right (Or.imp_right .inl))

end

end Sys2Proof.Machine

namespace Sys2Proof.Claims
open Sys2Proof Sys2Proof.Machine

/-- Settles O31: the feed of a piece of one line, a restart, and a write of POLY with and without a tenant. -/
theorem checkValueChannelsFeedAndRestart : Obligations.CheckValueChannelsFeedAndRestart := by
  unfold Obligations.CheckValueChannelsFeedAndRestart
  intro s ch
  refine ⟨fun f l hf hpos hline hw hl => (exec_crcFeedDone s ch).trans (next_of_eq (feedDone_line hf hpos hline hw hl)),
    fun hc hf => (exec_crcRestart hc).trans (next_of_eq (crcRestartWrite_free hf)), fun v hc hb hf hodd hlo hhi hv hi hnew => ?poly, fun j v hb => ?bound⟩
  case poly =>
    have hword : BitVec.ofNat 64 v.toNat = v := by simp
    rw [exec_crcConfigWrite, if_pos ⟨hc, by decide⟩, hword, crcCfgWrite_poly hb hf hodd hlo hhi hv hi hnew]
  case bound =>
    rw [exec_crcConfigWrite, crcCfgWrite_bound hb]
    exact next_of_eq (ite_self s)

/-- Settles O32: a cycle, the end of a hold, a snapshot, the two drains, and a window by its FIR. -/
theorem clockSnapshotsAndWindowsPass : Obligations.ClockSnapshotsAndWindowsPass := by
  unfold Obligations.ClockSnapshotsAndWindowsPass
  refine ⟨fun s => ⟨fun hp ht => (step_empty hp).trans (next_of_eq (tick_runs ht)), fun hp ht => (step_empty hp).trans (next_of_eq (tick_stands ht)),
    fun hh => (exec_timeHoldEnd s).trans (next_of_eq (holdEnd_ends hh)), rfl, rfl, fun d hd hu => ?drained, fun d hd hu => ?used⟩, fun s i => ?windows⟩
  case drained =>
    exact (exec_xlateInvalDrainDone s d.ticket).trans (next_of_eq ((xlateDrainDone_found hd).trans (if_neg (by rw [hu]; exact Bool.false_ne_true))))
  case used => exact (exec_xlateInvalDrainDone s d.ticket).trans (next_of_eq ((xlateDrainDone_found hd).trans (if_pos hu)))
  case windows =>
    intro zeroed closed
    rw [exec_errCaptureArm, exec_errWinFirClear, exec_recoveryWindowEnd]
    exact ⟨fun hi => next_of_eq (if_pos hi), fun hw hf => next_of_eq (firClear_closes hw hf),
      fun hw hf => next_of_eq ((windowEnd_reached hw).trans (if_pos hf)), fun hw hf => next_of_eq ((windowEnd_reached hw).trans (if_neg hf))⟩

/-- Settles O33: a granule drained and zeroed, the scrub at a granule in use and at another, and a controller's zero-fill. -/
theorem hbmGranulesDrainFillAndScrub : Obligations.HbmGranulesDrainFillAndScrub := by
  unfold Obligations.HbmGranulesDrainFillAndScrub
  intro s k hk q pos begun
  rw [exec_scrubStep hk, exec_controllerZeroFillDone hk]
  refine ⟨fun g => exec_granuleDrained hk, fun g hz => (exec_granuleZeroed hk).trans (next_of_eq (granuleZeroed_frees hz)), fun he hr => ⟨fun hu => ?used,
    fun hu => ?free⟩, fun hf hh hd => next_of_eq (zeroFillDone_ends hf hh hd)⟩
  case used => exact next_of_eq ((scrubStep_serves he hr).trans (if_pos (granuleUsed_iff.2 hu)))
  case free =>
    refine next_of_eq ((scrubStep_serves he hr).trans (if_neg (fun h => ?_)))
    obtain ⟨r, hr4, hmem⟩ := granuleUsed_iff.1 h
    exact hu r hr4 hmem

/-- Settles O34: the end of each Rick command, the periodic journal, a failed program, recovery and the quench path. -/
theorem rickCommandsEndAndRickQuenches : Obligations.RickCommandsEndAndRickQuenches := by
  unfold Obligations.RickCommandsEndAndRickQuenches
  refine ⟨fun s x hx hr hw => ?commands, fun s ch block lost hr hc hb => (exec_nandProgramFail ..).trans (next_of_eq (programFail_retires hr hc hb)),
    fun s => ?quench⟩
  case commands =>
    intro ended
    have hend (ue : List Nat) : exec (.rickCmdComplete x.ticket ue) s = _ := (exec_rickCmdComplete s x.ticket ue).trans (next_of_eq (rickComplete_ends hx hr hw))
    refine ⟨fun ue t y ho ha => ?write, fun ue m o ho hm hobj => ?seal_, fun ue o ho hobj => ?read, fun fail o ho hobj => ?delete,
      fun n t y ho hd ha => (exec_journalWrite s x.ticket n).trans (next_of_eq (journalWrite_writes hx hr hw ho hd ha))⟩
    case write =>
      rw [hend, ho, if_pos rfl, rickWriteEnd_appends ha, rickEnd_events]
    case seal_ =>
      rw [hend, ho, if_neg (by decide), if_pos rfl, rickSealEnd_manifest hm hobj]
      refine ⟨fun hbad => ?_, fun hgood hlog => ?_⟩
      · rw [if_pos hbad, rickEnd_events]
      · rw [if_neg (by rw [hgood]; decide), hlog, if_neg Bool.false_ne_true, rickEnd_events]
    case read =>
      rw [hend, ho, if_neg (by decide), if_neg (by decide), if_pos rfl, rickReadEnd_copies hobj, rickEnd_events]
      rfl
    case delete =>
      rw [hend, ho, if_neg (by decide), if_neg (by decide), if_neg (by decide), rickDeleteEnd_erases hobj]
      exact next_of_eq rickEnd_events
  case quench =>
    rw [exec_rickQuenchSignal, exec_rickProgramsEnded, exec_rickQuenchProgTimeout, exec_rickJournalWritten]
    exact ⟨fun up torn free targets luns hr => (exec_rickRecovery ..).trans (next_of_eq (if_neg (not_not_intro hr))),
      fun hr hq => next_of_eq (rickQuench_stops hr hq), fun hr => next_of_eq (if_pos hr), fun hr hd => next_of_eq (if_pos ⟨hr, hd⟩), fun hr => next_of_eq (if_pos hr)⟩

/-- Settles O35: the end of a fill, the halving of the heats, and a promotion scan that is due or off. -/
theorem reservoirFillsHeatAndPromotion : Obligations.ReservoirFillsHeatAndPromotion := by
  unfold Obligations.ReservoirFillsHeatAndPromotion
  intro s
  rw [exec_rsvHeatPeriod, exec_promotionScan]
  exact ⟨fun k ue sl o key hs hk ho hf hp => (exec_fillComplete s k ue).trans (next_of_eq (fillComplete_fills hs hk ho hf hp)),
    fun hd => next_of_eq (heatHalve_due hd), fun he hh hl hd => next_of_eq (promotionScan_due he hh hl hd), fun h => next_of_eq (promotionScan_off h)⟩

end Sys2Proof.Claims
end

section
/-! PROOFS. Weight streams, and the links and rings of the lanes (R183, R324 to R327, R342 to R351, R357 to R370): each event by the state in which it comes. -/

namespace Sys2Proof.Machine
open Sys2Proof Sys2Proof.Claims

section
variable {s : State} {i n l g b r : Nat}

/-! ### The rows -/

theorem exec_sequenceCurrent (h : i < 8) : exec (.sequenceCurrent i) s = .next (s.seqCurrent i) := next_of_eq (if_pos h)
theorem exec_partEmit (h : i < 8) : exec (.partEmit i) s = .next (s.partEmit i) := next_of_eq (if_pos h)
theorem exec_sequenceDone (h : i < 8) : exec (.sequenceDone i) s = .next (s.seqDone i) := next_of_eq (if_pos h)
theorem exec_streamDrained (h : i < 8) : exec (.streamDrained i) s = .next (s.strmDrained i) := next_of_eq (if_pos h)
theorem exec_linkEnWrite (h : n < 192) (v : Nat) : exec (.linkEnWrite n v) s = (s.enWrite n v).settled := if_pos h
theorem exec_linkEnergyDetect (h : n < 192) : exec (.linkEnergyDetect n) s = (s.energy n).settled := if_pos h
theorem exec_cdrLock (h : n < 192) : exec (.cdrLock n) s = (s.cdrLocked n).settled := if_pos h
theorem exec_eqDone (h : n < 192) (lanes : List LaneEq) : exec (.eqDone n lanes) s = (s.eqDone n lanes).settled := if_pos h
theorem exec_prbsPass (h : n < 192) (errs : List Nat) (partner : Bool) : exec (.prbsPass n errs partner) s = (s.prbs n errs partner).settled := if_pos h
theorem exec_aligned (h : n < 192) (seen : List LaneSeen) (partner : Bool) : exec (.aligned n seen partner) s = (s.aligned n seen partner).settled := if_pos h
theorem exec_trainTimeout (h : n < 192) : exec (.trainTimeout n) s = (s.trainTimeout n).settled := if_pos h
theorem exec_linkUp (h : n < 192) (peer resume : Nat) : exec (.linkUp n peer resume) s = (s.linkUp n peer resume).settled := if_pos h
theorem exec_linkFailureEvent (h : n < 192) (cause : Nat) : exec (.linkFailureEvent n cause) s = (s.failEvent n cause).settled := if_pos h
theorem exec_linkRetrain (h : n < 192) : exec (.linkRetrain n) s = (s.failEvent n 5).settled := if_pos h
theorem exec_alignmentLoss (h : n < 192) (j : Nat) : exec (.alignmentLoss n j) s = (s.alignLost n j).settled := if_pos h
theorem exec_creditReturnFailure (h : n < 192) (pool : Nat) : exec (.creditReturnFailure n pool) s = (s.creditFailure n pool).settled := if_pos h
theorem exec_relockTimeout (h : n < 192) : exec (.relockTimeout n) s = (s.relockTimeout n).settled := if_pos h
theorem exec_linkStateDiscard (h : n < 192) : exec (.linkStateDiscard n) s = (s.stateDiscard n).settled := if_pos h
theorem exec_codewordReceive (h : n < 192) (p : Nat) (levels : List Nat) : exec (.codewordReceive n p levels) s = (s.codewordIn n p levels).settled := if_pos h
theorem exec_replayTimer (h : n < 192) : exec (.replayTimer n) s = (s.replayTimer n).settled := if_pos h
theorem exec_linkAdminSet (h : l < 128) : exec (.linkAdminSet l) s = (s.adminSet l).settled := if_pos h
theorem exec_linkAdminClear (h : l < 128) : exec (.linkAdminClear l) s = (s.adminClear l).settled := if_pos h
theorem exec_darkTimeout (h : l < 128) : exec (.darkTimeout l) s = (s.dark l).settled := if_pos h
theorem exec_burstReceive (h : l < 128) (first : List Nat) (cws : List (List Nat)) :
    exec (.burstReceive l first cws) s = (s.burst l (first :: cws)).settled := if_pos h
theorem exec_visitSend (h : l < 128) : exec (.visitSend l) s = (s.visit l).settled := if_pos h
theorem exec_trainingBurst (h : l < 128) : exec (.trainingBurst l) s = (s.trainBurst l).settled := if_pos h
theorem exec_creditUpdateSend (s : State) (n : Nat) : exec (.creditUpdateSend n) s = .next (s.creditUpdate n) := rfl
theorem exec_txqEnter (s : State) (n : Nat) : exec (.txqEnter n) s = .next (s.txqEnter n) := rfl
theorem exec_txqWake (s : State) (n : Nat) : exec (.txqWake n) s = .next (s.txqWake n) := rfl
theorem exec_txWakeDone (s : State) (n : Nat) : exec (.txWakeDone n) s = .next (s.txWakeDone n) := rfl
theorem exec_rxqEnergy (s : State) (n : Nat) : exec (.rxqEnergy n) s = .next (s.rxqEnergy n) := rfl
theorem exec_relockDone (s : State) (n : Nat) : exec (.relockDone n) s = .next (s.relockDone n) := rfl
theorem exec_sweepComplete (hg : g < 32) (hb : b < 5) (hr : r < 16) (dips : List (Nat × Nat)) :
    exec (.sweepComplete g b r dips) s = (s.sweepDone g b r dips).settled := if_pos ⟨hg, hb, hr⟩
theorem exec_ditherUpdate (hg : g < 32) (hb : b < 5) (hr : r < 16) (err mv : Nat) :
    exec (.ditherUpdate g b r err mv) s = (s.dither g b r err mv).settled := if_pos ⟨hg, hb, hr⟩
theorem exec_lockTimeout (hg : g < 32) (hb : b < 5) (hr : r < 16) : exec (.lockTimeout g b r) s = (s.lockTimeout g b r).settled := if_pos ⟨hg, hb, hr⟩
theorem exec_ringRelock (hg : g < 32) (hb : b < 5) (hr : r < 16) : exec (.ringRelock g b r) s = (s.ringRelock g b r).settled := if_pos ⟨hg, hb, hr⟩
theorem exec_laserLow {c : Nat} (h : c < 8) (pwr : Nat) : exec (.laserLow c pwr) s = (s.laserBelow c pwr).settled := if_pos h
theorem exec_laserPowerReturn {c : Nat} (h : c < 8) (pwr : Nat) : exec (.laserPowerReturn c pwr) s = (s.laserReturn c pwr).settled := if_pos h

/-! ### Streams (R324 to R327) -/

/-- A sequence whose pace allows it becomes current with its select word and its parts. -/
theorem seqCurrent_begins {sel : Word} {t u : State} {parts : List (Word × Word)} {k : Nat} (hs : s.strmState i = 1) (hc : (s.strm i).current = false)
    (hp : s.paceOk (s.strm i) = true) (hw : s.tablesWait (s.strm i) = false) (hsel : s.selWord (s.strm i) (s.strm i).n = (.ok sel, t))
    (hlay : t.layer (s.strm i).ltab (if (s.strm i).n % (s.strm i).layers = 0 then 0 else (s.strm i).after) [] 64 = (.ok (parts, k), u)) :
    s.seqCurrent i =
      let x := s.strm i
      let y : Strm := { x with current := true, sel := sel, parts := parts, after := k, emitted := 0 }
      let v := ((u.strmPut i y).fset Fld.rsvStrStat_LAYER i 0 (x.n % x.layers)).fset Fld.rsvStrStat_SEQ i 0 x.n
      let fresh := parts.zipIdx.filter (fun q => !v.rsv.pins.any (fun p => p.strm == i && p.seq == x.n && p.part == q.2))
      ((v.pinParts i x.n x sel fresh).rsvRetry).readAhead i y (x.n + 1) k x.ahead := by
  have hgo : ¬ (s.strmState i ≠ 1 ∨ (s.strm i).current = true ∨ s.paceOk (s.strm i) = false ∨ s.tablesWait (s.strm i) = true) := by
    rw [hs, hc, hp, hw]; decide
  simp only [State.seqCurrent, if_neg hgo, hsel, hlay]

theorem seqCurrent_waits (hp : s.paceOk (s.strm i) = false) : s.seqCurrent i = s := if_pos (.inr (.inr (.inl hp)))

theorem partEmit_goes {j : Nat} {p : Word × Word} {o : RickObj} (hs : s.strmState i = 1) (hc : (s.strm i).current = true)
    (hn : (s.strm i).next = some (j, p)) (ho : s.object (s.strm i).obj = some o) (hw : s.storesWait i = false) (hr : s.partReady (s.strm i) o p = true)
    (hm : (s.strm i).mode ≠ 0 ∨ (s.mcRoute (bits p.1 7 0)).isSome = true) : s.partEmit i = s.partGo i (s.strm i) o j p := by
  have hgo : ¬ (s.strmState i ≠ 1 ∨ (s.strm i).current = false ∨ s.storesWait i = true ∨ s.partReady (s.strm i) o p = false) := by
    rw [hs, hc, hw, hr]; decide
  have hroute : ¬ ((s.strm i).mode = 0 ∧ (s.mcRoute (bits p.1 7 0)).isNone = true) := by
    rintro ⟨h0, hnone⟩
    obtain h | h := hm
    · exact h h0
    · rw [Option.isNone_iff_eq_none.1 hnone] at h
      exact Bool.false_ne_true h
  simp only [State.partEmit, hn, ho, if_neg hgo, if_neg hroute]

theorem seqDone_goes (hs : s.strmState i = 1) (hc : (s.strm i).current = true) (hn : (s.strm i).next = none) (ho : (s.strm i).out = []) :
    s.seqDone i =
      let x := s.strm i
      let last := decide (x.n % x.layers = x.layers - 1) && !x.loop
      let t := ((s.selClear x).strmPut i { x with n := x.n + 1, current := false, parts := [], emitted := 0 }).unpin
        (fun p => p.strm == i && (last || p.seq == x.n))
      (if last then (t.fset Fld.rsvStrStat_DONE i 0 1).fset Fld.rsvStrStat_STATE i 0 0 else t).rsvRetry :=
  if_neg (by rw [hs, hc, hn, ho]; decide)

theorem strmDrained_drains (hs : s.strmState i = 2 ∨ s.strmState i = 3) (ho : (s.strm i).out = []) (hf : s.strmFills i = false) : s.strmDrained i =
    if s.strmState i = 2 then ((s.unpin (fun p => p.strm == i)).rsvRetry).fset Fld.rsvStrStat_STATE i 0 0 else (s.unpin (fun p => p.strm == i)).rsvRetry := by
  have hstate : ¬ (s.strmState i ≠ 2 ∧ s.strmState i ≠ 3) := by omega
  exact if_neg (not_or_intro hstate (by rw [ho, hf]; decide))

/-! ### Training (R344, R345, R347, R363) -/

theorem enWrite_on {v : Nat} (hv : v % 2 = 1) (hm : (s.fset Fld.lnkCtrl_EN n 0 v).mayTrain n = true)
    (hl : (s.fset Fld.lnkCtrl_EN n 0 v).lkState n = LnkS.reset) : s.enWrite n v = (s.fset Fld.lnkCtrl_EN n 0 v).lkEnter n LnkS.detect :=
  (if_neg (by omega)).trans (if_pos ⟨hl, hm⟩)

theorem enWrite_off {v : Nat} (hv : v % 2 = 0) (hl : s.lkState n ≠ LnkS.reset) : s.enWrite n v = (s.fset Fld.lnkCtrl_EN n 0 v).linkOff n :=
  (if_pos hv).trans (if_neg hl)

theorem energy_detected (hl : s.lkState n = LnkS.detect) : s.energy n = s.lkEnter n LnkS.cdr := by
  have hrelease : s.lkRelease n = s := if_neg (fun h => absurd (hl.symm.trans h.1) (by decide))
  rw [State.energy, hrelease]
  exact if_pos hl

theorem cdrLocked_locks (hl : s.lkState n = LnkS.cdr) : s.cdrLocked n =
    let e := (s.lkEnter n LnkS.eq).adapt n
    if n < 64 then e else e.lkMod n (fun l => { l with stored := l.rxTaps }) :=
  if_neg (not_not_intro hl)

theorem alignedNext_inits (hl : s.lkState n = LnkS.align) : s.alignedNext n true = (s.lkMod n (fun l => { l with flags := 7 })).lkEnter n LnkS.init :=
  if_pos hl

section
variable {seen : List LaneSeen} {partner : Bool}

/-- The lanes of an attach link show their commas directly or reversed. -/
theorem aligned_attach (hl : s.lkState n = LnkS.align) (hn : n < 64) (hs : lanesAligned n seen = true)
    (hlanes : seen.map (·.lane) = List.range 8 ∨ seen.map (·.lane) = (List.range 8).reverse) : s.aligned n seen partner =
      (((s.fset Fld.lnkStat_REV n 0 (b2n (seen.map (·.lane) == (List.range 8).reverse))).fset Fld.lnkStat_POLINV n 0
        ((seen.filter (fun x => !(laneHits x false))).map (fun x => 2 ^ x.lane)).sum).fset Fld.lnkStat_ALIGNED n 0 0xFF).alignedNext n partner := by
  have hgo : ¬ ((s.lkState n ≠ LnkS.align ∧ s.lkState n ≠ LnkS.recover) ∨ lanesAligned n seen = false) := by rw [hl, hs]; decide
  have horder : (seen.map (·.lane) == List.range 8 || seen.map (·.lane) == (List.range 8).reverse) = true := by
    rwa [Bool.or_eq_true, beq_iff_eq, beq_iff_eq]
  exact (if_neg hgo).trans ((if_pos hn).trans (if_pos horder))

theorem aligned_optical (hl : s.lkState n = LnkS.align) (hn : 64 ≤ n) (hs : lanesAligned n seen = true) (hlanes : ∀ j < 16, j ∈ seen.map (·.lane)) :
    s.aligned n seen partner = (s.fset Fld.optGLanemap_LANEMAP ((n - 64) / 4) ((n - 64) % 4)
      ((List.range 16).foldl (fun a w => a + (seen.map (·.lane)).getD w 0 * 16 ^ w) 0)).alignedNext n partner := by
  have hgo : ¬ ((s.lkState n ≠ LnkS.align ∧ s.lkState n ≠ LnkS.recover) ∨ lanesAligned n seen = false) := by rw [hl, hs]; decide
  have hall : (List.range 16).all (fun j => (seen.map (·.lane)).contains j) = true :=
    List.all_eq_true.2 (fun j hj => List.contains_iff_mem.2 (hlanes j (List.mem_range.1 hj)))
  exact (if_neg hgo).trans ((if_neg (Nat.not_lt.2 hn)).trans (if_pos hall))

end

theorem trainTimeout_records {lim back : Nat} (hl : trainLimit (s.lkState n) = some (lim, back)) (hd : (s.lk n).entered + lim ≤ s.now)
    (hr : (s.lk n).toRec = none) : s.trainTimeout n =
    ((s.lkMod n (fun l => { l with toRec := some s.now })).errRec 0 0x02 (linkKind n) (linkIdx n) [s.lkState n]).lkEnter n back := by
  simp only [State.trainTimeout, hl, if_neg (Nat.not_lt.2 hd), hr, if_true]

/-- Less than a second after its last record a timeout makes none. -/
theorem trainTimeout_recorded {lim back t : Nat} (hl : trainLimit (s.lkState n) = some (lim, back)) (hd : (s.lk n).entered + lim ≤ s.now)
    (hr : (s.lk n).toRec = some t) (ht : s.now < t + us 1000000) : s.trainTimeout n = s.lkEnter n back := by
  simp only [State.trainTimeout, hl, if_neg (Nat.not_lt.2 hd), hr, decide_eq_false (Nat.not_le.2 ht), Bool.false_eq_true, if_false]

/-- The optical links alone depend on the sharing of a group. -/
theorem opticalFree_attach (hn : n < 64) : s.opticalFree n = true := by
  rw [State.opticalFree]
  simp [hn]

theorem initEnds_attach (hn : n < 64) (hl : s.lkState n = LnkS.init ∨ (s.lkState n = LnkS.recover ∧ (s.lk n).flags % 2 = 1))
    (he : s.fget Fld.lnkCtrl_EN n = 1) : s.initEnds n = true := by
  rw [State.initEnds, opticalFree_attach hn, he, Bool.and_true, beq_self_eq_true, Bool.and_true, Bool.or_eq_true, Bool.and_eq_true, beq_iff_eq, beq_iff_eq,
    beq_iff_eq]
  exact hl

/-- What an attach link's end of INIT starts anew on it; `inits` counts the INITs between the same two ends. -/
def initStarted (s : State) (n inits : Nat) (l : Lnk) : Lnk :=
  { l with keptAt := none, inits := inits, sentId := s.ownLinkId n, nak := false, gap := false, owed := true, resend := false,
           credits := (List.range 9).map (fun p => (p, { at_ := s.now })), misses := 0, burstAt := s.now, ackAt := s.now, sentAt := s.now,
           idleAt := s.now, quiet := 0, txRound := 0, rxRound := 0, skew := [], missed := [] }

/-- Both ends of a link are those of its last INIT. -/
def sameEnds (s : State) (n peer : Nat) : Bool := peer == s.fget Fld.lnkPeer_LINK_ID n && s.ownLinkId n == (s.lk n).sentId

/-- An attach link is UP: the partner's LINK_ID, the retrain, its record, the credits and the EPB's Z_IDENT. -/
def attachUp (n peer : Nat) (s : State) : State :=
  (((((s.fset Fld.lnkPeer_LINK_ID n 0 peer).fsat Fld.lnkLl_RETRAINS n 0 1).lkEnter n LnkS.up).errRec 0 0x01 2 n [0, 0]).creditUpdate n).zsend n (identMsg n)

theorem linkUp_anew {peer resume : Nat} (hn : n < 64) (he : s.initEnds n = true) (hs : s.soon (stopsLink n) = false) (hk : s.keepsState n peer = false) :
    s.linkUp n peer resume = attachUp n peer (s.lkMod n (fun l => initStarted s n (if sameEnds s n peer then l.inits + 1 else 1) (Lnk.discard false l))) := by
  have hopt : decide (64 ≤ n) = false := decide_eq_false (Nat.not_le.2 hn)
  have hkind : linkKind n = 2 := if_pos hn
  have hidx : linkIdx n = n := if_pos hn
  simp only [State.linkUp, he, hs, hk, hopt, hkind, hidx, and_self, if_true, Bool.false_and, Bool.false_eq_true, if_false, if_pos hn]
  rfl

theorem linkUp_resumes {peer resume : Nat} (hn : n < 64) (he : s.initEnds n = true) (hs : s.soon (stopsLink n) = false) (hk : s.keepsState n peer = true) :
    s.linkUp n peer resume = attachUp n peer
      (let t := s.lkMod n (fun l => initStarted s n (if sameEnds s n peer then l.inits + 1 else 1)
        { l with txq := ackDrop resume l.retry ++ l.txq, retry := [] })
      if ackDrop resume (s.lk n).retry = [] then t else t.fsat Fld.lnkLl_REPLAYS n 0 1) := by
  have hopt : decide (64 ≤ n) = false := decide_eq_false (Nat.not_le.2 hn)
  have hkind : linkKind n = 2 := if_pos hn
  have hidx : linkIdx n = n := if_pos hn
  have hreplay (t u : State) : (if (!(ackDrop resume (s.lk n).retry).isEmpty) = true then t else u) = if ackDrop resume (s.lk n).retry = [] then u else t := by
    cases ackDrop resume (s.lk n).retry <;> rfl
  simp only [State.linkUp, he, hs, hk, hopt, hkind, hidx, and_self, if_true, Bool.true_and, hreplay, Bool.false_and, Bool.false_eq_true, if_false, if_pos hn]
  rfl

/-! ### Failures (R183, R347, R350) -/

theorem linkFail_up {cause : Nat} (hl : s.lkState n = LnkS.up) : s.linkFail n cause = failed s n cause := if_neg (not_not_intro hl)

theorem failEvent_up {cause : Nat} (hl : s.lkState n = LnkS.up) (hc : cause ≤ 9) : s.failEvent n cause = failed s n cause :=
  (if_pos hc).trans (linkFail_up hl)

theorem alignLost_optical {j : Nat} (hl : s.lkState n = LnkS.up) (hr : (s.lk n).rx = 0) (hn : 64 ≤ n) : s.alignLost n j = failed s n 0 := by
  have hattach : ¬ n < 64 := Nat.not_lt.2 hn
  simp only [State.alignLost, hr, ne_eq, not_true, if_false, if_neg hattach, linkFail_up hl]

theorem stateDiscard_due {t : Nat} (hk : (s.lk n).keptAt = some t) (hd : t + s.holdEff ≤ s.now) :
    s.stateDiscard n = s.lkMod n (Lnk.discard (decide (64 ≤ n))) := by
  simp only [State.stateDiscard, hk, if_pos hd]

/-! ### A link in UP (R342, R343, R346, R349, R351, R357, R360, R361, R364) -/

theorem codewordIn_received {p : Nat} {levels : List Nat} (hl : s.lkState n = LnkS.up) (hr : (s.lk n).rx = 0) : s.codewordIn n p levels =
    let j := if n < 64 then s.logicalLane n p else 0
    received s n j (s.undo n j levels) :=
  (if_neg (not_not_intro hl)).trans (if_neg (not_not_intro hr))

/-- A list that holds something is not empty. -/
theorem isEmpty_of_ne {α : Type} {l : List α} (h : l ≠ []) : l.isEmpty = false := by rwa [← Bool.not_eq_true, List.isEmpty_iff]

theorem replayTimer_replays (ha : s.lkActive n = true) (hr : (s.lk n).retry ≠ []) (ht : (s.lk n).ackAt + us 1 ≤ s.now)
    (hs : s.soon (bringsCodeword n) = false) : s.replayTimer n = State.orFail n (s.replay n) :=
  if_pos (by rw [ha, isEmpty_of_ne hr, decide_eq_true ht, hs]; rfl)

theorem creditUpdate_sends (ha : s.lkActive n = true) (hf : s.fibreFree n = true) :
    s.creditUpdate n = State.each (List.range 9) (fun s p => (s.grant n p).sendIdle n p) s := if_pos (by rw [ha, hf]; rfl)

theorem txqEnter_enters (ha : s.lkActive n = true) (hz : s.fget Fld.lnkCtrl_SLEEP_EN n = 1) (hn : (s.lk n).nothingOwed = true) (hc : s.creditDue n = false)
    (hs : s.soon (wakesLink n) = false) (hf : s.fibreFree n = true) (ht : (s.lk n).idleAt + s.fget Fld.lnkCtrl_QIDLE n * 400 ≤ s.now) : s.txqEnter n =
    ((State.each (List.range (quietRound n)) (fun s _ => s.sendCodeword n { kind := 2 } (padTo 256 [1]) none 0) s).fset
        Fld.lnkStat_TXQ n 0 1).lkMod n (fun l => { l with tx := 1, txAt := s.now }) :=
  if_pos (by rw [ha, hz, hn, hc, hs, hf, decide_eq_true ht]; rfl)

theorem dark_fails (hl : s.lkState (64 + l) = LnkS.up) (hr : (s.lk (64 + l)).rx = 0)
    (hd : (s.lk (64 + l)).burstAt + s.fget Fld.optGCtrl_DARK_MAX (l / 4) * 800 ≤ s.now) (hs : s.hitsSoon l = false) :
    s.dark l = (s.fsat Fld.optGFail_DARK_FAIL (l / 4) (l % 4) 1).linkFail (64 + l) 7 :=
  if_pos ⟨hl, by rw [hr]; decide, hd, hs⟩

theorem burst_hit {cws : List (List Nat)} (hl : s.lkState (64 + l) = LnkS.up) (hr : (s.lk (64 + l)).rx = 0) (hh : s.firstHit l cws = true)
    (hr' : ((s.lkMod (64 + l) (fun k => { k with burstAt := s.now, rxTaps := k.stored, missed := [] })).lk (64 + l)).rx = 0) : s.burst l cws =
    (((((s.lkMod (64 + l) (fun k => { k with burstAt := s.now, rxTaps := k.stored, missed := [] })).lkMod (64 + l) (fun k => { k with misses := 0 })).fsat
      Fld.optGBurst_BURSTS (l / 4) (l % 4) 1).burstWords (64 + l) cws).lkMod (64 + l) (fun k => { k with stored := k.rxTaps })) := by
  have hawake : ¬ (s.lk (64 + l)).rx = 1 := by rw [hr]; decide
  have hawake' : ¬ ((s.lkMod (64 + l) (fun k => { k with burstAt := s.now, rxTaps := k.stored, missed := [] })).lk (64 + l)).rx = 2 := by rw [hr']; decide
  rw [State.burst, if_neg (not_not_intro hl)]
  simp only [if_neg hawake, hh, if_true, if_neg hawake']

theorem trainBurst_sends (hr : s.lkState (64 + l) ≠ LnkS.reset) (hu : s.lkState (64 + l) ≠ LnkS.up) (ht : s.trainsNow (64 + l) = false)
    (hf : s.fibreFree (64 + l) = true) : s.trainBurst l =
    (State.each (List.range 8) (fun s' _ => s'.trainSlot (64 + l) (s.lkState (64 + l))) (s.aimAt (64 + l))).lkMod (64 + l) (fun k => { k with trainAt := s.now }) :=
  if_pos (by rw [ht, hf, bne_iff_ne.2 hr, bne_iff_ne.2 hu]; rfl)

/-! ### Rings (R365 to R370) -/

/-- A sweep that finds a dip deep enough sets the heater there, and the ring begins to lock. -/
theorem sweepDone_locks {dips : List (Nat × Nat)} {y : BusSearch} {code depth : Nat} (hy : tblFind s.opt.search (busKey g b) = some y) (hring : y.ring = r)
    (hst : s.optRing g b r = Ring.sweep) (ht : y.at_ + us 4096 ≤ s.now)
    (hd : dips.find? (fun d => decide (s.fget Fld.optGCtrl_TAKEN_HI g ≤ d.2)) = some (code, depth)) : s.sweepDone g b r dips =
      let amb := ((dips.takeWhile (fun d => decide (d.2 < s.fget Fld.optGCtrl_TAKEN_HI g))).filter (fun d => decide (s.fget Fld.optGCtrl_TAKEN_LO g ≤ d.2))).length
      let s1 := (s.fset Fld.optGRing_DIPS g (ringIx b r) (min 31 dips.length)).fsat Fld.optGStat_AMBIG g 0 amb
      let s2 := ((s1.fset Fld.optGRing_SWEPT g (ringIx b r) code).optHeat g b r code).optRingSet g b r Ring.locking
      { s2 with opt := { s2.opt with locks := tblPut s2.opt.locks (ringKey g b r) { start := s.now, last := s.now } } } := by
  have hgo : ¬ (y.ring ≠ r ∨ s.optRing g b r ≠ Ring.sweep ∨ s.now < y.at_ + us 4096) :=
    not_or_intro (not_not_intro hring) (not_or_intro (not_not_intro hst) (Nat.not_lt.2 ht))
  rw [State.sweepDone, hy]
  simp only [if_neg hgo, hd]

/-- What an update of a ring leaves in its lock. -/
def lockUpdated (s : State) (k err : Nat) : RingLock :=
  let x := tblGet ({} : RingLock) s.opt.locks k
  { x with last := s.now, good := if err ≤ Config.lockTol k then x.good + 1 else 0, bad := if Config.lossTol k < err then x.bad + 1 else 0 }

/-- The code to which an update moves the heater. -/
def heatMoved (s : State) (g j mv : Nat) : Nat :=
  if mv = 1 then min 4095 (s.fget Fld.optGRing_HEAT g j + 1) else if mv = 2 then s.fget Fld.optGRing_HEAT g j - 1 else s.fget Fld.optGRing_HEAT g j

/-- The state after an update has moved the heater. -/
def dithered (s : State) (g b r err mv : Nat) : State :=
  ({ s with opt := { s.opt with locks := tblPut s.opt.locks (ringKey g b r) (lockUpdated s (ringKey g b r) err) } } : State).optHeat g b r
    (heatMoved s g (ringIx b r) mv)

/-- When an update of a ring takes place. -/
structure DitherDue (s : State) (g b r : Nat) : Prop where
  power : s.laserLow g = false
  rate : (tblGet ({} : RingLock) s.opt.locks (ringKey g b r)).last + us 4 ≤ s.now
  burst : s.betweenBursts g b = false
  limit : s.optRing g b r = Ring.locking → s.now ≤ (tblGet ({} : RingLock) s.opt.locks (ringKey g b r)).start + us 128

theorem dither_due {err mv : Nat} (hst : s.optRing g b r = Ring.locking ∨ s.optRing g b r = Ring.locked) (h : DitherDue s g b r) :
    s.dither g b r err mv =
      if s.optRing g b r = Ring.locking then
        if 16 ≤ (lockUpdated s (ringKey g b r) err).good ∧ (tblGet ({} : RingLock) s.opt.locks (ringKey g b r)).start + us 64 ≤ s.now then
          (((dithered s g b r err mv).optRingSet g b r Ring.locked).busUpdate g b).searchNext g b r
        else dithered s g b r err mv
      else if 64 ≤ (lockUpdated s (ringKey g b r) err).bad ∨ heatMoved s g (ringIx b r) mv = 0 ∨ heatMoved s g (ringIx b r) mv = 4095 then
        (dithered s g b r err mv).ringLost g b r
      else dithered s g b r err mv := by
  obtain ⟨hpower, hrate, hburst, hlimit⟩ := h
  refine if_neg ?_
  rintro (hno | hlow | hsoon | hbetween | ⟨hlocking, hlate⟩)
  · exact hst.elim hno.1 hno.2
  · exact absurd (hpower.symm.trans hlow) Bool.false_ne_true
  · exact Nat.not_le.2 hsoon hrate
  · exact absurd (hburst.symm.trans hbetween) Bool.false_ne_true
  · exact Nat.not_lt.2 (hlimit hlocking) hlate

theorem lockTimeout_unlocks (hst : s.optRing g b r = Ring.locking) (ht : (tblGet ({} : RingLock) s.opt.locks (ringKey g b r)).start + us 128 ≤ s.now)
    (hs : s.soon (updatesRing g b r) = false) : s.lockTimeout g b r =
    (({ s with opt := { s.opt with locks := tblDel s.opt.locks (ringKey g b r) } } : State).optRingSet g b r Ring.unlocked).searchFail g b :=
  if_pos ⟨hst, ht, fun h => Bool.false_ne_true (hs.symm.trans h.2)⟩

theorem ringRelock_sweeps (hst : s.optRing g b r = Ring.lost) (ha : s.fget Fld.optGCtrl_AUTO_RELOCK g = 1) (hs : s.searchable g b = true)
    (hn : tblFind s.opt.search (busKey g b) = none) : s.ringRelock g b r = (s.fset Fld.optGStat_SEARCH g 0 1).sweepRing g b { single := some r } :=
  if_pos ⟨hst, ha, hs, Option.isNone_iff_eq_none.2 hn⟩

theorem laserBelow_low {c pwr : Nat} (hp : pwr < s.fget Fld.optOcPwr_LASER_MIN c) (hl : s.fget Fld.optOcStat_LASER_LOW c = 0) : s.laserBelow c pwr =
    ((s.fset Fld.optOcPwr_PWR c 0 pwr).fset Fld.optOcStat_LASER_LOW c 0 1).errRec 2 0x31 9 c [(s.fset Fld.optOcPwr_PWR c 0 pwr).fget Fld.optOcPwr_PWR c] :=
  if_neg (not_or_intro (Nat.not_le.2 hp) (by rw [hl]; decide))

end

end Sys2Proof.Machine

namespace Sys2Proof.Claims
open Sys2Proof Sys2Proof.Machine

/-- Settles O36: a sequence that becomes current or waits, a part, a sequence done, and a stream that is drained. -/
theorem streamsRunTheirSequences : Obligations.StreamsRunTheirSequences := by
  unfold Obligations.StreamsRunTheirSequences
  intro s i hi x
  rw [exec_sequenceCurrent hi, exec_partEmit hi, exec_sequenceDone hi, exec_streamDrained hi]
  refine ⟨fun sel t parts k u hs hc hp hw hsel hlay => next_of_eq (seqCurrent_begins hs hc hp hw hsel hlay), fun _ _ hp => next_of_eq (seqCurrent_waits hp),
    fun j p o hs hc hn ho hw hr hm => next_of_eq (partEmit_goes hs hc hn ho hw hr hm), fun hs hc hn ho => next_of_eq (seqDone_goes hs hc hn ho),
    fun hs ho hf => next_of_eq ((strmDrained_drains (.inl hs) ho hf).trans (if_pos hs)), fun hs ho hf => next_of_eq ((strmDrained_drains (.inr hs) ho hf).trans ?_)⟩
  exact if_neg (by rw [hs]; decide)

/-- Settles O37: each training event in its state, and the end of INIT with the kept state or anew. -/
theorem linksTrainThroughTheirStates : Obligations.LinksTrainThroughTheirStates := by
  unfold Obligations.LinksTrainThroughTheirStates
  refine ⟨fun s n hn => ?train, fun s n peer resume hn hl he hs => ?up⟩
  case train =>
    refine ⟨fun v hv _ hm hl => (exec_linkEnWrite hn v).trans (settled_of_eq (enWrite_on hv hm hl)),
      fun v hv hl => (exec_linkEnWrite hn v).trans (settled_of_eq (enWrite_off hv hl)),
      fun hl => (exec_linkEnergyDetect hn).trans (settled_of_eq (energy_detected hl)), fun hl => (exec_cdrLock hn).trans (settled_of_eq (cdrLocked_locks hl)),
      fun lanes hl => (exec_eqDone hn lanes).trans (settled_of_eq (if_pos hl)),
      fun errs partner hl => (exec_prbsPass hn errs partner).trans (settled_of_eq (if_neg (not_not_intro hl))), fun seen hl h64 hs hlanes => ?attach,
      fun seen hl h64 hs hlanes => ?optical, fun lim back hl hd => ⟨fun hr => ?records, fun t hr ht => ?recorded⟩⟩
    case attach =>
      intro pol s1 hl1
      exact (exec_aligned hn seen true).trans (settled_of_eq ((aligned_attach hl h64 hs hlanes).trans (alignedNext_inits hl1)))
    case optical =>
      intro s1 hl1
      exact (exec_aligned hn seen true).trans (settled_of_eq ((aligned_optical hl h64 hs hlanes).trans (alignedNext_inits hl1)))
    case records => exact (exec_trainTimeout hn).trans (settled_of_eq (trainTimeout_records hl hd hr))
    case recorded => exact (exec_trainTimeout hn).trans (settled_of_eq (trainTimeout_recorded hl hd hr ht))
  case up =>
    intro own same anew started up
    have hrow := exec_linkUp (s := s) (n := n) (by omega) peer resume
    have hends := initEnds_attach hn hl he
    exact ⟨fun hk => hrow.trans (settled_of_eq (linkUp_anew hn hends hs hk)), fun hk => hrow.trans (settled_of_eq (linkUp_resumes hn hends hs hk))⟩

/-- Settles O38: each cause of a failure, the kept state's end, and ADMIN. -/
theorem linksFailWithTheirCause : Obligations.LinksFailWithTheirCause := by
  unfold Obligations.LinksFailWithTheirCause
  intro s n hn
  refine ⟨fun hl => ⟨fun cause hc => (exec_linkFailureEvent hn cause).trans (settled_of_eq (failEvent_up hl hc)),
    (exec_linkRetrain hn).trans (settled_of_eq (failEvent_up hl (by decide))),
    fun j hr h64 => (exec_alignmentLoss hn j).trans (settled_of_eq (alignLost_optical hl hr h64)), fun pool hr hp ht hs hl1 => ?credit,
    fun hr ht => (exec_relockTimeout hn).trans (settled_of_eq ((if_pos ⟨hr, ht⟩).trans (linkFail_up hl)))⟩,
    fun t hk hd => (exec_linkStateDiscard hn).trans (settled_of_eq (stateDiscard_due hk hd)),
    fun l hl ha => (exec_linkAdminSet hl).trans (settled_of_eq (if_neg ha)), fun l hl ha => (exec_linkAdminClear hl).trans (settled_of_eq (if_neg ha))⟩
  case credit =>
    exact (exec_creditReturnFailure hn pool).trans (settled_of_eq ((if_pos ⟨hl, hr, hp, ht, hs⟩).trans (linkFail_up hl1)))

/-- Settles O39: what a link in UP receives, sends and replays, its sleep, and the visits and bursts of a fibre. -/
theorem linksReceiveReplaySleepAndVisit : Obligations.LinksReceiveReplaySleepAndVisit := by
  unfold Obligations.LinksReceiveReplaySleepAndVisit
  refine ⟨fun s n hn hl => ?up, fun s l hl => ?fibre⟩
  case up =>
    rw [exec_creditUpdateSend, exec_txqEnter, exec_txqWake, exec_txWakeDone, exec_rxqEnergy, exec_relockDone]
    refine ⟨fun p levels hr => (exec_codewordReceive hn p levels).trans (settled_of_eq (codewordIn_received hl hr)),
      fun ha hr ht hs => (exec_replayTimer hn).trans (settled_of_eq (replayTimer_replays ha hr ht hs)), fun ha hf => next_of_eq (creditUpdate_sends ha hf),
      fun ha hz ho hc hs hf ht => next_of_eq (txqEnter_enters ha hz ho hc hs hf ht), fun ht ho => next_of_eq (if_pos ⟨ht, ho⟩),
      fun ht hd => next_of_eq (if_pos ⟨ht, hd⟩), fun hr => next_of_eq (if_pos hr), fun hr => next_of_eq (if_pos hr), ?dark, ?burst⟩
    case dark =>
      rintro l rfl hr hd hs
      exact (exec_darkTimeout (by omega)).trans (settled_of_eq (dark_fails hl hr hd hs))
    case burst =>
      rintro l first cws rfl hr hh s0 hr'
      exact (exec_burstReceive (by omega) first cws).trans (settled_of_eq (burst_hit hl hr hh hr'))
  case fibre =>
    exact ⟨fun hv => (exec_visitSend hl).trans (settled_of_eq (if_pos hv)),
      fun hr hu ht hf => (exec_trainingBurst hl).trans (settled_of_eq (trainBurst_sends hr hu ht hf))⟩

/-- Settles O40: a sweep, an update of a ring by its state, a lock that fails, a lost ring, and line power. -/
theorem ringsSweepLockAndAreLost : Obligations.RingsSweepLockAndAreLost := by
  unfold Obligations.RingsSweepLockAndAreLost
  intro s g b r hg hb hr k j x
  refine ⟨fun dips y code depth hy hring hst ht hd => (exec_sweepComplete hg hb hr dips).trans (settled_of_eq (sweepDone_locks hy hring hst ht hd)),
    fun err mv hpower hrate hburst hlimit => ?dither, fun hst ht hs => (exec_lockTimeout hg hb hr).trans (settled_of_eq (lockTimeout_unlocks hst ht hs)),
    fun hst ha hs hn => (exec_ringRelock hg hb hr).trans (settled_of_eq (ringRelock_sweeps hst ha hs hn)),
    fun c pwr hc hp hl => (exec_laserLow hc pwr).trans (settled_of_eq (laserBelow_low hp hl)),
    fun c pwr hc hp => (exec_laserPowerReturn hc pwr).trans (settled_of_eq (if_pos hp))⟩
  case dither =>
    intro y h h1 s1
    have hdue : DitherDue s g b r := ⟨hpower, hrate, hburst, hlimit⟩
    have hrow (hst : s.optRing g b r = Ring.locking ∨ s.optRing g b r = Ring.locked) {u : State} (hu : _ = u) :=
      (exec_ditherUpdate hg hb hr err mv).trans (settled_of_eq ((dither_due hst hdue).trans hu))
    refine ⟨fun hst hgood ht => hrow (.inl hst) ((if_pos hst).trans (if_pos ⟨hgood, ht⟩)), fun hst hno => hrow (.inl hst) ((if_pos hst).trans (if_neg ?_)),
      fun hst hbad => hrow (.inr hst) ((if_neg (by rw [hst]; decide)).trans (if_pos hbad))⟩
    rintro ⟨hgood, ht⟩
    exact hno.elim (Nat.not_lt.2 hgood) (Nat.not_lt.2 ht)

end Sys2Proof.Claims
end

section
/-! PROOFS. The messages of KLN_SPDM (R377 to R383, R389, R390): where a request may stand, its answer, and the Kiln messages of an open session. -/

namespace Sys2Proof.Machine
open Sys2Proof Sys2Proof.Claims

section
variable {s : State} {m : SpdmMsg} {sid code lo place : Nat} {msg : List Byte} {f : State → SpdmMsg → Nat → List Byte → State}

/-! ### Requests (R377, R378) -/

/-- A request of this place may stand in the session: 0 in the clear, 1 in an open session, 2 either, 3 in a session whose handshake has not ended. -/
def placedAt (s : State) (sid place : Nat) : Bool :=
  if sid = 0 then place == 0 || place == 2
  else if place = 3 then (s.session sid).isSome && !((s.session sid).map (·.isOpen)).getD false
  else ((s.session sid).map (·.isOpen)).getD false && (place == 1 || place == 2)

/-- A valid request that may stand where it comes is answered by its function. -/
theorem spdmReq_placed (hw : Waits s m sid msg code lo) (hs : sid ≠ 0 → (s.session sid).isNone = false) (hp : placedAt s sid place = true) :
    s.spdmReq sid msg true code lo place f = f (seen s sid) m sid (asked m sid msg) := by
  obtain ⟨hm, hwhole, hlo, hcode, hversion⟩ := hw
  have hasked : (if sid = 0 ∨ m.whole.isSome = true then m.data else msg) = asked m sid msg := by
    rw [hwhole, asked]
    simp only [Option.isSome_none, Bool.false_eq_true, or_false]
  have hses : ¬ (sid ≠ 0 ∧ (s.session sid).isNone = true) := fun h => Bool.false_ne_true ((hs h.1).symm.trans h.2)
  rw [placedAt] at hp
  simp only [State.spdmReq, hm, hwhole, Option.getD_none]
  rw [hwhole] at hasked
  rw [hasked]
  simp only [hcode, ne_eq, not_true, if_false, if_neg hses, hp, hversion, decide_eq_false (Nat.not_lt.2 hlo), Bool.not_true, Bool.or_self,
    Bool.false_eq_true]
  rfl

theorem spdmReq_clear (hw : Waits s m 0 msg code lo) (hp : place = 0 ∨ place = 2) :
    s.spdmReq 0 msg true code lo place f = f (seen s 0) m 0 (asked m 0 msg) := by
  refine spdmReq_placed hw (fun h => absurd rfl h) ?_
  obtain rfl | rfl := hp <;> rfl

theorem spdmReq_session (hw : Waits s m sid msg code lo) (hs : InSession s sid) (hp : place = 1 ∨ place = 2) :
    s.spdmReq sid msg true code lo place f = f (seen s sid) m sid (asked m sid msg) := by
  obtain ⟨hsid, x, hx, hopen⟩ := hs
  refine spdmReq_placed hw (fun _ => by rw [hx]; rfl) ?_
  rw [placedAt, if_neg hsid, hx, Option.map_some, Option.getD_some, hopen]
  obtain rfl | rfl := hp <;> rfl

/-- A request of either place, in the clear or in an open session. -/
theorem spdmReq_either (hw : Waits s m sid msg code lo) (hs : sid = 0 ∨ InSession s sid) :
    s.spdmReq sid msg true code lo 2 f = f (seen s sid) m sid (asked m sid msg) := by
  obtain rfl | hs := hs
  · exact spdmReq_clear hw (.inr rfl)
  · exact spdmReq_session hw hs (.inr rfl)

theorem spdmReq_handshake {x : Session} (hw : Waits s m sid msg code lo) (hsid : sid ≠ 0) (hx : s.session sid = some x) (hopen : x.isOpen = false) :
    s.spdmReq sid msg true code lo 3 f = f (seen s sid) m sid (asked m sid msg) := by
  refine spdmReq_placed hw (fun _ => by rw [hx]; rfl) ?_
  rw [placedAt, if_neg hsid, if_pos rfl, hx, Option.map_some, Option.getD_some, hopen]
  rfl

theorem spdmDone_completes {n : Nat} {r : List Byte} (hm : s.kln.spdm.find? (fun x => x.ticket == n) = some m) (ht : m.at_ + us 2000 ≤ s.now)
    (hr : m.resp = some r) : s.spdmDone n =
      ({ s with kln := { s.kln with spdm := s.kln.spdm.filter (fun x => x.ticket != n) } } : State).completeTicket n Status.ok r := by
  simp only [State.spdmDone, hm, if_neg (Nat.not_lt.2 ht), hr, Option.getD_some]

theorem exec_finish (s : State) (sid : Nat) (msg : List Byte) (key : Option (List Byte)) :
    exec (.finish sid msg true key) s = .next (s.spdmReq sid msg true 0xE5 3 3 (fun s => s.spdmFinish key)) := rfl

/-! ### The layout of a Kiln message (R380) -/

/-- The fields of a Kiln message's first word. -/
theorem kilnWord_fields {kop n : Nat} (hk : kop < 256) (hn : n < 2 ^ 32) :
    bits (BitVec.ofNat 64 (kop * 2 ^ 56 + n)) 63 56 = kop ∧ bits (BitVec.ofNat 64 (kop * 2 ^ 56 + n)) 55 32 = 0 ∧
      bits (BitVec.ofNat 64 (kop * 2 ^ 56 + n)) 31 0 = n := by
  have hlt : kop * 2 ^ 56 + n < 2 ^ 64 := by omega
  rw [bits_ofNat _ _ _ hlt, bits_ofNat _ _ _ hlt, bits_ofNat _ _ _ hlt]
  omega

/-- The first word of bytes that begin with it. -/
theorem wordAt_bytesOfWords (w : Word) (l : List Byte) : wordAt (wordsOf 1 (bytesOfWords [w] ++ l)) 0 = w := by
  have h := wordsOf_bytesOfWords [w] l
  rw [List.length_singleton] at h
  rw [h]
  rfl

variable {p body : List Byte} {kop : Nat} {x : Session} {g : State → Session → List Byte → KAns} {t : State} {k : Nat} {b : List Byte}

/-- A Kiln message as R380 lays it out is answered with what its row's function gives for its body. -/
theorem kilnMsg_answers (hx : s.session sid = some x) (hp : KilnAsks p kop body) (hk : kop < 256) (ha : g s x body = { st := t, kstatus := k, body := b }) :
    s.kilnMsg kop g m sid p = kilnAnswered t m sid kop k b := by
  obtain ⟨hhead, hlen, hdrop⟩ := hp
  obtain ⟨hkop, hzero, hbody⟩ := kilnWord_fields hk hlen
  have hfirst : wordAt (wordsOf 1 (p.drop 11)) 0 = BitVec.ofNat 64 (kop * 2 ^ 56 + body.length) := by
    rw [hdrop, bytesOfWords_cons]
    exact wordAt_bytesOfWords _ (bytesOfWords [0] ++ body)
  have hsecond : wordAt (wordsOf 2 (p.drop 11)) 1 = 0 := by
    rw [hdrop]
    exact congrArg (wordAt · 1) (wordsOf_bytesOfWords [BitVec.ofNat 64 (kop * 2 ^ 56 + body.length), 0] body)
  have hlong : (p.drop 11).length = 16 + body.length := by rw [hdrop, List.length_append, bytesOfWords_length]; rfl
  have hrest : (p.drop 11).drop 16 = body := by rw [hdrop]; exact drop_bytesOfWords _ _ _ rfl
  have hform : (decide (bits (BitVec.ofNat 64 (kop * 2 ^ 56 + body.length)) 55 32 = 0) && (0 : Word) == 0 &&
      decide (16 + body.length = 16 + bits (BitVec.ofNat 64 (kop * 2 ^ 56 + body.length)) 31 0)) = true := by rw [hzero, hbody]; simp
  have hbytes (l : List Byte) (w : Word) : (bytesOfWords [w, 0] ++ l).length = 16 + l.length := by
    rw [List.length_append, bytesOfWords_length]; rfl
  rw [State.kilnMsg]
  simp only [hx, hfirst, hsecond, hlong, hrest, hhead, hform, ha, hkop, hbytes, ne_eq, not_true, if_false, if_true]
  rfl

/-- A Kiln message of an open session is answered in its row. -/
theorem kilnRow_answers (hw : Waits s m sid msg 0xFE 3) (hs : InSession s sid) (hx : (seen s sid).session sid = some x) (hp : KilnAsks msg kop body)
    (hk : kop < 256) (ha : g (seen s sid) x body = { st := t, kstatus := k, body := b }) :
    s.kilnRow sid msg true kop g = .next (kilnAnswered t m sid kop k b).settleErr := by
  have hasked : asked m sid msg = msg := if_neg hs.1
  refine settled_of_eq ((spdmReq_session hw hs (.inl rfl)).trans ?_)
  rw [hasked]
  exact kilnMsg_answers hx hp hk ha

/-! ### The bodies (R379, R383) -/

theorem klnBind_binds {mem rick link : List Byte} (hmem : mem.length = 64) (hrick : rick.length = 64) (hlink : link.length = 32)
    (hb : s.bstate = Bind.unbound) (hu : s.soon isUnbind = false) (hd : s.fget Fld.klnState_DEBUG_OPEN = 0) (ha : x.authed = true)
    (hwm : weakKey mem = false) (hwr : weakKey rick = false) :
    s.klnBind x (mem ++ rick ++ link ++ List.replicate 32 0) =
      { st := ((({ s with kln := { s.kln with rickKey := some rick, weightKey := none, linkKeys := [(0, link)], log := s.kln.log.filter (fun e => decide (logKind e ≤ 2)) } } : State).tenantSet
          x.keyHash).bindReset mem).bstateSet Bind.binding
        body := keyId mem ++ keyId rick ++ keyId link } := by
  have hlen : (mem ++ rick ++ link ++ List.replicate 32 (0 : Byte)).length = 192 := by simp [hmem, hrick, hlink]
  have hm : (mem ++ rick ++ link ++ List.replicate 32 (0 : Byte)).take 64 = mem := by
    rw [List.append_assoc, List.append_assoc, ← hmem, List.take_left']; rfl
  have hmr : (mem ++ rick).length = 128 := by simp [hmem, hrick]
  have hmrl : (mem ++ rick ++ link).length = 160 := by simp [hmem, hrick, hlink]
  have hr : ((mem ++ rick ++ link ++ List.replicate 32 (0 : Byte)).drop 64).take 64 = rick := by
    rw [List.append_assoc, List.append_assoc, List.drop_left' hmem, List.take_left' hrick]
  have hl : ((mem ++ rick ++ link ++ List.replicate 32 (0 : Byte)).drop 128).take 32 = link := by
    rw [List.append_assoc, List.drop_left' hmr, List.take_left' hlink]
  have hz : allZero ((mem ++ rick ++ link ++ List.replicate 32 (0 : Byte)).drop 160) = true := by
    rw [List.drop_left' hmrl]; decide
  have hform : ¬ ((mem ++ rick ++ link ++ List.replicate 32 (0 : Byte)).length ≠ 192 ∨ allZero ((mem ++ rick ++ link ++ List.replicate 32 (0 : Byte)).drop 160) = false) := by
    rw [hlen, hz]; decide
  have hopen : ¬ (s.bstate ≠ Bind.unbound ∨ s.fget Fld.klnState_DEBUG_OPEN = 1 ∨ s.soon isUnbind = true) := by rw [hb, hd, hu]; decide
  rw [State.klnBind, if_neg hform, if_neg hopen]
  simp only [ha, hm, hr, hl, hwm, hwr, Bool.true_eq_false, Bool.or_self, Bool.false_eq_true, if_false]

/-- The fields of a key body's first word. -/
theorem keyBody_fields {cls slot : Nat} {key : List Byte} (hc : cls < 256) (hs : slot < 256) :
    bits (wordAt (wordsOf 1 (keyBody cls slot key)) 0) 63 56 = cls ∧ bits (wordAt (wordsOf 1 (keyBody cls slot key)) 0) 55 48 = slot ∧
      bits (wordAt (wordsOf 1 (keyBody cls slot key)) 0) 47 0 = 0 := by
  have hlt : cls * 2 ^ 56 + slot * 2 ^ 48 < 2 ^ 64 := by omega
  rw [keyBody, wordAt_bytesOfWords, bits_ofNat _ _ _ hlt, bits_ofNat _ _ _ hlt, bits_ofNat _ _ _ hlt]
  omega

theorem keyBody_length {cls slot : Nat} {key : List Byte} : (keyBody cls slot key).length = 8 + key.length := by
  rw [keyBody, List.length_append, bytesOfWords_length]; rfl

theorem keyBody_key {cls slot : Nat} {key : List Byte} : (keyBody cls slot key).drop 8 = key := drop_bytesOfWords _ _ _ rfl

theorem klnKeySet_weight {key : List Byte} (hb : s.bstate = Bind.bound) (ht : s.tenantOf x = true) (hl : key.length = 64) (hk : weakKey key = false) :
    s.klnKeySet x (keyBody 2 0 key) = { st := { s with kln := { s.kln with weightKey := some key } }, body := keyId key } := by
  have hlen : (keyBody 2 0 key).length = 72 := by rw [keyBody_length, hl]
  obtain ⟨hcls, hslot, hzero⟩ := keyBody_fields (cls := 2) (slot := 0) (key := key) (by decide) (by decide)
  have hgo : ¬ (s.bstate ≠ Bind.bound ∨ 2 < 2) := by rw [hb]; decide
  simp only [State.klnKeySet, hlen, hcls, hslot, hzero, keyBody_key, ht, hk, if_neg hgo, Bool.not_true, Bool.false_eq_true, if_false, if_true]
  rfl

theorem klnKeySet_link {slot : Nat} {key : List Byte} (hb : s.bstate = Bind.bound) (ht : s.tenantOf x = true) (h1 : 1 ≤ slot) (h64 : slot < 64)
    (hl : key.length = 32) : s.klnKeySet x (keyBody 3 slot (key ++ List.replicate 32 0)) =
      { st := { s with kln := { s.kln with linkKeys := tblPut s.kln.linkKeys slot key } }, body := keyId key } := by
  have hlen : (keyBody 3 slot (key ++ List.replicate 32 0)).length = 72 := by rw [keyBody_length, List.length_append, hl]; rfl
  obtain ⟨hcls, hslot, hzero⟩ := keyBody_fields (cls := 3) (slot := slot) (key := key ++ List.replicate 32 0) (by decide) (by omega)
  have hpad : allZero ((key ++ List.replicate 32 (0 : Byte)).drop 32) = true := by rw [List.drop_left' hl]; decide
  have hkey : (key ++ List.replicate 32 (0 : Byte)).take 32 = key := List.take_left' hl
  have hgo : ¬ (s.bstate ≠ Bind.bound ∨ 3 < 2) := by rw [hb]; decide
  have hnz : (slot == 0) = false := beq_eq_false_iff_ne.2 (by omega)
  have hmax : decide (63 < slot) = false := decide_eq_false (by omega)
  simp only [State.klnKeySet, hlen, hcls, hslot, hzero, keyBody_key, ht, hpad, hkey, hnz, hmax, if_neg hgo, Bool.not_true, Bool.false_eq_true, if_false]
  rfl

/-- A good KEY_DESTROY of a bound tenant destroys the key of its class. -/
theorem klnKeyDestroy_class {cls slot : Nat} (hb : s.bstate = Bind.bound) (ht : s.tenantOf x = true) (h1 : 1 ≤ cls) (h3 : cls ≤ 3)
    (hs : cls ≠ 3 → slot = 0) (h64 : slot < 64) : s.klnKeyDestroy x (keyBody cls slot []) =
      if cls = 1 then { st := { s with kln := { s.kln with rickKey := none } } }
      else if cls = 2 then { st := s.weightDestroy }
      else { st := { s with kln := { s.kln with linkKeys := tblDel s.kln.linkKeys slot } } } := by
  have hlen : (keyBody cls slot []).length = 8 := keyBody_length
  obtain ⟨hcls, hslot, hzero⟩ := keyBody_fields (cls := cls) (slot := slot) (key := []) (by omega) (by omega)
  have hform : ¬ (8 ≠ 8 ∨ 0 ≠ 0 ∨ 3 < cls ∨ (cls ≠ 3 ∧ slot ≠ 0) ∨ 63 < slot) := by omega
  have hgo : ¬ (s.bstate ≠ Bind.bound ∨ cls = 0) := not_or_intro (not_not_intro hb) (by omega)
  simp only [State.klnKeyDestroy, hlen, hcls, hslot, hzero, if_neg hform, if_neg hgo, ht, Bool.not_true, Bool.false_eq_true, if_false]

theorem klnUnbind_unbinds (hb : s.bstate = Bind.bound) (hbound : s.bound = true) (ht : s.tenantOf x = true) : s.klnUnbind x [] = { st := s.unbindBegin } := by
  have hnot : ¬ s.bstate = Bind.unbinding := by rw [hb]; decide
  simp only [State.klnUnbind, List.length_nil, ne_eq, not_true, if_false, hbound, ht, Bool.not_true, Bool.false_eq_true, if_neg hnot]

theorem klnLogRead_reads {i : Nat} (hbound : s.bound = true) (ht : s.tenantOf x = true) (hi : i < 2 ^ 32) :
    s.klnLogRead x (bytesOfWords [BitVec.ofNat 64 i]) = { st := s, body := ((s.kln.refusals.drop i).take 64).flatMap bytesOfWords } := by
  have hword : wordAt (wordsOf 1 (bytesOfWords [BitVec.ofNat 64 i])) 0 = BitVec.ofNat 64 i := by
    have h := wordAt_bytesOfWords (BitVec.ofNat 64 i) []
    rwa [List.append_nil] at h
  have hlen : (bytesOfWords [BitVec.ofNat 64 i]).length = 8 := bytesOfWords_length _
  have hlt : i < 2 ^ 64 := by omega
  have hhigh : bits (BitVec.ofNat 64 i) 63 32 = 0 := by rw [bits_ofNat _ _ _ hlt]; omega
  have hlow : bits (BitVec.ofNat 64 i) 31 0 = i := by rw [bits_ofNat _ _ _ hlt]; omega
  simp only [State.klnLogRead, hword, hlen, hhigh, hlow, ne_eq, not_true, or_self, if_false, hbound, ht, Bool.not_true, Bool.false_eq_true]

theorem klnReport_reports {nonce : List Byte} (hl : nonce.length = 32) : s.klnReport x nonce =
    { st := (s.drawBytes 96).2, body := s.reportHeader nonce ++ s.kln.log.flatMap bytesOfWords ++ (s.drawBytes 96).1 } :=
  if_neg (not_not_intro hl)

end

end Sys2Proof.Machine

namespace Sys2Proof.Claims
open Sys2Proof Sys2Proof.Machine

/-- Settles O41: each request by where it may stand, the end of a session, and a message that completes. -/
theorem spdmRequestsAreAnswered : Obligations.SpdmRequestsAreAnswered := by
  unfold Obligations.SpdmRequestsAreAnswered
  intro s m sid msg p s1 given
  refine ⟨?version, ?capabilities, ?algorithms, ?challenge, ?exchange, fun hs => ⟨fun hw => ?digests, fun hw => ?certificate, fun hw => ?measurements,
    fun hw => ?chunkSend, fun hw => ?chunkGet⟩, fun key x hw hsid hx hopen => ?finish,
    fun hs => ⟨fun hw => ?heartbeat, fun hw => ?keyUpdate, fun hw => ?endSession⟩, fun x hx ht => ⟨_, rfl, rfl⟩,
    fun r _ hm ht hr => next_of_eq (spdmDone_completes hm ht hr)⟩
  case version => rintro hw rfl; exact next_of_eq (spdmReq_clear hw (.inl rfl))
  case capabilities => rintro hw rfl; exact next_of_eq (spdmReq_clear hw (.inl rfl))
  case algorithms => rintro hw rfl; exact next_of_eq (spdmReq_clear hw (.inl rfl))
  case challenge => rintro hw rfl; exact next_of_eq (spdmReq_clear hw (.inl rfl))
  case exchange => rintro hw rfl; exact next_of_eq (spdmReq_clear hw (.inl rfl))
  case digests => exact next_of_eq (spdmReq_either hw hs)
  case certificate => exact next_of_eq (spdmReq_either hw hs)
  case measurements => exact next_of_eq (spdmReq_either hw hs)
  case chunkSend => exact next_of_eq (spdmReq_either hw hs)
  case chunkGet => exact next_of_eq (spdmReq_either hw hs)
  case finish => exact (exec_finish s sid msg key).trans (next_of_eq (spdmReq_handshake hw hsid hx hopen))
  case heartbeat => exact next_of_eq (spdmReq_session hw hs (.inl rfl))
  case keyUpdate => exact next_of_eq (spdmReq_session hw hs (.inl rfl))
  case endSession => exact next_of_eq (spdmReq_session hw hs (.inl rfl))

/-- Settles O42: each Kiln message of an open session, and the ends of the two resets. -/
theorem kilnMessagesBindAndReport : Obligations.KilnMessagesBindAndReport := by
  unfold Obligations.KilnMessagesBindAndReport
  refine ⟨fun s m sid msg x hw hs hx => ?messages, fun s hb ht => next_of_eq (if_neg ?bound), fun s hb ht => next_of_eq (if_neg ?unbound)⟩
  case messages =>
    intro s1
    refine ⟨fun mem rick link hp hmem hrick hlink hb hu hd ha hwm hwr => kilnRow_answers hw hs hx hp (by decide) (klnBind_binds hmem hrick hlink hb hu hd ha hwm hwr),
      fun hb ht => ⟨fun key hp hl hk => kilnRow_answers hw hs hx hp (by decide) (klnKeySet_weight hb ht hl hk),
        fun slot key hp h1 h64 hl => kilnRow_answers hw hs hx hp (by decide) (klnKeySet_link hb ht h1 h64 hl), fun hp => ?rick, fun hp => ?weight,
        fun slot hp h64 => ?link, fun hbound hp => kilnRow_answers hw hs hx hp (by decide) (klnUnbind_unbinds hb hbound ht),
        fun i hbound hi hp => kilnRow_answers hw hs hx hp (by decide) (klnLogRead_reads hbound ht hi)⟩,
      fun nonce hp hl => kilnRow_answers hw hs hx hp (by decide) (klnReport_reports hl), fun hp => kilnRow_answers hw hs hx hp (by decide) rfl⟩
    case rick => exact kilnRow_answers hw hs hx hp (by decide) (klnKeyDestroy_class hb ht (by decide) (by decide) (fun _ => rfl) (by decide))
    case weight => exact kilnRow_answers hw hs hx hp (by decide) (klnKeyDestroy_class hb ht (by decide) (by decide) (fun _ => rfl) (by decide))
    case link => exact kilnRow_answers hw hs hx hp (by decide) (klnKeyDestroy_class hb ht (by decide) (by decide) (fun h => absurd rfl h) h64)
  case bound => exact not_or_intro (not_not_intro hb) (by rw [State.cleared, decide_eq_true ht]; decide)
  case unbound => exact not_or_intro (not_not_intro hb) (by rw [State.cleared, decide_eq_true ht]; decide)

end Sys2Proof.Claims
end

section
/-! PROOFS. Triggered operations (R271 to R287) and the host ports' requests and completions (R89, R104, R131, R387, R400). -/

namespace Sys2Proof.Machine
open Sys2Proof Sys2Proof.Claims

section
variable {s s1 : State} {n i : Nat}

/-! ### Arming and disarming (R278, R287) -/

theorem exec_toArm (hn : n < 64) (hi : i < 1024) : exec (.toArm n i) s = .next (s.toArm n i) := next_of_eq (if_pos ⟨hn, hi⟩)

theorem exec_toDisarm (hn : n < 64) (hi : i < 1024) : exec (.toDisarm n i) s = .next (s.toDisarm n i) := next_of_eq (if_pos ⟨hn, hi⟩)

theorem exec_toWatchdog (hn : n < 64) (hi : i < 1024) : exec (.toWatchdog n i) s = .next (s.toWatchdog n i) := next_of_eq (if_pos ⟨hn, hi⟩)

theorem toArm_not_applied (h : s.toArmOk n i = false) : s.toArm n i = s := if_neg (ne_true_of_eq_false h)

theorem toDisarm_waiting (h : s.toState n i = ToSt.armed ∨ s.toState n i = ToSt.queued) :
    s.toDisarm n i = ((s.fset Fld.epbToW7_STATE n i ToSt.idle).epbMod n
      (fun e => { e with fireq := e.fireq.filter (· != i), wdStart := tblDel e.wdStart i })).niStat n := by
  have hf : s.toState n i ≠ ToSt.failed := by
    obtain h | h := h <;> rw [h] <;> decide
  simp only [State.toDisarm, if_pos (or_assoc.1 (.inl h)), if_neg hf]

theorem toDisarm_failed (h : s.toState n i = ToSt.failed) :
    s.toDisarm n i = (((s.fdec Fld.epbNiStat_FAILED n 0 1).fset Fld.epbToW7_STATE n i ToSt.idle).epbMod n
      (fun e => { e with fireq := e.fireq.filter (· != i), wdStart := tblDel e.wdStart i })).niStat n := by
  simp only [State.toDisarm, if_pos (Or.inr (Or.inr h)), if_pos h]

theorem toDisarm_other (h : s.toState n i = ToSt.running ∨ s.toState n i = ToSt.parked ∨ s.toState n i = ToSt.idle) : s.toDisarm n i = s := by
  refine if_neg ?_
  obtain h | h | h := h <;> rw [h] <;> decide

/-! ### The network interface starts and ends operations (R272 to R274) -/

theorem niStart_resumed {p : Park} (hroom : s.niRoom n = true) (hp : (s.epbAt n).resumes.find? (fun p => p.mover.ni) = some p) :
    s.niStart n = (s.epbMod n (fun e => { e with
      niRun := tblPut e.niRun p.mover.index p.restart, resumes := delFirst (fun q => decide (q = p)) e.resumes })).niStat n := by
  simp only [State.niStart, hroom, hp, Bool.not_true, Bool.false_eq_true, if_false]

theorem niStart_front {t : List Nat} (hroom : s.niRoom n = true) (hp : (s.epbAt n).resumes.find? (fun p => p.mover.ni) = none)
    (hq : (s.epbAt n).fireq = i :: t) : s.niStart n = (s.epbMod n (fun e => { e with fireq := t })).toStart n i := by
  simp only [State.niStart, hroom, hp, hq, Bool.not_true, Bool.false_eq_true, if_false]

theorem niStart_full (hroom : s.niRoom n = false) : s.niStart n = s := if_pos (congrArg Bool.not hroom)

theorem toStart_nop (h : bits (s.toWord n i 0) 63 60 = 0) :
    s.toStart n i = ((s.fset Fld.epbToW7_STATE n i ToSt.running).fwrap Fld.epbToW6_FIRED n i 1).toOk n i := if_pos h

theorem toStart_runs (h : bits (s.toWord n i 0) 63 60 ≠ 0) (hm : (s.toMover n i).mcr = none) :
    s.toStart n i = (((s.fset Fld.epbToW7_STATE n i ToSt.running).fwrap Fld.epbToW6_FIRED n i 1).epbMod n
      (fun e => { e with niRun := tblPut e.niRun i (s.toMover n i) })).niStat n := by
  simp only [State.toStart, if_neg h, hm, Bool.false_eq_true, if_false]

section
variable {m : Mover} (hm : tblFind (s.epbAt n).niRun i = some m)
include hm

theorem niEnd_fails {st id : Nat} (hf : m.toFail = true) (h : s.moverFault n (i + 8) m = (st, id, s1)) : s.niEnd n i = s1.toFail n i st := by
  simp only [State.niEnd, hm, hf, h, if_true]

theorem niEnd_ok (hf : m.toFail = false) (hd : m.allDone = true) : s.niEnd n i = s.toOk n i := by
  simp only [State.niEnd, hm, hf, hd, Bool.false_eq_true, if_false, if_true]

theorem niEnd_parks {p : Park} (hf : m.toFail = false) (hd : m.allDone = false) (hp : m.toPark = true) (hr : s.ringParks n m.ring < 8)
    (h : s.moverPark n (i + 8) m = (p, s1)) :
    s.niEnd n i = (((s1.epbMod n (fun e => { e with niRun := tblDel e.niRun i, parks := e.parks ++ [p] })).fset
      Fld.epbToW7_STATE n i ToSt.parked).ringShow n m.ring).niStat n := by
  simp only [State.niEnd, hm, hf, hd, hp, h, decide_eq_true hr, Bool.and_self, Bool.false_eq_true, if_false, if_true]

end

theorem toWatchdog_expires {t : Nat} (ha : s.toState n i = ToSt.armed) (hw : s.fget Fld.epbToW0_WD_EN n i = 1)
    (ht : tblFind (s.epbAt n).wdStart i = some t) (hdue : t + us (s.fget Fld.epbNiCtrl_WDOG n) ≤ s.now) :
    s.toWatchdog n i = ((s.stir (n / 8)).toFail n i TStat.timeout).errRec 2 0x12 14 (1024 * n + i)
      [s.fget Fld.epbNctrW0_COUNT n (s.fget Fld.epbToW4_WDC n i), s.fget Fld.epbToW1_THRESH n i] := by
  simp only [State.toWatchdog, ht]
  exact if_pos ⟨ha, hw, decide_eq_true hdue⟩

end

section
variable {s : State} {h id typ gfa len : Nat} {relaxed : Bool} {payload data : List Byte}

/-! ### PCI Express requests of a host (R89, R387, R400) -/

/-- With its link up and a type of memory access, the host's request is looked at for its reach first. -/
theorem hostRequest_up (hup : s.hostUp h = true) (ht : typ = 0x01 ∨ typ = 0x02 ∨ typ = 0x0B) :
    s.hostRequest h id typ gfa len relaxed payload =
      (let r := hostFabricReq h id typ gfa len relaxed payload
       if s.bound && !hostReachOk gfa then s.refuseReq (120 + h) r 0x05 TStat.fault
       else if !isTarget (gfaE gfa) then s.refuseReq (120 + h) r 0x07 TStat.fault
       else if !operandOk typ (gfaOff gfa) len 0 0 0 payload.length || !endpointOk typ gfa then s.refuseReq (120 + h) r 0x08 TStat.badParam
       else s.submit (120 + h) r) := by
  have hlink : ¬ (!s.hostUp h && !s.boot.hostLinks.contains h) = true := by rw [hup]; exact Bool.false_ne_true
  have htyp : ¬ (typ ≠ Ty.load ∧ typ ≠ Ty.store ∧ typ ≠ Ty.doorbell) := fun ⟨h1, h2, h3⟩ => ht.elim h1 (·.elim h2 h3)
  exact (if_neg hlink).trans (if_neg htyp)

theorem within_reach (h : s.bound = false ∨ hostReachOk gfa = true) : ¬ (s.bound && !hostReachOk gfa) = true := by
  obtain h | h := h
  · rw [h]; exact Bool.false_ne_true
  · rw [h, Bool.not_true, Bool.and_false]; exact Bool.false_ne_true

theorem hostRequest_submits (hup : s.hostUp h = true) (ht : typ = 0x01 ∨ typ = 0x02 ∨ typ = 0x0B) (hr : s.bound = false ∨ hostReachOk gfa = true)
    (htgt : isTarget (gfaE gfa) = true) (hop : operandOk typ (gfaOff gfa) len 0 0 0 payload.length = true) (he : endpointOk typ gfa = true) :
    s.hostRequest h id typ gfa len relaxed payload = s.submit (120 + h) (hostFabricReq h id typ gfa len relaxed payload) := by
  rw [hostRequest_up hup ht]
  exact (if_neg (within_reach hr)).trans ((if_neg (by rw [htgt]; exact Bool.false_ne_true)).trans (if_neg (by rw [hop, he]; exact Bool.false_ne_true)))

theorem hostRequest_beyond_reach (hup : s.hostUp h = true) (ht : typ = 0x01 ∨ typ = 0x02 ∨ typ = 0x0B) (hb : s.bound = true)
    (hr : hostReachOk gfa = false) :
    s.hostRequest h id typ gfa len relaxed payload = s.refuseReq (120 + h) (hostFabricReq h id typ gfa len relaxed payload) 0x05 TStat.fault := by
  rw [hostRequest_up hup ht]
  exact if_pos (by rw [hb, hr]; rfl)

theorem hostRequest_no_target (hup : s.hostUp h = true) (ht : typ = 0x01 ∨ typ = 0x02 ∨ typ = 0x0B) (hr : s.bound = false ∨ hostReachOk gfa = true)
    (htgt : isTarget (gfaE gfa) = false) :
    s.hostRequest h id typ gfa len relaxed payload = s.refuseReq (120 + h) (hostFabricReq h id typ gfa len relaxed payload) 0x07 TStat.fault := by
  rw [hostRequest_up hup ht]
  exact (if_neg (within_reach hr)).trans (if_pos (by rw [htgt]; rfl))

/-! ### Completions of a host target request (R104, R131) -/

section
variable {p : Packet} {s1 : State} (hp : s.hostTake h id = some (p, s1))
include hp

theorem hostCompletion_unsupported (poison : Bool) :
    s.hostCompletion h id false poison data = s1.targetFault (120 + h) p 0x12 7 0 none 0 := by
  simp only [State.hostCompletion, hp, Bool.not_false, if_true]

theorem hostTimeout_faults : s.hostTimeout h id = s1.targetFault (120 + h) p 0x12 7 0 none 0 := by
  simp only [State.hostTimeout, hp]

theorem hostCompletion_load (ht : p.typ = 0x01 ∨ p.typ = 0x08) :
    s.hostCompletion h id true false data = s1.respond p (120 + h) Ty.loadRsp TStat.ok false (data.take (p.len + 1)) := by
  simp only [State.hostCompletion, hp, if_pos (show p.typ = Ty.load ∨ p.typ = Ty.acquire from ht), Bool.not_true, Bool.false_eq_true, if_false]

/-- A good completion of a request that is neither LOAD nor ACQUIRE. -/
theorem hostCompletion_other (ht : ¬ (p.typ = Ty.load ∨ p.typ = Ty.acquire)) :
    s.hostCompletion h id true false data =
      if returnsData p.typ then s1.respond p (120 + h) Ty.atomicRsp TStat.ok false (data.take (p.len + 1))
      else s1.respond p (120 + h) Ty.ack TStat.ok false [] := by
  simp only [State.hostCompletion, hp, if_neg ht, Bool.not_true, Bool.false_eq_true, if_false]

theorem hostCompletion_store (ht : p.typ = 0x02 ∨ p.typ = 0x09) :
    s.hostCompletion h id true false data = s1.respond p (120 + h) Ty.ack TStat.ok false [] := by
  refine (hostCompletion_other hp ?_).trans (if_neg ?_)
  all_goals obtain ht | ht := ht <;> rw [ht] <;> decide

theorem hostCompletion_atomic (ht : p.typ = 0x03) :
    s.hostCompletion h id true false data = s1.respond p (120 + h) Ty.atomicRsp TStat.ok false (data.take (p.len + 1)) := by
  refine (hostCompletion_other hp ?_).trans (if_pos ?_)
  all_goals rw [ht]; decide

end
end
end Sys2Proof.Machine

namespace Sys2Proof.Claims
open Sys2Proof Sys2Proof.Machine

/-- Settles O53: ARM and DISARM by the entry's state, additions, the start and the three ends of an operation, and the watchdog. -/
theorem triggeredOperationsArmRunAndEnd : Obligations.TriggeredOperationsArmRunAndEnd := by
  unfold Obligations.TriggeredOperationsArmRunAndEnd
  intro s n i hn hi
  refine ⟨fun h => (exec_toArm hn hi).trans (next_of_eq (if_pos h)), fun h => (exec_toArm hn hi).trans (next_of_eq (toArm_not_applied h)),
    fun h => (exec_toDisarm hn hi).trans (next_of_eq (toDisarm_waiting h)), fun h => (exec_toDisarm hn hi).trans (next_of_eq (toDisarm_failed h)),
    fun h => (exec_toDisarm hn hi).trans (next_of_eq (toDisarm_other h)), fun c v hc => next_of_eq (if_pos ⟨hn, hc⟩),
    fun p hroom hp => settled_of_eq (niStart_resumed hroom hp), fun t hroom hp hq => ⟨fun h => ?nop, fun h hm => ?runs⟩,
    fun hroom => settled_of_eq (niStart_full hroom), fun m hm => ⟨fun st id s1 hf h => next_of_eq (niEnd_fails hm hf h),
      fun hf hd => next_of_eq (niEnd_ok hm hf hd), fun p s1 hf hd hp hr h => next_of_eq (niEnd_parks hm hf hd hp hr h)⟩,
    fun t ha hw ht hdue => (exec_toWatchdog hn hi).trans (next_of_eq (toWatchdog_expires ha hw ht hdue))⟩
  case nop => exact settled_of_eq ((niStart_front hroom hp hq).trans (toStart_nop h))
  case runs => exact settled_of_eq ((niStart_front hroom hp hq).trans (toStart_runs h hm))

/-- Settles O54: a host's request submitted or refused, and the ends of the fabric requests that a host answers. -/
theorem hostPortsIssueAndAnswer : Obligations.HostPortsIssueAndAnswer := by
  unfold Obligations.HostPortsIssueAndAnswer
  refine fun s h id hh => ⟨fun typ gfa len relaxed payload hup ht => ?requests, fun t ht => ?completions⟩
  case requests =>
    exact ⟨fun hr htgt hop he => next_of_eq (hostRequest_submits hup ht hr htgt hop he), fun hb hr => next_of_eq (hostRequest_beyond_reach hup ht hb hr),
      fun hr htgt => next_of_eq (hostRequest_no_target hup ht hr htgt)⟩
  case completions =>
    intro s1 p
    have hp : s.hostTake h id = some (p, s1) := by simp only [State.hostTake, ht, p, s1]
    exact ⟨fun poison data => next_of_eq (hostCompletion_unsupported hp poison), next_of_eq (hostTimeout_faults hp),
      fun data ht => next_of_eq (hostCompletion_load hp ht), fun data ht => next_of_eq (hostCompletion_store hp ht),
      fun data ht => next_of_eq (hostCompletion_atomic hp ht)⟩

end Sys2Proof.Claims
end

section
/-! PROOFS. Responses and epochs at the issuer (R29, R34, R44, R51, R58, R144, R166, R172), and ring items from commit to park (R97 to R126). -/

namespace Sys2Proof.Machine
open Sys2Proof Sys2Proof.Claims

/-! ### Responses at their unit (R29, R34, R40, R44) -/

section
variable {s : State} {u ty : Nat} {p : Packet} {t : Tag}

/-- A response of the row's type at an issuing unit waits no more, and goes to the request that it matches. -/
theorem arriveRsp_matched (hu : isIssuer u = true) (hp : p.typ = ty) (ht : s.matchTag u p = some t) :
    s.arriveRsp u p ty =
      (let key := tagKey u (p.tag % 4096)
       let s1 := (left s u p).echo u (16 * p.sy + p.sx) p.cmark
       if t.hdr.typ = Ty.fence then { s1 with tags := tblPut s1.tags key { t with answered := some (rspDone p).status } }
       else s1.finishTag key (rspDone p)) := by
  have hgo : ¬ (!isIssuer u || p.typ != ty) = true := by rw [hu, hp, bne_self_eq_false]; exact Bool.false_ne_true
  have ht' : State.matchTag (left s u p) u p = some t := ht
  refine (if_neg hgo).trans ?_
  change (match State.matchTag (left s u p) u p with | none => _ | some t => _) = _
  rw [ht']
  rfl

theorem arriveRsp_completes (hu : isIssuer u = true) (hp : p.typ = ty) (ht : s.matchTag u p = some t) (hf : t.hdr.typ ≠ 0x0A) :
    s.arriveRsp u p ty = ((left s u p).echo u (16 * p.sy + p.sx) p.cmark).finishTag (tagKey u (p.tag % 4096)) (rspDone p) :=
  (arriveRsp_matched hu hp ht).trans (if_neg hf)

theorem arriveRsp_fence (hu : isIssuer u = true) (hp : p.typ = ty) (ht : s.matchTag u p = some t) (hf : t.hdr.typ = 0x0A) :
    s.arriveRsp u p ty = { (left s u p).echo u (16 * p.sy + p.sx) p.cmark with
      tags := tblPut ((left s u p).echo u (16 * p.sy + p.sx) p.cmark).tags (tagKey u (p.tag % 4096))
        { t with answered := some (rspDone p).status } } :=
  (arriveRsp_matched hu hp ht).trans (if_pos hf)

theorem arriveRsp_unmatched (hu : isIssuer u = true) (hp : p.typ = ty) (ht : s.matchTag u p = none) :
    s.arriveRsp u p ty = (left s u p).lateRsp u p := by
  have hgo : ¬ (!isIssuer u || p.typ != ty) = true := by rw [hu, hp, bne_self_eq_false]; exact Bool.false_ne_true
  have ht' : State.matchTag (left s u p) u p = none := ht
  refine (if_neg hgo).trans ?_
  change (match State.matchTag (left s u p) u p with | none => _ | some t => _) = _
  rw [ht']
  rfl

theorem lateRsp_epb (h : u < 64) : s.lateRsp u p = (s.fsat Fld.epbLateRsp_LATE u 0 1).errRec 0 0x10 1 u [p.tag, p.addr / 2 ^ 45] := by
  simp only [State.lateRsp, if_pos h]

theorem lateRsp_other (h : 64 ≤ u) :
    s.lateRsp u p = ({ s with late := tblMod 0 s.late u (fun k => satAdd 32 k 1) } : State).errRec 0 0x10 (if u < 112 then 5 else 15)
      (if u < 112 then u - 96 else u - 120) [p.tag, p.addr / 2 ^ 45] := by
  simp only [State.lateRsp, if_neg (Nat.not_lt.2 h)]
  by_cases h112 : u < 112
  · simp only [if_pos h112]
  · simp only [if_neg h112]

theorem exec_response {i : Instr}
    (h : (ty = 0x20 ∧ i = .loadRsp u p) ∨ (ty = 0x21 ∧ i = .ack u p) ∨ (ty = 0x22 ∧ i = .atomicRsp u p) ∨ (ty = 0x23 ∧ i = .fswRsp u p) ∨
      (ty = 0x24 ∧ i = .nack u p)) : exec i s = .next (s.arriveRsp u p ty) := by
  obtain ⟨rfl, rfl⟩ | ⟨rfl, rfl⟩ | ⟨rfl, rfl⟩ | ⟨rfl, rfl⟩ | ⟨rfl, rfl⟩ := h <;> rfl

theorem fenceComplete_ready {i : Nat} (ht : tblFind s.tags (tagKey u i) = some t) (hr : s.fenceReady u t = true) :
    s.fenceComplete u i = s.finishTag (tagKey u i) { status := t.answered.getD 0 } := by
  simp only [State.fenceComplete, ht, hr, if_true]

end

/-! ### Rates and epochs (R51, R144, R166, R172) -/

section
variable {s : State} {n : Nat}

/-- A change of what an EPB holds is that of what it holds now. -/
theorem epbMod_congr {f g : Epb → Epb} (h : f (s.epbAt n) = g (s.epbAt n)) : s.epbMod n f = s.epbMod n g :=
  congrArg (fun x => { s with epb := tblPut s.epb n x }) h

/-- The running INC_PERIOD of an EPB: where it began, and its length. -/
def incRunning (s : State) (n : Nat) : Nat × Nat := ((s.epbAt n).incAt, (s.epbAt n).incLen)

theorem incRunning_rates (f : Tbl Rate → Tbl Rate) : incRunning (s.epbMod n (fun e => { e with rates := f e.rates })) n = incRunning s n := by
  simp only [incRunning, State.epbAt, State.epbMod_epb, tblGet_mod, if_true]

theorem incRunning_creditAdd (d : Nat) (x : Int) : incRunning (s.creditAdd n d x) n = incRunning s n :=
  incRunning_rates fun l => tblMod {} l d (fun r => { r with credit := s.creditNow n d + x, at_ := s.now })

theorem incRunning_rateSet (d v : Nat) : incRunning (s.rateSet n d v) n = incRunning s n := incRunning_creditAdd d 0

theorem incRunning_each_rateSet (v : State → Nat → Nat) (l : List Nat) : ∀ s : State,
    incRunning (State.each l (fun s d => s.rateSet n d (v s d)) s) n = incRunning s n := by
  induction l with
  | nil => exact fun s => rfl
  | cons d l ih => exact fun s => (ih _).trans (incRunning_rateSet d (v s d))

theorem incRunning_rateIncrease : incRunning (s.rateIncrease n) n = incRunning s n := by
  rw [State.rateIncrease, incRunning_rates fun l => l.map (fun x => (x.1, { x.2 with marked := false }))]
  exact incRunning_each_rateSet (fun u d => min 1024 (u.fget Fld.epbCcRate_RATE n d + s.fget Fld.epbCcCtrl_INC_STEP n)) _ s

/-- The end of a period: the rates move where EN is 1, and the next period has the length that now stands. -/
theorem incPeriod_over (h : (s.epbAt n).incAt + us (s.epbAt n).incLen ≤ s.now) :
    s.incPeriod n = (if s.fget Fld.epbCcCtrl_EN n = 1 then s.rateIncrease n else s).epbMod n (fun e => { e with
      incAt := (s.epbAt n).incAt + us (s.epbAt n).incLen, incLen := s.fget Fld.epbCcCtrl_INC_PERIOD n }) := by
  have hrun : incRunning (if s.fget Fld.epbCcCtrl_EN n = 1 then s.rateIncrease n else s) n = incRunning s n := by
    by_cases hen : s.fget Fld.epbCcCtrl_EN n = 1
    · rw [if_pos hen, incRunning_rateIncrease]
    · rw [if_neg hen]
  obtain ⟨hat, hlen⟩ := Prod.mk.inj hrun
  refine (if_pos h).trans (epbMod_congr ?_)
  simp only [hat, hlen]

theorem ccEnable_starts (h : s.fget Fld.epbCcCtrl_EN n ≠ 1) : s.ccEnable n = ((s.fset Fld.epbCcCtrl_EN n 0 1).ratesHold n).incRestart n := if_neg h

theorem rrcDisable_was_on (h : s.fget Fld.epbVisCtrl_RRC_EN n = 1) :
    s.rrcDisable n = (s.fset Fld.epbVisCtrl_RRC_EN n 0 0).epbMod n (fun e => rrcInvalidate e (fun _ => true)) := if_pos h

theorem roleWrite_same {v : Nat} (h : s.fget Fld.epbRole_ROLE_EPOCH n = v % 256) : s.roleWrite n v = s := if_pos h

end

/-! ### Commits (R116) -/

section
variable {s s1 : State} {n r tail : Nat}

theorem exec_ringCommit_taken {bar : Bool} (h : s.ringCommit n r tail = some s1) : exec (.ringCommit n r tail bar) s = .next s1 := by
  change (Host.Outcome.next _ : Res) = _
  rw [h]

theorem exec_ringCommit_refused (h : s.ringCommit n r tail = none) :
    exec (.ringCommit n r tail true) s = .next (s.fsat Fld.epbRingRej_REJ n 0 1) := by
  change (Host.Outcome.next _ : Res) = _
  rw [h]
  rfl

/-- A commit that is taken sets TAIL alone, and what is committed and not yet complete fits the ring. -/
theorem ringCommit_within_size (h : s.ringCommit n r tail = some s1) :
    s1 = s.fset Fld.epbRingTail_TAIL n r tail ∧
      (tail + 2 ^ 32 - s.ringTail n r) % 2 ^ 32 + (s.ringTail n r + 2 ^ 32 - s.ringLow n r) % 2 ^ 32 ≤ s.ringSize n r := by
  simp only [State.ringCommit, Option.ite_none_right_eq_some, Option.some.injEq] at h
  obtain ⟨⟨_, hsize, _⟩, rfl⟩ := h
  exact ⟨rfl, hsize⟩

end

/-! ### A free engine takes a descriptor (R98, R110, R115) -/

section
variable {s : State} {n e r : Nat} {ext : List (Nat × List Word)}

section
variable (he : (List.range 8).find? (fun e => (tblFind (s.epbAt n).engines e).isNone) = some e) (hr : s.nextRing n ext = some r)
include he hr

theorem engineStart_resumes {p : Park} (h : s.ringResumable n r = true)
    (hp : (s.epbAt n).resumes.find? (fun p => p.mover.ring == r && !p.mover.ni) = some p) :
    s.engineStart n ext = (s.epbMod n (fun x => { x with
      engines := tblPut x.engines e p.restart, lastRing := r, resumes := delFirst (fun q => decide (q = p)) x.resumes })).ringShow n r := by
  simp only [State.engineStart, he, hr, h, hp, if_true]

theorem engineStart_new {w : List Word} (h : s.ringResumable n r = false) (hi : s.headItem n r ext = some (some w)) :
    s.engineStart n ext = s.itemStartWith n r e (some (some w)) := by
  simp only [State.engineStart, he, hr, h, Bool.false_eq_true, if_false, State.itemStart, hi]

end

/-- The item at the head of a ring, as its engine holds it before it claims a channel. -/
def headMover (s : State) (n r : Nat) (w : List Word) : Mover :=
  { ring := r, index := s.ringFetch n r, fas := s.fget Fld.epbRingCfg_FAS n r, words := w,
    posted := bit (s.rd .epbTileCompat n) r && (bits (wordAt w 0) 63 60 == 1 || bits (wordAt w 0) 63 60 == 2) }

/-- The state once the item at a ring's head has been fetched. -/
def headFetched (s : State) (n r : Nat) : State :=
  (s.internalTouch (s.itemGfa n r (64 * (s.ringFetch n r % s.ringSize n r))) 64).fwrap Fld.epbRingFetch_FETCH n r 1

/-- Engine `e` of EPB `n` holds mover `m` of ring `r`. -/
def engineHolds (s : State) (n r e : Nat) (m : Mover) : State :=
  (s.epbMod n (fun x => { x with engines := tblPut x.engines e m, lastRing := r })).ringShow n r

variable {w : List Word} {m2 : Mover} {s2 : State} (hc : (headFetched s n r).moverClaim n (headMover s n r w) = (m2, s2))
include hc

/-- An item that is read claims its channel, and then runs or fails by the checks of R115. -/
theorem itemStartWith_read :
    s.itemStartWith n r e (some (some w)) =
      if descOk m2 then engineHolds s2 n r e m2
      else
        let f := s2.faultRec n { cause := 0x08, status := TStat.badParam, actor := 1, fas := m2.fas, context := m2.context e }
        engineHolds f.2 n r e { m2 with failed := some TStat.badParam, record := f.1 } := by
  have hm : m2 = ((headFetched s n r).moverClaim n (headMover s n r w)).1 := (congrArg Prod.fst hc).symm
  have hs : s2 = ((headFetched s n r).moverClaim n (headMover s n r w)).2 := (congrArg Prod.snd hc).symm
  rw [hm, hs]
  rfl

theorem itemStartWith_runs (h : descOk m2 = true) : s.itemStartWith n r e (some (some w)) = engineHolds s2 n r e m2 :=
  (itemStartWith_read hc).trans (if_pos h)

theorem itemStartWith_fails {id : Nat} {s3 : State} (h : descOk m2 = false)
    (hf : s2.faultRec n { cause := 0x08, status := TStat.badParam, actor := 1, fas := m2.fas, context := m2.context e } = (id, s3)) :
    s.itemStartWith n r e (some (some w)) = engineHolds s3 n r e { m2 with failed := some TStat.badParam, record := id } := by
  refine (itemStartWith_read hc).trans ((if_neg (ne_true_of_eq_false h)).trans ?_)
  rw [hf]

end

/-! ### An item ends or parks (R97, R121, R122) -/

section
variable {s s1 : State} {n e : Nat} {m : Mover} (hm : tblFind (s.epbAt n).engines e = some m)
include hm

theorem itemComplete_ok (hf : m.toFail = false) (hd : m.allDone = true) (hc : m.crcLost = false) :
    s.itemComplete n e = ((s.itemEnd n e m TStat.ok 0 false).epbMod n (fun x => { x with engines := tblDel x.engines e })).ringShow n m.ring := by
  simp only [State.itemComplete, hm, hf, hd, hc, Bool.false_eq_true, if_false, if_true]

theorem itemComplete_fails {st id : Nat} (hf : m.toFail = true) (h : s.moverFault n e m = (st, id, s1)) :
    s.itemComplete n e = ((s1.itemEnd n e m st id true).epbMod n (fun x => { x with engines := tblDel x.engines e })).ringShow n m.ring := by
  simp only [State.itemComplete, hm, hf, h, if_true]

theorem descriptorPark_parks {p : Park} (hp : m.toPark = true) (hr : s.ringParks n m.ring < 8) (h : s.moverPark n e m = (p, s1)) :
    s.descriptorPark n e =
      (let s2 := s1.epbMod n (fun x => { x with engines := tblDel x.engines e, parks := x.parks ++ [p] })
       (if s2.ringState n m.ring = RingSt.run then s2.fset Fld.epbRingStat_STATE n m.ring RingSt.held else s2).ringShow n m.ring) := by
  simp only [State.descriptorPark, hm, hp, h, decide_eq_true hr, Bool.and_self, if_true]

end
end Sys2Proof.Machine

namespace Sys2Proof.Claims
open Sys2Proof Sys2Proof.Machine

/-- Settles O48: a response by what it matches, the sweep, the periods of the rates, a new role epoch, and the two writes that invalidate. -/
theorem responsesAndEpochsReachTheIssuer : Obligations.ResponsesAndEpochsReachTheIssuer := by
  unfold Obligations.ResponsesAndEpochsReachTheIssuer
  refine ⟨fun s u p ty i hu hp hi => ?responses, fun s u i t ht hr => next_of_eq (fenceComplete_ready ht hr), fun s => rfl, fun s n hn => ?epochs,
    fun s v => rfl⟩
  case responses =>
    have hx : exec i s = .next (s.arriveRsp u p ty) := exec_response hi
    exact ⟨fun t ht hf => hx.trans (next_of_eq (arriveRsp_completes hu hp ht hf)),
      fun t ht hf => ⟨_, rfl, hx.trans (next_of_eq (arriveRsp_fence hu hp ht hf))⟩,
      fun ht h64 => hx.trans (next_of_eq ((arriveRsp_unmatched hu hp ht).trans (lateRsp_epb h64))),
      fun ht h64 => hx.trans (next_of_eq ((arriveRsp_unmatched hu hp ht).trans (lateRsp_other h64)))⟩
  case epochs =>
    refine ⟨fun hover => ⟨fun hen => next_of_eq ?rates, fun hen => next_of_eq ?still⟩, fun hen => next_of_eq (ccEnable_starts hen),
      fun v h => next_of_eq (roleWrite_same h), fun v h => next_of_eq (if_neg h), rfl, fun h => next_of_eq (rrcDisable_was_on h)⟩
    case rates => rw [incPeriod_over hover, if_pos hen]; rfl
    case still => rw [incPeriod_over hover, if_neg hen]

/-- Settles O52: a commit, the start of a released or a new descriptor, a segment, and the ends of an item. -/
theorem ringsCommitStartParkAndComplete : Obligations.RingsCommitStartParkAndComplete := by
  unfold Obligations.RingsCommitStartParkAndComplete
  refine fun s n => ⟨fun r tail bar s1 h => exec_ringCommit_taken h, fun r tail h => exec_ringCommit_refused h, fun r tail s1 h => ringCommit_within_size h,
    fun e r ext he hr => ⟨fun p hres hp => settled_of_eq (engineStart_resumes he hr hres hp), fun w hres hi => ?item⟩, fun e xs xd => rfl,
    fun e m hm => ⟨fun hf hd hc => next_of_eq (itemComplete_ok hm hf hd hc), fun st id s1 hf h => next_of_eq (itemComplete_fails hm hf h),
      fun p s1 hp hr h => next_of_eq (descriptorPark_parks hm hp hr h)⟩⟩
  case item =>
    intro idx s1 m put m2 s2 hc
    exact ⟨fun h => settled_of_eq ((engineStart_new he hr hres hi).trans (itemStartWith_runs hc h)),
      fun id s3 h hf => settled_of_eq ((engineStart_new he hr hres hi).trans (itemStartWith_fails hc h hf))⟩

end Sys2Proof.Claims
end

section
/-! PROOFS. Instructions of a Spindle thread (R224 to R232, R255 to R259): what the thread whose turn it is does at its PC, for every row. -/

namespace Sys2Proof.Machine
open Sys2Proof Sys2Proof.Claims

section
variable {s after : State} {k t c cls op : Nat} {eff : Nat → SInstr → State → State} {row : Nat → Nat → Bool → Instr}

/-- The thread whose turn it is, with a good encoding of the operation at its PC, does what the operation does (R227). -/
theorem spnIssue_issues (hi : Issues s k t c) (ha : At s k t cls op) :
    s.spnIssue k t cls op false eff = eff (thrKey k t) (s.fetch (thrKey k t)) (issued s k t c) := by
  obtain ⟨hk, hdom, hturn, hpc, hok⟩ := hi
  obtain ⟨hcls, hop⟩ := ha
  have hgo : ¬ (256 ≤ k ∨ s.fget Fld.pwrDomW0_STATE (10 + k / 16) ≠ 0) := not_or_intro (Nat.not_le.2 hk) (not_not_intro hdom)
  have hmine : ¬ ((s.fetch (thrKey k t)).cls ≠ cls ∨ (s.fetch (thrKey k t)).op ≠ op) := not_or_intro (not_not_intro hcls) (not_not_intro hop)
  simp only [State.spnIssue, if_neg hgo, hturn, if_neg (Nat.not_le.2 hpc), hok, if_neg hmine, ne_eq, not_true, if_false, Bool.not_true,
    Bool.false_eq_true]
  rfl

/-- A row runs its operation: `h` names the operation's effect, and `ha` what the effect leaves. -/
theorem runs_of (hi : Issues s k t c) (h : exec (row k t false) s = s.spnRun k t cls op false eff)
    (ha : eff (thrKey k t) (s.fetch (thrKey k t)) (issued s k t c) = after) : Runs s k t cls op row after :=
  fun hat => h.trans (settled_of_eq ((spnIssue_issues hi hat).trans ha))

/-- A remote row puts its thread in WAIT and goes on with the access. -/
theorem runsRemote_of {row : Nat → Nat → Bool → List Word → Instr} (hi : Issues s k t c)
    (h : ∀ ext, exec (row k t false ext) s = s.spnRun k t 6 op false (remote ext)) : RunsRemote s k t c op row :=
  fun ext hat => (h ext).trans (settled_of_eq (spnIssue_issues hi hat))

end

/-! ### Accesses of the local store and of an accumulator (R226, R237, R255) -/

section
variable {s after : State} {q n : Nat} {i : SInstr}

/-- An instruction that bit 0 of its predicate enables as a whole, by what it does where it is enabled. -/
theorem jump_eq {f : Nat → SInstr → State → State} (h : f q i s = after) :
    jump f q i s = if s.enabled q i 0 then after else s.thrNext q := by
  rw [jump, h]

theorem localAccess_inside {f : Nat → SInstr → Nat → State → State}
    (h : s.localAddr q i % n = 0 ∧ s.localAddr q i + n ≤ (s.thr q).lsSize * 1024) :
    localAccess n f q i s = (f q i (lsKey (q / 16) ((s.thr q).lsBase * 1024 + s.localAddr q i)) s).thrNext q := by
  simp only [localAccess, State.localKey, if_pos h]

theorem localAccess_outside {f : Nat → SInstr → Nat → State → State}
    (h : ¬ (s.localAddr q i % n = 0 ∧ s.localAddr q i + n ≤ (s.thr q).lsSize * 1024)) : localAccess n f q i s = s.progError q 3 := by
  simp only [localAccess, State.localKey, if_neg h]

theorem exactAccess_inside {f : Nat → SInstr → Nat → State → State}
    (h : (s.sreg q i.a).toNat % 256 = 0 ∧ (s.sreg q i.a).toNat + 2560 ≤ (s.thr q).lsSize * 1024) :
    exactAccess f q i s = (f q i (lsKey (q / 16) ((s.thr q).lsBase * 1024 + (s.sreg q i.a).toNat)) s).thrNext q := by
  simp only [exactAccess, State.localKey, if_pos h]

theorem exactAccess_outside {f : Nat → SInstr → Nat → State → State}
    (h : ¬ ((s.sreg q i.a).toNat % 256 = 0 ∧ (s.sreg q i.a).toNat + 2560 ≤ (s.thr q).lsSize * 1024)) : exactAccess f q i s = s.progError q 3 := by
  simp only [exactAccess, State.localKey, if_neg h]

theorem exact_refused {x : SInstr → Nat} {f : Nat → SInstr → State → State} (h : (s.thrGet Fld.spnThrW0_XMASK q).testBit (x i) = false) :
    exact x f q i s = s.progError q 4 := if_neg (ne_true_of_eq_false h)

end
end Sys2Proof.Machine

namespace Sys2Proof.Claims
open Sys2Proof Sys2Proof.Machine

/-- Settles O43: each row of the scalar and control classes, by the effect that the model gives it. -/
theorem spindleScalarAndControlInstructions : Obligations.SpindleScalarAndControlInstructions := by
  unfold Obligations.SpindleScalarAndControlInstructions
  intro s k t c hi q i imm rr ri
  refine ⟨⟨runs_of hi rfl rfl, runs_of hi rfl rfl, runs_of hi rfl rfl, runs_of hi rfl rfl, runs_of hi rfl rfl, runs_of hi rfl rfl, runs_of hi rfl rfl,
    runs_of hi rfl rfl, runs_of hi rfl rfl, runs_of hi rfl rfl, runs_of hi rfl rfl, runs_of hi rfl rfl, runs_of hi rfl rfl⟩,
    ⟨runs_of hi rfl rfl, runs_of hi rfl rfl, runs_of hi rfl rfl, runs_of hi rfl rfl, runs_of hi rfl rfl, runs_of hi rfl rfl, runs_of hi rfl rfl⟩,
    ⟨runs_of hi rfl rfl, runs_of hi rfl rfl, runs_of hi rfl rfl⟩, ?_⟩
  exact ⟨runs_of hi rfl rfl, runs_of hi rfl rfl, runs_of hi rfl rfl, runs_of hi rfl rfl, runs_of hi rfl rfl, runs_of hi rfl rfl, runs_of hi rfl rfl⟩

/-- Settles O44: each row of the vector and predicate classes, by the effect that the model gives it; VEXT and VINS by whether the element exists. -/
theorem spindleVectorAndPredicateInstructions : Obligations.SpindleVectorAndPredicateInstructions := by
  unfold Obligations.SpindleVectorAndPredicateInstructions
  intro s k t c hi q i s1 n put va vb vc sb vv vs vw pv pb
  refine ⟨⟨runs_of hi rfl rfl, runs_of hi rfl rfl, runs_of hi rfl rfl, runs_of hi rfl rfl, runs_of hi rfl rfl, runs_of hi rfl rfl, runs_of hi rfl rfl,
    runs_of hi rfl rfl, runs_of hi rfl rfl, runs_of hi rfl rfl, runs_of hi rfl rfl⟩,
    ⟨runs_of hi rfl rfl, runs_of hi rfl rfl, runs_of hi rfl rfl, runs_of hi rfl rfl, runs_of hi rfl rfl, runs_of hi rfl rfl,
      fun h => runs_of hi rfl (if_neg (Nat.not_le.2 h)), fun h => runs_of hi rfl (if_neg (Nat.not_le.2 h)),
      fun h => ⟨runs_of hi rfl (if_pos h), runs_of hi rfl (if_pos h)⟩⟩, ?_⟩
  exact ⟨runs_of hi rfl rfl, runs_of hi rfl rfl, runs_of hi rfl rfl, runs_of hi rfl rfl, runs_of hi rfl rfl, runs_of hi rfl rfl, runs_of hi rfl rfl,
    runs_of hi rfl rfl, runs_of hi rfl rfl, runs_of hi rfl rfl, runs_of hi rfl rfl⟩

/-- Settles O45: local accesses inside and outside the window, exact instructions with and without their grant, and the remote rows. -/
theorem spindleMemoryExactAndRemoteInstructions : Obligations.SpindleMemoryExactAndRemoteInstructions := by
  unfold Obligations.SpindleMemoryExactAndRemoteInstructions
  intro s k t c hi q i s1 at_ a by0 inside merge mask x ax xin
  refine ⟨fun h => ⟨runs_of hi rfl (jump_eq (localAccess_inside h)), runs_of hi rfl (jump_eq (localAccess_inside h))⟩,
    fun h => ⟨runs_of hi rfl (localAccess_inside h), runs_of hi rfl (localAccess_inside h)⟩,
    fun h => ⟨runs_of hi rfl (jump_eq (localAccess_inside h)), runs_of hi rfl (jump_eq (localAccess_inside h))⟩,
    ⟨fun h => ⟨runs_of hi rfl (jump_eq (localAccess_outside h)), runs_of hi rfl (jump_eq (localAccess_outside h))⟩,
      fun h => ⟨runs_of hi rfl (localAccess_outside h), runs_of hi rfl (localAccess_outside h)⟩,
      fun h => ⟨runs_of hi rfl (jump_eq (localAccess_outside h)), runs_of hi rfl (jump_eq (localAccess_outside h))⟩⟩,
    fun hm => ⟨runs_of hi rfl (jump_eq (if_pos hm)), runs_of hi rfl (jump_eq (if_pos hm)),
      fun hx => ⟨runs_of hi rfl (jump_eq ((if_pos hm).trans (exactAccess_inside hx))), runs_of hi rfl (jump_eq ((if_pos hm).trans (exactAccess_inside hx)))⟩,
      fun hx => ⟨runs_of hi rfl (jump_eq ((if_pos hm).trans (exactAccess_outside hx))),
        runs_of hi rfl (jump_eq ((if_pos hm).trans (exactAccess_outside hx)))⟩⟩,
    fun hm => runs_of hi rfl (jump_eq (if_pos hm)),
    fun hm => ⟨runs_of hi rfl (jump_eq (exact_refused hm)), runs_of hi rfl (jump_eq (exact_refused hm)), runs_of hi rfl (jump_eq (exact_refused hm)),
      runs_of hi rfl (jump_eq (exact_refused hm))⟩,
    fun hm => runs_of hi rfl (jump_eq (exact_refused hm)), runs_of hi rfl rfl, ?_⟩
  exact ⟨runsRemote_of hi (fun _ => rfl), runsRemote_of hi (fun _ => rfl), runsRemote_of hi (fun _ => rfl), runsRemote_of hi (fun _ => rfl),
    runsRemote_of hi (fun _ => rfl), runsRemote_of hi (fun _ => rfl), runsRemote_of hi (fun _ => rfl), runsRemote_of hi (fun _ => rfl),
    runsRemote_of hi (fun _ => rfl)⟩

end Sys2Proof.Claims
end

section
/-! PROOFS. How threads end at their turn, go on after an access, and how programs are loaded (R227, R228, R233, R236, R237, R244). -/

namespace Sys2Proof.Machine
open Sys2Proof Sys2Proof.Claims

section
variable {s : State} {k t c cls op : Nat} {eff : Nat → SInstr → State → State}

/-! ### The ends of a thread at its turn (R230, R237) -/

section
variable (hk : k < 256) (hdom : s.fget Fld.pwrDomW0_STATE (10 + k / 16) = 0) (hturn : s.spnTurn k = some (t, c))
include hk hdom hturn

/-- At its turn a thread looks at its registers first, then at LEN, then at the encoding. -/
theorem spnIssue_turn {ue : Bool} :
    s.spnIssue k t cls op ue eff =
      if ue then (s.thrEnd (thrKey k t)).errLater 2 0x15 5 (thrKey k t / 256) [k, t]
      else if s.fget Fld.spnProg_LEN (thrKey k t / 256) ≤ (s.thr (thrKey k t)).pc then s.progError (thrKey k t) 2
      else if !(s.fetch (thrKey k t)).ok then (issued s k t c).progError (thrKey k t) 1
      else if (s.fetch (thrKey k t)).cls ≠ cls ∨ (s.fetch (thrKey k t)).op ≠ op then s
      else eff (thrKey k t) (s.fetch (thrKey k t)) (issued s k t c) := by
  have hgo : ¬ (256 ≤ k ∨ s.fget Fld.pwrDomW0_STATE (10 + k / 16) ≠ 0) := not_or_intro (Nat.not_le.2 hk) (not_not_intro hdom)
  simp only [State.spnIssue, if_neg hgo, hturn, ne_eq, not_true, if_false]
  rfl

theorem spnIssue_registers_lost :
    s.spnIssue k t cls op true eff = (s.thrEnd (thrKey k t)).errLater 2 0x15 5 (thrKey k t / 256) [k, t] :=
  (spnIssue_turn hk hdom hturn).trans (if_pos rfl)

theorem spnIssue_beyond_len (h : s.fget Fld.spnProg_LEN (thrKey k t / 256) ≤ (s.thr (thrKey k t)).pc) :
    s.spnIssue k t cls op false eff = s.progError (thrKey k t) 2 :=
  (spnIssue_turn hk hdom hturn).trans ((if_neg Bool.false_ne_true).trans (if_pos h))

theorem spnIssue_reserved (h : (s.thr (thrKey k t)).pc < s.fget Fld.spnProg_LEN (thrKey k t / 256)) (hok : (s.fetch (thrKey k t)).ok = false) :
    s.spnIssue k t cls op false eff = (issued s k t c).progError (thrKey k t) 1 :=
  (spnIssue_turn hk hdom hturn).trans ((if_neg Bool.false_ne_true).trans ((if_neg (Nat.not_le.2 h)).trans (if_pos (by rw [hok]; rfl))))

end

/-! ### An access has ended (R228, R236) -/

section
variable {q : Nat}

/-- The ended accesses of thread `q` have reached it. -/
def endsTaken (s : State) (q : Nat) : State := { s with spn := { s.spn with ends := tblDel s.spn.ends q } }

section
variable {e : RemoteEnd} {es : List RemoteEnd} (he : tblGet [] s.spn.ends q = e :: es)
include he

theorem remoteComplete_drains (hs : s.thrState q = ThrSt.drain) : s.remoteComplete q = (endsTaken s q).thrEnd q := by
  simp only [State.remoteComplete, he, if_pos hs]
  rfl

theorem remoteComplete_goes_on (hs : s.thrState q = ThrSt.wait) (hr : e.restart = none) :
    s.remoteComplete q = (endsTaken s q).remoteDone q e.status e.data e.poison := by
  have hd : ¬ ThrSt.wait = ThrSt.drain := by decide
  simp only [State.remoteComplete, he, hs, if_neg hd, ne_eq, not_true, if_false, hr]
  rfl

theorem remoteComplete_parks {id : Nat} (hs : s.thrState q = ThrSt.wait) (hr : e.restart = some id) :
    s.remoteComplete q = (endsTaken s q).thrPark q (s.sreg q (s.fetch q).a).toNat e.gfa (s.fetch q).ty 0x0F 7 id := by
  have hd : ¬ ThrSt.wait = ThrSt.drain := by decide
  simp only [State.remoteComplete, he, hs, if_neg hd, ne_eq, not_true, if_false, hr]
  rfl

end

theorem remoteComplete_tried_again {ext : List Word} (he : tblGet [] s.spn.ends q = []) (hw : tblFind s.spn.waits q = some ext)
    (hs : s.thrState q = ThrSt.wait) :
    s.remoteComplete q = ({ s with spn := { s.spn with waits := tblDel s.spn.waits q } } : State).remoteGo q (s.fetch q) ext := by
  simp only [State.remoteComplete, he, hw, if_pos hs]

theorem waitcGo_met (hs : s.thrState q = ThrSt.wait) (hcls : (s.fetch q).cls = 8) (hop : (s.fetch q).op = 8)
    (h : (s.fget Fld.spnCtxW1_COUNT (q / 256) ((s.fetch q).imm % 64) + 2 ^ 32 - (s.sreg q (s.fetch q).b).toNat % 2 ^ 32) % 2 ^ 32 < 2 ^ 31) :
    s.waitcGo q = (s.thrNext q).thrGo q ThrSt.ready :=
  if_pos ⟨hs, hcls, hop, decide_eq_true h⟩

end

/-! ### A program load ends (R233, R234), and a target context takes a role (R244) -/

section
variable {l : ProgLoad} (hl : s.spn.loads.find? (fun x => x.ticket == l.ticket) = some l) (hw : s.loadWaits l = false)
include hl hw

/-- The clusters that a load names. -/
def loadClusters (l : ProgLoad) : List Nat := (List.range 16).filter (fun k => l.cmask.testBit k)

/-- The load's image has been read, and the load waits no more. -/
def loadTaken (s : State) (l : ProgLoad) : State :=
  ({ s with spn := { s.spn with loads := s.spn.loads.filter (fun x => x.ticket != l.ticket) } } : State).poolTouch l.src l.len

theorem progLoadDone_unread (hb : s.poolBytes l.src l.len = none) :
    s.progLoadDone l.ticket = (State.each (loadClusters l) State.progNone (loadTaken s l)).completeTicket l.ticket Status.fault [] := by
  simp only [State.progLoadDone, hl, hw, Bool.false_eq_true, if_false, hb]
  rfl

theorem progLoadDone_loaded {b : List Byte} (hb : s.poolBytes l.src l.len = some b)
    (hroom : ∀ k ∈ loadClusters l, s.logFull 3 k (digestWords b) = false) :
    s.progLoadDone l.ticket =
      (State.each (loadClusters l) (fun s k => s.progPut b (digestWords b) k) (loadTaken s l)).completeTicket l.ticket Status.ok [] := by
  have hany : (loadClusters l).any (fun k => s.logFull 3 k (digestWords b)) = false :=
    List.any_eq_false.2 fun k hk => ne_true_of_eq_false (hroom k hk)
  rw [loadClusters] at hany
  simp only [State.progLoadDone, hl, hw, hb, hany, Bool.false_eq_true, if_false]
  rfl

end

section
variable {n m v : Nat}

theorem exec_spnCtxRoleWrite (hn : n < 16) (hm : m < 64) : exec (.spnCtxRoleWrite n m v) s = .next (s.ctxRole n m v) :=
  next_of_eq (if_pos ⟨hn, hm⟩)

theorem ctxRole_eq :
    s.ctxRole n m v =
      ((if s.fget Fld.spnCtxW0_ROLE n m ≠ v % 256 then s.fset Fld.spnCtxW1_COUNT n m 0 else s).wr .spnCtxW0 n m
        (setBits (s.rd .spnCtxW0 n m) 59 52 v)).spnShow n := by
  have hrole : bits (setBits (s.rd .spnCtxW0 n m) 59 52 v) 59 52 = v % 256 := bits_setBits_same _ _ _ _ (by decide) (by decide)
  rw [State.ctxRole, State.ctxWrite, hrole]

theorem ctxRole_new (h : s.fget Fld.spnCtxW0_ROLE n m ≠ v % 256) :
    s.ctxRole n m v = ((s.fset Fld.spnCtxW1_COUNT n m 0).wr .spnCtxW0 n m (setBits (s.rd .spnCtxW0 n m) 59 52 v)).spnShow n := by
  rw [ctxRole_eq, if_pos h]

theorem ctxRole_same (h : s.fget Fld.spnCtxW0_ROLE n m = v % 256) :
    s.ctxRole n m v = (s.wr .spnCtxW0 n m (setBits (s.rd .spnCtxW0 n m) 59 52 v)).spnShow n := by
  rw [ctxRole_eq, if_neg (not_not_intro h)]

theorem exec_remoteAccessComplete (hk : k < 256) (ht : t < 16) : exec (.remoteAccessComplete k t) s = .next (s.remoteComplete (thrKey k t)) :=
  next_of_eq (if_pos ⟨hk, ht⟩)

theorem exec_waitcMet (hk : k < 256) (ht : t < 16) : exec (.waitcMet k t) s = .next (s.waitcGo (thrKey k t)) := next_of_eq (if_pos ⟨hk, ht⟩)

end
end
end Sys2Proof.Machine

namespace Sys2Proof.Claims
open Sys2Proof Sys2Proof.Machine

/-- Settles O46: the errors at a thread's turn, the ends of its accesses, WAITC, program loads, and a write of ROLE. -/
theorem spindleThreadsGoOnOrEnd : Obligations.SpindleThreadsGoOnOrEnd := by
  unfold Obligations.SpindleThreadsGoOnOrEnd
  refine ⟨fun s k t c hk hdom hturn => ⟨settled_of_eq (spnIssue_registers_lost hk hdom hturn), fun h => settled_of_eq (spnIssue_beyond_len hk hdom hturn h),
    fun h hok => settled_of_eq (spnIssue_reserved hk hdom hturn h hok)⟩, fun s k t hk ht => ?accesses,
    fun s l hl hw => ⟨fun hb => next_of_eq (progLoadDone_unread hl hw hb), fun b hb hroom => next_of_eq (progLoadDone_loaded hl hw hb hroom)⟩,
    fun s n m v hn hm => ⟨fun h => (exec_spnCtxRoleWrite hn hm).trans (next_of_eq (ctxRole_new h)),
      fun h => (exec_spnCtxRoleWrite hn hm).trans (next_of_eq (ctxRole_same h))⟩⟩
  case accesses =>
    have hx : exec (.remoteAccessComplete k t) s = .next (s.remoteComplete (thrKey k t)) := exec_remoteAccessComplete hk ht
    exact ⟨fun e es he => ⟨fun hs => hx.trans (next_of_eq (remoteComplete_drains he hs)),
        fun hs hr => hx.trans (next_of_eq (remoteComplete_goes_on he hs hr)), fun id hs hr => hx.trans (next_of_eq (remoteComplete_parks he hs hr))⟩,
      fun ext he hw hs => hx.trans (next_of_eq (remoteComplete_tried_again he hw hs)),
      fun hs hat h => (exec_waitcMet hk ht).trans (next_of_eq (waitcGo_met hs hat.1 hat.2 h))⟩

end Sys2Proof.Claims
end

section
/-! PROOFS. Fabric requests at their target (R26, R27, R29, R42, R46, R104, R116 to R118, R238, R239, R251, R294, R301). -/

namespace Sys2Proof.Machine
open Sys2Proof Sys2Proof.Claims

section
variable {s : State} {e ty : Nat} {p : Packet} {i : Instr}

/-! ### Arrival (R42, R46) -/

/-- LOAD and STORE settle; the other rows of a request do not. -/
theorem exec_request_settles (h : reqRow ty e p i) (hty : ty ≤ 2) : exec i s = (s.arriveReq e p ty).settled := by
  obtain ⟨rfl, rfl⟩ | ⟨rfl, rfl⟩ | h := h
  · exact congrArg State.settled (arriveUe_false s e p Ty.load)
  · exact congrArg State.settled (arriveUe_false s e p Ty.store)
  · obtain h | h | h | h | h | h | h | h | h := h <;> exact absurd (h.1 ▸ hty) (by decide)

theorem exec_request_next (h : reqRow ty e p i) (hty : 2 < ty) : exec i s = .next (s.arriveReq e p ty) := by
  obtain h | h | ⟨rfl, rfl⟩ | ⟨rfl, rfl⟩ | ⟨rfl, rfl⟩ | ⟨rfl, rfl⟩ | ⟨rfl, rfl⟩ | ⟨rfl, rfl⟩ | ⟨rfl, rfl⟩ | ⟨rfl, rfl⟩ | ⟨rfl, rfl⟩ := h
  · exact absurd (h.1 ▸ hty) (by decide)
  · exact absurd (h.1 ▸ hty) (by decide)
  all_goals rfl

theorem exec_load (e : Nat) (p : Packet) : exec (.load e p false) s = (s.arriveReq e p 0x01).settled := exec_request_settles (.inl ⟨rfl, rfl⟩) (by decide)

theorem exec_store (e : Nat) (p : Packet) : exec (.store e p false) s = (s.arriveReq e p 0x02).settled :=
  exec_request_settles (.inr (.inl ⟨rfl, rfl⟩)) (by decide)

theorem reqRow_isReqTy (h : reqRow ty e p i) : isReqTy ty = true := by
  obtain ⟨rfl, _⟩ | ⟨rfl, _⟩ | ⟨rfl, _⟩ | ⟨rfl, _⟩ | ⟨rfl, _⟩ | ⟨rfl, _⟩ | ⟨rfl, _⟩ | ⟨rfl, _⟩ | ⟨rfl, _⟩ | ⟨rfl, _⟩ | ⟨rfl, _⟩ := h <;> rfl

/-- A request of its row's type at a target port waits while the target cannot take it, and otherwise goes to its target. -/
theorem arriveReq_row (hp : p.typ = ty) (hreq : isReqTy ty = true) (ht : isTarget e = true) :
    s.arriveReq e p ty =
      if !s.targetReady e then
        if s.delivered.contains (e, p) then s else ({ s with delivered := s.delivered ++ [(e, p)] } : State).stir (targetDomain e)
      else (gone s e p).atTarget e p := by
  have hkind : ¬ (!isReqTy p.typ && !isRspTy p.typ) = true := by rw [hp, hreq]; exact Bool.false_ne_true
  have htarget : ¬ (!isTarget e) = true := by rw [ht]; exact Bool.false_ne_true
  exact (if_neg htarget).trans ((if_neg hkind).trans (if_neg (not_not_intro hp)))

theorem arriveReq_waits (hp : p.typ = ty) (hreq : isReqTy ty = true) (ht : isTarget e = true) (hr : s.targetReady e = false)
    (hd : (e, p) ∉ s.delivered) :
    s.arriveReq e p ty = ({ s with delivered := s.delivered ++ [(e, p)] } : State).stir (targetDomain e) :=
  (arriveReq_row hp hreq ht).trans ((if_pos (by rw [hr]; rfl)).trans (if_neg fun h => hd (List.contains_iff_mem.1 h)))

/-- A request that its target takes is looked at there. -/
theorem arriveReq_taken (ha : Arrives s e p ty) (hreq : isReqTy ty = true) : s.arriveReq e p ty = (gone s e p).atTarget e p := by
  obtain ⟨hp, ht, hr, -⟩ := ha
  exact (arriveReq_row hp hreq ht).trans (if_neg (by rw [hr]; exact Bool.false_ne_true))

theorem atTarget_unfit (hs : s.stackFailed e = false) (hk : kindOk e p = false) : s.atTarget e p = s.targetNack e p TStat.badParam :=
  (if_neg (ne_true_of_eq_false hs)).trans (if_pos (by rw [hk]; rfl))

/-- A request of a kind that its target accepts goes to the unit at the port. -/
theorem atTarget_fit (hs : s.stackFailed e = false) (hk : kindOk e p = true) :
    s.atTarget e p = if e < 64 then s.atEpb e p else if e < 112 then s.atSpindle e p else if e < 120 then s.atPool e p else s.atHost e p :=
  (if_neg (ne_true_of_eq_false hs)).trans (if_neg (by rw [hk]; exact Bool.false_ne_true))

/-- Every target accepts LOAD, STORE, ACQUIRE, RELEASE and FENCE. -/
theorem kindOk_plain (h : p.typ = 0x01 ∨ p.typ = 0x02 ∨ p.typ = 0x08 ∨ p.typ = 0x09 ∨ p.typ = 0x0A) : kindOk e p = true := by
  obtain h | h | h | h | h := h <;> rw [kindOk, h] <;> rfl

theorem kindOk_doorbell (h : p.typ = 0x0B) (he : e < 64) : kindOk e p = true := by
  rw [kindOk, h]
  exact decide_eq_true he

theorem arriveReq_unfit (ha : Arrives s e p ty) (hreq : isReqTy ty = true) (hk : kindOk e p = false) :
    s.arriveReq e p ty = (gone s e p).targetNack e p TStat.badParam :=
  (arriveReq_taken ha hreq).trans (atTarget_unfit (s := gone s e p) ha.2.2.2 hk)

theorem arriveReq_epb (ha : Arrives s e p ty) (hreq : isReqTy ty = true) (hk : kindOk e p = true) (he : e < 64) :
    s.arriveReq e p ty = (gone s e p).atEpb e p :=
  (arriveReq_taken ha hreq).trans ((atTarget_fit (s := gone s e p) ha.2.2.2 hk).trans (if_pos he))

theorem arriveReq_spindle (ha : Arrives s e p ty) (hreq : isReqTy ty = true) (hk : kindOk e p = true) (h96 : 96 ≤ e) (h112 : e < 112) :
    s.arriveReq e p ty = (gone s e p).atSpindle e p :=
  (arriveReq_taken ha hreq).trans ((atTarget_fit (s := gone s e p) ha.2.2.2 hk).trans ((if_neg (by omega)).trans (if_pos h112)))

theorem arriveReq_pool (ha : Arrives s e p ty) (hreq : isReqTy ty = true) (hty : ty ≠ 0x0B) (h112 : 112 ≤ e) (h120 : e < 120) :
    s.arriveReq e p ty = (gone s e p).atPool e p :=
  (arriveReq_taken ha hreq).trans (atTarget_pool _ e p ha.2.2.2 (kindOk_pool e p h112 h120 (ha.1 ▸ hty)) h112 h120)

theorem arriveReq_host (ha : Arrives s e p ty) (hreq : isReqTy ty = true) (hk : kindOk e p = true) (h120 : 120 ≤ e) :
    s.arriveReq e p ty = (gone s e p).atHost e p :=
  (arriveReq_taken ha hreq).trans ((atTarget_fit (s := gone s e p) ha.2.2.2 hk).trans ((if_neg (by omega)).trans ((if_neg (by omega)).trans (if_neg (by omega)))))

end

/-! ### Operations on memory (R27, R41, R251, R301) -/

section
variable {s : State} {e a win : Nat} {p : Packet} {done failed : State → State}

theorem memOp_load (h : p.typ = 0x01 ∨ p.typ = 0x08) : s.memOp e p a win done failed = s.memLoad e p a win := if_pos h

theorem memLoad_good (h : s.view a (p.len + 1) = .good) :
    s.memLoad e p a win = (s.touch a (p.len + 1) 0).respond p e Ty.loadRsp TStat.ok false (s.load a (p.len + 1)) := by
  simp only [State.memLoad, h]

theorem memLoad_poison (h : s.view a (p.len + 1) = .poison) :
    s.memLoad e p a win = (s.touch a (p.len + 1) 0).respond p e Ty.loadRsp TStat.ok true (onesBytes (p.len + 1)) := by
  simp only [State.memLoad, h]

/-- A STORE or RELEASE that is performed is acknowledged. -/
theorem memOp_store {s1 : State} (h : p.typ = 0x02 ∨ p.typ = 0x09) (hm : s.memStore p a = (s1, true)) :
    s.memOp e p a win done failed = (done s1).respond p e Ty.ack TStat.ok false [] := by
  have hload : ¬ (p.typ = Ty.load ∨ p.typ = Ty.acquire) := by obtain h | h := h <;> rw [h] <;> decide
  simp only [State.memOp, if_neg hload, if_pos (show p.typ = Ty.store ∨ p.typ = Ty.release from h), hm]

theorem memStore_performed (hp : p.poison = false) (h : (s.storeLines a (p.payload.take (p.len + 1))).2 = true) :
    s.memStore p a = ((s.storeLines a (p.payload.take (p.len + 1))).1, true) :=
  (if_neg (ne_true_of_eq_false hp)).trans (Prod.ext rfl h)

theorem memStore_poison (hp : p.poison = true) : s.memStore p a = (s.storePoison a (p.len + 1), true) := if_pos hp

/-- An operation other than a load or a store, on good data. -/
theorem memOp_combines (h : 3 ≤ p.typ ∧ p.typ ≤ 7) (hp : p.typ = 0x07 → p.poison = false) (hv : s.view a (p.len + 1) = .good) :
    s.memOp e p a win done failed =
      if p.typ = Ty.reduceStore then (done (s.memReduce p a)).respond p e Ty.ack TStat.ok false []
      else (done (s.memAtomic p a).2).respond p e Ty.atomicRsp TStat.ok false (s.memAtomic p a).1 := by
  have hload : ¬ (p.typ = 0x01 ∨ p.typ = 0x08) := by omega
  have hstore : ¬ (p.typ = 0x02 ∨ p.typ = 0x09) := by omega
  have hpoison : ¬ (p.typ = Ty.reduceStore ∧ p.poison = true) := fun ⟨h7, hb⟩ => Bool.false_ne_true ((hp h7).symm.trans hb)
  exact (if_neg hload).trans ((if_neg hstore).trans ((if_neg hpoison).trans (if_neg (not_not_intro hv))))

theorem memAtomic_combines (h : p.typ ≠ 0x06) :
    s.memAtomic p a = (s.load a (p.len + 1), (s.touch a (p.len + 1) 4).store a
      (toBytes (p.len + 1) (combine p.fmt (p.typ - 3) (ofBytes (s.load a (p.len + 1))) (ofBytes (p.payload.take (p.len + 1)))))) := by
  simp only [State.memAtomic, atomicNew, if_neg (show ¬ p.typ = Ty.cas from h)]

theorem memAtomic_swaps (h : p.typ = 0x06) (ho : s.load a (p.len + 1) = p.payload.take (p.len + 1)) :
    s.memAtomic p a = (s.load a (p.len + 1), (s.touch a (p.len + 1) 4).store a ((p.payload.drop (p.len + 1)).take (p.len + 1))) := by
  simp only [State.memAtomic, atomicNew, if_pos (show p.typ = Ty.cas from h), if_pos ho]

theorem memAtomic_keeps (h : p.typ = 0x06) (ho : s.load a (p.len + 1) ≠ p.payload.take (p.len + 1)) :
    s.memAtomic p a = (s.load a (p.len + 1), s.touch a (p.len + 1) 4) := by
  simp only [State.memAtomic, atomicNew, if_pos (show p.typ = Ty.cas from h), if_neg ho]

end

/-! ### At a pool port (R27, R251, R294) -/

section
variable {s : State} {e a : Nat} {p : Packet}

/-- What the pool counts of an operation that it has performed: the elements of a REDUCE_STORE. -/
def poolDone (e : Nat) (p : Packet) (s : State) : State :=
  if p.typ = Ty.reduceStore && !p.poison then s.fsat Fld.spnCsaElems_ELEMS (e - 112) 0 ((p.len + 1) / fmtSize p.fmt) else s

theorem poolDone_of_ne (h : p.typ ≠ 0x07) : poolDone e p s = s :=
  if_neg (by rw [decide_eq_false (show ¬ p.typ = Ty.reduceStore from h)]; exact Bool.false_ne_true)

theorem poolDone_reduce (h : p.typ = 0x07) (hp : p.poison = false) :
    poolDone e p s = s.fsat Fld.spnCsaElems_ELEMS (e - 112) 0 ((p.len + 1) / fmtSize p.fmt) :=
  if_pos (by rw [decide_eq_true (show p.typ = Ty.reduceStore from h), hp]; rfl)

/-- A request within the ranges of a pool port is an operation on memory. -/
theorem atPool_at (hf : p.typ ≠ 0x0A) (hk : s.poolKey (e - 112) (gfaOff p.addr) (p.len + 1) = some a) :
    s.atPool e p = s.memOp e p a 0 (poolDone e p)
      (fun s => if p.typ = Ty.reduceStore then s.fsat Fld.spnCsaFail_POISONED (e - 112) 0 1 else s) := by
  simp only [State.atPool, if_neg (show ¬ p.typ = Ty.fence from hf), hk]
  rfl

theorem atPool_outside (hf : p.typ ≠ 0x0A) (hk : s.poolKey (e - 112) (gfaOff p.addr) (p.len + 1) = none) :
    s.atPool e p = s.targetFault e p 0x14 7 0 none 0 := by
  simp only [State.atPool, if_neg (show ¬ p.typ = Ty.fence from hf), hk]

section
variable (hk : s.poolKey (e - 112) (gfaOff p.addr) (p.len + 1) = some a)
include hk

theorem atPool_load_good (ht : p.typ = 0x01 ∨ p.typ = 0x08) (hv : s.view a (p.len + 1) = .good) :
    s.atPool e p = (s.touch a (p.len + 1) 0).respond p e Ty.loadRsp TStat.ok false (s.load a (p.len + 1)) := by
  rw [atPool_at (by omega) hk, memOp_load ht, memLoad_good hv]

theorem atPool_load_poison (ht : p.typ = 0x01 ∨ p.typ = 0x08) (hv : s.view a (p.len + 1) = .poison) :
    s.atPool e p = (s.touch a (p.len + 1) 0).respond p e Ty.loadRsp TStat.ok true (onesBytes (p.len + 1)) := by
  rw [atPool_at (by omega) hk, memOp_load ht, memLoad_poison hv]

theorem atPool_store {s1 : State} (ht : p.typ = 0x02 ∨ p.typ = 0x09) (hm : s.memStore p a = (s1, true)) :
    s.atPool e p = s1.respond p e Ty.ack TStat.ok false [] := by
  rw [atPool_at (by omega) hk, memOp_store ht hm, poolDone_of_ne (by omega)]

theorem atPool_atomic (ht : 3 ≤ p.typ ∧ p.typ ≤ 6) (hv : s.view a (p.len + 1) = .good) {old : List Byte} {s1 : State}
    (hm : s.memAtomic p a = (old, s1)) : s.atPool e p = s1.respond p e Ty.atomicRsp TStat.ok false old := by
  have h7 : p.typ ≠ 0x07 := by omega
  rw [atPool_at (by omega) hk, memOp_combines (by omega) (fun h => absurd h h7) hv, if_neg (show ¬ p.typ = Ty.reduceStore from h7), hm, poolDone_of_ne h7]

theorem atPool_reduce (ht : p.typ = 0x07) (hp : p.poison = false) (hv : s.view a (p.len + 1) = .good) :
    s.atPool e p = ((s.memReduce p a).fsat Fld.spnCsaElems_ELEMS (e - 112) 0 ((p.len + 1) / fmtSize p.fmt)).respond p e Ty.ack TStat.ok false [] := by
  rw [atPool_at (by omega) hk, memOp_combines (by omega) (fun _ => hp) hv, if_pos (show p.typ = Ty.reduceStore from ht), poolDone_reduce ht hp]

end

/-! ### FENCE (R29), and Spindle and host ports (R104, R238, R239) -/

theorem atSpindle_fence (h : p.typ = 0x0A) : s.atSpindle e p = s.respond p e Ty.ack TStat.ok false [] := if_pos h

theorem atPool_fence (h : p.typ = 0x0A) : s.atPool e p = s.respond p e Ty.ack TStat.ok false [] := if_pos h

theorem atHost_fence (h : p.typ = 0x0A) : s.atHost e p = s.respond p e Ty.ack TStat.ok false [] := if_pos h

theorem arriveReq_fence (ha : Arrives s e p 0x0A) (he : 96 ≤ e) : s.arriveReq e p 0x0A = (gone s e p).respond p e Ty.ack TStat.ok false [] := by
  have hk : kindOk e p = true := kindOk_plain (.inr (.inr (.inr (.inr ha.1))))
  rcases Nat.lt_or_ge e 112 with h112 | h112
  · exact (arriveReq_spindle ha rfl hk he h112).trans (atSpindle_fence ha.1)
  rcases Nat.lt_or_ge e 120 with h120 | h120
  · exact (arriveReq_pool ha rfl (by decide) h112 h120).trans (atPool_fence ha.1)
  · exact (arriveReq_host ha rfl hk h120).trans (atHost_fence ha.1)

section
variable {m : Nat} (hf : p.typ ≠ 0x0A) (hm : s.ctxOf (e - 96) p = some m)
include hf hm

/-- A request that a target context matches is checked for its role and its right, and is then an operation on the scratchpad. -/
theorem atSpindle_context :
    s.atSpindle e p =
      if s.fget Fld.spnCtxW0_ROLE (e - 96) m ≠ p.role then s.targetNack e p TStat.staleRole
      else if !s.ctxRight (e - 96) m p then s.targetFault e p 0x0C 7 m none 0
      else s.memOp e p (scrKey ((e - 96) / 4) (gfaOff p.addr)) m (fun s => s.fwrap Fld.spnCtxW1_COUNT (e - 96) m 1) id := by
  simp only [State.atSpindle, if_neg (show ¬ p.typ = Ty.fence from hf), hm]

theorem atSpindle_stale (hr : s.fget Fld.spnCtxW0_ROLE (e - 96) m ≠ p.role) : s.atSpindle e p = s.targetNack e p TStat.staleRole :=
  (atSpindle_context hf hm).trans (if_pos hr)

theorem atSpindle_no_right (hr : s.fget Fld.spnCtxW0_ROLE (e - 96) m = p.role) (hx : s.ctxRight (e - 96) m p = false) :
    s.atSpindle e p = s.targetFault e p 0x0C 7 m none 0 :=
  (atSpindle_context hf hm).trans ((if_neg (not_not_intro hr)).trans (if_pos (by rw [hx]; rfl)))

theorem atSpindle_permitted (hr : s.fget Fld.spnCtxW0_ROLE (e - 96) m = p.role) (hx : s.ctxRight (e - 96) m p = true) :
    s.atSpindle e p = s.memOp e p (scrKey ((e - 96) / 4) (gfaOff p.addr)) m (fun s => s.fwrap Fld.spnCtxW1_COUNT (e - 96) m 1) id :=
  (atSpindle_context hf hm).trans ((if_neg (not_not_intro hr)).trans (if_neg (by rw [hx]; exact Bool.false_ne_true)))

end

/-- A LOAD through an open window of host port `h` goes to PCI Express, and waits for its completion. -/
theorem atHost_load {h : Nat} (ht : p.typ = 0x01) (he : e = 120 + h) (hen : s.fget Fld.lnkHwinWlim_EN h = 1)
    (hlim : gfaOff p.addr / 4096 ≤ s.fget Fld.lnkHwinWlim_WLIM h) :
    s.atHost e p = ({ s with host := { s.host with
      nextId := s.host.nextId + 1, tgts := s.host.tgts ++ [{ hp := h, id := s.host.nextId, pkt := p }] } } : State).emit
        (.hostReq h ((s.fget Fld.lnkHwinWbase_WBASE h * 4096 + gfaOff p.addr) % 2 ^ 64) s.host.nextId p) := by
  subst he
  have hh : 120 + h - 120 = h := Nat.add_sub_cancel_left 120 h
  have hopen : ¬ (s.fget Fld.lnkHwinWlim_EN h = 0 ∨ s.fget Fld.lnkHwinWlim_WLIM h < gfaOff p.addr / 4096) := by omega
  have hfence : ¬ p.typ = Ty.fence := by rw [ht]; decide
  have hload : ¬ (p.typ = Ty.store ∨ p.typ = Ty.release) := by rw [ht]; decide
  have hkey : ¬ (s.bound && p.ksel != 0 && p.typ != Ty.load && p.typ != Ty.acquire) = true := by
    rw [ht, show ((0x01 : Nat) != Ty.load) = false from rfl, Bool.and_false, Bool.false_and]
    exact Bool.false_ne_true
  have hpoison : ¬ (p.poison && isWriteTy p.typ) = true := by
    rw [ht, show isWriteTy 0x01 = false from rfl, Bool.and_false]
    exact Bool.false_ne_true
  simp only [State.atHost, hh, if_neg hfence, if_neg hopen, if_neg hkey, if_neg hpoison, State.toHost, if_neg hload]
  rfl

/-! ### At an EPB's doorbell page (R116 to R118) -/

section
variable {n : Nat} (hrole : s.fget Fld.epbRole_ROLE_EPOCH n = p.role)
include hrole

theorem atEpb_doorbell (ht : p.typ = 0x0B) : s.atEpb n p = s.atDoorbell n p := by
  have hfence : ¬ p.typ = Ty.fence := by rw [ht]; decide
  exact (if_neg (not_not_intro hrole)).trans ((if_neg hfence).trans (if_pos ht))

theorem atEpb_push (ht : p.typ = 0x02) (ho : doorbellPage ≤ gfaOff p.addr) : s.atEpb n p = s.atPush n p := by
  have hfence : ¬ p.typ = Ty.fence := by rw [ht]; decide
  have hbell : ¬ p.typ = Ty.doorbell := by rw [ht]; decide
  exact (if_neg (not_not_intro hrole)).trans ((if_neg hfence).trans ((if_neg hbell).trans ((if_pos ho).trans (if_pos ht))))

end

theorem atDoorbell_commits {n r : Nat} {s1 : State} (ho : gfaOff p.addr = doorbellPage + 0x40 * r) (hr : r < 64)
    (hsrc : s.sourceOk (s.fget Fld.epbRingCfg_DB_SRC_MODE n r) (s.fget Fld.epbRingCfg_DB_SRC n r) p = true)
    (hv : ofBytes (p.payload.take 8) < 2 ^ 32) (hc : s.ringCommit n r (ofBytes (p.payload.take 8)) = some s1) :
    s.atDoorbell n p = s1.respond p n Ty.ack TStat.ok false [] := by
  have hoff : gfaOff p.addr - doorbellPage = 0x40 * r := by omega
  have hring : 0x40 * r / 0x40 = r := Nat.mul_div_cancel_left r (by decide)
  have hgood : ¬ (gfaOff p.addr < doorbellPage ∨ 0x40 * r % 0x40 ≠ 0 ∨ 64 ≤ r) := by omega
  simp only [State.atDoorbell, hoff, hring, if_neg hgood, hsrc, if_neg (Nat.not_le.2 hv), hc, Bool.not_true, Bool.false_eq_true, if_false]

theorem atPush_taken {n o : Nat} (ho : gfaOff p.addr = doorbellPage + 0x8000 + o) (h8 : o % 8 = 0) (hlt : o < 64 * 0x200)
    (hl8 : (p.len + 1) % 8 = 0) (hlen : p.len + 1 ≤ 512) (hin : o % 0x200 + (p.len + 1) ≤ 0x200)
    (hsrc : s.sourceOk (s.fget Fld.epbRingCfg_DB_SRC_MODE n (o / 0x200)) (s.fget Fld.epbRingCfg_DB_SRC n (o / 0x200)) p = true)
    (hx : (s.ringPush n (o / 0x200) (p.payload.take (p.len + 1)) p.poison).1 = TStat.ok) :
    s.atPush n p = (s.ringPush n (o / 0x200) (p.payload.take (p.len + 1)) p.poison).2.respond p n Ty.ack TStat.ok false [] := by
  have hoff : gfaOff p.addr - doorbellPage = 0x8000 + o := by omega
  have hring : (0x8000 + o - 0x8000) / 0x200 = o / 0x200 := by rw [Nat.add_sub_cancel_left]
  have hgood : ¬ (0x8000 + o < 0x8000 ∨ 64 ≤ o / 0x200 ∨ (p.len + 1) % 8 ≠ 0 ∨ 512 < p.len + 1 ∨ (0x8000 + o) % 8 ≠ 0 ∨
      0x200 < (0x8000 + o) % 0x200 + (p.len + 1)) := by omega
  have hpush : s.ringPush n (o / 0x200) (p.payload.take (p.len + 1)) p.poison =
      (0, (s.ringPush n (o / 0x200) (p.payload.take (p.len + 1)) p.poison).2) := Prod.ext hx rfl
  simp only [State.atPush, hoff, hring, if_neg hgood, hsrc, Bool.not_true, Bool.false_eq_true, if_false]
  rw [hpush]
  rfl

end
end Sys2Proof.Machine

namespace Sys2Proof.Claims
open Sys2Proof Sys2Proof.Machine

/-- Settles O47: arrival, then each kind of port by the operation that it performs. -/
theorem fabricRequestsAtTheirTarget : Obligations.FabricRequestsAtTheirTarget := by
  unfold Obligations.FabricRequestsAtTheirTarget
  intro s e p n s1
  refine ⟨fun ty i hi hp ht hr hd => ?waits, fun ty i hi ha hk => ?unfit, fun a h112 h120 hk => ?pool, fun hk h112 h120 => ?outside,
    fun ha he => next_of_eq (arriveReq_fence ha he), fun m ha h96 h112 hm => ?spindleLoad, fun m ha h96 h112 hm hr hw hp hput => ?spindleStore,
    fun h ha he hh hen hlim => ?host, fun r s2 ha h64 hrole ho hr hsrc hv hc => ?doorbell,
    fun o ha h64 hrole ho h8 hlt hl8 hlen hin hsrc hx => ?push⟩
  case waits =>
    have hwait := arriveReq_waits hp (reqRow_isReqTy hi) ht hr hd
    exact ⟨fun hty => (exec_request_settles hi hty).trans (settled_of_eq hwait), fun hty => (exec_request_next hi hty).trans (next_of_eq hwait)⟩
  case unfit =>
    have hnack := arriveReq_unfit ha (reqRow_isReqTy hi) hk
    exact ⟨fun hty => (exec_request_settles hi hty).trans (settled_of_eq hnack), fun hty => (exec_request_next hi hty).trans (next_of_eq hnack)⟩
  case pool =>
    have hpool : ∀ {ty}, Arrives s e p ty → isReqTy ty = true → ty ≠ 0x0B → s.arriveReq e p ty = s1.atPool e p :=
      fun ha hreq hb => arriveReq_pool ha hreq hb h112 h120
    have hat : s1.poolKey (e - 112) (gfaOff p.addr) (p.len + 1) = some a := hk
    refine ⟨fun hv => ⟨fun ha => ?_, fun ha => ?_⟩, fun hv => ⟨fun ha => ?_, fun ha => ?_⟩, fun hput hp => ⟨fun ha => ?_, fun ha => ?_⟩,
      fun hp ha => ?_, fun hv => ⟨fun ha => ?_, fun ha => ?_, fun ha => ?_, fun ha ho => ?_, fun ha ho => ?_, fun ha hp => ?_⟩⟩
    · exact (exec_load e p).trans (settled_of_eq ((hpool ha rfl (by decide)).trans (atPool_load_good hat (.inl ha.1) hv)))
    · exact next_of_eq ((hpool ha rfl (by decide)).trans (atPool_load_good hat (.inr ha.1) hv))
    · exact (exec_load e p).trans (settled_of_eq ((hpool ha rfl (by decide)).trans (atPool_load_poison hat (.inl ha.1) hv)))
    · exact next_of_eq ((hpool ha rfl (by decide)).trans (atPool_load_poison hat (.inr ha.1) hv))
    · exact (exec_store e p).trans (settled_of_eq ((hpool ha rfl (by decide)).trans (atPool_store hat (.inl ha.1) (memStore_performed hp hput))))
    · exact next_of_eq ((hpool ha rfl (by decide)).trans (atPool_store hat (.inr ha.1) (memStore_performed hp hput)))
    · exact (exec_store e p).trans (settled_of_eq ((hpool ha rfl (by decide)).trans (atPool_store hat (.inl ha.1) (memStore_poison hp))))
    · exact next_of_eq ((hpool ha rfl (by decide)).trans (atPool_atomic hat (by rw [ha.1]; decide) hv (memAtomic_combines (by rw [ha.1]; decide))))
    · exact next_of_eq ((hpool ha rfl (by decide)).trans (atPool_atomic hat (by rw [ha.1]; decide) hv (memAtomic_combines (by rw [ha.1]; decide))))
    · exact next_of_eq ((hpool ha rfl (by decide)).trans (atPool_atomic hat (by rw [ha.1]; decide) hv (memAtomic_combines (by rw [ha.1]; decide))))
    · exact next_of_eq ((hpool ha rfl (by decide)).trans (atPool_atomic hat (by rw [ha.1]; decide) hv (memAtomic_swaps ha.1 ho)))
    · exact next_of_eq ((hpool ha rfl (by decide)).trans (atPool_atomic hat (by rw [ha.1]; decide) hv (memAtomic_keeps ha.1 ho)))
    · exact next_of_eq ((hpool ha rfl (by decide)).trans (atPool_reduce hat ha.1 hp hv))
  case outside =>
    have hout : s1.poolKey (e - 112) (gfaOff p.addr) (p.len + 1) = none := hk
    exact ⟨fun ha => (exec_load e p).trans (settled_of_eq ((arriveReq_pool ha rfl (by decide) h112 h120).trans
        (atPool_outside (by rw [ha.1]; decide) hout))),
      fun ha => next_of_eq ((arriveReq_pool ha rfl (by decide) h112 h120).trans (atPool_outside (by rw [ha.1]; decide) hout))⟩
  case spindleLoad =>
    have hf : p.typ ≠ 0x0A := by rw [ha.1]; decide
    have hat : s.arriveReq e p 0x01 = s1.atSpindle e p := arriveReq_spindle ha rfl (kindOk_plain (.inl ha.1)) h96 h112
    have hright : s1.ctxRight (e - 96) m p = (s.fget Fld.spnCtxW0_RD (e - 96) m == 1) := by rw [State.ctxRight, ha.1]; rfl
    refine ⟨fun hr => ?_, fun hr hd => ?_, fun hr hd => ?_⟩
    · exact (exec_load e p).trans (settled_of_eq (hat.trans (atSpindle_stale (s := s1) hf hm hr)))
    · exact (exec_load e p).trans (settled_of_eq (hat.trans (atSpindle_no_right (s := s1) hf hm hr (hright.trans (beq_eq_false_iff_ne.2 hd)))))
    · exact (exec_load e p).trans (settled_of_eq (hat.trans ((atSpindle_permitted (s := s1) hf hm hr (hright.trans (beq_iff_eq.2 hd))).trans
        (memOp_load (.inl ha.1)))))
  case spindleStore =>
    have hf : p.typ ≠ 0x0A := by rw [ha.1]; decide
    have hright : s1.ctxRight (e - 96) m p = true := by rw [State.ctxRight, ha.1]; exact beq_iff_eq.2 hw
    exact (exec_store e p).trans (settled_of_eq ((arriveReq_spindle ha rfl (kindOk_plain (.inr (.inl ha.1))) h96 h112).trans
      ((atSpindle_permitted (s := s1) hf hm hr hright).trans (memOp_store (.inl ha.1) (memStore_performed hp hput)))))
  case host =>
    exact (exec_load e p).trans (settled_of_eq ((arriveReq_host ha rfl (kindOk_plain (.inl ha.1)) (by omega)).trans (atHost_load (s := s1) ha.1 he hen hlim)))
  case doorbell =>
    exact next_of_eq ((arriveReq_epb ha rfl (kindOk_doorbell ha.1 h64) h64).trans ((atEpb_doorbell (s := s1) hrole ha.1).trans
      (atDoorbell_commits (s := s1) ho hr hsrc hv hc)))
  case push =>
    exact next_of_eq ((if_pos ⟨h64, by omega⟩).trans ((arriveReq_epb ha rfl (kindOk_plain (.inr (.inl ha.1))) h64).trans
      ((atEpb_push (s := s1) hrole ha.1 (by omega)).trans (atPush_taken (s := s1) ho h8 hlt hl8 hlen hin hsrc hx))))

end Sys2Proof.Claims
end

section
/-! PROOFS. An EPB and its accelerator: checks and submission (R65), identification, resumption and target messages (R62 to R69), heat (R105), waiting
requests (R35, R211), walks and prefetches (R76 to R81). -/

namespace Sys2Proof.Machine
open Sys2Proof Sys2Proof.Claims

/-! ### Messages of the accelerator (R61, R65) -/

section
variable {s : State} {n ty : Nat} {m : ZMsg} {c : CacheEnt}

/-- A message of its row's ZTYPE does what the row does. -/
theorem zArrive_row {f : State → State} (hn : n < 64) (ht : m.ztype = ty) (hz : isZSent ty = true) : s.zArrive n m ty f = f s := by
  have hsent : ¬ (!isZSent m.ztype) = true := by rw [ht, hz]; exact Bool.false_ne_true
  exact (if_neg (Nat.not_le.2 hn)).trans ((if_neg hsent).trans (if_pos ht))

theorem zArrive_reserved {f : State → State} (hn : n < 64) (hz : isZSent m.ztype = false) :
    s.zArrive n m ty f = s.errRec 2 0x11 1 n [zWord0 m] :=
  (if_neg (Nat.not_le.2 hn)).trans (if_pos (by rw [hz]; rfl))

/-- The rows of an accelerator request other than Z_LOAD look at it as such. -/
theorem exec_zRequest {i : Instr} (hn : n < 64) (ht : m.ztype = ty) (h : zRow ty n m i) : exec i s = .next (s.zRequest n m) := by
  have hrow : ∀ ty, m.ztype = ty → isZSent ty = true → s.zArrive n m ty (fun s => s.zRequest n m) = s.zRequest n m :=
    fun ty ht hz => zArrive_row hn ht hz
  obtain ⟨rfl, rfl⟩ | ⟨rfl, rfl⟩ | ⟨rfl, rfl⟩ | ⟨rfl, rfl⟩ | ⟨rfl, rfl⟩ | ⟨rfl, rfl⟩ | ⟨rfl, rfl⟩ | ⟨rfl, rfl⟩ | ⟨rfl, rfl⟩ | ⟨rfl, rfl⟩ := h
  all_goals exact next_of_eq (hrow _ ht (by decide))

theorem zRequest_bad_version (h : (s.epbAt n).badVersion = true) : s.zRequest n m = s.zfail n m TStat.badParam := if_pos h

theorem zRequest_malformed (hv : (s.epbAt n).badVersion = false) (h : zHeaderOk m = false ∨ zOperandOk m = false) :
    s.zRequest n m = s.zrefuse n m 0x08 TStat.badParam 7 0 none := by
  refine (if_neg (ne_true_of_eq_false hv)).trans ?_
  by_cases hh : zHeaderOk m = true
  · have hop : zOperandOk m = false := h.resolve_left (by rw [hh]; decide)
    exact (if_neg (by rw [hh]; exact Bool.false_ne_true)).trans (if_pos (by rw [hop]; rfl))
  · exact if_pos (by rw [eq_false_of_ne_true hh]; rfl)

/-- A request whose header and operands are good is translated. -/
theorem zRequest_good (hv : (s.epbAt n).badVersion = false) (hh : zHeaderOk m = true) (hop : zOperandOk m = true) : s.zRequest n m = s.zTranslate n m :=
  (if_neg (ne_true_of_eq_false hv)).trans ((if_neg (by rw [hh]; exact Bool.false_ne_true)).trans (if_neg (by rw [hop]; exact Bool.false_ne_true)))

theorem zTranslate_refused (h : fasRefuses (s.rd .epbFasW0 n m.fas) m.addr = true) : s.zTranslate n m = s.zrefuse n m 0x06 TStat.fault 7 0 none :=
  if_pos h

theorem zRequest_cached (h : ZChecked s n m) (hc : cacheFind n (s.epbAt n) (.fas m.fas) m.addr = some c) :
    s.zRequest n m = (zHit s n c).zTranslated n s.serial m c.leaf c.size := by
  obtain ⟨hv, hh, hop, hfas⟩ := h
  refine (zRequest_good hv hh hop).trans ((if_neg (ne_true_of_eq_false hfas)).trans ?_)
  rw [hc]
  rfl

theorem zRequest_missed (h : ZChecked s n m) (hc : cacheFind n (s.epbAt n) (.fas m.fas) m.addr = none) :
    s.zRequest n m = (({ s with serial := s.serial + 1 } : State).epbMod n (fun e => { e with zwait := e.zwait ++ [(s.serial, m)] })).walkStart n
      (.fas m.fas) m.addr (s.rd .epbFasW0 n m.fas) := by
  obtain ⟨hv, hh, hop, hfas⟩ := h
  refine (zRequest_good hv hh hop).trans ((if_neg (ne_true_of_eq_false hfas)).trans ?_)
  rw [hc]
  rfl

theorem zTranslated_goes {k size : Nat} {leaf : Word} (h : ZGoes m leaf size) : s.zTranslated n k m leaf size = zSubmitted s n k m leaf size := by
  obtain ⟨hright, htarget, hend⟩ := h
  refine (if_neg ?_).trans ((if_neg ?_).trans (if_neg ?_))
  · rw [hright]; exact Bool.false_ne_true
  · rw [htarget]; exact Bool.false_ne_true
  · rw [hend]; exact Bool.false_ne_true

theorem zTranslated_no_right {k size : Nat} {leaf : Word} (h : leafRight leaf m.ztype = false) :
    s.zTranslated n k m leaf size = s.zrefuse n m 0x05 TStat.fault 7 0 (some (leafAddr leaf size m.addr)) :=
  if_pos (by rw [h]; rfl)

theorem zRequest_submitted (h : ZChecked s n m) (hc : cacheFind n (s.epbAt n) (.fas m.fas) m.addr = some c) (hg : ZGoes m c.leaf c.size) :
    s.zRequest n m = zSubmitted (zHit s n c) n s.serial m c.leaf c.size :=
  (zRequest_cached h hc).trans (zTranslated_goes hg)

/-! ### Identification and resumption (R62, R63, R67) -/

theorem zIdent_again (h : (s.epbAt n).identSeen = true) : s.zIdent n m = s.fsat Fld.epbZarStat_STALE_TOKEN n 0 1 := if_pos h

theorem zIdent_identifies (h : (s.epbAt n).identSeen = false) (hv : bits (BitVec.ofNat 64 (ofBytes (m.payload.take 8))) 63 48 = 0x0100) :
    s.zIdent n m = State.each (s.epbAt n).wakes (fun s w => s.zsend n w)
      (((s.epbMod n (fun e => { e with identSeen := true, badVersion := false, wakes := [] })).fset Fld.epbZarState_IDENT_OK n 0 1).fset
        Fld.epbZarState_TGT_MAX n 0 (bits (BitVec.ofNat 64 (ofBytes (m.payload.take 8))) 47 36)) :=
  (if_neg (ne_true_of_eq_false h)).trans (if_pos hv)

theorem zIdent_other_version (h : (s.epbAt n).identSeen = false) (hv : bits (BitVec.ofNat 64 (ofBytes (m.payload.take 8))) 63 48 ≠ 0x0100) :
    s.zIdent n m = (s.epbMod n (fun e => { e with identSeen := true, badVersion := true })).errRec 3 0x06 2 n
      [bits (BitVec.ofNat 64 (ofBytes (m.payload.take 8))) 63 48] :=
  (if_neg (ne_true_of_eq_false h)).trans (if_neg hv)

theorem zResume_frees (hs : (tblGet ({} : Slot) (s.epbAt n).slots (m.wtoken % 256)).st ≠ .free)
    (hw : m.wtoken = wtoken (tblGet ({} : Slot) (s.epbAt n).slots (m.wtoken % 256)).ctx (tblGet ({} : Slot) (s.epbAt n).slots (m.wtoken % 256)).gen
      (m.wtoken % 256)) :
    s.zResume n m = (s.epbMod n (fun e => { e with
      slots := tblPut e.slots (m.wtoken % 256) { tblGet ({} : Slot) (s.epbAt n).slots (m.wtoken % 256) with st := .free } })).slotsUsed n := if_pos ⟨hs, hw⟩

theorem zResume_stale (h : (tblGet ({} : Slot) (s.epbAt n).slots (m.wtoken % 256)).st = .free ∨
      m.wtoken ≠ wtoken (tblGet ({} : Slot) (s.epbAt n).slots (m.wtoken % 256)).ctx (tblGet ({} : Slot) (s.epbAt n).slots (m.wtoken % 256)).gen
        (m.wtoken % 256)) :
    s.zResume n m = s.fsat Fld.epbZarStat_STALE_TOKEN n 0 1 := if_neg fun hx => h.elim hx.1 fun hw => hw hx.2

/-! ### Target messages (R68, R69) -/

section
variable {j : Nat} {t : TgtReq}

section
variable (hj : (s.epbAt n).tgts.findIdx? (fun t => t.ztag == some m.ztag) = some j) (ht : (s.epbAt n).tgts[j]? = some t)
include hj ht

theorem zTgtRsp_ok (h : m.status = TStat.ok) :
    s.zTgtRsp n m =
      (let data := if returnsData t.pkt.typ then (if m.poison then onesBytes (t.pkt.len + 1) else m.payload.take (t.pkt.len + 1)) else []
       let s1 := (s.tgtDrop n j).respond t.pkt n (rspType t.pkt.typ) TStat.ok m.poison data
       if isWriteTy t.pkt.typ then s1.windowWrite n t.win else s1) := by
  simp only [State.zTgtRsp, hj, ht, if_pos h]

theorem zTgtRsp_fails (h : m.status ≠ TStat.ok) : s.zTgtRsp n m = (s.tgtDrop n j).targetFault n t.pkt 0x17 7 t.win (some t.rel) 0 := by
  simp only [State.zTgtRsp, hj, ht, if_neg h]

end

theorem zTgtRsp_late (hj : (s.epbAt n).tgts.findIdx? (fun t => t.ztag == some m.ztag) = none) :
    s.zTgtRsp n m = (s.epbMod n (fun e => { e with lateTags := e.lateTags.filter (fun x => x.1 != m.ztag) })).fsat Fld.epbZarStat_LATE_TGT n 0 1 := by
  simp only [State.zTgtRsp, hj]

theorem zTgtSend_oldest (hi : s.fget Fld.epbZarState_IDENT_OK n = 1)
    (hmax : ((s.epbAt n).tgts.filter (fun t => t.ztag.isSome)).length < s.fget Fld.epbZarState_TGT_MAX n + 1)
    (hj : (s.epbAt n).tgts.findIdx? (fun t => t.laddr.isSome && t.ztag.isNone) = some j) (ht : (s.epbAt n).tgts[j]? = some t) :
    s.zTgtSend n =
      (let z := freeZtag (s.epbAt n).tgts (s.epbAt n).lateTags
       (s.epbMod n (fun e => { e with
         tgts := e.tgts.set j { t with ztag := some z }, lateTags := e.lateTags.filter (fun x => x.1 != z) })).zsend n (tgtMsg t (t.laddr.getD 0) z)) := by
  simp only [State.zTgtSend, if_pos (And.intro hi hmax), hj, ht]

theorem tgtTimeout_due (ht : (s.epbAt n).tgts[j]? = some t) (h : t.arrived + 2400 ≤ s.now) :
    s.tgtTimeout n j = ((s.tgtDrop n j).epbMod n (Epb.awaitLate t)).targetFault n t.pkt 0x0D 7 t.win (some t.rel) 0 := by
  simp only [State.tgtTimeout, ht, if_pos h]

end

/-! ### Heat, waiting requests, walks and prefetches (R35, R76 to R81, R105, R211) -/

theorem heatPeriod_over (h : (s.epbAt n).heatAt + us (10 * (s.epbAt n).heatLen) ≤ s.now) :
    s.heatPeriod n = s.epbMod n (fun e => { e with
      heat := e.heat.map (fun x => (x.1, heatHalve (s.fget Fld.epbHeatCtrl_THRESH n) x.2)),
      heatAt := (s.epbAt n).heatAt + us (10 * (s.epbAt n).heatLen), heatLen := s.fget Fld.epbHeatCtrl_PERIOD n }) :=
  (if_pos h).trans (epbMod_congr rfl)

section
variable {j : Nat} {w : Wait} (hj : (tblGet [] s.waitq n)[j]? = some w) (hc : w.req.cacheable = false)
include hj hc

theorem reissue_held {why : WaitFor} (h : s.heldBy n w.req = some why) :
    s.reissue n j = { s with waitq := tblPut s.waitq n ((tblGet [] s.waitq n).set j { w with why := why }) } := by
  simp only [State.reissue, hj, hc, Bool.false_eq_true, if_false, h]

theorem reissue_issued {k : Nat} (h : s.heldBy n w.req = none)
    (h1 : ({ s with waitq := tblPut s.waitq n ((tblGet [] s.waitq n).eraseIdx j) } : State).heldBy n w.req = none)
    (hk : ({ s with waitq := tblPut s.waitq n ((tblGet [] s.waitq n).eraseIdx j) } : State).freeTag n = some k) :
    s.reissue n j = ({ s with waitq := tblPut s.waitq n ((tblGet [] s.waitq n).eraseIdx j) } : State).issue n w.req k := by
  simp only [State.reissue, hj, hc, Bool.false_eq_true, if_false, h, State.tryIssue, h1, hk]

end

section
variable {j : Nat} {w : Walk} {ext : List Word} (hw : (s.epbAt n).walks[j]? = some w)
include hw

theorem walkComplete_stale (h : w.stale = true) :
    s.walkComplete n j ext = (s.epbMod n (fun e => { e with walks := e.walks.eraseIdx j })).walksAgain n := by
  simp only [State.walkComplete, hw, h, if_true]

/-- The state once the result of walk `j` has been taken: all that waited for its page are answered, and the other misses look again. -/
def walkEnded (s : State) (n j : Nat) (w : Walk) (ext : List Word) : State :=
  (((s.epbMod n (fun e => { e with walks := e.walks.eraseIdx j })).walked w.space (w.page * 2 ^ 16) w.root ext).walkDone n w
    (s.walk w.space (w.page * 2 ^ 16) w.root ext)).walksAgain n

theorem walkComplete_leaf {size : Nat} {leaf : Word} (h : w.stale = false) (hr : s.walk w.space (w.page * 2 ^ 16) w.root ext = .leaf size leaf) :
    s.walkComplete n j ext = walkEnded s n j w ext := by
  simp only [State.walkComplete, hw, h, Bool.false_eq_true, if_false, hr, walkEnded]

theorem walkComplete_demand (h : w.stale = false) (hr : s.walk w.space (w.page * 2 ^ 16) w.root ext ≠ .waits) (hp : w.prefetch = none) :
    s.walkComplete n j ext = walkEnded s n j w ext := by
  simp only [State.walkComplete, hw, h, Bool.false_eq_true, if_false, hp, walkEnded]
  cases hx : s.walk w.space (w.page * 2 ^ 16) w.root ext with
  | waits => exact absurd hx hr
  | _ => rfl

theorem walkComplete_prefetch {v : Visit} (h : w.stale = false) (hr : s.walk w.space (w.page * 2 ^ 16) w.root ext ≠ .waits)
    (hl : ∀ size leaf, s.walk w.space (w.page * 2 ^ 16) w.root ext ≠ .leaf size leaf) (hp : w.prefetch = some v) :
    s.walkComplete n j ext = (walkEnded s n j w ext).epbMod n (Epb.pfStop v) := by
  simp only [State.walkComplete, hw, h, Bool.false_eq_true, if_false, hp, walkEnded]

end

theorem prefetchStart_walks {e off : Nat} {dst : Bool} {v : Mover} (hm : s.mover n e = some v) (h : s.prefetchOk n off dst v = true) :
    s.prefetchStart n e off dst = (s.epbMod n (fun x => { x with walks := x.walks ++
      [{ space := .fas v.fas, page := page64 (v.vaAt off dst), root := s.rd .epbFasW0 n v.fas,
         prefetch := some { mover := e, off := off, dst := dst } }] })).fsat Fld.epbXlatePf_PF n 0 1 := by
  simp only [State.prefetchStart, hm, h, if_true, State.walkRoot]

end
end Sys2Proof.Machine

namespace Sys2Proof.Claims
open Sys2Proof Sys2Proof.Machine

/-- Settles O49: each check of R65 in its order, the cached leaf with and without its right, and the miss. -/
theorem acceleratorRequestsAreCheckedAndSubmitted : Obligations.AcceleratorRequestsAreCheckedAndSubmitted := by
  unfold Obligations.AcceleratorRequestsAreCheckedAndSubmitted
  intro s n m ty i hn ht hi
  have hx : exec i s = .next (s.zRequest n m) := exec_zRequest hn ht hi
  refine ⟨fun c h hc hg => hx.trans (next_of_eq (zRequest_submitted h hc hg)), fun c h hc hr => hx.trans (next_of_eq ?right),
    fun h hc => hx.trans (next_of_eq (zRequest_missed h hc)), fun hv h => hx.trans (next_of_eq (zRequest_malformed hv h)),
    fun hv hh hop hf => hx.trans (next_of_eq ((zRequest_good hv hh hop).trans (zTranslate_refused hf))),
    fun hv => hx.trans (next_of_eq (zRequest_bad_version hv))⟩
  case right => exact (zRequest_cached h hc).trans (zTranslated_no_right (by rw [ht, hr]))

/-- Settles O50: Z_LOAD, the other messages of the accelerator, target messages, heat, waiting requests, walks and prefetches. -/
theorem epbServesItsAccelerator : Obligations.EpbServesItsAccelerator := by
  unfold Obligations.EpbServesItsAccelerator
  intro s n hn
  refine ⟨fun m c ht h hc hg => settled_of_eq ((zArrive_row hn ht (by decide)).trans (zRequest_submitted h hc hg)),
    fun m ht => settled_of_eq (zArrive_row hn ht (by decide)), fun m ht h => ⟨fun hv => ?ident, fun hv => ?version⟩,
    fun m ht h => next_of_eq ((zArrive_row hn ht (by decide)).trans (zIdent_again h)),
    fun m ht => ⟨fun hs hw => next_of_eq ((zArrive_row hn ht (by decide)).trans (zResume_frees hs hw)),
      fun h => next_of_eq ((zArrive_row hn ht (by decide)).trans (zResume_stale h))⟩,
    fun m j t ht hj htg => ⟨fun h => next_of_eq ((zArrive_row hn ht (by decide)).trans (zTgtRsp_ok hj htg h)),
      fun h => next_of_eq ((zArrive_row hn ht (by decide)).trans (zTgtRsp_fails hj htg h))⟩,
    fun m ht hj => next_of_eq ((zArrive_row hn ht (by decide)).trans (zTgtRsp_late hj)),
    fun j t hi hmax hj ht => next_of_eq (zTgtSend_oldest hi hmax hj ht), fun j t ht h => next_of_eq (tgtTimeout_due ht h),
    fun m hz => next_of_eq (zArrive_reserved hn hz), fun h => next_of_eq (heatPeriod_over h), rfl,
    fun j w k hj hc h h1 hk => ⟨next_of_eq (reissue_issued hj hc h h1 hk), next_of_eq (reissue_issued hj hc h h1 hk)⟩,
    fun j w why hj hc h => next_of_eq (reissue_held hj hc h),
    fun j w ext hw => ⟨fun h => next_of_eq (walkComplete_stale hw h), fun h hr hp => next_of_eq (walkComplete_demand hw h hr hp),
      fun size leaf h hr => next_of_eq (walkComplete_leaf hw h hr), fun v h hr hl hp => next_of_eq (walkComplete_prefetch hw h hr hl hp)⟩,
    fun e off dst m hm h => next_of_eq (prefetchStart_walks hm h)⟩
  case ident => exact next_of_eq ((zArrive_row hn ht (by decide)).trans (zIdent_identifies h hv))
  case version => exact next_of_eq ((zArrive_row hn ht (by decide)).trans (zIdent_other_version h hv))

end Sys2Proof.Claims
end

section
/-! PROOFS. The switch core (R164, R175, R176, R181 to R186, R199 to R202) and its mirror ring (R191, R195). -/

namespace Sys2Proof.Machine
open Sys2Proof Sys2Proof.Claims

section
variable {s : State}

/-! ### Ingress (R42, R48, R175) -/

section
variable {k v : Nat} (hl : s.soon writesLimits = false) (hm : s.fget Fld.hubCoppiceCtrl_MODE ≠ 1)
include hl hm

/-- No command of the same cycle comes before the ingress. -/
theorem ingress_goes : ¬ (s.soon writesLimits || (s.fget Fld.hubCoppiceCtrl_MODE == 1 && s.soon endsCopies)) = true := by
  rw [hl, beq_eq_false_iff_ne.2 hm]
  exact Bool.false_ne_true

section
variable {i : Nat} {p : Packet} (hk : k < 128) (hi : (tblGet [] s.inq k).findIdx? (fun p => p.vc == v) = some i)
  (hp : (tblGet [] s.inq k)[i]? = some p)
include hk hi hp

theorem ingress_admitted (ha : s.admits k v (cellsOf p.payload.length) = true) :
    s.ingress k v =
      (({ s with inq := tblPut s.inq k ((tblGet [] s.inq k).eraseIdx i) } : State).writePacket k v 0 false p).retirePosted k p := by
  simp only [State.ingress, if_neg (ingress_goes hl hm), if_pos hk, hi, hp, ha, if_true]

theorem ingress_not_admitted (ha : s.admits k v (cellsOf p.payload.length) = false) : s.ingress k v = s := by
  simp only [State.ingress, if_neg (ingress_goes hl hm), if_pos hk, hi, hp, ha, Bool.false_eq_true, if_false]

end

theorem ingress_optical {p : Packet} {t : List Packet} (hk : 128 ≤ k) (hq : tblGet [] s.inq k = p :: t) :
    s.ingress k v = ({ s with inq := tblPut s.inq k t } : State).ingressOptical (64 + (k - 128) / 32) ((k - 128) % 8) ((k - 128) / 8 % 4) p := by
  simp only [State.ingress, if_neg (ingress_goes hl hm), if_neg (Nat.not_lt.2 hk), hq]

end

section
variable {a chan fib : Nat} {p : Packet}

theorem ingressOptical_response (hr : isRspTy p.typ = true) : s.ingressOptical a chan fib p = s.writePacket a chan fib true p := by
  simp only [State.ingressOptical, hr, Bool.not_true, Bool.false_and, Bool.and_false, Bool.false_eq_true, if_false]

theorem ingressOptical_accepted (hr : isRspTy p.typ = false) (hm : s.fget Fld.hubCoppiceCtrl_MODE ≠ 2) (hf : s.fenceOk p.fence = true) :
    s.ingressOptical a chan fib p = s.writePacket a chan fib true p := by
  simp only [State.ingressOptical, hr, hf, beq_eq_false_iff_ne.2 hm, Bool.not_true, Bool.and_false, Bool.false_and, Bool.false_eq_true, if_false]

theorem ingressOptical_fenced (hr : isRspTy p.typ = false) (hm : s.fget Fld.hubCoppiceCtrl_MODE ≠ 2) (hf : s.fenceOk p.fence = false) :
    s.ingressOptical a chan fib p = s.inject a (s.switchNack (consumeHop p (mkHop a fib 0)) a TStat.fenced) := by
  simp only [State.ingressOptical, hr, hf, beq_eq_false_iff_ne.2 hm, Bool.not_false, Bool.and_self, Bool.false_and, Bool.false_eq_true, if_false, if_true]

end

/-! ### A copy at its egress (R164, R176, R186) -/

/-- A copy with the congestion mark of its egress: a response carries none. -/
def marked (s : State) (c : Copy) : Copy := if isRspTy c.pkt.typ then c else { c with pkt := { c.pkt with cmark := max c.pkt.cmark (s.markOf c) } }

theorem marked_port (c : Copy) : (marked s c).port = c.port := by
  unfold marked
  split <;> rfl

theorem marked_link (c : Copy) : (marked s c).link = c.link := by
  unfold marked
  split <;> rfl

section
variable {c : Copy}

/-- A copy for a unit of this device joins its queue. -/
theorem enqueue_local (hp : c.port < 64 ∨ 96 ≤ c.port) : s.enqueue c = s.joinQueue (marked s c) := by
  have hoptical : ¬ (64 ≤ c.port ∧ c.port < 96) := by omega
  have hmarked : ¬ (64 ≤ (marked s c).port ∧ (marked s c).port < 96) := by rwa [marked_port]
  simp only [State.enqueue, if_neg hoptical]
  exact if_neg hmarked

section
variable (h64 : 64 ≤ c.port) (h96 : c.port < 96) (ho : s.holdOver c.link = false)
include h64 h96 ho

/-- A copy for an optical link, whose hold deadline has not come, goes by the link's state. -/
theorem enqueue_optical :
    s.enqueue c =
      if s.fget Fld.hubLink_STATE c.link = Hub.up then s.joinQueue (marked s c)
      else if s.fget Fld.hubLink_STATE c.link = Hub.hold then
        if s.fget Fld.hubHold_HOLD_LIM * 256 ≤ s.fget Fld.hubLink_HELD c.link then s.freeCopy (marked s c) 3 TStat.portDown
        else (s.egressCells (marked s c) true).setHold c.link (s.holdList c.link ++ [marked s c])
      else s.freeCopy (marked s c) 2 TStat.unreachable := by
  have hoptical : 64 ≤ c.port ∧ c.port < 96 := ⟨h64, h96⟩
  have hmarked : 64 ≤ (marked s c).port ∧ (marked s c).port < 96 := by rwa [marked_port]
  have hstays : s.holdExpire c.link = s := if_neg (ne_true_of_eq_false ho)
  rw [← marked_link (s := s) c]
  simp only [State.enqueue, if_pos hoptical, hstays]
  exact if_pos hmarked

theorem enqueue_up (h : s.fget Fld.hubLink_STATE c.link = Hub.up) : s.enqueue c = s.joinQueue (marked s c) :=
  (enqueue_optical h64 h96 ho).trans (if_pos h)

theorem enqueue_held (h : s.fget Fld.hubLink_STATE c.link = Hub.hold) (hr : s.fget Fld.hubLink_HELD c.link < s.fget Fld.hubHold_HOLD_LIM * 256) :
    s.enqueue c = (s.egressCells (marked s c) true).setHold c.link (s.holdList c.link ++ [marked s c]) :=
  (enqueue_optical h64 h96 ho).trans ((if_neg (by rw [h]; decide)).trans ((if_pos h).trans (if_neg (Nat.not_le.2 hr))))

theorem enqueue_full (h : s.fget Fld.hubLink_STATE c.link = Hub.hold) (hr : s.fget Fld.hubHold_HOLD_LIM * 256 ≤ s.fget Fld.hubLink_HELD c.link) :
    s.enqueue c = s.freeCopy (marked s c) 3 TStat.portDown :=
  (enqueue_optical h64 h96 ho).trans ((if_neg (by rw [h]; decide)).trans ((if_pos h).trans (if_pos hr)))

theorem enqueue_down (hu : s.fget Fld.hubLink_STATE c.link ≠ Hub.up) (hh : s.fget Fld.hubLink_STATE c.link ≠ Hub.hold) :
    s.enqueue c = s.freeCopy (marked s c) 2 TStat.unreachable :=
  (enqueue_optical h64 h96 ho).trans ((if_neg hu).trans (if_neg hh))

end
end

section
variable {i : Nat} {c : Copy} (hi : s.sw.waiting[i]? = some c) (ho : s.coreOff (dieOf c.port) = false)
  (hp : (s.sw.waiting.take i).any (fun x => s.samePair x c) = false)
include hi ho hp

/-- The first waiting copy of its pair looks at the count of its egress. -/
theorem packetEnqueue_first :
    s.packetEnqueue i =
      if s.fget Fld.hubEglim_LIM_EG c.port c.pkt.tc ≤ s.fget Fld.hubEglim_OCC c.port c.pkt.tc then s
      else ({ s with sw := { s.sw with waiting := s.sw.waiting.eraseIdx i } } : State).enqueue c := by
  simp only [State.packetEnqueue, hi, ho, hp, Bool.or_self, Bool.false_eq_true, if_false]

theorem packetEnqueue_waits (h : s.fget Fld.hubEglim_LIM_EG c.port c.pkt.tc ≤ s.fget Fld.hubEglim_OCC c.port c.pkt.tc) : s.packetEnqueue i = s :=
  (packetEnqueue_first hi ho hp).trans (if_pos h)

theorem packetEnqueue_admitted (h : s.fget Fld.hubEglim_OCC c.port c.pkt.tc < s.fget Fld.hubEglim_LIM_EG c.port c.pkt.tc) :
    s.packetEnqueue i = ({ s with sw := { s.sw with waiting := s.sw.waiting.eraseIdx i } } : State).enqueue c :=
  (packetEnqueue_first hi ho hp).trans (if_neg (Nat.not_le.2 h))

end

/-! ### Dispatch and transmission (R181, R185, R199, R201, R202) -/

section
variable {p ecc k : Nat} {u : SubQ} (hf : s.egressFree p = true) (ho : s.coreOff (dieOf p) = false)
include hf ho

theorem egressDispatch_held {l : Nat} {c : Copy} (h : (s.modesTake p).heldHead p = some (l, c)) :
    s.egressDispatch p ecc = (((s.modesTake p).setHold l (((s.modesTake p).holdList l).drop 1)).readOut c).queueSets p := by
  simp only [State.egressDispatch, hf, ho, Bool.not_true, Bool.or_self, Bool.false_eq_true, if_false, h]

section
variable (h : (s.modesTake p).heldHead p = none)
include h

theorem egressDispatch_strict (hs : (s.modesTake p).strict p = true)
    (hb : leastBy (fun a b => strictLt a.1 b.1) ((s.modesTake p).readySubs p) = some (k, u)) :
    s.egressDispatch p ecc = (s.modesTake p).dispatchFrom p k 0 u ecc := by
  simp only [State.egressDispatch, hf, ho, Bool.not_true, Bool.or_self, Bool.false_eq_true, if_false, h, hs, hb, if_true]

theorem egressDispatch_fair {v : Nat} (hs : (s.modesTake p).strict p = false)
    (hb : (s.modesTake p).fairChoice p ((s.modesTake p).readySubs p) = (some (k, u), v)) :
    s.egressDispatch p ecc = (s.modesTake p).dispatchFrom p k v u ecc := by
  simp only [State.egressDispatch, hf, ho, Bool.not_true, Bool.or_self, Bool.false_eq_true, if_false, h, hs, hb]

end
end

theorem exec_egressDispatch {p ecc : Nat} (hp : p < 124) : exec (.egressDispatch p ecc) s = (s.egressDispatch p ecc).settled :=
  congrArg State.settled (if_pos hp)

section
variable {i : Nat} {c : Copy} (hi : s.sw.sending[i]? = some c)
include hi

/-- The state once a copy has been read out, with its cells given back. -/
def readOutDone (s : State) (i : Nat) (c : Copy) : State :=
  (({ s with sw := { s.sw with sending := s.sw.sending.eraseIdx i } } : State).fwrap Fld.telPortW1_OUT_CELLS c.port 0 c.cells).unref c.id

theorem transmitDone_local (hp : c.port < 64 ∨ 96 ≤ c.port) :
    s.transmitDone i =
      (let s2 : State := { readOutDone s i c with delivered := (readOutDone s i c).delivered ++ [(c.port, c.pkt)] }
       if s2.egressFree c.port then s2.modesTake c.port else s2) := by
  have hoptical : (decide (64 ≤ c.port) && decide (c.port < 96)) = false := by
    rw [← Bool.decide_and]
    exact decide_eq_false (by omega)
  simp only [State.transmitDone, hi, hoptical, Bool.false_and, Bool.false_eq_true, if_false]
  rfl

theorem transmitDone_optical (h64 : 64 ≤ c.port) (h96 : c.port < 96) (hq : (s.lk (64 + c.link)).txq.any (fun f => f.copy == c.id) = false) :
    s.transmitDone i = if (readOutDone s i c).egressFree c.port then (readOutDone s i c).modesTake c.port else readOutDone s i c := by
  simp only [State.transmitDone, hi, decide_eq_true h64, decide_eq_true h96, hq, Bool.and_self, Bool.and_false, Bool.false_eq_true, if_false, if_true]
  rfl

end

theorem holdDeadline_over {l : Nat} (hs : s.fget Fld.hubLink_STATE l = Hub.hold)
    (hd : (tblGet ({} : HoldTime) s.sw.holdT l).deadline ≤ s.now) (hr : s.soon (retrains l) = false) :
    s.holdDeadline l = ((s.freeHold l 0).lkMod (64 + l) (Lnk.discard true)).hubSet l Hub.down := by
  have hover : s.holdOver l = true := by rw [State.holdOver, hs, decide_eq_true hd]; rfl
  exact (if_neg (ne_true_of_eq_false hr)).trans (if_pos hover)

/-! ### The mirror ring (R191, R195) -/

theorem mirrorBurst_starts {die : Nat} (hq : tblGet [] s.sw.fifos die ≠ []) (hen : s.fget Fld.hubMirringCtrl_EN ≠ 0) (hf : s.sharedFree 1 ≠ 0) :
    s.mirrorBurst die =
      (let q := tblGet [] s.sw.fifos die
       let ok := s.mirAccept (q.take 4) s.sw.mirNext
       let s1 : State := { s with sw := { s.sw with
         fifos := tblPut s.sw.fifos die (q.drop 4), mirNext := (s.sw.mirNext + ok.length) % 2 ^ 32,
         bursts := s.sw.bursts ++ (if ok.isEmpty then [] else [{ first := s.sw.mirNext, recs := ok }]) } }
       (if ok.isEmpty then s1 else s1.mirrorCell).fsat Fld.hubMirringLost_LOST 0 0 ((q.take 4).length - ok.length)) :=
  if_neg (not_or_intro (ne_true_of_eq_false (isEmpty_of_ne hq)) (not_or_intro hen hf))

theorem mirrorDone_oldest {b : MirBurst} {t : List MirBurst} (h : s.sw.bursts = b :: t) :
    s.mirrorDone = ((({ s with sw := { s.sw with bursts := t } } : State).fdec Fld.hubBufstat_USED 1 0 1).mirStore b.first b.recs).fset
      Fld.hubMirringTail_TAIL 0 0 ((b.first + b.recs.length) % 2 ^ 32) := by
  simp only [State.mirrorDone, h]

section
variable {size wrap : Nat} (hs : size ≤ 14) (hw : wrap < 2)
include hs hw

/-- A control value of the mirror ring that sets EN: its EN, its SIZE and its WRAP. -/
theorem mirrorCtrl_fields :
    bit (BitVec.ofNat 64 ((2 ^ 31 + wrap * 2 ^ 30 + size) % 2 ^ 32)) 31 = true ∧
      bits (BitVec.ofNat 64 ((2 ^ 31 + wrap * 2 ^ 30 + size) % 2 ^ 32)) 3 0 = size ∧
      bits (BitVec.ofNat 64 ((2 ^ 31 + wrap * 2 ^ 30 + size) % 2 ^ 32)) 30 30 = wrap := by
  have hlow : wrap * 2 ^ 30 + size < 2 ^ 31 := by omega
  rw [Nat.mod_eq_of_lt (by omega : 2 ^ 31 + wrap * 2 ^ 30 + size < 2 ^ 32)]
  refine ⟨?_, ?_, ?_⟩
  · rw [bit, BitVec.getLsbD_ofNat, Nat.add_assoc, Nat.testBit_two_pow_add_eq, Nat.testBit_lt_two_pow hlow]
    rfl
  · rw [bits_ofNat _ _ _ (by omega)]
    omega
  · rw [bits_ofNat _ _ _ (by omega)]
    omega

theorem mirrorEnable_starts (hb : s.bound = false) (hr : s.mirRingOk size = true) (hen : s.fget Fld.hubMirringCtrl_EN ≠ 1) :
    s.mirrorEnable (2 ^ 31 + wrap * 2 ^ 30 + size) =
      (((s.fset Fld.hubMirringCtrl_SIZE 0 0 size).fset Fld.hubMirringCtrl_WRAP 0 0 wrap).fset Fld.hubMirringCtrl_EN 0 0 1).mirRestart := by
  obtain ⟨hbit, hsize, hwrap⟩ := mirrorCtrl_fields hs hw
  have hgo : ¬ (s.bound = true ∨ (true : Bool) = false ∨ 14 < size ∨ s.mirRingOk size = false) := by
    rw [hb, hr]
    rintro (h | h | h | h)
    · exact Bool.false_ne_true h
    · exact Bool.false_ne_true h.symm
    · exact absurd hs (Nat.not_le.2 h)
    · exact Bool.false_ne_true h.symm
  simp only [State.mirrorEnable, hbit, hsize, hwrap, if_neg hgo, if_neg hen]

end
end
end Sys2Proof.Machine

namespace Sys2Proof.Claims
open Sys2Proof Sys2Proof.Machine

/-- Settles O51: ingress, enqueue, dispatch, transmission and the hold deadline, and the mirror ring. -/
theorem switchSendsPacketsAndMirrorsRecords : Obligations.SwitchSendsPacketsAndMirrorsRecords := by
  unfold Obligations.SwitchSendsPacketsAndMirrorsRecords
  refine ⟨fun s => ⟨fun hl hm k v i p hk hi hp => ⟨fun ha => next_of_eq (ingress_admitted hl hm hk hi hp ha),
      fun ha => next_of_eq (ingress_not_admitted hl hm hk hi hp ha)⟩, fun hl hm k v p t hk hq => ?optical, fun i c hi ho hp => ?enqueue,
      fun p ecc hp hf ho => ?dispatch, fun i c hi => ?transmit, fun l hs hd hr => next_of_eq (holdDeadline_over hs hd hr)⟩,
    fun s die hq hen hf => next_of_eq (mirrorBurst_starts hq hen hf), fun s b t h => next_of_eq (mirrorDone_oldest h),
    fun s size wrap hb hs hw hr hen => next_of_eq (mirrorEnable_starts hs hw hb hr hen)⟩
  case optical =>
    intro s1 a fib
    have hin : s.ingress k v = s1.ingressOptical a ((k - 128) % 8) fib p := ingress_optical hl hm hk hq
    exact ⟨fun hr => next_of_eq (hin.trans (ingressOptical_response hr)), fun hr h2 hf => next_of_eq (hin.trans (ingressOptical_accepted (s := s1) hr h2 hf)),
      fun hr h2 hf => next_of_eq (hin.trans (ingressOptical_fenced (s := s1) hr h2 hf))⟩
  case enqueue =>
    intro s1 c1 occ
    refine ⟨fun h => next_of_eq (packetEnqueue_waits hi ho hp h), fun h => ?_⟩
    have hin : s.packetEnqueue i = s1.enqueue c := packetEnqueue_admitted hi ho hp h
    exact ⟨fun hport => next_of_eq (hin.trans (enqueue_local hport)), fun h64 h96 hover =>
      ⟨fun hup => next_of_eq (hin.trans (enqueue_up (s := s1) h64 h96 hover hup)),
        fun hh hroom => next_of_eq (hin.trans (enqueue_held (s := s1) h64 h96 hover hh hroom)),
        fun hh hfull => next_of_eq (hin.trans (enqueue_full (s := s1) h64 h96 hover hh hfull)),
        fun hu hh => next_of_eq (hin.trans (enqueue_down (s := s1) h64 h96 hover hu hh))⟩⟩
  case dispatch =>
    intro s1 ready
    exact ⟨fun l c h => (exec_egressDispatch hp).trans (settled_of_eq (egressDispatch_held hf ho h)),
      fun h hs k u hb => (exec_egressDispatch hp).trans (settled_of_eq (egressDispatch_strict hf ho h hs hb)),
      fun h hs k u v hb => (exec_egressDispatch hp).trans (settled_of_eq (egressDispatch_fair hf ho h hs hb))⟩
  case transmit =>
    exact ⟨fun hport => next_of_eq (transmitDone_local hi hport), fun h64 h96 hq => next_of_eq (transmitDone_optical hi h64 h96 hq)⟩

end Sys2Proof.Claims
end
